-- ==== Sys2Proof/Word.lean ====
section
/-!
DEFINITION. The word types of the controller (R13, R18) and their plainest arithmetic.
-/
set_option autoImplicit false

namespace Sys2Proof

/-- A register or table word (R13, R18). -/
abbrev Word := BitVec 32

/-- A 16-bit value: a D register, a heater or trim code, a phase code (R5 to R7, R175). -/
abbrev Half := BitVec 16

/-- A byte of a table image (R18). -/
abbrev Byte := BitVec 8

/-- An engine accumulator (R3). -/
abbrev Acc40 := BitVec 40

/-- Bits `[lo + n - 1 : lo]` of a word as a number. -/
def Word.bits (w : Word) (lo n : Nat) : Nat := w.toNat / 2 ^ lo % 2 ^ n

/-- Bit `i` of a word. -/
def Word.bit (w : Word) (i : Nat) : Bool := w.toNat / 2 ^ i % 2 == 1

end Sys2Proof
end

