-- ==== Sys2Proof/Syntax.lean ====
section
/-!
DEFINITION. The commands that the block takes: one constructor of `Instr` for each row of the table of
operations and events, with what the row needs from outside (a value written, a raw monitor code, a received
message, a reading). The operand types stand before it.
-/
set_option autoImplicit false

namespace Sys2Proof

/-- The crossbar masters M0 to M6 (architecture chapter, "The control hierarchy"). -/
inductive Master where
  | m0 | m1 | m2 | m3 | m4 | m5 | m6
deriving DecidableEq, Repr

/-- Where a syllable is issued: in the slot of element `e` (R166), or on planner engine `p` (R204). -/
inductive Eng where
  | slot (e : Fin 4608)
  | planner (p : Fin 8)
deriving DecidableEq, Repr

/-- One lane's fields of a dual-MAC syllable: accumulator, X and Y operand numbers (R181). -/
structure MacLane where
  acc : Fin 8
  x : Fin 32
  y : Fin 32
deriving DecidableEq, Repr

/-- Rounding modes of R177. -/
inductive Rnd where
  | rne | rtz | rdn | rha
deriving DecidableEq, Repr

/-- The ALU functions of R183; FN 14 and 15 are reserved and have no name. -/
inductive AluFn where
  | add | sub | addu | subu | and | or | xor | min | max | minu | maxu | shl | shr | sra
deriving DecidableEq, Repr

/-- The conditions of CMPSEL and CMPD (R182). -/
inductive Cond where
  | ge | gt | lt | eq
deriving DecidableEq, Repr

/-- The functions of FLOG (R183). -/
inductive FlagFn where
  | and | or | andNot | xor
deriving DecidableEq, Repr

/-- The register files that SETP writes (R183). -/
inductive PtrReg where
  | p | b | l
deriving DecidableEq, Repr

/-- What comes from outside at a tick boundary: the heater outputs that limited during the tick that ends
(R69); the elements in no particular order. -/
structure TickIn where
  limiting : List (Fin 4608)
deriving DecidableEq, Repr

/-- In what bits a sequencer channel's launch command differs from the scheduler's (R254): the launch time as its 80 bits
of seconds and nanoseconds, SEQ, T_SETTLE, and the set of banks with any ARM bit set. -/
structure CmdDiff where
  l : BitVec 80
  seq : Word
  settle : BitVec 10
  banks : BitVec 18
deriving DecidableEq, Repr

/-- One sequencer channel at a vote: whether it presents its values in time, how its launch command differs from the
scheduler's, and the element-state words it alters with the mask of each (R254, R255). -/
structure ChanIn where
  present : Bool
  cmd : CmdDiff
  words : List (Fin 1152 × Word)
deriving DecidableEq, Repr

/-- The three channels at a vote: Iris, Lupin, Phlox. -/
structure VoteIn where
  i : ChanIn
  l : ChanIn
  p : ChanIn
deriving DecidableEq, Repr

/-- A time with its fraction as PTP messages carry it: seconds and quarter-nanoseconds below the second. -/
structure Stamp where
  sec : Nat
  q : Nat
deriving DecidableEq, Repr

/-- The two ports of the cascade (R295). -/
inductive Port where
  | up | dn
deriving DecidableEq, Repr

/-- The SerDes PLLs of R474. -/
inductive Serdes where
  | pcie | eth | glew
deriving DecidableEq, Repr

/-- A PTP port identity: clockIdentity and portNumber. -/
structure PortId where
  clock : BitVec 64
  num : Half
deriving DecidableEq, Repr

/-- A received PTP message (R284 to R286): its versionPTP and minorVersionPTP, whether it came over UDP/IPv4 or Layer 2, the VLAN
identifiers of its 802.1Q tags, logMessageInterval, domain, sender, sequenceId, the two-step flag, the time it carries in whole
nanoseconds, its correctionField in units of 2^-16 ns, whether a response names this port as the requesting one, and the
Announce data set in the order of the data set comparison with stepsRemoved. -/
structure PtpMsg where
  version : Fin 16
  minor : Fin 16
  udp : Bool
  tags : List (BitVec 12)
  logIntv : Int
  domain : Fin 256
  src : PortId
  seqId : Half
  twoStep : Bool
  origin : Nat
  corr : Int
  forUs : Bool
  prio1 : Byte
  quality : Word
  prio2 : Byte
  gm : BitVec 64
  steps : Half
deriving DecidableEq, Repr

/-- A transmission of the port: whether an egress stamp is obtained (R286, R287). -/
structure EgressIn where
  stamped : Bool
deriving DecidableEq, Repr

/-- A received Pdelay_Req, and the transmission of its answer (R284, R287). -/
structure PdelayReqIn where
  msg : PtpMsg
  out : EgressIn
deriving DecidableEq, Repr

/-- A received Ethernet frame with its FCS, and whether the receive buffer had no room for it (R432). -/
structure RxFrame where
  overflow : Bool
  bytes : List Byte
deriving DecidableEq, Repr

/-- A received UDP command datagram (R433 to R437): port, Ethernet source address, IPv4 source address, UDP source port, and the
bytes of its payload. -/
structure UdpMsg where
  port : Fin 2
  mac : BitVec 48
  ip : Word
  udp : Half
  payload : List Byte
deriving DecidableEq, Repr

/-- A word of a write request, with the enable of each of its bytes (R398, R421). -/
structure WrWord where
  v : Word
  be : BitVec 4
deriving DecidableEq, Repr

/-- A register of the function's configuration space that the host writes beside Bus Master Enable: the power management
control and status register, and the device control register (R420, R431). -/
inductive FnReg where
  | pmControl | deviceControl
deriving DecidableEq, Repr

/-- Where a write of words goes: a crossbar address, or a register of the function's configuration space (R399, R420). -/
inductive WrTo where
  | bus (a : Nat)
  | config (r : FnReg)
deriving DecidableEq, Repr

/-- A read request: its master, the crossbar address of its first byte, and its length in bytes (R398, R399). -/
structure ReadReq where
  m : Master
  addr : Nat
  len : Nat
deriving DecidableEq, Repr

/-- What the command engine reads for one ring entry (R425, R426): the entry's words, the frame it points to, and
how the reads were answered: 0 in full, 1 Unsupported Request, 2 Completer Abort, 4 poisoned. -/
structure RingEntry where
  entry : List Word
  frame : List Word
  err : Fin 5
deriving DecidableEq, Repr

/-- A received Glewlink cell (R297): the port it came in on, and its ten words. -/
structure Cell where
  d : Port
  ws : List Word
deriving DecidableEq, Repr

/-- A received TIME cell (R297, R301): its port, its payload words from w1, its CRC word, and by how many tenths of a nanosecond
its comma came after the present CLK_TICK edge. -/
structure TimeCell where
  d : Port
  w : List Word
  crc : Word
  tenths : Fin 40
deriving DecidableEq, Repr

/-- What a housekeeping round measures (R383, R384): the 24 diodes in 0.01 °C, the resistances of the 64 RTDs in 0.1 ohm, and
channels 88 to 127 in mV or mA. -/
structure HkIn where
  diodes : List Int
  rtds : List Nat
  supplies : List Nat
deriving DecidableEq, Repr

/-- A protected memory word (R411, R418): the memory as ECC_LAST.MEM codes it, the copy, the engine of memories 10 to 12, and
its crossbar address, or its address within the memory. -/
structure EccWord where
  mem : Fin 16
  live : Bool
  unit : Fin 128
  addr : Word
deriving DecidableEq, Repr

/-- The words that a scrub pass finds with a single-bit and with a double-bit error (R411 to R413), beside those that the
block's own state lists. -/
structure ScrubIn where
  single : List EccWord
  double : List EccWord
deriving DecidableEq, Repr

/-- A crossbar burst of [1, 32] beats that a master reset cut after `done` of them (R410), with the address of the first beat
that was not carried out. -/
structure Burst where
  target : Fin 10
  read : Bool
  done : Nat
  beats : Nat
  addr : Word
deriving DecidableEq, Repr

/-- What a master reset meets (R403, R410): the number of its transactions that were not granted, and its granted bursts, at most
one for each target. -/
structure MstReset where
  waiting : Nat
  bursts : List Burst
deriving DecidableEq, Repr

/-- A write of GLEW.CFG, and what a reset of M5 meets where the write disables the link (R300, R409). -/
structure GlewCfgIn where
  v : Word
  reset : MstReset
deriving DecidableEq, Repr

/-- A received cell whose CRC is checked, and what a reset of M5 meets where its port leaves RUN (R297, R300, R409). -/
structure CrcCell where
  cell : Cell
  reset : MstReset
deriving DecidableEq, Repr

/-- What the controller samples as it leaves RESET: TMODE, BOOTSEL, CASC_ID (R293, R453, R466), and the core PLL's lock time
in microseconds. -/
structure StrapIn where
  tmode : Bool
  bootsel : BitVec 2
  cascId : BitVec 3
  us : Half
deriving DecidableEq, Repr

/-- Whether the flash answers at the image tried first and at the image tried second (R470), and what the reset of M6 at the end of
BOOT meets (R409). -/
structure BootIn where
  first : Bool
  second : Bool
  m6 : MstReset
deriving DecidableEq, Repr

/-- The commands of the block, one constructor per row of the table. -/
inductive Instr where
  /-- REGISTER_WRITE (R16). -/
  | registerWrite (m : Master) (a : WrTo) (ws : List WrWord)
  /-- ERR_COUNT_CLEAR (R482). -/
  | errCountClear (m : Master) (page : Fin 512) (v : Word)
  /-- LOOP_TICK (R30). -/
  | loopTick (t : TickIn)
  /-- ENGINE_SLOT (R166). -/
  | engineSlot (e : Fin 68) (sl : Fin 72)
  /-- NOP (R182). -/
  | nop (u : Eng) (k : Fin 4) (md : BitVec 2) (a c : MacLane)
  /-- MAC (R182). -/
  | mac (u : Eng) (k : Fin 4) (md : BitVec 2) (a c : MacLane)
  /-- MSU (R182). -/
  | msu (u : Eng) (k : Fin 4) (md : BitVec 2) (a c : MacLane)
  /-- MUL (R182). -/
  | mul (u : Eng) (k : Fin 4) (md : BitVec 2) (a c : MacLane)
  /-- MOVA (R182). -/
  | mova (u : Eng) (k : Fin 4) (md : BitVec 2) (a c : MacLane)
  /-- ADDX (R182). -/
  | addx (u : Eng) (k : Fin 4) (md : BitVec 2) (a c : MacLane)
  /-- AOP (R182). -/
  | aop (u : Eng) (k : Fin 4) (md : BitVec 2) (a c : MacLane)
  /-- SHA (R182). -/
  | sha (u : Eng) (k : Fin 4) (md : BitVec 2) (a c : MacLane)
  /-- FTAPM (R184). -/
  | ftapm (u : Eng) (k : Fin 4) (md : BitVec 2) (a c : MacLane)
  /-- CLAMP (R182). -/
  | clamp (u : Eng) (k : Fin 4) (md : BitVec 2) (a c : MacLane)
  /-- CMPSEL (R188). -/
  | cmpsel (u : Eng) (k : Fin 4) (md : BitVec 2) (a c : MacLane)
  /-- NORM (R187). -/
  | norm (u : Eng) (k : Fin 4) (md : BitVec 2) (a c : MacLane)
  /-- RCP (R186). -/
  | rcp (u : Eng) (k : Fin 4) (md : BitVec 2) (a c : MacLane)
  /-- SATD (R182). -/
  | satd (u : Eng) (k : Fin 4) (md : BitVec 2) (a c : MacLane)
  /-- CONTROL_NOP (R183). -/
  | controlNop (u : Eng)
  /-- LD (R183). -/
  | ld (u : Eng) (d : Fin 32) (p : Fin 8) (m : BitVec 6)
  /-- LDW (R183). -/
  | ldw (u : Eng) (d : Fin 32) (p : Fin 8) (m : BitVec 6)
  /-- LDV (R183). -/
  | ldv (u : Eng) (d : Fin 32) (p : Fin 8) (m : BitVec 6)
  /-- LDA (R183). -/
  | lda (u : Eng) (a : Fin 8) (p : Fin 8) (m : BitVec 6)
  /-- STD (R183). -/
  | std (u : Eng) (d : Fin 32) (p : Fin 8) (m : BitVec 6)
  /-- STW (R183). -/
  | stw (u : Eng) (d : Fin 32) (p : Fin 8) (m : BitVec 6)
  /-- STV (R183). -/
  | stv (u : Eng) (d : Fin 32) (p : Fin 8) (m : BitVec 6)
  /-- STA (R183). -/
  | sta (u : Eng) (a : Fin 8) (p : Fin 8) (m : BitVec 6)
  /-- ST_S (R177). -/
  | stS (u : Eng) (a : Fin 8) (sh : Fin 32) (rm : Rnd) (uns : Bool) (toMem : Bool) (d : Fin 32) (p : Fin 8) (m : BitVec 6)
  /-- MOVI (R183). -/
  | movi (u : Eng) (d : Fin 32) (imm : Half)
  /-- ALU (R183). -/
  | alu (u : Eng) (d x y : Fin 32) (fn : AluFn)
  /-- ALUI (R183). -/
  | alui (u : Eng) (d x : Fin 32) (fn : AluFn) (imm : BitVec 12)
  /-- CMPD (R183). -/
  | cmpd (u : Eng) (f : Fin 8) (cond : Cond) (uns : Bool) (x y : Fin 32)
  /-- FLOG (R183). -/
  | flog (u : Eng) (f : Fin 8) (fn : FlagFn) (fa fb : Fin 8)
  /-- SKIP (R191). -/
  | skip (u : Eng) (f : Fin 8) (neg : Bool) (n : Fin 16) (alw : Bool)
  /-- SETP (R183). -/
  | setp (u : Eng) (reg : PtrReg) (x : Fin 8) (imm : BitVec 12)
  /-- PWLIN (R185). -/
  | pwlin (u : Eng) (d x y : Fin 32) (p : Fin 8)
  /-- PHA (R189). -/
  | pha (u : Eng) (d : Fin 32) (src : Bool) (k : Fin 8)
  /-- OUT (R190). -/
  | out (u : Eng) (dh dt : Fin 32)
  /-- SEL (R183). -/
  | sel (u : Eng) (d x y : Fin 32) (f : Fin 8)
  /-- REP (R204). -/
  | rep (u : Eng) (n : Fin 32) (count : Fin 4097)
  /-- EXTINCTION_CHECK (R114). -/
  | extinctionCheck (e : Fin 4608) (j : Fin 8) (rawA rawB : BitVec 14)
  /-- INPUT_FROZEN (R119). -/
  | inputFrozen (x : Fin 9216)
  /-- DITHER_WINDOW_END (R121). -/
  | ditherWindowEnd (e : Fin 4608)
  /-- BIAS_FAULT (R100). -/
  | biasFault (n : Fin 9)
  /-- TRM_ILIM (R74). -/
  | trmIlim (e : Fin 4608)
  /-- METER_MILLISECOND (R249). -/
  | meterMillisecond
  /-- FRAME_ADMISSION (R241). -/
  | frameAdmission
  /-- ROUTE_SOLVE (R52). -/
  | routeSolve
  /-- ROUTE_SOLVE_DONE (R53). -/
  | routeSolveDone
  /-- PLAN_START (R207). -/
  | planStart
  /-- PLAN_COMPLETE (R209). -/
  | planComplete
  /-- SEQUENCER_VOTE (R255). -/
  | sequencerVote (c : VoteIn)
  /-- COMPARATOR_MATCH (R272). -/
  | comparatorMatch
  /-- DELIVERY_WINDOW_CLOSE (R224). -/
  | deliveryWindowClose
  /-- COMPLETION_EVENT (R260). -/
  | completionEvent
  /-- SCHED_CANCEL (R251). -/
  | schedCancel (v : Word)
  /-- BUDGET_WRITE (R243). -/
  | budgetWrite (v : Word)
  /-- RETIRE_CLR (R257). -/
  | retireClr (v : Word)
  /-- FABRIC_COMMIT (R46). -/
  | fabricCommit (v : Word)
  /-- ROUTE_COMMIT (R56). -/
  | routeCommit (v : Word)
  /-- ROUTE_TRY (R62). -/
  | routeTry (v : Word)
  /-- PLAN_COMMIT_XT (R230). -/
  | planCommitXt
  /-- PLAN_COMMIT_STEP (R230). -/
  | planCommitStep
  /-- LCLASS_COMMIT (R163). -/
  | lclassCommit (v : Word)
  /-- SNS_COMMIT_OFS (R127). -/
  | snsCommitOfs (n : Fin 9)
  /-- SNS_COMMIT_RTD (R127). -/
  | snsCommitRtd
  /-- PROG_COMMIT (R195). -/
  | progCommit
  /-- TABLE_WRITE (R45). -/
  | tableWrite (m : Master) (a : Nat) (bytes : List (Option Byte))
  /-- CONTEXT_WRITE (R133). -/
  | contextWrite (m : Master) (a : Nat) (bytes : List (Option Byte))
  /-- XT_CRC_DONE (R231). -/
  | xtCrcDone
  /-- XT_SH_WRITE (R244). -/
  | xtShWrite (v : Word)
  /-- EPS_LOCK_WRITE (R227). -/
  | epsLockWrite (v : Word)
  /-- DLOG_RP_WRITE (R229). -/
  | dlogRpWrite (v : Word)
  /-- DLOG_LOST_CLEAR (R232). -/
  | dlogLostClear
  /-- OPEN (R157). -/
  | openLoops (scope : Fin 4) (target : BitVec 13)
  /-- CLOSE (R157). -/
  | closeLoops (scope : Fin 4) (target : BitVec 13)
  /-- PARK (R157). -/
  | park (scope : Fin 4) (target : BitVec 13)
  /-- LCLASS_FIRST_CLEAR (R165). -/
  | lclassFirstClear
  /-- DIAG_CLEAR (R206). -/
  | diagClear (e : Fin 68)
  /-- RAIL_CHANGE (R71). -/
  | railChange (n : Fin 18) (v : Word)
  /-- SPAN_WRITE (R75). -/
  | spanWrite (n : Fin 18) (x : Fin 8) (v : Word)
  /-- SPAN_SWITCH (R76). -/
  | spanSwitch (e : Fin 4608)
  /-- SPAN_SEQUENCE_DONE (R76). -/
  | spanSequenceDone (n : Fin 18)
  /-- DRV_EN_WRITE (R86). -/
  | drvEnWrite (n : Fin 18) (v : Word)
  /-- REARM (R89). -/
  | rearm (n : Fin 18)
  /-- MTR_PEAK_CLEAR (R97). -/
  | mtrPeakClear (n : Fin 18)
  /-- HOST_CODE_WRITE (R93). -/
  | hostCodeWrite (n : Fin 18) (row : Fin 256) (v : Word)
  /-- LAUNCH_SHADOW_WRITE (R82). -/
  | launchShadowWrite (m : Master) (n : Fin 18) (off : BitVec 12) (v : Word)
  /-- CLR_N_ASSERT (R88). -/
  | clrNAssert
  /-- PD_BIAS_CHANGE (R99). -/
  | pdBiasChange (n : Fin 9) (v : Word)
  /-- SNS_FIRST_CLEAR (R128). -/
  | snsFirstClear (n : Fin 9)
  /-- TIME_CFG_WRITE (R269). -/
  | timeCfgWrite (v : Word)
  /-- INCR_WRITE (R267). -/
  | incrWrite (v : Word)
  /-- SET_GO (R277). -/
  | setGo (v : Word)
  /-- ADJ (R277). -/
  | adj (v : Word)
  /-- DEFERRED_STEP (R274). -/
  | deferredStep
  /-- PAUSE_CLR (R276). -/
  | pauseClr
  /-- NOW_NS_READ (R268). -/
  | nowNsRead (x : ReadReq)
  /-- PPS_IN_EDGE (R288). -/
  | ppsInEdge
  /-- PPS_TIMEOUT (R282). -/
  | ppsTimeout
  /-- PPS_OUT_RISE (R289). -/
  | ppsOutRise
  /-- PPS_OUT_FALL (R289). -/
  | ppsOutFall
  /-- SYNC (R278). -/
  | sync (p : Fin 2) (x : PtpMsg)
  /-- FOLLOW_UP (R284). -/
  | followUp (p : Fin 2) (x : PtpMsg)
  /-- DELAY_RESP (R284). -/
  | delayResp (p : Fin 2) (x : PtpMsg)
  /-- PDELAY_REQ (R284). -/
  | pdelayReq (p : Fin 2) (x : PdelayReqIn)
  /-- PDELAY_RESP (R284). -/
  | pdelayResp (p : Fin 2) (x : PtpMsg)
  /-- PDELAY_RESP_FOLLOW_UP (R284). -/
  | pdelayRespFollowUp (p : Fin 2) (x : PtpMsg)
  /-- PDELAY_REQ_INTERVAL (R292). -/
  | pdelayReqInterval (p : Fin 2) (x : EgressIn)
  /-- ANNOUNCE (R285). -/
  | announce (p : Fin 2) (x : PtpMsg)
  /-- ANNOUNCE_RECEIPT_TIMEOUT (R282). -/
  | announceReceiptTimeout (p : Fin 2)
  /-- PTP_PORT_RECOVER (R287). -/
  | ptpPortRecover (p : Fin 2)
  /-- ARP_REQUEST (R432). -/
  | arpRequest (p : Fin 2) (ip : Word)
  /-- ICMP_ECHO (R432). -/
  | icmpEcho (p : Fin 2) (ip : Word) (data : List Byte)
  /-- SCHEDULE (R439). -/
  | schedule (x : UdpMsg)
  /-- CANCEL (R439). -/
  | cancel (x : UdpMsg)
  /-- QUERY_SUMMARY (R439). -/
  | querySummary (x : UdpMsg)
  /-- QUERY_FRAME (R439). -/
  | queryFrame (x : UdpMsg)
  /-- SUBSCRIBE (R441). -/
  | subscribe (x : UdpMsg)
  /-- UNSUBSCRIBE (R441). -/
  | unsubscribe (x : UdpMsg)
  /-- SUB_EXPIRED (R441). -/
  | subExpired (x : Fin 4)
  /-- TELEMETRY_SUMMARY (R441). -/
  | telemetrySummary (x : Fin 4)
  /-- ETH_LINK_LOSS (R434). -/
  | ethLinkLoss (p : Fin 2) (x : MstReset)
  /-- ETH_CFG_WRITE (R434). -/
  | ethCfgWrite (p : Fin 2) (v : Word) (x : MstReset)
  /-- CMD_TAIL_WRITE (R424). -/
  | cmdTailWrite (v : Word)
  /-- CMD_ENTRY_FETCH (R425). -/
  | cmdEntryFetch (x : RingEntry)
  /-- CMD_CFG_WRITE (R426). -/
  | cmdCfgWrite (v : Word)
  /-- COMPLETION_RECORD_WRITE (R429). -/
  | completionRecordWrite
  /-- CPL_SIGNAL_HOLDOFF_END (R429). -/
  | cplSignalHoldoffEnd
  /-- CPL_RP_WRITE (R429). -/
  | cplRpWrite (v : Word)
  /-- ACQ_STREAM_COPY (R430). -/
  | acqStreamCopy (ok : Bool)
  /-- PCIE_LINK_DOWN (R431). -/
  | pcieLinkDown (x : MstReset)
  /-- PCIE_HOT_RESET (R431). -/
  | pcieHotReset (x : MstReset)
  /-- FUNCTION_LEVEL_RESET (R431). -/
  | functionLevelReset (x : MstReset)
  /-- BUS_MASTER_DISABLE (R431). -/
  | busMasterDisable
  /-- MSIX_HOLDOFF_END (R349). -/
  | msixHoldoffEnd (vec : Fin 32)
  /-- QSPI_READ (R443). -/
  | qspiRead
  /-- QSPI_PROGRAM (R443). -/
  | qspiProgram
  /-- ERASE4K (R443). -/
  | erase4k
  /-- ERASE64K (R443). -/
  | erase64k
  /-- QSPI_OP_DONE (R443). -/
  | qspiOpDone (ok : Bool)
  /-- I2C_WRITE (R444). -/
  | i2cWrite (bytes : List Byte)
  /-- I2C_READ (R445). -/
  | i2cRead (n : Nat)
  /-- I2C_TIMEOUT (R444). -/
  | i2cTimeout
  /-- EXTEST (R446). -/
  | extest
  /-- IDCODE (R446). -/
  | idcode
  /-- SAMPLE_PRELOAD (R446). -/
  | samplePreload (pins load : BitVec 35)
  /-- HIGHZ (R446). -/
  | highz
  /-- JTAG_CLAMP (R446). -/
  | jtagClamp
  /-- BYPASS (R446). -/
  | bypass
  /-- TAP_RESET (R509). -/
  | tapReset
  /-- GLEW_CFG_WRITE (R319). -/
  | glewCfgWrite (x : GlewCfgIn)
  /-- LINK_LOCK_RETRY (R300). -/
  | linkLockRetry (d : Port)
  /-- LANE_ALIGN (R300). -/
  | laneAlign (d : Port)
  /-- DESKEW_DONE (R300). -/
  | deskewDone (d : Port)
  /-- ID_CELL (R300). -/
  | idCell (x : Cell)
  /-- MEASURE_DONE (R300). -/
  | measureDone (d : Port)
  /-- BIT_LOCK_LOSS (R300). -/
  | bitLockLoss (d : Port) (x : MstReset)
  /-- TIME_CELL (R301). -/
  | timeCell (x : TimeCell)
  /-- GLEW_OFFSET_UPDATE (R302). -/
  | glewOffsetUpdate
  /-- STATUS_CELL (R305). -/
  | statusCell (x : Cell)
  /-- MEMBER_LOST (R314). -/
  | memberLost (k : Fin 8)
  /-- FRAME_CELL (R307). -/
  | frameCell (x : Cell)
  /-- STATES (R307). -/
  | states (x : Cell)
  /-- NOCHANGE (R307). -/
  | nochange (x : Cell)
  /-- READY (R310). -/
  | ready (x : Cell)
  /-- READY_TIMEOUT (R310). -/
  | readyTimeout
  /-- COMMIT (R311). -/
  | commitCell (x : Cell)
  /-- ABORT (R311). -/
  | abortCell (x : Cell)
  /-- SUMMARY (R313). -/
  | summary (x : Cell)
  /-- EVENT_CELL (R317). -/
  | eventCell (x : Cell)
  /-- LEDGER (R306). -/
  | ledger (x : Cell)
  /-- CTRL_PAUSE_CLR (R304). -/
  | ctrlPauseClr (x : Cell)
  /-- TRIG_ARM (R342). -/
  | trigArm (x : Cell)
  /-- TRIG_FIRE (R342). -/
  | trigFire (x : Cell)
  /-- MEVT_READ (R317). -/
  | mevtRead (m : Master)
  /-- ACQ_RUN (R330). -/
  | acqRun
  /-- ACQ_STOP (R330). -/
  | acqStop
  /-- ACQ_RP_WRITE (R331). -/
  | acqRpWrite (v : Word)
  /-- ACQ_FLUSH (R325). -/
  | acqFlush (c : Fin 32)
  /-- ACQ_RESUME (R332). -/
  | acqResume
  /-- SYNC_RECORD (R328). -/
  | syncRecord
  /-- ARM (R339). -/
  | arm
  /-- DISARM (R339). -/
  | disarm
  /-- FORCE (R334). -/
  | force
  /-- ARM_INSTANT (R342). -/
  | armInstant
  /-- TRIGGER_TRANSITION (R337). -/
  | triggerTransition
  /-- TIMER_DONE (R337). -/
  | timerDone (x : Fin 4)
  /-- TRIG_PIN_EDGE (R338). -/
  | trigPinEdge (rising : Bool)
  /-- TRIG_PULSE_END (R340). -/
  | trigPulseEnd
  /-- WINDOW_END (R340). -/
  | windowEnd
  /-- MEAS_DONE (R341). -/
  | measDone (c : Fin 32)
  /-- EVENT_LATCH_CLEAR (R348). -/
  | eventLatchClear (m : Master) (a : Nat) (v : Word)
  /-- EVT_CNT_CLR (R376). -/
  | evtCntClr
  /-- EVT_FORCE (R374). -/
  | evtForce (page : Fin 512) (v : Word)
  /-- REACT_TABLE_WRITE (R352). -/
  | reactTableWrite (w : Fin 288) (v : Word)
  /-- REACT_LOCK (R352). -/
  | reactLock
  /-- FCAP_CLEAR (R353). -/
  | fcapClear
  /-- ALIVE_TOGGLE (R356). -/
  | aliveToggle
  /-- WATCHDOG (R357). -/
  | watchdog
  /-- KICK (R357). -/
  | kick (v : Word)
  /-- ALIVE_CFG_WRITE (R357). -/
  | aliveCfgWrite (v : Word)
  /-- CHECK_WINDOW_START (R358). -/
  | checkWindowStart
  /-- COMPARE_PHASE_START (R359). -/
  | comparePhaseStart
  /-- CONFIRMATION_START (R361). -/
  | confirmationStart
  /-- CONFIRMATION_END (R361). -/
  | confirmationEnd
  /-- SELFTEST_SEGMENT_END (R364). -/
  | selftestSegmentEnd (e : Fin 68) (agree : Bool)
  /-- CHK_MIGRATE (R365). -/
  | chkMigrate (v : Word)
  /-- NVM_WRITE_DONE (R370). -/
  | nvmWriteDone (ok : Bool)
  /-- NVM_COUNTER_WRITE (R371). -/
  | nvmCounterWrite
  /-- KEY_PROG (R372). -/
  | keyProg (v : Word)
  /-- ENG_FLIP (R382). -/
  | engFlip (v : Word)
  /-- SEQ_FLIP (R382). -/
  | seqFlip (v : Word)
  /-- ECC_INJECT (R382). -/
  | eccInject (v : Word)
  /-- ADC_HOLD (R382). -/
  | adcHold (v : Word)
  /-- ST_FAIL (R382). -/
  | stFail (v : Word)
  /-- HOUSEKEEPING_ROUND (R383). -/
  | housekeepingRound (x : HkIn)
  /-- SHUT_CLR (R392). -/
  | shutClr
  /-- SENSOR_REINCLUDE (R386). -/
  | sensorReinclude (x : Fin 3) (v : Word)
  /-- SCRUB_PASS (R413). -/
  | scrubPass (x : ScrubIn)
  /-- ECC_WRITEBACK (R411). -/
  | eccWriteback
  /-- XBAR_CLEAR_ORPHAN (R418). -/
  | xbarClearOrphan
  /-- XBAR_CLEAR_DEC (R418). -/
  | xbarClearDec
  /-- XBAR_CLEAR_ECC (R418). -/
  | xbarClearEcc
  /-- MON_CLEAR (R417). -/
  | monClear (v : Word)
  /-- MODE_REQ_IDLE (R455). -/
  | modeReqIdle
  /-- MODE_REQ_CALIBRATE (R455). -/
  | modeReqCalibrate
  /-- MODE_REQ_OPEN_HOLD (R455). -/
  | modeReqOpenHold
  /-- MODE_REQ_TRACK (R455). -/
  | modeReqTrack
  /-- MODE_REQ_SAFE (R455). -/
  | modeReqSafe
  /-- MODE_REQ_OTHER (R455). -/
  | modeReqOther (code : BitVec 4)
  /-- FREEZE_N_FALL (R458). -/
  | freezeNFall
  /-- FREEZE_N_RISE (R460). -/
  | freezeNRise
  /-- SOFT_RESET (R462). -/
  | softReset
  /-- SOFT_RESET_END (R462). -/
  | softResetEnd (x : StrapIn)
  /-- POWER_ON_RESET (R461). -/
  | powerOnReset
  /-- POWER_ON_RESET_RELEASE (R499). -/
  | powerOnResetRelease
  /-- RESET_N_ASSERT (R461). -/
  | resetNAssert
  /-- RESET_N_RELEASE (R461). -/
  | resetNRelease
  /-- REFCLK_LOSS (R461). -/
  | refclkLoss
  /-- CORE_PLL_LOCK_LOSS (R461). -/
  | corePllLockLoss
  /-- CORE_PLL_LOCK (R461). -/
  | corePllLock (x : StrapIn)
  /-- SERDES_PLL_LOCK (R474). -/
  | serdesPllLock (k : Serdes)
  /-- BOOT_SELFTEST_DONE (R366). -/
  | bootSelftestDone (failed : List (Fin 68))
  /-- BOOT_COMPLETE (R467). -/
  | bootComplete (x : BootIn)
  /-- CLR_N_RELEASE (R89). -/
  | clrNRelease
  /-- ETH_LINK_UP (R287). -/
  | ethLinkUp (p : Fin 2)
  /-- PCIE_LINK_UP (R536). -/
  | pcieLinkUp (speed : BitVec 3) (width : BitVec 3)
  /-- SERDES_PLL_LOCK_LOSS (R474). -/
  | serdesPllLockLoss (k : Serdes)
  /-- REFCLK_PRESENT (R461). -/
  | refclkPresent
  /-- BUS_MASTER_ENABLE (R431). -/
  | busMasterEnable
  /-- COMPLETION_TIMEOUT (R426). -/
  | completionTimeout
  /-- CELL_CRC (R297). -/
  | cellCrc (x : CrcCell) (isTime : Bool)
  /-- DISCARDED_FRAME (R432). -/
  | discardedFrame (p : Fin 2) (x : RxFrame)
  /-- REJECTED_MESSAGE (R437). -/
  | rejectedMessage (x : UdpMsg)
  /-- DELAY_REQ (R284). -/
  | delayReq (p : Fin 2) (x : EgressIn)
  /-- AER_ERROR (R448). -/
  | aerError (correctable : Bool)
deriving DecidableEq, Repr

end Sys2Proof
end

