-- ==== Sys2Proof/Config.lean ====
section
/-!
DEFINITION. What the spec leaves open or leaves to the part: free values, each an opaque constant, so that no
statement can rest on a number.
-/
set_option autoImplicit false

namespace Sys2Proof.Config

/-- The bytes of the standard loop program in ROM, by offset in the program window (R196, R200): not printed.
(DESIGN CHOICE, log 9). -/
opaque romByte : Nat → Byte

/-- BOOT_ID of the n-th draw of the entropy source (R436). (DESIGN CHOICE, log 10). -/
opaque bootId : Nat → Word

/-- The signature of a self-test segment of an engine (R364): not printed. -/
opaque selfTestSig : Nat → Nat → Word

/-- How many bundles of a slot of program 3.2 are not suppressed, by slot: the count is steady from tick to tick (R200, R416)
and not printed. (DESIGN CHOICE, log 16). -/
opaque romBundles : Nat → Nat

/-- The same count for the self-test sequence of a standby (R364). (DESIGN CHOICE, log 16). -/
opaque testBundles : Nat → Nat

/-- The words of the planner firmware in ROM (R205, R467). (DESIGN CHOICE, log 9). -/
opaque plannerRom : Nat → Word

/-- The exponential ROM of R218: U0.16 value for a length and a time constant in nanoseconds, before it is
held to its error bound. (DESIGN CHOICE, log 13). -/
opaque expRom : Nat → Nat → Nat

/-- The fraction of a unit below the reference path's last place (R218), by element and interval.
(DESIGN CHOICE, log 14). -/
opaque xrefLow : Nat → Nat → Nat

/-- Bytes of the factory region IDENT of the NVM (R368). (DESIGN CHOICE, log 9). -/
opaque identByte : Nat → Byte

/-- The MAC address of an Ethernet port, which stands in IDENT at a place the spec does not give (R450, R493).
(DESIGN CHOICE, log 9). -/
opaque macAddress : Nat → BitVec 48

/-- The count of NORM for the value -1, which no count of its range brings into its interval (R187): 30 or 31.
(DESIGN CHOICE, log 11). -/
opaque normMinusOne : Bool

/-- The tone accumulator that PHA with SRC = 1 reads on a planner engine, which has no PAR word (R189, R204).
(DESIGN CHOICE, log 151). -/
opaque plannerTone : Fin 8 → Fin 8

/-- The silicon revision (R445, R446): not printed. -/
opaque siliconRev : Fin 16

/-- A value the spec leaves open, by the number of open values taken before it. (DESIGN CHOICE, log 8). -/
opaque freeValue : Nat → Word

end Sys2Proof.Config
end

