-- ==== Sys2Proof/Machine/Num.lean ====
section
/-!
DEFINITION. Arithmetic that several blocks share: saturation, the rounding of R4, sign extension, clamping, and the
CRC-32 of R43.
-/
set_option autoImplicit false

namespace Sys2Proof.Machine

/-- `n / d` rounded to nearest, ties to even (R4); `d` is positive. -/
def rne (n : Int) (d : Nat) : Int :=
  let q := n / (d : Int)
  let r := n % (d : Int)
  if 2 * r < (d : Int) then q
  else if (d : Int) < 2 * r then q + 1
  else if q % 2 = 0 then q else q + 1

/-- The larger of `lo` and the smaller of `hi` and `x`. -/
def clampI (lo hi x : Int) : Int := max lo (min hi x)

/-- Saturation to S16 (R4). -/
def satS16 (x : Int) : Int := clampI (-32768) 32767 x

/-- Saturation to U16. -/
def satU16 (x : Int) : Int := clampI 0 65535 x

/-- Saturation to S32. -/
def satS32 (x : Int) : Int := clampI (-2147483648) 2147483647 x

/-- Saturation to the 40-bit accumulator range (R176). -/
def satA (x : Int) : Int := clampI (-549755813888) 549755813887 x

/-- A 16-bit value from an integer, modulo 2^16. -/
def toHalf (x : Int) : Half := BitVec.ofInt 16 x

/-- Bits `[lo + n - 1 : lo]` of a natural number. -/
def natBits (x lo n : Nat) : Nat := x / 2 ^ lo % 2 ^ n

/-- The two's-complement reading of the low `n` bits of `x`. -/
def sext (n x : Nat) : Int :=
  let m := x % 2 ^ n
  if m < 2 ^ (n - 1) then (m : Int) else (m : Int) - (2 ^ n : Nat)

/-- The natural number whose low `n` bits are the two's complement of `x`. -/
def toBits (n : Nat) (x : Int) : Nat := (x % ((2 ^ n : Nat) : Int)).toNat

/-- A quotient rounded up. -/
def ceilDiv (n d : Nat) : Nat := (n + d - 1) / d

/-- A rational rounded to the nearest integer, ties to even (R4). -/
def ratRne (x : Rat) : Int := rne x.num x.den

/-- One bit of the CRC-32 of R43. -/
def crcBit (c : Nat) : Nat := if c % 2 = 1 then (c / 2) ^^^ 0xEDB88320 else c / 2

/-- One byte of the CRC-32 of R43. -/
def crcByte (c : Nat) (x : Byte) : Nat :=
  crcBit (crcBit (crcBit (crcBit (crcBit (crcBit (crcBit (crcBit (c ^^^ x.toNat))))))))

/-- The CRC-32 of R43 over bytes in address order. -/
def crc32 (bs : List Byte) : Nat := (bs.foldl crcByte 0xFFFFFFFF) ^^^ 0xFFFFFFFF

/-- The four bytes of a word, least significant first (R18). -/
def wordBytes (w : Word) : List Byte :=
  [BitVec.ofNat 8 w.toNat, BitVec.ofNat 8 (w.toNat / 256), BitVec.ofNat 8 (w.toNat / 65536),
   BitVec.ofNat 8 (w.toNat / 16777216)]

/-- The words of a byte string, least significant byte first; a last part below four bytes is dropped. -/
def bytesWords : List Byte → List Word
  | a :: b :: c :: d :: t =>
    BitVec.ofNat 32 (a.toNat + 256 * b.toNat + 65536 * c.toNat + 16777216 * d.toNat) :: bytesWords t
  | _ => []

/-- Counting up to a limit (the saturating counts of the field tables). -/
def satInc (limit n : Nat) : Nat := if n < limit then n + 1 else limit

end Sys2Proof.Machine
end

