-- ==== Sys2Proof/Machine/Flags.lean ====
section
/-!
DEFINITION. The datapath's arithmetic without its memory: rounding stores (R177), alignment (R175), the special
operations RCP and NORM (R186, R187), comparisons, flag functions and the ALU (R183).
-/
set_option autoImplicit false

namespace Sys2Proof.Machine

/-- The signed value of an accumulator (R3). -/
def accI (x : Acc40) : Int := x.toInt

/-- An accumulator holding `n`, saturated (R176). -/
def accOf (n : Int) : Acc40 := BitVec.ofInt 40 (satA n)

/-- `n` lies outside the accumulator range, so that storing it saturates (R176). -/
def accOver (n : Int) : Bool := decide (satA n ≠ n)

/-- The operand X of a lane: unsigned where UX is 1, signed otherwise (R175). -/
def xVal (ux : Bool) (x : Half) : Int := if ux then (x.toNat : Int) else x.toInt

/-- FRAC of a modifier (R182). -/
def mdFrac (md : BitVec 2) : Bool := md.toNat / 2 == 1
/-- UX of a modifier (R182). -/
def mdUx (md : BitVec 2) : Bool := md.toNat % 2 == 1

/-- The aligned product X × Y (R175). -/
def product (md : BitVec 2) (x y : Half) : Int :=
  xVal (mdUx md) x * y.toInt * (if mdFrac md then 2 else 1)

/-- A D value aligned for an accumulator (R175). -/
def aligned (md : BitVec 2) (x : Half) : Int := xVal (mdUx md) x * (if mdFrac md then 65536 else 1)

/-- `n / 2^sh` rounded by the mode (R177); with shift 0 no rounding occurs. -/
def roundShift (rm : Rnd) (n : Int) (sh : Nat) : Int :=
  let d : Nat := 2 ^ sh
  match rm with
  | .rne => rne n d
  | .rtz => if 0 ≤ n then n / (d : Int) else -((-n) / (d : Int))
  | .rdn => n / (d : Int)
  | .rha => if 0 ≤ n then (2 * n + (d : Int)) / (2 * (d : Int)) else -((2 * (-n) + (d : Int)) / (2 * (d : Int)))

/-- The saturating store of R177. -/
def satStore (rm : Rnd) (uns : Bool) (n : Int) (sh : Nat) : Half :=
  let r := roundShift rm n sh
  toHalf (if uns then satU16 r else satS16 r)

/-- An accumulator value shifted left by `k`, or right towards minus infinity where `k` is negative (R182). -/
def shiftA (n : Int) (k : Int) : Int :=
  if 0 ≤ k then n * (2 ^ k.toNat : Nat) else n / ((2 ^ (-k).toNat : Nat) : Int)

/-- The reciprocal of R186: the accumulator value and whether the operand is not normalised. -/
def rcp (x : Half) : Int × Bool :=
  let v := x.toInt
  let s : Int := if v < 0 then -1 else 1
  let m := v.natAbs
  if m = 32768 then (s * 2147483648, false)
  else if m < 16384 then (s * 549755813887, true)
  else
    let i := m / 256 % 64
    let q0 := rne 4194304 (129 + 2 * i)
    let e0 := 1073741824 - (m : Int) * q0
    (s * rne (q0 * e0) 4096, false)

/-- The shift count of NORM (R187). (DESIGN CHOICE, log 11). -/
def normCount (n : Int) : Int :=
  if n = 0 then 0
  else if 0 < n then 30 - (n.toNat.log2 : Int)
  else if n = -1 then (if Config.normMinusOne then 31 else 30)
  else 30 - (((-n).toNat - 1).log2 : Int)

/-- A comparison of R182 on integers. -/
def condHolds (c : Cond) (x y : Int) : Bool :=
  match c with
  | .ge => decide (y ≤ x) | .gt => decide (y < x) | .lt => decide (x < y) | .eq => decide (x = y)

/-- The condition of a modifier (R182). -/
def condOf (md : BitVec 2) : Cond :=
  match md.toNat with
  | 0 => .ge | 1 => .gt | 2 => .lt | _ => .eq

/-- A flag function of R183. -/
def flagEval (f : FlagFn) (x y : Bool) : Bool :=
  match f with
  | .and => x && y | .or => x || y | .andNot => x && !y | .xor => x ^^ y

/-- An ALU function of R183. The shift count is the low 4 bits of the second operand. -/
def aluEval (f : AluFn) (x y : Half) : Half :=
  match f with
  | .add => toHalf (satS16 (x.toInt + y.toInt))
  | .sub => toHalf (satS16 (x.toInt - y.toInt))
  | .addu => toHalf (satU16 ((x.toNat : Int) + y.toNat))
  | .subu => toHalf (satU16 ((x.toNat : Int) - y.toNat))
  | .and => x &&& y
  | .or => x ||| y
  | .xor => x ^^^ y
  | .min => if x.toInt ≤ y.toInt then x else y
  | .max => if x.toInt ≤ y.toInt then y else x
  | .minu => if x.toNat ≤ y.toNat then x else y
  | .maxu => if x.toNat ≤ y.toNat then y else x
  | .shl => x <<< (y.toNat % 16)
  | .shr => x >>> (y.toNat % 16)
  | .sra => x.sshiftRight (y.toNat % 16)

end Sys2Proof.Machine
end

