-- ==== Sys2Proof/Machine/Tbl.lean ====
section
/-!
DEFINITION. Sparse tables in one canonical form: keys strictly rise, and no entry holds the value that an
unlisted key reads as. Memories, register fields, element records and accumulators all use them.
-/
set_option autoImplicit false

namespace Sys2Proof.Machine

/-- A sparse table: strictly rising keys, each with its value. -/
abbrev Tbl (β : Type) := List (Nat × β)

/-- The listed value of key `k`, if there is one. -/
def Tbl.find {β : Type} : Tbl β → Nat → Option β
  | [], _ => none
  | (j, v) :: t, k => if k = j then some v else Tbl.find t k

/-- The table with `v` listed for `k`, kept in order. -/
def Tbl.put {β : Type} : Tbl β → Nat → β → Tbl β
  | [], k, v => [(k, v)]
  | (j, w) :: t, k, v =>
    if k < j then (k, v) :: (j, w) :: t
    else if k = j then (k, v) :: t
    else (j, w) :: Tbl.put t k v

/-- The table without an entry for `k`. -/
def Tbl.del {β : Type} : Tbl β → Nat → Tbl β
  | [], _ => []
  | (j, w) :: t, k => if k = j then Tbl.del t k else (j, w) :: Tbl.del t k

/-- The value of key `k`, where an unlisted key reads `d`. -/
def Tbl.get {β : Type} (t : Tbl β) (d : β) (k : Nat) : β := (t.find k).getD d

/-- The table in which `k` reads `v`, where an unlisted key reads `d`. -/
def Tbl.set {β : Type} [DecidableEq β] (t : Tbl β) (d : β) (k : Nat) (v : β) : Tbl β :=
  if v = d then t.del k else t.put k v

/-- The table in which each key `k` of `[lo, lo + n)` reads `f k` of what it read, where an unlisted key reads `d`; keys
below `lo` are not looked at. -/
def Tbl.mapRange {β : Type} [DecidableEq β] (d : β) (f : Nat → β → β) : Nat → Nat → Tbl β → Tbl β
  | 0, _, t => t
  | n + 1, lo, [] =>
    let w := f lo d
    let r := Tbl.mapRange d f n (lo + 1) []
    if w = d then r else (lo, w) :: r
  | n + 1, lo, (j, v) :: t =>
    let w := f lo (if j = lo then v else d)
    let r := Tbl.mapRange d f n (lo + 1) (if j = lo then t else (j, v) :: t)
    if w = d then r else (lo, w) :: r

/-- `true` if every key of the table is above `k`, each above the one before. -/
def Tbl.risingFrom {β : Type} : Option Nat → Tbl β → Bool
  | _, [] => true
  | none, (j, _) :: t => Tbl.risingFrom (some j) t
  | some k, (j, _) :: t => decide (k < j) && Tbl.risingFrom (some j) t

/-- The keys strictly rise. -/
def Tbl.rising {β : Type} (t : Tbl β) : Bool := Tbl.risingFrom none t

/-- The canonical form: keys strictly rise and no entry holds what its key reads as unlisted. -/
def Tbl.wf {β : Type} [DecidableEq β] (dflt : Nat → β) (t : Tbl β) : Bool :=
  t.rising && t.all (fun e => decide (e.2 ≠ dflt e.1))

end Sys2Proof.Machine
end

