-- ==== Sys2Proof/Machine/Fld.lean ====
section
/-!
DEFINITION. Register fields: where a field stands, how wide it is, what it reads after reset, and how the host
reaches it (R16, R476, R479). The reset values that the field tables give by a rule and not by a number are here too.
-/
set_option autoImplicit false

namespace Sys2Proof.Machine

/-- A field of a register: its key (BAR0 address of the register times 32, plus its lowest bit), its width
and its reset value. -/
structure Fld where
  key : Nat
  wid : Nat
  rst : Nat
deriving DecidableEq, Repr

/-- The field at bit `lsb`, `wid` bits wide, of the register at `off` of page `page` (R476). -/
def Fld.mk' (page off lsb wid rst : Nat) : Fld := ⟨(page * 4096 + off) * 32 + lsb, wid, rst⟩

/-- The access classes of R16 that the field tables use. -/
inductive Acc where
  | ro | rw | w1c | wo | rw1
deriving DecidableEq, Repr

/-- One field of a register row: lowest bit, width, access, reset value, and whether it is reserved. -/
structure FD where
  lsb : Nat
  wid : Nat
  acc : Acc
  rst : Nat
  resv : Bool
deriving DecidableEq, Repr

/-- One row of a field table: the first offset, the number of like registers, their distance, whether only the
block's page 0 has them, and the fields of register `i` of instance `e`. -/
structure RegRow where
  off : Nat
  count : Nat
  stride : Nat
  only0 : Bool
  fields : Nat → Nat → List FD

/-- The default neighbour `j` of RTD `i`: the other RTDs of its region, ascending; the fourth is not listed (R396). -/
def rtdNbrReset (i j : Nat) : Nat :=
  let base := i / 4 * 4
  let others := [base, base + 1, base + 2, base + 3].filter (fun k => decide (k ≠ i))
  others.getD j 0

/-- The default neighbour map of photonic region `r`: its edge neighbours in a 4 by 4 grid (R396). -/
def regionNbrReset (r : Nat) : Nat :=
  let row := r / 4
  let col := r % 4
  (if 0 < row then 2 ^ (r - 4) else 0) + (if row < 3 then 2 ^ (r + 4) else 0)
    + (if 0 < col then 2 ^ (r - 1) else 0) + (if col < 3 then 2 ^ (r + 1) else 0)

/-- Word `w` of a loop class record after reset (R161). -/
def classResetWord (w : Nat) : Nat :=
  match w with
  | 0 => 0x02000800
  | 1 => 0x20000000
  | 2 => 0x60000664
  | 3 => 32 * 65536 + 64
  | 4 => 16 * 65536 + 207
  | 5 => 32 * 65536 + 655
  | 6 => 1024 * 65536 + 8 * 256 + 4
  | 7 => 1
  | _ => 0

end Sys2Proof.Machine
end

