-- ==== Sys2Proof/Machine/Regs.lean ====
section
/-!
DEFINITION. The register fields of every page, each under the manual's own name PAGE.REGISTER.FIELD, and
for every page the list of its registers with the bits, the access class and the reset value of each field.
The text follows the field tables of R63, R97, R128, R165, R206, R232, R263, R264, R291, R292, R319, R344,
R345, R376 to R382, R396, R397, R418, R419, R449, R450, R473, R474 and R475; addresses follow R476 and R490.
A field of a page that has several instances takes the instance number `e`; a field of a register that
stands in a row of like registers takes its index `i`.
-/
set_option autoImplicit false

namespace Sys2Proof.Machine

/-! ### Page SYS -/

/-- SYS.MODE_REQ.MODE, R473. -/
def Reg.SYS.MODE_REQ.MODE : Fld := Fld.mk' (0x0) (0x40) 0 4 0
/-- SYS.MSTAT.MODE, R473. -/
def Reg.SYS.MSTAT.MODE : Fld := Fld.mk' (0x0) (0x44) 0 4 0
/-- SYS.MSTAT.TRANS, R473. -/
def Reg.SYS.MSTAT.TRANS : Fld := Fld.mk' (0x0) (0x44) 4 1 0
/-- SYS.MSTAT.DEG, R473. -/
def Reg.SYS.MSTAT.DEG : Fld := Fld.mk' (0x0) (0x44) 5 1 0
/-- SYS.MSTAT.LIM, R473. -/
def Reg.SYS.MSTAT.LIM : Fld := Fld.mk' (0x0) (0x44) 6 1 0
/-- SYS.MSTAT.FROZEN, R473. -/
def Reg.SYS.MSTAT.FROZEN : Fld := Fld.mk' (0x0) (0x44) 7 1 0
/-- SYS.MSTAT.PENDING, R473. -/
def Reg.SYS.MSTAT.PENDING : Fld := Fld.mk' (0x0) (0x44) 8 1 0
/-- SYS.MSTAT.REQ_DROP, R473. -/
def Reg.SYS.MSTAT.REQ_DROP : Fld := Fld.mk' (0x0) (0x44) 9 1 0
/-- SYS.MSTAT.TABLES, R473. -/
def Reg.SYS.MSTAT.TABLES : Fld := Fld.mk' (0x0) (0x44) 10 1 0
/-- SYS.MSTAT.PREV, R473. -/
def Reg.SYS.MSTAT.PREV : Fld := Fld.mk' (0x0) (0x44) 12 4 0
/-- SYS.MODE_CNT.COUNT, R473. -/
def Reg.SYS.MODE_CNT.COUNT : Fld := Fld.mk' (0x0) (0x48) 0 32 0
/-- SYS.RST.KEY, R473. -/
def Reg.SYS.RST.KEY : Fld := Fld.mk' (0x0) (0x4C) 0 32 0
/-- SYS.RST_CAUSE.CAUSE, R473. -/
def Reg.SYS.RST_CAUSE.CAUSE : Fld := Fld.mk' (0x0) (0x50) 0 3 0
/-- SYS.RST_CAUSE.FROM_MODE, R473. -/
def Reg.SYS.RST_CAUSE.FROM_MODE : Fld := Fld.mk' (0x0) (0x50) 3 4 0
/-- SYS.RST_CAUSE.TMODE, R473. -/
def Reg.SYS.RST_CAUSE.TMODE : Fld := Fld.mk' (0x0) (0x50) 7 1 0
/-- SYS.BOOT_STAT.BOOTSEL, R473. -/
def Reg.SYS.BOOT_STAT.BOOTSEL : Fld := Fld.mk' (0x0) (0x54) 0 2 0
/-- SYS.BOOT_STAT.SEL_RES, R473. -/
def Reg.SYS.BOOT_STAT.SEL_RES : Fld := Fld.mk' (0x0) (0x54) 2 1 0
/-- SYS.BOOT_STAT.RESULT, R473. -/
def Reg.SYS.BOOT_STAT.RESULT : Fld := Fld.mk' (0x0) (0x54) 3 3 0
/-- SYS.BOOT_STAT.CAUSE, R473. -/
def Reg.SYS.BOOT_STAT.CAUSE : Fld := Fld.mk' (0x0) (0x54) 6 4 0
/-- SYS.BOOT_STAT.SECTION, R473. -/
def Reg.SYS.BOOT_STAT.SECTION : Fld := Fld.mk' (0x0) (0x54) 10 10 0
/-- SYS.BOOT_STAT.ENG_FAIL, R473. -/
def Reg.SYS.BOOT_STAT.ENG_FAIL : Fld := Fld.mk' (0x0) (0x54) 20 1 0
/-- SYS.BOOT_TIME.US, R473. -/
def Reg.SYS.BOOT_TIME.US : Fld := Fld.mk' (0x0) (0x58) 0 32 0
/-- SYS.IMAGE_VER.VER, R473. -/
def Reg.SYS.IMAGE_VER.VER : Fld := Fld.mk' (0x0) (0x5C) 0 32 0
/-- SYS.FREEZE.HELD, R473. -/
def Reg.SYS.FREEZE.HELD : Fld := Fld.mk' (0x0) (0x60) 0 13 0
/-- SYS.FREEZE.ASSERTS, R473. -/
def Reg.SYS.FREEZE.ASSERTS : Fld := Fld.mk' (0x0) (0x60) 16 16 0

/-- The registers of page SYS. -/
def Reg.SYS.rows : List RegRow :=
  [⟨0x40, 1, 4, false, fun _ _ => [⟨0, 4, .wo, 0, false⟩, ⟨4, 28, .wo, 0, true⟩]⟩,
   ⟨0x44, 1, 4, false, fun _ _ => [⟨0, 4, .ro, 0, false⟩, ⟨4, 1, .ro, 0, false⟩, ⟨5, 1, .ro, 0, false⟩, ⟨6, 1, .ro, 0, false⟩, ⟨7, 1, .ro, 0, false⟩, ⟨8, 1, .ro, 0, false⟩, ⟨9, 1, .w1c, 0, false⟩, ⟨10, 1, .ro, 0, false⟩, ⟨11, 1, .ro, 0, true⟩, ⟨12, 4, .ro, 0, false⟩, ⟨16, 16, .ro, 0, true⟩]⟩,
   ⟨0x48, 1, 4, false, fun _ _ => [⟨0, 32, .ro, 0, false⟩]⟩,
   ⟨0x4C, 1, 4, false, fun _ _ => [⟨0, 32, .wo, 0, false⟩]⟩,
   ⟨0x50, 1, 4, false, fun _ _ => [⟨0, 3, .ro, 0, false⟩, ⟨3, 4, .ro, 0, false⟩, ⟨7, 1, .ro, 0, false⟩, ⟨8, 24, .ro, 0, true⟩]⟩,
   ⟨0x54, 1, 4, false, fun _ _ => [⟨0, 2, .ro, 0, false⟩, ⟨2, 1, .ro, 0, false⟩, ⟨3, 3, .ro, 0, false⟩, ⟨6, 4, .ro, 0, false⟩, ⟨10, 10, .ro, 0, false⟩, ⟨20, 1, .ro, 0, false⟩, ⟨21, 11, .ro, 0, true⟩]⟩,
   ⟨0x58, 1, 4, false, fun _ _ => [⟨0, 32, .ro, 0, false⟩]⟩,
   ⟨0x5C, 1, 4, false, fun _ _ => [⟨0, 32, .ro, 0, false⟩]⟩,
   ⟨0x60, 1, 4, false, fun _ _ => [⟨0, 13, .ro, 0, false⟩, ⟨13, 3, .ro, 0, true⟩, ⟨16, 16, .ro, 0, false⟩]⟩]

/-! ### Page CLK -/

/-- CLK.STAT.REFCLK_OK, R474. -/
def Reg.CLK.STAT.REFCLK_OK : Fld := Fld.mk' (0x2) (0x40) 0 1 0
/-- CLK.STAT.CORE_LOCK, R474. -/
def Reg.CLK.STAT.CORE_LOCK : Fld := Fld.mk' (0x2) (0x40) 1 1 0
/-- CLK.STAT.PCIE_LOCK, R474. -/
def Reg.CLK.STAT.PCIE_LOCK : Fld := Fld.mk' (0x2) (0x40) 2 1 0
/-- CLK.STAT.ETH_LOCK, R474. -/
def Reg.CLK.STAT.ETH_LOCK : Fld := Fld.mk' (0x2) (0x40) 3 1 0
/-- CLK.STAT.GLEW_LOCK, R474. -/
def Reg.CLK.STAT.GLEW_LOCK : Fld := Fld.mk' (0x2) (0x40) 4 1 0
/-- CLK.LOCK_TIME.US, R474. -/
def Reg.CLK.LOCK_TIME.US : Fld := Fld.mk' (0x2) (0x44) 0 16 0
/-- CLK.SER_LOSS.PCIE, R474. -/
def Reg.CLK.SER_LOSS.PCIE : Fld := Fld.mk' (0x2) (0x48) 0 8 0
/-- CLK.SER_LOSS.ETH, R474. -/
def Reg.CLK.SER_LOSS.ETH : Fld := Fld.mk' (0x2) (0x48) 8 8 0
/-- CLK.SER_LOSS.GLEW, R474. -/
def Reg.CLK.SER_LOSS.GLEW : Fld := Fld.mk' (0x2) (0x48) 16 8 0

/-- The registers of page CLK. -/
def Reg.CLK.rows : List RegRow :=
  [⟨0x40, 1, 4, false, fun _ _ => [⟨0, 1, .ro, 0, false⟩, ⟨1, 1, .ro, 0, false⟩, ⟨2, 1, .ro, 0, false⟩, ⟨3, 1, .ro, 0, false⟩, ⟨4, 1, .ro, 0, false⟩, ⟨5, 27, .ro, 0, true⟩]⟩,
   ⟨0x44, 1, 4, false, fun _ _ => [⟨0, 16, .ro, 0, false⟩, ⟨16, 16, .ro, 0, true⟩]⟩,
   ⟨0x48, 1, 4, false, fun _ _ => [⟨0, 8, .ro, 0, false⟩, ⟨8, 8, .ro, 0, false⟩, ⟨16, 8, .ro, 0, false⟩, ⟨24, 8, .ro, 0, true⟩]⟩]

/-! ### Page PWR -/

/-- PWR.STAT.VTRIM_OK, R475. -/
def Reg.PWR.STAT.VTRIM_OK : Fld := Fld.mk' (0x3) (0x40) 0 1 0
/-- PWR.STAT.BANK_OK, R475. -/
def Reg.PWR.STAT.BANK_OK : Fld := Fld.mk' (0x3) (0x40) 1 18 0
/-- PWR.STAT.GATE, R475. -/
def Reg.PWR.STAT.GATE : Fld := Fld.mk' (0x3) (0x40) 19 1 0
/-- PWR.P_CTRL.MW, R475. -/
def Reg.PWR.P_CTRL.MW : Fld := Fld.mk' (0x3) (0x44) 0 16 0
/-- PWR.P_RAIL.VHA, R475. -/
def Reg.PWR.P_RAIL.VHA : Fld := Fld.mk' (0x3) (0x48) 0 16 0
/-- PWR.P_RAIL.VHB, R475. -/
def Reg.PWR.P_RAIL.VHB : Fld := Fld.mk' (0x3) (0x48) 16 16 0

/-- The registers of page PWR. -/
def Reg.PWR.rows : List RegRow :=
  [⟨0x40, 1, 4, false, fun _ _ => [⟨0, 1, .ro, 0, false⟩, ⟨1, 18, .ro, 0, false⟩, ⟨19, 1, .ro, 0, false⟩, ⟨20, 12, .ro, 0, true⟩]⟩,
   ⟨0x44, 1, 4, false, fun _ _ => [⟨0, 16, .ro, 0, false⟩, ⟨16, 16, .ro, 0, true⟩]⟩,
   ⟨0x48, 1, 4, false, fun _ _ => [⟨0, 16, .ro, 0, false⟩, ⟨16, 16, .ro, 0, false⟩]⟩]

/-! ### Page TIME -/

/-- TIME.CFG.FMT, R291. -/
def Reg.TIME.CFG.FMT : Fld := Fld.mk' (0x4) (0x40) 0 1 0
/-- TIME.CFG.SRC, R291. -/
def Reg.TIME.CFG.SRC : Fld := Fld.mk' (0x4) (0x40) 1 2 0
/-- TIME.CFG.SERVO_HOST, R291. -/
def Reg.TIME.CFG.SERVO_HOST : Fld := Fld.mk' (0x4) (0x40) 3 1 0
/-- TIME.INCR.INCR, R291. -/
def Reg.TIME.INCR.INCR : Fld := Fld.mk' (0x4) (0x44) 0 32 0x40000000
/-- TIME.NOW_NS.NS, R291. -/
def Reg.TIME.NOW_NS.NS : Fld := Fld.mk' (0x4) (0x48) 0 30 0
/-- TIME.SNAP_SLO.SEC, R291. -/
def Reg.TIME.SNAP_SLO.SEC : Fld := Fld.mk' (0x4) (0x4C) 0 32 0
/-- TIME.SNAP_SHI.SEC, R291. -/
def Reg.TIME.SNAP_SHI.SEC : Fld := Fld.mk' (0x4) (0x50) 0 16 0
/-- TIME.SNAP_FRAC.FRAC, R291. -/
def Reg.TIME.SNAP_FRAC.FRAC : Fld := Fld.mk' (0x4) (0x54) 0 28 0
/-- TIME.SNAP32.COUNT, R291. -/
def Reg.TIME.SNAP32.COUNT : Fld := Fld.mk' (0x4) (0x58) 0 32 0
/-- TIME.NOW32.COUNT, R291. -/
def Reg.TIME.NOW32.COUNT : Fld := Fld.mk' (0x4) (0x5C) 0 32 0
/-- TIME.SET_NS.NS, R291. -/
def Reg.TIME.SET_NS.NS : Fld := Fld.mk' (0x4) (0x60) 0 32 0
/-- TIME.SET_SLO.SEC, R291. -/
def Reg.TIME.SET_SLO.SEC : Fld := Fld.mk' (0x4) (0x64) 0 32 0
/-- TIME.SET_SHI.SEC, R291. -/
def Reg.TIME.SET_SHI.SEC : Fld := Fld.mk' (0x4) (0x68) 0 16 0
/-- TIME.SET_GO.GO, R291. -/
def Reg.TIME.SET_GO.GO : Fld := Fld.mk' (0x4) (0x6C) 0 1 0
/-- TIME.ADJ.OFS, R291. -/
def Reg.TIME.ADJ.OFS : Fld := Fld.mk' (0x4) (0x70) 0 32 0
/-- TIME.STAT.SYNCED, R291. -/
def Reg.TIME.STAT.SYNCED : Fld := Fld.mk' (0x4) (0x74) 0 1 0
/-- TIME.STAT.HOLDOVER, R291. -/
def Reg.TIME.STAT.HOLDOVER : Fld := Fld.mk' (0x4) (0x74) 1 1 0
/-- TIME.STAT.PAUSED, R291. -/
def Reg.TIME.STAT.PAUSED : Fld := Fld.mk' (0x4) (0x74) 2 1 0
/-- TIME.STAT.STEP_DEFER, R291. -/
def Reg.TIME.STAT.STEP_DEFER : Fld := Fld.mk' (0x4) (0x74) 3 1 0
/-- TIME.PAUSE_CLR.CLR, R291. -/
def Reg.TIME.PAUSE_CLR.CLR : Fld := Fld.mk' (0x4) (0x78) 0 1 0
/-- TIME.SERVO.KP, R291. -/
def Reg.TIME.SERVO.KP : Fld := Fld.mk' (0x4) (0x7C) 0 16 256
/-- TIME.SERVO.KI, R291. -/
def Reg.TIME.SERVO.KI : Fld := Fld.mk' (0x4) (0x7C) 16 16 16
/-- TIME.STEP_THR.THR, R291. -/
def Reg.TIME.STEP_THR.THR : Fld := Fld.mk' (0x4) (0x80) 0 20 20000
/-- TIME.LOCK_THR.THR, R291. -/
def Reg.TIME.LOCK_THR.THR : Fld := Fld.mk' (0x4) (0x84) 0 16 100
/-- TIME.OFFSET.O, R291. -/
def Reg.TIME.OFFSET.O : Fld := Fld.mk' (0x4) (0x88) 0 32 0
/-- TIME.INTEG.I, R291. -/
def Reg.TIME.INTEG.I : Fld := Fld.mk' (0x4) (0x8C) 0 32 0
/-- TIME.HOLD_CNT.SEC, R291. -/
def Reg.TIME.HOLD_CNT.SEC : Fld := Fld.mk' (0x4) (0x90) 0 32 0
/-- TIME.TICK32.COUNT, R291. -/
def Reg.TIME.TICK32.COUNT : Fld := Fld.mk' (0x4) (0x94) 0 32 0
/-- TIME.PPS_IN.O, R291. -/
def Reg.TIME.PPS_IN.O : Fld := Fld.mk' (0x4) (0x98) 0 32 0
/-- TIME.PPS_CNT.ACCEPTED, R291. -/
def Reg.TIME.PPS_CNT.ACCEPTED : Fld := Fld.mk' (0x4) (0x9C) 0 16 0
/-- TIME.PPS_CNT.DISCARDED, R291. -/
def Reg.TIME.PPS_CNT.DISCARDED : Fld := Fld.mk' (0x4) (0x9C) 16 16 0
/-- TIME.PPS_OUT.WIDTH, R291. -/
def Reg.TIME.PPS_OUT.WIDTH : Fld := Fld.mk' (0x4) (0xA0) 0 20 100000
/-- TIME.PPS_OUT.EN, R291. -/
def Reg.TIME.PPS_OUT.EN : Fld := Fld.mk' (0x4) (0xA0) 31 1 0
/-- TIME.CMP.C32, R291. -/
def Reg.TIME.CMP.C32 : Fld := Fld.mk' (0x4) (0xA4) 0 32 0
/-- TIME.STEP_LAST.SIZE, R291. -/
def Reg.TIME.STEP_LAST.SIZE : Fld := Fld.mk' (0x4) (0xA8) 0 32 0

/-- The registers of page TIME. -/
def Reg.TIME.rows : List RegRow :=
  [⟨0x40, 1, 4, false, fun _ _ => [⟨0, 1, .rw, 0, false⟩, ⟨1, 2, .rw, 0, false⟩, ⟨3, 1, .rw, 0, false⟩, ⟨4, 28, .ro, 0, true⟩]⟩,
   ⟨0x44, 1, 4, false, fun _ _ => [⟨0, 32, .rw, 0x40000000, false⟩]⟩,
   ⟨0x48, 1, 4, false, fun _ _ => [⟨0, 30, .ro, 0, false⟩, ⟨30, 2, .ro, 0, true⟩]⟩,
   ⟨0x4C, 1, 4, false, fun _ _ => [⟨0, 32, .ro, 0, false⟩]⟩,
   ⟨0x50, 1, 4, false, fun _ _ => [⟨0, 16, .ro, 0, false⟩, ⟨16, 16, .ro, 0, true⟩]⟩,
   ⟨0x54, 1, 4, false, fun _ _ => [⟨0, 28, .ro, 0, false⟩, ⟨28, 4, .ro, 0, true⟩]⟩,
   ⟨0x58, 1, 4, false, fun _ _ => [⟨0, 32, .ro, 0, false⟩]⟩,
   ⟨0x5C, 1, 4, false, fun _ _ => [⟨0, 32, .ro, 0, false⟩]⟩,
   ⟨0x60, 1, 4, false, fun _ _ => [⟨0, 32, .rw, 0, false⟩]⟩,
   ⟨0x64, 1, 4, false, fun _ _ => [⟨0, 32, .rw, 0, false⟩]⟩,
   ⟨0x68, 1, 4, false, fun _ _ => [⟨0, 16, .rw, 0, false⟩, ⟨16, 16, .ro, 0, true⟩]⟩,
   ⟨0x6C, 1, 4, false, fun _ _ => [⟨0, 1, .wo, 0, false⟩, ⟨1, 31, .wo, 0, true⟩]⟩,
   ⟨0x70, 1, 4, false, fun _ _ => [⟨0, 32, .wo, 0, false⟩]⟩,
   ⟨0x74, 1, 4, false, fun _ _ => [⟨0, 1, .ro, 0, false⟩, ⟨1, 1, .ro, 0, false⟩, ⟨2, 1, .ro, 0, false⟩, ⟨3, 1, .ro, 0, false⟩, ⟨4, 28, .ro, 0, true⟩]⟩,
   ⟨0x78, 1, 4, false, fun _ _ => [⟨0, 1, .wo, 0, false⟩, ⟨1, 31, .wo, 0, true⟩]⟩,
   ⟨0x7C, 1, 4, false, fun _ _ => [⟨0, 16, .rw, 256, false⟩, ⟨16, 16, .rw, 16, false⟩]⟩,
   ⟨0x80, 1, 4, false, fun _ _ => [⟨0, 20, .rw, 20000, false⟩, ⟨20, 12, .ro, 0, true⟩]⟩,
   ⟨0x84, 1, 4, false, fun _ _ => [⟨0, 16, .rw, 100, false⟩, ⟨16, 16, .ro, 0, true⟩]⟩,
   ⟨0x88, 1, 4, false, fun _ _ => [⟨0, 32, .ro, 0, false⟩]⟩,
   ⟨0x8C, 1, 4, false, fun _ _ => [⟨0, 32, .ro, 0, false⟩]⟩,
   ⟨0x90, 1, 4, false, fun _ _ => [⟨0, 32, .ro, 0, false⟩]⟩,
   ⟨0x94, 1, 4, false, fun _ _ => [⟨0, 32, .ro, 0, false⟩]⟩,
   ⟨0x98, 1, 4, false, fun _ _ => [⟨0, 32, .ro, 0, false⟩]⟩,
   ⟨0x9C, 1, 4, false, fun _ _ => [⟨0, 16, .ro, 0, false⟩, ⟨16, 16, .ro, 0, false⟩]⟩,
   ⟨0xA0, 1, 4, false, fun _ _ => [⟨0, 20, .rw, 100000, false⟩, ⟨20, 11, .ro, 0, true⟩, ⟨31, 1, .rw, 0, false⟩]⟩,
   ⟨0xA4, 1, 4, false, fun _ _ => [⟨0, 32, .ro, 0, false⟩]⟩,
   ⟨0xA8, 1, 4, false, fun _ _ => [⟨0, 32, .ro, 0, false⟩]⟩]

/-! ### Page PTP -/

/-- PTP.CFG.EN, R292. -/
def Reg.PTP.CFG.EN (e : Nat) : Fld := Fld.mk' (0x5 + e) (0x40) 0 1 0
/-- PTP.CFG.MECH, R292. -/
def Reg.PTP.CFG.MECH (e : Nat) : Fld := Fld.mk' (0x5 + e) (0x40) 1 1 0
/-- PTP.CFG.TRANSPORT, R292. -/
def Reg.PTP.CFG.TRANSPORT (e : Nat) : Fld := Fld.mk' (0x5 + e) (0x40) 2 1 0
/-- PTP.CFG.DOMAIN, R292. -/
def Reg.PTP.CFG.DOMAIN (e : Nat) : Fld := Fld.mk' (0x5 + e) (0x40) 3 7 0
/-- PTP.CFG.VLAN_EN, R292. -/
def Reg.PTP.CFG.VLAN_EN (e : Nat) : Fld := Fld.mk' (0x5 + e) (0x40) 10 1 0
/-- PTP.CFG.VID, R292. -/
def Reg.PTP.CFG.VID (e : Nat) : Fld := Fld.mk' (0x5 + e) (0x40) 11 12 0
/-- PTP.CFG.PCP, R292. -/
def Reg.PTP.CFG.PCP (e : Nat) : Fld := Fld.mk' (0x5 + e) (0x40) 23 3 0
/-- PTP.INTV.LOG_PDREQ, R292. -/
def Reg.PTP.INTV.LOG_PDREQ (e : Nat) : Fld := Fld.mk' (0x5 + e) (0x44) 0 4 0
/-- PTP.INTV.ANN_TO, R292. -/
def Reg.PTP.INTV.ANN_TO (e : Nat) : Fld := Fld.mk' (0x5 + e) (0x44) 4 4 3
/-- PTP.STATE.PORT_STATE, R292. -/
def Reg.PTP.STATE.PORT_STATE (e : Nat) : Fld := Fld.mk' (0x5 + e) (0x48) 0 4 3
/-- PTP.STATE.SELECTED, R292. -/
def Reg.PTP.STATE.SELECTED (e : Nat) : Fld := Fld.mk' (0x5 + e) (0x48) 4 1 0
/-- PTP.GM_LO.ID, R292. -/
def Reg.PTP.GM_LO.ID (e : Nat) : Fld := Fld.mk' (0x5 + e) (0x4C) 0 32 0
/-- PTP.GM_HI.ID, R292. -/
def Reg.PTP.GM_HI.ID (e : Nat) : Fld := Fld.mk' (0x5 + e) (0x50) 0 32 0
/-- PTP.PARENT.PORT, R292. -/
def Reg.PTP.PARENT.PORT (e : Nat) : Fld := Fld.mk' (0x5 + e) (0x54) 0 16 0
/-- PTP.PARENT.STEPS, R292. -/
def Reg.PTP.PARENT.STEPS (e : Nat) : Fld := Fld.mk' (0x5 + e) (0x54) 16 16 0
/-- PTP.DELAY.MEAN, R292. -/
def Reg.PTP.DELAY.MEAN (e : Nat) : Fld := Fld.mk' (0x5 + e) (0x58) 0 32 0
/-- PTP.OFFSET.O, R292. -/
def Reg.PTP.OFFSET.O (e : Nat) : Fld := Fld.mk' (0x5 + e) (0x5C) 0 32 0
/-- PTP.CORR.ING, R292. -/
def Reg.PTP.CORR.ING (e : Nat) : Fld := Fld.mk' (0x5 + e) (0x60) 0 16 164
/-- PTP.CORR.EGR, R292. -/
def Reg.PTP.CORR.EGR (e : Nat) : Fld := Fld.mk' (0x5 + e) (0x60) 16 16 112
/-- PTP.ASYM.NS, R292. -/
def Reg.PTP.ASYM.NS (e : Nat) : Fld := Fld.mk' (0x5 + e) (0x64) 0 32 0
/-- PTP.CNT_RX.SYNC, R292. -/
def Reg.PTP.CNT_RX.SYNC (e : Nat) : Fld := Fld.mk' (0x5 + e) (0x68) 0 16 0
/-- PTP.CNT_RX.ANNOUNCE, R292. -/
def Reg.PTP.CNT_RX.ANNOUNCE (e : Nat) : Fld := Fld.mk' (0x5 + e) (0x68) 16 16 0
/-- PTP.CNT_ERR.DISCARD, R292. -/
def Reg.PTP.CNT_ERR.DISCARD (e : Nat) : Fld := Fld.mk' (0x5 + e) (0x6C) 0 16 0
/-- PTP.CNT_ERR.TS_MISS, R292. -/
def Reg.PTP.CNT_ERR.TS_MISS (e : Nat) : Fld := Fld.mk' (0x5 + e) (0x6C) 16 16 0
/-- PTP.UPD.COUNT, R292. -/
def Reg.PTP.UPD.COUNT (e : Nat) : Fld := Fld.mk' (0x5 + e) (0x70) 0 16 0

/-- The registers of page PTP. -/
def Reg.PTP.rows : List RegRow :=
  [⟨0x40, 1, 4, false, fun _ _ => [⟨0, 1, .rw, 0, false⟩, ⟨1, 1, .rw, 0, false⟩, ⟨2, 1, .rw, 0, false⟩, ⟨3, 7, .rw, 0, false⟩, ⟨10, 1, .rw, 0, false⟩, ⟨11, 12, .rw, 0, false⟩, ⟨23, 3, .rw, 0, false⟩, ⟨26, 6, .ro, 0, true⟩]⟩,
   ⟨0x44, 1, 4, false, fun _ _ => [⟨0, 4, .rw, 0, false⟩, ⟨4, 4, .rw, 3, false⟩, ⟨8, 24, .ro, 0, true⟩]⟩,
   ⟨0x48, 1, 4, false, fun _ _ => [⟨0, 4, .ro, 3, false⟩, ⟨4, 1, .ro, 0, false⟩, ⟨5, 27, .ro, 0, true⟩]⟩,
   ⟨0x4C, 1, 4, false, fun _ _ => [⟨0, 32, .ro, 0, false⟩]⟩,
   ⟨0x50, 1, 4, false, fun _ _ => [⟨0, 32, .ro, 0, false⟩]⟩,
   ⟨0x54, 1, 4, false, fun _ _ => [⟨0, 16, .ro, 0, false⟩, ⟨16, 16, .ro, 0, false⟩]⟩,
   ⟨0x58, 1, 4, false, fun _ _ => [⟨0, 32, .ro, 0, false⟩]⟩,
   ⟨0x5C, 1, 4, false, fun _ _ => [⟨0, 32, .ro, 0, false⟩]⟩,
   ⟨0x60, 1, 4, false, fun _ _ => [⟨0, 16, .rw, 164, false⟩, ⟨16, 16, .rw, 112, false⟩]⟩,
   ⟨0x64, 1, 4, false, fun _ _ => [⟨0, 32, .rw, 0, false⟩]⟩,
   ⟨0x68, 1, 4, false, fun _ _ => [⟨0, 16, .ro, 0, false⟩, ⟨16, 16, .ro, 0, false⟩]⟩,
   ⟨0x6C, 1, 4, false, fun _ _ => [⟨0, 16, .ro, 0, false⟩, ⟨16, 16, .ro, 0, false⟩]⟩,
   ⟨0x70, 1, 4, false, fun _ _ => [⟨0, 16, .ro, 0, false⟩, ⟨16, 16, .ro, 0, true⟩]⟩]

/-! ### Page SCHED -/

/-- SCHED.CFG.SETTLE_DEF, R263. -/
def Reg.SCHED.CFG.SETTLE_DEF : Fld := Fld.mk' (0x8) (0x40) 0 10 64
/-- SCHED.BUDGET.STEADY, R263. -/
def Reg.SCHED.BUDGET.STEADY : Fld := Fld.mk' (0x8) (0x44) 0 13 6000
/-- SCHED.BUDGET.PEAK, R263. -/
def Reg.SCHED.BUDGET.PEAK : Fld := Fld.mk' (0x8) (0x44) 16 13 7000
/-- SCHED.MARGIN.MARGIN, R263. -/
def Reg.SCHED.MARGIN.MARGIN : Fld := Fld.mk' (0x8) (0x48) 0 10 100
/-- SCHED.STAT.QUEUED, R263. -/
def Reg.SCHED.STAT.QUEUED : Fld := Fld.mk' (0x8) (0x4C) 0 7 0
/-- SCHED.STAT.OVERDRAWN, R263. -/
def Reg.SCHED.STAT.OVERDRAWN : Fld := Fld.mk' (0x8) (0x4C) 7 1 0
/-- SCHED.STAT.FROZEN, R263. -/
def Reg.SCHED.STAT.FROZEN : Fld := Fld.mk' (0x8) (0x4C) 8 1 0
/-- SCHED.LEDGER.S_TAIL, R263. -/
def Reg.SCHED.LEDGER.S_TAIL : Fld := Fld.mk' (0x8) (0x50) 0 20 0
/-- SCHED.METER.P_MS, R263. -/
def Reg.SCHED.METER.P_MS : Fld := Fld.mk' (0x8) (0x54) 0 20 0
/-- SCHED.LAST_ADM.CODE, R263. -/
def Reg.SCHED.LAST_ADM.CODE : Fld := Fld.mk' (0x8) (0x58) 0 8 0
/-- SCHED.LAST_ADM.STEP, R263. -/
def Reg.SCHED.LAST_ADM.STEP : Fld := Fld.mk' (0x8) (0x58) 8 4 0
/-- SCHED.LAST_TP.T_P, R263. -/
def Reg.SCHED.LAST_TP.T_P : Fld := Fld.mk' (0x8) (0x5C) 0 32 0
/-- SCHED.LAST_SS.S_AFTER, R263. -/
def Reg.SCHED.LAST_SS.S_AFTER : Fld := Fld.mk' (0x8) (0x60) 0 20 0
/-- SCHED.LAST_PK.S_PEAK, R263. -/
def Reg.SCHED.LAST_PK.S_PEAK : Fld := Fld.mk' (0x8) (0x64) 0 20 0
/-- SCHED.CNT_ACC.COUNT, R263. -/
def Reg.SCHED.CNT_ACC.COUNT : Fld := Fld.mk' (0x8) (0x68) 0 32 0
/-- SCHED.CNT_REJ.COUNT, R263. -/
def Reg.SCHED.CNT_REJ.COUNT : Fld := Fld.mk' (0x8) (0x6C) 0 32 0
/-- SCHED.CNT_FAIL.COUNT, R263. -/
def Reg.SCHED.CNT_FAIL.COUNT : Fld := Fld.mk' (0x8) (0x70) 0 32 0
/-- SCHED.CANCEL.SEQ, R263. -/
def Reg.SCHED.CANCEL.SEQ : Fld := Fld.mk' (0x8) (0x74) 0 32 0

/-- The registers of page SCHED. -/
def Reg.SCHED.rows : List RegRow :=
  [⟨0x40, 1, 4, false, fun _ _ => [⟨0, 10, .rw, 64, false⟩, ⟨10, 22, .ro, 0, true⟩]⟩,
   ⟨0x44, 1, 4, false, fun _ _ => [⟨0, 13, .rw, 6000, false⟩, ⟨13, 3, .ro, 0, true⟩, ⟨16, 13, .rw, 7000, false⟩, ⟨29, 3, .ro, 0, true⟩]⟩,
   ⟨0x48, 1, 4, false, fun _ _ => [⟨0, 10, .rw, 100, false⟩, ⟨10, 22, .ro, 0, true⟩]⟩,
   ⟨0x4C, 1, 4, false, fun _ _ => [⟨0, 7, .ro, 0, false⟩, ⟨7, 1, .ro, 0, false⟩, ⟨8, 1, .ro, 0, false⟩, ⟨9, 23, .ro, 0, true⟩]⟩,
   ⟨0x50, 1, 4, false, fun _ _ => [⟨0, 20, .ro, 0, false⟩, ⟨20, 12, .ro, 0, true⟩]⟩,
   ⟨0x54, 1, 4, false, fun _ _ => [⟨0, 20, .ro, 0, false⟩, ⟨20, 12, .ro, 0, true⟩]⟩,
   ⟨0x58, 1, 4, false, fun _ _ => [⟨0, 8, .ro, 0, false⟩, ⟨8, 4, .ro, 0, false⟩, ⟨12, 20, .ro, 0, true⟩]⟩,
   ⟨0x5C, 1, 4, false, fun _ _ => [⟨0, 32, .ro, 0, false⟩]⟩,
   ⟨0x60, 1, 4, false, fun _ _ => [⟨0, 20, .ro, 0, false⟩, ⟨20, 12, .ro, 0, true⟩]⟩,
   ⟨0x64, 1, 4, false, fun _ _ => [⟨0, 20, .ro, 0, false⟩, ⟨20, 12, .ro, 0, true⟩]⟩,
   ⟨0x68, 1, 4, false, fun _ _ => [⟨0, 32, .ro, 0, false⟩]⟩,
   ⟨0x6C, 1, 4, false, fun _ _ => [⟨0, 32, .ro, 0, false⟩]⟩,
   ⟨0x70, 1, 4, false, fun _ _ => [⟨0, 32, .ro, 0, false⟩]⟩,
   ⟨0x74, 1, 4, false, fun _ _ => [⟨0, 32, .wo, 0, false⟩]⟩]

/-! ### Page SEQ -/

/-- SEQ.STAT.CONFIG, R264. -/
def Reg.SEQ.STAT.CONFIG : Fld := Fld.mk' (0x9) (0x40) 0 2 0
/-- SEQ.STAT.IN_I, R264. -/
def Reg.SEQ.STAT.IN_I : Fld := Fld.mk' (0x9) (0x40) 2 1 0
/-- SEQ.STAT.IN_L, R264. -/
def Reg.SEQ.STAT.IN_L : Fld := Fld.mk' (0x9) (0x40) 3 1 0
/-- SEQ.STAT.IN_P, R264. -/
def Reg.SEQ.STAT.IN_P : Fld := Fld.mk' (0x9) (0x40) 4 1 0
/-- SEQ.STAT.ARMED, R264. -/
def Reg.SEQ.STAT.ARMED : Fld := Fld.mk' (0x9) (0x40) 5 1 0
/-- SEQ.ARM_SEQ.SEQ, R264. -/
def Reg.SEQ.ARM_SEQ.SEQ : Fld := Fld.mk' (0x9) (0x44) 0 32 0
/-- SEQ.VOTES.COUNT, R264. -/
def Reg.SEQ.VOTES.COUNT : Fld := Fld.mk' (0x9) (0x48) 0 32 0
/-- SEQ.LAST_DIS.ODD_I, R264. -/
def Reg.SEQ.LAST_DIS.ODD_I : Fld := Fld.mk' (0x9) (0x4C) 0 1 0
/-- SEQ.LAST_DIS.ODD_L, R264. -/
def Reg.SEQ.LAST_DIS.ODD_L : Fld := Fld.mk' (0x9) (0x4C) 1 1 0
/-- SEQ.LAST_DIS.ODD_P, R264. -/
def Reg.SEQ.LAST_DIS.ODD_P : Fld := Fld.mk' (0x9) (0x4C) 2 1 0
/-- SEQ.LAST_DIS.WHAT, R264. -/
def Reg.SEQ.LAST_DIS.WHAT : Fld := Fld.mk' (0x9) (0x4C) 3 1 0
/-- SEQ.LAST_DIS.VALID, R264. -/
def Reg.SEQ.LAST_DIS.VALID : Fld := Fld.mk' (0x9) (0x4C) 4 1 0
/-- SEQ.LAST_DIS.WORD, R264. -/
def Reg.SEQ.LAST_DIS.WORD : Fld := Fld.mk' (0x9) (0x4C) 16 11 0
/-- SEQ.RETIRE_CLR.CLR_I, R264. -/
def Reg.SEQ.RETIRE_CLR.CLR_I : Fld := Fld.mk' (0x9) (0x50) 0 1 0
/-- SEQ.RETIRE_CLR.CLR_L, R264. -/
def Reg.SEQ.RETIRE_CLR.CLR_L : Fld := Fld.mk' (0x9) (0x50) 1 1 0
/-- SEQ.RETIRE_CLR.CLR_P, R264. -/
def Reg.SEQ.RETIRE_CLR.CLR_P : Fld := Fld.mk' (0x9) (0x50) 2 1 0

/-- The registers of page SEQ. -/
def Reg.SEQ.rows : List RegRow :=
  [⟨0x40, 1, 4, false, fun _ _ => [⟨0, 2, .ro, 0, false⟩, ⟨2, 1, .ro, 0, false⟩, ⟨3, 1, .ro, 0, false⟩, ⟨4, 1, .ro, 0, false⟩, ⟨5, 1, .ro, 0, false⟩, ⟨6, 26, .ro, 0, true⟩]⟩,
   ⟨0x44, 1, 4, false, fun _ _ => [⟨0, 32, .ro, 0, false⟩]⟩,
   ⟨0x48, 1, 4, false, fun _ _ => [⟨0, 32, .ro, 0, false⟩]⟩,
   ⟨0x4C, 1, 4, false, fun _ _ => [⟨0, 1, .ro, 0, false⟩, ⟨1, 1, .ro, 0, false⟩, ⟨2, 1, .ro, 0, false⟩, ⟨3, 1, .ro, 0, false⟩, ⟨4, 1, .ro, 0, false⟩, ⟨5, 11, .ro, 0, true⟩, ⟨16, 11, .ro, 0, false⟩, ⟨27, 5, .ro, 0, true⟩]⟩,
   ⟨0x50, 1, 4, false, fun _ _ => [⟨0, 1, .wo, 0, false⟩, ⟨1, 1, .wo, 0, false⟩, ⟨2, 1, .wo, 0, false⟩, ⟨3, 29, .wo, 0, true⟩]⟩]

/-! ### Page PLAN -/

/-- PLAN.CFG.XT_SH, R232. -/
def Reg.PLAN.CFG.XT_SH : Fld := Fld.mk' (0xA) (0x40) 0 3 3
/-- PLAN.EPS.EPS_LOCK, R232. -/
def Reg.PLAN.EPS.EPS_LOCK : Fld := Fld.mk' (0xA) (0x44) 0 16 207
/-- PLAN.STAT.BUSY, R232. -/
def Reg.PLAN.STAT.BUSY : Fld := Fld.mk' (0xA) (0x48) 0 1 0
/-- PLAN.STAT.WAIT, R232. -/
def Reg.PLAN.STAT.WAIT : Fld := Fld.mk' (0xA) (0x48) 1 1 0
/-- PLAN.LAST_PLAN.MOVED, R232. -/
def Reg.PLAN.LAST_PLAN.MOVED : Fld := Fld.mk' (0xA) (0x4C) 0 13 0
/-- PLAN.LAST_PLAN.ARMED_NB, R232. -/
def Reg.PLAN.LAST_PLAN.ARMED_NB : Fld := Fld.mk' (0xA) (0x4C) 16 13 0
/-- PLAN.LAST_TIME.T_PLAN, R232. -/
def Reg.PLAN.LAST_TIME.T_PLAN : Fld := Fld.mk' (0xA) (0x50) 0 14 0
/-- PLAN.LAST_CLAMP.KICK_CLAMP, R232. -/
def Reg.PLAN.LAST_CLAMP.KICK_CLAMP : Fld := Fld.mk' (0xA) (0x54) 0 13 0
/-- PLAN.LAST_CLAMP.LATE, R232. -/
def Reg.PLAN.LAST_CLAMP.LATE : Fld := Fld.mk' (0xA) (0x54) 16 13 0
/-- PLAN.LAST_PEAK.P_LAUNCH, R232. -/
def Reg.PLAN.LAST_PEAK.P_LAUNCH : Fld := Fld.mk' (0xA) (0x58) 0 17 0
/-- PLAN.DLV0.DELIVERED, R232. -/
def Reg.PLAN.DLV0.DELIVERED : Fld := Fld.mk' (0xA) (0x5C) 0 13 0
/-- PLAN.DLV0.MODEL, R232. -/
def Reg.PLAN.DLV0.MODEL : Fld := Fld.mk' (0xA) (0x5C) 16 13 0
/-- PLAN.DLV1.FAIL, R232. -/
def Reg.PLAN.DLV1.FAIL : Fld := Fld.mk' (0xA) (0x60) 0 13 0
/-- PLAN.DLV1.OTHER, R232. -/
def Reg.PLAN.DLV1.OTHER : Fld := Fld.mk' (0xA) (0x60) 16 13 0
/-- PLAN.DLV_SETTLE.SETTLE, R232. -/
def Reg.PLAN.DLV_SETTLE.SETTLE : Fld := Fld.mk' (0xA) (0x64) 0 16 0xFFFF
/-- PLAN.XT_CRC.CRC, R232. -/
def Reg.PLAN.XT_CRC.CRC : Fld := Fld.mk' (0xA) (0x68) 0 32 0
/-- PLAN.XT_STAT.CRC_BUSY, R232. -/
def Reg.PLAN.XT_STAT.CRC_BUSY : Fld := Fld.mk' (0xA) (0x6C) 0 1 0
/-- PLAN.XT_STAT.CRC_OK, R232. -/
def Reg.PLAN.XT_STAT.CRC_OK : Fld := Fld.mk' (0xA) (0x6C) 1 1 0
/-- PLAN.STEP_CHK.SHAPE, R232. -/
def Reg.PLAN.STEP_CHK.SHAPE : Fld := Fld.mk' (0xA) (0x70) 0 6 0
/-- PLAN.STEP_CHK.BAD, R232. -/
def Reg.PLAN.STEP_CHK.BAD : Fld := Fld.mk' (0xA) (0x70) 6 1 0
/-- PLAN.DLOG_WP.WP, R232. -/
def Reg.PLAN.DLOG_WP.WP : Fld := Fld.mk' (0xA) (0x74) 0 9 0
/-- PLAN.DLOG_RP.RP, R232. -/
def Reg.PLAN.DLOG_RP.RP : Fld := Fld.mk' (0xA) (0x78) 0 9 0
/-- PLAN.DLOG_LOST.LOST, R232. -/
def Reg.PLAN.DLOG_LOST.LOST : Fld := Fld.mk' (0xA) (0x7C) 0 16 0
/-- PLAN.DLOG_LOST.CLEAR, R232. -/
def Reg.PLAN.DLOG_LOST.CLEAR : Fld := Fld.mk' (0xA) (0x7C) 31 1 0
/-- PLAN.DLOG, R232. -/
def Reg.PLAN.DLOG.W (i : Nat) : Fld := Fld.mk' (0xA) (0x800 + 4 * i) 0 32 0
/-- PLAN.COMMIT.XT, R232. -/
def Reg.PLAN.COMMIT.XT : Fld := Fld.mk' (0xA) (0x28) 0 1 0
/-- PLAN.COMMIT.STEP, R232. -/
def Reg.PLAN.COMMIT.STEP : Fld := Fld.mk' (0xA) (0x28) 1 1 0

/-- The registers of page PLAN. -/
def Reg.PLAN.rows : List RegRow :=
  [⟨0x40, 1, 4, false, fun _ _ => [⟨0, 3, .rw, 3, false⟩, ⟨3, 29, .ro, 0, true⟩]⟩,
   ⟨0x44, 1, 4, false, fun _ _ => [⟨0, 16, .rw, 207, false⟩, ⟨16, 16, .ro, 0, true⟩]⟩,
   ⟨0x48, 1, 4, false, fun _ _ => [⟨0, 1, .ro, 0, false⟩, ⟨1, 1, .ro, 0, false⟩, ⟨2, 30, .ro, 0, true⟩]⟩,
   ⟨0x4C, 1, 4, false, fun _ _ => [⟨0, 13, .ro, 0, false⟩, ⟨13, 3, .ro, 0, true⟩, ⟨16, 13, .ro, 0, false⟩, ⟨29, 3, .ro, 0, true⟩]⟩,
   ⟨0x50, 1, 4, false, fun _ _ => [⟨0, 14, .ro, 0, false⟩, ⟨14, 18, .ro, 0, true⟩]⟩,
   ⟨0x54, 1, 4, false, fun _ _ => [⟨0, 13, .ro, 0, false⟩, ⟨13, 3, .ro, 0, true⟩, ⟨16, 13, .ro, 0, false⟩, ⟨29, 3, .ro, 0, true⟩]⟩,
   ⟨0x58, 1, 4, false, fun _ _ => [⟨0, 17, .ro, 0, false⟩, ⟨17, 15, .ro, 0, true⟩]⟩,
   ⟨0x5C, 1, 4, false, fun _ _ => [⟨0, 13, .ro, 0, false⟩, ⟨13, 3, .ro, 0, true⟩, ⟨16, 13, .ro, 0, false⟩, ⟨29, 3, .ro, 0, true⟩]⟩,
   ⟨0x60, 1, 4, false, fun _ _ => [⟨0, 13, .ro, 0, false⟩, ⟨13, 3, .ro, 0, true⟩, ⟨16, 13, .ro, 0, false⟩, ⟨29, 3, .ro, 0, true⟩]⟩,
   ⟨0x64, 1, 4, false, fun _ _ => [⟨0, 16, .ro, 0xFFFF, false⟩, ⟨16, 16, .ro, 0, true⟩]⟩,
   ⟨0x68, 1, 4, false, fun _ _ => [⟨0, 32, .rw, 0, false⟩]⟩,
   ⟨0x6C, 1, 4, false, fun _ _ => [⟨0, 1, .ro, 0, false⟩, ⟨1, 1, .ro, 0, false⟩, ⟨2, 30, .ro, 0, true⟩]⟩,
   ⟨0x70, 1, 4, false, fun _ _ => [⟨0, 6, .ro, 0, false⟩, ⟨6, 1, .ro, 0, false⟩, ⟨7, 25, .ro, 0, true⟩]⟩,
   ⟨0x74, 1, 4, false, fun _ _ => [⟨0, 9, .ro, 0, false⟩, ⟨9, 23, .ro, 0, true⟩]⟩,
   ⟨0x78, 1, 4, false, fun _ _ => [⟨0, 9, .rw, 0, false⟩, ⟨9, 23, .ro, 0, true⟩]⟩,
   ⟨0x7C, 1, 4, false, fun _ _ => [⟨0, 16, .ro, 0, false⟩, ⟨16, 15, .ro, 0, true⟩, ⟨31, 1, .wo, 0, false⟩]⟩,
   ⟨0x800, 512, 4, false, fun _ _ => [⟨0, 32, .ro, 0, false⟩]⟩,
   ⟨0x28, 1, 4, false, fun _ _ => [⟨0, 1, .wo, 0, false⟩, ⟨1, 1, .wo, 0, false⟩, ⟨2, 30, .wo, 0, true⟩]⟩]

/-! ### Page ROUTE -/

/-- ROUTE.CFG.KEEP, R63. -/
def Reg.ROUTE.CFG.KEEP : Fld := Fld.mk' (0xB) (0x40) 0 1 1
/-- ROUTE.STAT.BUSY, R63. -/
def Reg.ROUTE.STAT.BUSY : Fld := Fld.mk' (0xB) (0x44) 0 1 0
/-- ROUTE.LAST_MOVED.MOVED, R63. -/
def Reg.ROUTE.LAST_MOVED.MOVED : Fld := Fld.mk' (0xB) (0x48) 0 15 0
/-- ROUTE.LAST_BLANK.HALF, R63. -/
def Reg.ROUTE.LAST_BLANK.HALF : Fld := Fld.mk' (0xB) (0x4C) 0 11 0
/-- ROUTE.LAST_BLANK.BLANKED, R63. -/
def Reg.ROUTE.LAST_BLANK.BLANKED : Fld := Fld.mk' (0xB) (0x4C) 16 11 0
/-- ROUTE.LAST_CYC.CYCLES, R63. -/
def Reg.ROUTE.LAST_CYC.CYCLES : Fld := Fld.mk' (0xB) (0x50) 0 16 0
/-- ROUTE.TRY.SLOT, R63. -/
def Reg.ROUTE.TRY.SLOT : Fld := Fld.mk' (0xB) (0x54) 0 5 0
/-- ROUTE.TRY.GO, R63. -/
def Reg.ROUTE.TRY.GO : Fld := Fld.mk' (0xB) (0x54) 31 1 0
/-- ROUTE.COMMIT.SLOTS, R63. -/
def Reg.ROUTE.COMMIT.SLOTS : Fld := Fld.mk' (0xB) (0x28) 0 32 0

/-- The registers of page ROUTE. -/
def Reg.ROUTE.rows : List RegRow :=
  [⟨0x40, 1, 4, false, fun _ _ => [⟨0, 1, .rw, 1, false⟩, ⟨1, 31, .ro, 0, true⟩]⟩,
   ⟨0x44, 1, 4, false, fun _ _ => [⟨0, 1, .ro, 0, false⟩, ⟨1, 31, .ro, 0, true⟩]⟩,
   ⟨0x48, 1, 4, false, fun _ _ => [⟨0, 15, .ro, 0, false⟩, ⟨15, 17, .ro, 0, true⟩]⟩,
   ⟨0x4C, 1, 4, false, fun _ _ => [⟨0, 11, .ro, 0, false⟩, ⟨11, 5, .ro, 0, true⟩, ⟨16, 11, .ro, 0, false⟩, ⟨27, 5, .ro, 0, true⟩]⟩,
   ⟨0x50, 1, 4, false, fun _ _ => [⟨0, 16, .ro, 0, false⟩, ⟨16, 16, .ro, 0, true⟩]⟩,
   ⟨0x54, 1, 4, false, fun _ _ => [⟨0, 5, .rw, 0, false⟩, ⟨5, 26, .ro, 0, true⟩, ⟨31, 1, .wo, 0, false⟩]⟩,
   ⟨0x28, 1, 4, false, fun _ _ => [⟨0, 32, .wo, 0, false⟩]⟩]

/-! ### Page FABRIC -/

/-- FABRIC.CFG.ROLE, R63. -/
def Reg.FABRIC.CFG.ROLE : Fld := Fld.mk' (0xC) (0x40) 0 2 0
/-- FABRIC.CFG.MID_IDX, R63. -/
def Reg.FABRIC.CFG.MID_IDX : Fld := Fld.mk' (0xC) (0x40) 2 2 0
/-- FABRIC.CFG.SIZE, R63. -/
def Reg.FABRIC.CFG.SIZE : Fld := Fld.mk' (0xC) (0x40) 4 2 0
/-- FABRIC.TBL_STAT.FIRST_BAD, R63. -/
def Reg.FABRIC.TBL_STAT.FIRST_BAD : Fld := Fld.mk' (0xC) (0x44) 0 13 0
/-- FABRIC.TBL_STAT.BAD, R63. -/
def Reg.FABRIC.TBL_STAT.BAD : Fld := Fld.mk' (0xC) (0x44) 13 1 0
/-- FABRIC.TBL_STAT.BAD_COUNT, R63. -/
def Reg.FABRIC.TBL_STAT.BAD_COUNT : Fld := Fld.mk' (0xC) (0x44) 16 13 0
/-- FABRIC.TBL_STAT.CAUSE, R63. -/
def Reg.FABRIC.TBL_STAT.CAUSE : Fld := Fld.mk' (0xC) (0x44) 29 3 0
/-- FABRIC.STATE_SEL.E, R63. -/
def Reg.FABRIC.STATE_SEL.E : Fld := Fld.mk' (0xC) (0x48) 0 13 0
/-- FABRIC.STATE_RD.LIVE, R63. -/
def Reg.FABRIC.STATE_RD.LIVE : Fld := Fld.mk' (0xC) (0x4C) 0 8 0x00
/-- FABRIC.STATE_RD.NEXT, R63. -/
def Reg.FABRIC.STATE_RD.NEXT : Fld := Fld.mk' (0xC) (0x4C) 8 8 0x00
/-- FABRIC.COMMIT.TABLE, R63. -/
def Reg.FABRIC.COMMIT.TABLE : Fld := Fld.mk' (0xC) (0x28) 0 1 0

/-- The registers of page FABRIC. -/
def Reg.FABRIC.rows : List RegRow :=
  [⟨0x40, 1, 4, false, fun _ _ => [⟨0, 2, .rw, 0, false⟩, ⟨2, 2, .rw, 0, false⟩, ⟨4, 2, .rw, 0, false⟩, ⟨6, 26, .ro, 0, true⟩]⟩,
   ⟨0x44, 1, 4, false, fun _ _ => [⟨0, 13, .ro, 0, false⟩, ⟨13, 1, .ro, 0, false⟩, ⟨14, 2, .ro, 0, true⟩, ⟨16, 13, .ro, 0, false⟩, ⟨29, 3, .ro, 0, false⟩]⟩,
   ⟨0x48, 1, 4, false, fun _ _ => [⟨0, 13, .rw, 0, false⟩, ⟨13, 19, .ro, 0, true⟩]⟩,
   ⟨0x4C, 1, 4, false, fun _ _ => [⟨0, 8, .ro, 0x00, false⟩, ⟨8, 8, .ro, 0x00, false⟩, ⟨16, 16, .ro, 0, true⟩]⟩,
   ⟨0x28, 1, 4, false, fun _ _ => [⟨0, 1, .wo, 0, false⟩]⟩]

/-! ### Page EVT -/

/-- EVT.CFG.INTN_EN, R376. -/
def Reg.EVT.CFG.INTN_EN : Fld := Fld.mk' (0x10) (0x40) 0 1 0
/-- EVT.CFG.HOLDOFF, R376. -/
def Reg.EVT.CFG.HOLDOFF : Fld := Fld.mk' (0x10) (0x40) 1 8 1
/-- EVT.PEND0.GROUPS, R376. -/
def Reg.EVT.PEND0.GROUPS : Fld := Fld.mk' (0x10) (0x44) 0 32 0
/-- EVT.PEND1.GROUPS, R376. -/
def Reg.EVT.PEND1.GROUPS : Fld := Fld.mk' (0x10) (0x48) 0 4 0
/-- EVT.CLASS_ACT.CLASSES, R376. -/
def Reg.EVT.CLASS_ACT.CLASSES : Fld := Fld.mk' (0x10) (0x4C) 0 5 0
/-- EVT.CNT_CLR.CLEAR, R376. -/
def Reg.EVT.CNT_CLR.CLEAR : Fld := Fld.mk' (0x10) (0x50) 0 1 0
/-- EVT.GRP_LATCH.LATCH, R376. -/
def Reg.EVT.GRP_LATCH.LATCH (i : Nat) : Fld := Fld.mk' (0x10) (0x100 + 4 * i) 0 32 0
/-- EVT.GRP_MASK.MASK, R376. -/
def Reg.EVT.GRP_MASK.MASK (i : Nat) : Fld := Fld.mk' (0x10) (0x200 + 4 * i) 0 32 0xFFFFFFFF
/-- EVT.GRP_RAW.RAW, R376. -/
def Reg.EVT.GRP_RAW.RAW (i : Nat) : Fld := Fld.mk' (0x10) (0x300 + 4 * i) 0 32 0
/-- EVT.CNT.COUNT, R376. -/
def Reg.EVT.CNT.COUNT (i : Nat) : Fld := Fld.mk' (0x10) (0x400 + 4 * i) 0 32 0

/-- The registers of page EVT. -/
def Reg.EVT.rows : List RegRow :=
  [⟨0x40, 1, 4, false, fun _ _ => [⟨0, 1, .rw, 0, false⟩, ⟨1, 8, .rw, 1, false⟩, ⟨9, 23, .ro, 0, true⟩]⟩,
   ⟨0x44, 1, 4, false, fun _ _ => [⟨0, 32, .ro, 0, false⟩]⟩,
   ⟨0x48, 1, 4, false, fun _ _ => [⟨0, 4, .ro, 0, false⟩, ⟨4, 28, .ro, 0, true⟩]⟩,
   ⟨0x4C, 1, 4, false, fun _ _ => [⟨0, 5, .ro, 0, false⟩, ⟨5, 27, .ro, 0, true⟩]⟩,
   ⟨0x50, 1, 4, false, fun _ _ => [⟨0, 1, .wo, 0, false⟩, ⟨1, 31, .wo, 0, true⟩]⟩,
   ⟨0x100, 36, 4, false, fun _ _ => [⟨0, 32, .w1c, 0, false⟩]⟩,
   ⟨0x200, 36, 4, false, fun _ _ => [⟨0, 32, .rw, 0xFFFFFFFF, false⟩]⟩,
   ⟨0x300, 36, 4, false, fun _ _ => [⟨0, 32, .ro, 0, false⟩]⟩,
   ⟨0x400, 288, 4, false, fun _ _ => [⟨0, 32, .ro, 0, false⟩]⟩]

/-! ### Page REACT -/

/-- REACT.CTL.LOCK, R377. -/
def Reg.REACT.CTL.LOCK : Fld := Fld.mk' (0x11) (0x40) 0 1 0
/-- REACT.TABLE.ENTRY, R377. -/
def Reg.REACT.TABLE.ENTRY (i : Nat) : Fld := Fld.mk' (0x11) (0x400 + 4 * i) 0 32 0

/-- The registers of page REACT. -/
def Reg.REACT.rows : List RegRow :=
  [⟨0x40, 1, 4, false, fun _ _ => [⟨0, 1, .rw1, 0, false⟩, ⟨1, 31, .ro, 0, true⟩]⟩,
   ⟨0x400, 288, 4, false, fun _ _ => [⟨0, 32, .rw, 0, false⟩]⟩]

/-! ### Page FCAP -/

/-- FCAP.CTL.CLEAR, R378. -/
def Reg.FCAP.CTL.CLEAR : Fld := Fld.mk' (0x12) (0x40) 0 1 0
/-- FCAP.STAT.VALID, R378. -/
def Reg.FCAP.STAT.VALID : Fld := Fld.mk' (0x12) (0x44) 0 1 0
/-- FCAP.STAT.MERGED, R378. -/
def Reg.FCAP.STAT.MERGED : Fld := Fld.mk' (0x12) (0x44) 1 1 0
/-- FCAP.STAT.MERGE_CNT, R378. -/
def Reg.FCAP.STAT.MERGE_CNT : Fld := Fld.mk' (0x12) (0x44) 16 16 0
/-- FCAP.SRC.SOURCE, R378. -/
def Reg.FCAP.SRC.SOURCE : Fld := Fld.mk' (0x12) (0x48) 0 11 0
/-- FCAP.SRC.CLASS, R378. -/
def Reg.FCAP.SRC.CLASS : Fld := Fld.mk' (0x12) (0x48) 11 3 0
/-- FCAP.SRC.MASTER, R378. -/
def Reg.FCAP.SRC.MASTER : Fld := Fld.mk' (0x12) (0x48) 14 3 0
/-- FCAP.SRC.ACCESS, R378. -/
def Reg.FCAP.SRC.ACCESS : Fld := Fld.mk' (0x12) (0x48) 17 2 0
/-- FCAP.ADDR.ADDR, R378. -/
def Reg.FCAP.ADDR.ADDR : Fld := Fld.mk' (0x12) (0x4C) 0 32 0
/-- FCAP.T_NS.NS, R378. -/
def Reg.FCAP.T_NS.NS : Fld := Fld.mk' (0x12) (0x50) 0 32 0
/-- FCAP.T_SLO.SEC, R378. -/
def Reg.FCAP.T_SLO.SEC : Fld := Fld.mk' (0x12) (0x54) 0 32 0
/-- FCAP.T_SHI.SEC, R378. -/
def Reg.FCAP.T_SHI.SEC : Fld := Fld.mk' (0x12) (0x58) 0 16 0
/-- FCAP.MERGED_GRP0.GROUPS, R378. -/
def Reg.FCAP.MERGED_GRP0.GROUPS : Fld := Fld.mk' (0x12) (0x5C) 0 32 0
/-- FCAP.MERGED_GRP1.GROUPS, R378. -/
def Reg.FCAP.MERGED_GRP1.GROUPS : Fld := Fld.mk' (0x12) (0x60) 0 4 0

/-- The registers of page FCAP. -/
def Reg.FCAP.rows : List RegRow :=
  [⟨0x40, 1, 4, false, fun _ _ => [⟨0, 1, .wo, 0, false⟩, ⟨1, 31, .wo, 0, true⟩]⟩,
   ⟨0x44, 1, 4, false, fun _ _ => [⟨0, 1, .ro, 0, false⟩, ⟨1, 1, .ro, 0, false⟩, ⟨2, 14, .ro, 0, true⟩, ⟨16, 16, .ro, 0, false⟩]⟩,
   ⟨0x48, 1, 4, false, fun _ _ => [⟨0, 11, .ro, 0, false⟩, ⟨11, 3, .ro, 0, false⟩, ⟨14, 3, .ro, 0, false⟩, ⟨17, 2, .ro, 0, false⟩, ⟨19, 13, .ro, 0, true⟩]⟩,
   ⟨0x4C, 1, 4, false, fun _ _ => [⟨0, 32, .ro, 0, false⟩]⟩,
   ⟨0x50, 1, 4, false, fun _ _ => [⟨0, 32, .ro, 0, false⟩]⟩,
   ⟨0x54, 1, 4, false, fun _ _ => [⟨0, 32, .ro, 0, false⟩]⟩,
   ⟨0x58, 1, 4, false, fun _ _ => [⟨0, 16, .ro, 0, false⟩, ⟨16, 16, .ro, 0, true⟩]⟩,
   ⟨0x5C, 1, 4, false, fun _ _ => [⟨0, 32, .ro, 0, false⟩]⟩,
   ⟨0x60, 1, 4, false, fun _ _ => [⟨0, 4, .ro, 0, false⟩, ⟨4, 28, .ro, 0, true⟩]⟩]

/-! ### Page ALIVE -/

/-- ALIVE.CFG.WD_EN, R379. -/
def Reg.ALIVE.CFG.WD_EN : Fld := Fld.mk' (0x13) (0x40) 0 1 0
/-- ALIVE.CFG.WD_MS, R379. -/
def Reg.ALIVE.CFG.WD_MS : Fld := Fld.mk' (0x13) (0x40) 1 16 100
/-- ALIVE.KICK.KICK, R379. -/
def Reg.ALIVE.KICK.KICK : Fld := Fld.mk' (0x13) (0x44) 0 1 0
/-- ALIVE.STAT.LEVEL, R379. -/
def Reg.ALIVE.STAT.LEVEL : Fld := Fld.mk' (0x13) (0x48) 0 1 0
/-- ALIVE.STAT.TOGGLING, R379. -/
def Reg.ALIVE.STAT.TOGGLING : Fld := Fld.mk' (0x13) (0x48) 1 1 0
/-- ALIVE.STAT.STOP_EVT, R379. -/
def Reg.ALIVE.STAT.STOP_EVT : Fld := Fld.mk' (0x13) (0x48) 2 1 0
/-- ALIVE.STAT.STOP_MODE, R379. -/
def Reg.ALIVE.STAT.STOP_MODE : Fld := Fld.mk' (0x13) (0x48) 3 1 1
/-- ALIVE.STAT.STOP_WD, R379. -/
def Reg.ALIVE.STAT.STOP_WD : Fld := Fld.mk' (0x13) (0x48) 4 1 0

/-- The registers of page ALIVE. -/
def Reg.ALIVE.rows : List RegRow :=
  [⟨0x40, 1, 4, false, fun _ _ => [⟨0, 1, .rw, 0, false⟩, ⟨1, 16, .rw, 100, false⟩, ⟨17, 15, .ro, 0, true⟩]⟩,
   ⟨0x44, 1, 4, false, fun _ _ => [⟨0, 1, .wo, 0, false⟩, ⟨1, 31, .wo, 0, true⟩]⟩,
   ⟨0x48, 1, 4, false, fun _ _ => [⟨0, 1, .ro, 0, false⟩, ⟨1, 1, .ro, 0, false⟩, ⟨2, 1, .ro, 0, false⟩, ⟨3, 1, .ro, 1, false⟩, ⟨4, 1, .ro, 0, false⟩, ⟨5, 27, .ro, 0, true⟩]⟩]

/-! ### Page THERM -/

/-- THERM.PD_THR0.WARN, R396. -/
def Reg.THERM.PD_THR0.WARN : Fld := Fld.mk' (0x14) (0x40) 0 16 8500
/-- THERM.PD_THR0.LIMIT, R396. -/
def Reg.THERM.PD_THR0.LIMIT : Fld := Fld.mk' (0x14) (0x40) 16 16 9500
/-- THERM.PD_THR1.SHUT, R396. -/
def Reg.THERM.PD_THR1.SHUT : Fld := Fld.mk' (0x14) (0x44) 0 16 10500
/-- THERM.CTRL_THR.WARN, R396. -/
def Reg.THERM.CTRL_THR.WARN : Fld := Fld.mk' (0x14) (0x48) 0 8 95
/-- THERM.CTRL_THR.LIMIT, R396. -/
def Reg.THERM.CTRL_THR.LIMIT : Fld := Fld.mk' (0x14) (0x48) 8 8 105
/-- THERM.CTRL_THR.SHUT, R396. -/
def Reg.THERM.CTRL_THR.SHUT : Fld := Fld.mk' (0x14) (0x48) 16 8 115
/-- THERM.LEVEL.CTRL, R396. -/
def Reg.THERM.LEVEL.CTRL : Fld := Fld.mk' (0x14) (0x4C) 0 2 0
/-- THERM.LEVEL.PD, R396. -/
def Reg.THERM.LEVEL.PD : Fld := Fld.mk' (0x14) (0x4C) 2 2 0
/-- THERM.LEVEL.LIMIT_REQ, R396. -/
def Reg.THERM.LEVEL.LIMIT_REQ : Fld := Fld.mk' (0x14) (0x4C) 4 1 0
/-- THERM.LEVEL.BLIND_C, R396. -/
def Reg.THERM.LEVEL.BLIND_C : Fld := Fld.mk' (0x14) (0x4C) 5 1 0
/-- THERM.LEVEL.BLIND_P, R396. -/
def Reg.THERM.LEVEL.BLIND_P : Fld := Fld.mk' (0x14) (0x4C) 6 1 0
/-- THERM.HOT_CTRL.T, R396. -/
def Reg.THERM.HOT_CTRL.T : Fld := Fld.mk' (0x14) (0x50) 0 16 0
/-- THERM.HOT_CTRL.REGION, R396. -/
def Reg.THERM.HOT_CTRL.REGION : Fld := Fld.mk' (0x14) (0x50) 16 3 0
/-- THERM.HOT_PD.T, R396. -/
def Reg.THERM.HOT_PD.T : Fld := Fld.mk' (0x14) (0x54) 0 16 0
/-- THERM.HOT_PD.REGION, R396. -/
def Reg.THERM.HOT_PD.REGION : Fld := Fld.mk' (0x14) (0x54) 16 4 0
/-- THERM.EXCL0.DIODE, R396. -/
def Reg.THERM.EXCL0.DIODE : Fld := Fld.mk' (0x14) (0x58) 0 24 0
/-- THERM.EXCL1.RTD, R396. -/
def Reg.THERM.EXCL1.RTD : Fld := Fld.mk' (0x14) (0x5C) 0 32 0
/-- THERM.EXCL2.RTD, R396. -/
def Reg.THERM.EXCL2.RTD : Fld := Fld.mk' (0x14) (0x60) 0 32 0
/-- THERM.SUBST.CTRL, R396. -/
def Reg.THERM.SUBST.CTRL : Fld := Fld.mk' (0x14) (0x64) 0 6 0
/-- THERM.SUBST.PD, R396. -/
def Reg.THERM.SUBST.PD : Fld := Fld.mk' (0x14) (0x64) 16 16 0
/-- THERM.SHUT_CLR.CLR, R396. -/
def Reg.THERM.SHUT_CLR.CLR : Fld := Fld.mk' (0x14) (0x68) 0 1 0
/-- THERM.PEAK.CTRL, R396. -/
def Reg.THERM.PEAK.CTRL : Fld := Fld.mk' (0x14) (0x6C) 0 16 0x8000
/-- THERM.PEAK.PD, R396. -/
def Reg.THERM.PEAK.PD : Fld := Fld.mk' (0x14) (0x6C) 16 16 0x8000
/-- THERM.SENSOR.T, R396. -/
def Reg.THERM.SENSOR.T (i : Nat) : Fld := Fld.mk' (0x14) (0x100 + 4 * i) 0 16 0
/-- THERM.SENSOR.OUT, R396. -/
def Reg.THERM.SENSOR.OUT (i : Nat) : Fld := Fld.mk' (0x14) (0x100 + 4 * i) 16 1 0
/-- THERM.SENSOR.DEV, R396. -/
def Reg.THERM.SENSOR.DEV (i : Nat) : Fld := Fld.mk' (0x14) (0x100 + 4 * i) 17 1 0
/-- THERM.SENSOR.EXCLUDED, R396. -/
def Reg.THERM.SENSOR.EXCLUDED (i : Nat) : Fld := Fld.mk' (0x14) (0x100 + 4 * i) 18 1 0
/-- THERM.SENSOR.BAD, R396. -/
def Reg.THERM.SENSOR.BAD (i : Nat) : Fld := Fld.mk' (0x14) (0x100 + 4 * i) 19 3 0
/-- THERM.RTD_MAP.REGION, R396. -/
def Reg.THERM.RTD_MAP.REGION (i : Nat) : Fld := Fld.mk' (0x14) (0x300 + 4 * i) 0 4 (i / 4)
/-- THERM.RTD_MAP.NBR0, R396. -/
def Reg.THERM.RTD_MAP.NBR0 (i : Nat) : Fld := Fld.mk' (0x14) (0x300 + 4 * i) 4 6 (rtdNbrReset i 0)
/-- THERM.RTD_MAP.NBR1, R396. -/
def Reg.THERM.RTD_MAP.NBR1 (i : Nat) : Fld := Fld.mk' (0x14) (0x300 + 4 * i) 10 6 (rtdNbrReset i 1)
/-- THERM.RTD_MAP.NBR2, R396. -/
def Reg.THERM.RTD_MAP.NBR2 (i : Nat) : Fld := Fld.mk' (0x14) (0x300 + 4 * i) 16 6 (rtdNbrReset i 2)
/-- THERM.RTD_MAP.NBR3, R396. -/
def Reg.THERM.RTD_MAP.NBR3 (i : Nat) : Fld := Fld.mk' (0x14) (0x300 + 4 * i) 22 6 (rtdNbrReset i 3)
/-- THERM.RTD_MAP.VALID, R396. -/
def Reg.THERM.RTD_MAP.VALID (i : Nat) : Fld := Fld.mk' (0x14) (0x300 + 4 * i) 28 4 7
/-- THERM.REGION_NBR.NBR, R396. -/
def Reg.THERM.REGION_NBR.NBR (i : Nat) : Fld := Fld.mk' (0x14) (0x400 + 4 * i) 0 16 (regionNbrReset i)
/-- THERM.REGION_T.T, R396. -/
def Reg.THERM.REGION_T.T (i : Nat) : Fld := Fld.mk' (0x14) (0x440 + 4 * i) 0 16 0
/-- THERM.REGION_T.SENSOR, R396. -/
def Reg.THERM.REGION_T.SENSOR (i : Nat) : Fld := Fld.mk' (0x14) (0x440 + 4 * i) 16 8 0xFF
/-- THERM.REGION_T.SUBST, R396. -/
def Reg.THERM.REGION_T.SUBST (i : Nat) : Fld := Fld.mk' (0x14) (0x440 + 4 * i) 24 1 0
/-- THERM.REGION_T.EMPTY, R396. -/
def Reg.THERM.REGION_T.EMPTY (i : Nat) : Fld := Fld.mk' (0x14) (0x440 + 4 * i) 25 1 0
/-- THERM.CREGION_T.T, R396. -/
def Reg.THERM.CREGION_T.T (i : Nat) : Fld := Fld.mk' (0x14) (0x480 + 4 * i) 0 16 0
/-- THERM.CREGION_T.SENSOR, R396. -/
def Reg.THERM.CREGION_T.SENSOR (i : Nat) : Fld := Fld.mk' (0x14) (0x480 + 4 * i) 16 8 0
/-- THERM.CREGION_T.SUBST, R396. -/
def Reg.THERM.CREGION_T.SUBST (i : Nat) : Fld := Fld.mk' (0x14) (0x480 + 4 * i) 24 1 0
/-- THERM.CREGION_T.EMPTY, R396. -/
def Reg.THERM.CREGION_T.EMPTY (i : Nat) : Fld := Fld.mk' (0x14) (0x480 + 4 * i) 25 1 0

/-- The registers of page THERM. -/
def Reg.THERM.rows : List RegRow :=
  [⟨0x40, 1, 4, false, fun _ _ => [⟨0, 16, .rw, 8500, false⟩, ⟨16, 16, .rw, 9500, false⟩]⟩,
   ⟨0x44, 1, 4, false, fun _ _ => [⟨0, 16, .rw, 10500, false⟩, ⟨16, 16, .ro, 0, true⟩]⟩,
   ⟨0x48, 1, 4, false, fun _ _ => [⟨0, 8, .ro, 95, false⟩, ⟨8, 8, .ro, 105, false⟩, ⟨16, 8, .ro, 115, false⟩, ⟨24, 8, .ro, 0, true⟩]⟩,
   ⟨0x4C, 1, 4, false, fun _ _ => [⟨0, 2, .ro, 0, false⟩, ⟨2, 2, .ro, 0, false⟩, ⟨4, 1, .ro, 0, false⟩, ⟨5, 1, .ro, 0, false⟩, ⟨6, 1, .ro, 0, false⟩, ⟨7, 25, .ro, 0, true⟩]⟩,
   ⟨0x50, 1, 4, false, fun _ _ => [⟨0, 16, .ro, 0, false⟩, ⟨16, 3, .ro, 0, false⟩, ⟨19, 13, .ro, 0, true⟩]⟩,
   ⟨0x54, 1, 4, false, fun _ _ => [⟨0, 16, .ro, 0, false⟩, ⟨16, 4, .ro, 0, false⟩, ⟨20, 12, .ro, 0, true⟩]⟩,
   ⟨0x58, 1, 4, false, fun _ _ => [⟨0, 24, .w1c, 0, false⟩, ⟨24, 8, .ro, 0, true⟩]⟩,
   ⟨0x5C, 1, 4, false, fun _ _ => [⟨0, 32, .w1c, 0, false⟩]⟩,
   ⟨0x60, 1, 4, false, fun _ _ => [⟨0, 32, .w1c, 0, false⟩]⟩,
   ⟨0x64, 1, 4, false, fun _ _ => [⟨0, 6, .ro, 0, false⟩, ⟨6, 10, .ro, 0, true⟩, ⟨16, 16, .ro, 0, false⟩]⟩,
   ⟨0x68, 1, 4, false, fun _ _ => [⟨0, 1, .wo, 0, false⟩, ⟨1, 31, .wo, 0, true⟩]⟩,
   ⟨0x6C, 1, 4, false, fun _ _ => [⟨0, 16, .ro, 0x8000, false⟩, ⟨16, 16, .ro, 0x8000, false⟩]⟩,
   ⟨0x100, 88, 4, false, fun _ _ => [⟨0, 16, .ro, 0, false⟩, ⟨16, 1, .ro, 0, false⟩, ⟨17, 1, .ro, 0, false⟩, ⟨18, 1, .ro, 0, false⟩, ⟨19, 3, .ro, 0, false⟩, ⟨22, 10, .ro, 0, true⟩]⟩,
   ⟨0x300, 64, 4, false, fun _ i => [⟨0, 4, .rw, (i / 4), false⟩, ⟨4, 6, .rw, (rtdNbrReset i 0), false⟩, ⟨10, 6, .rw, (rtdNbrReset i 1), false⟩, ⟨16, 6, .rw, (rtdNbrReset i 2), false⟩, ⟨22, 6, .rw, (rtdNbrReset i 3), false⟩, ⟨28, 4, .rw, 7, false⟩]⟩,
   ⟨0x400, 16, 4, false, fun _ i => [⟨0, 16, .rw, (regionNbrReset i), false⟩, ⟨16, 16, .ro, 0, true⟩]⟩,
   ⟨0x440, 16, 4, false, fun _ _ => [⟨0, 16, .ro, 0, false⟩, ⟨16, 8, .ro, 0xFF, false⟩, ⟨24, 1, .ro, 0, false⟩, ⟨25, 1, .ro, 0, false⟩, ⟨26, 6, .ro, 0, true⟩]⟩,
   ⟨0x480, 6, 4, false, fun _ _ => [⟨0, 16, .ro, 0, false⟩, ⟨16, 8, .ro, 0, false⟩, ⟨24, 1, .ro, 0, false⟩, ⟨25, 1, .ro, 0, false⟩, ⟨26, 6, .ro, 0, true⟩]⟩]

/-! ### Page HK -/

/-- HK.ROUND.COUNT, R397. -/
def Reg.HK.ROUND.COUNT : Fld := Fld.mk' (0x15) (0x40) 0 32 0
/-- HK.STAT.SUPPLY_BAD, R397. -/
def Reg.HK.STAT.SUPPLY_BAD : Fld := Fld.mk' (0x15) (0x44) 0 1 0
/-- HK.STAT.CHAN, R397. -/
def Reg.HK.STAT.CHAN : Fld := Fld.mk' (0x15) (0x44) 1 7 0
/-- HK.SUP.VALUE, R397. -/
def Reg.HK.SUP.VALUE (i : Nat) : Fld := Fld.mk' (0x15) (0x100 + 4 * i) 0 16 0
/-- HK.SUP.OUT, R397. -/
def Reg.HK.SUP.OUT (i : Nat) : Fld := Fld.mk' (0x15) (0x100 + 4 * i) 16 1 0

/-- The registers of page HK. -/
def Reg.HK.rows : List RegRow :=
  [⟨0x40, 1, 4, false, fun _ _ => [⟨0, 32, .ro, 0, false⟩]⟩,
   ⟨0x44, 1, 4, false, fun _ _ => [⟨0, 1, .ro, 0, false⟩, ⟨1, 7, .ro, 0, false⟩, ⟨8, 24, .ro, 0, true⟩]⟩,
   ⟨0x100, 40, 4, false, fun _ _ => [⟨0, 16, .ro, 0, false⟩, ⟨16, 1, .ro, 0, false⟩, ⟨17, 15, .ro, 0, true⟩]⟩]

/-! ### Page NVM -/

/-- NVM.STAT.BUSY, R380. -/
def Reg.NVM.STAT.BUSY : Fld := Fld.mk' (0x16) (0x40) 0 1 0
/-- NVM.STAT.KEY_SET, R380. -/
def Reg.NVM.STAT.KEY_SET : Fld := Fld.mk' (0x16) (0x40) 1 1 0
/-- NVM.STAT.FAIL, R380. -/
def Reg.NVM.STAT.FAIL : Fld := Fld.mk' (0x16) (0x40) 2 1 0
/-- NVM.LOG_SEQ.SEQN, R380. -/
def Reg.NVM.LOG_SEQ.SEQN : Fld := Fld.mk' (0x16) (0x44) 0 32 0
/-- NVM.LOG_COUNT.COUNT, R380. -/
def Reg.NVM.LOG_COUNT.COUNT : Fld := Fld.mk' (0x16) (0x48) 0 9 0
/-- NVM.WEAR.WRITES, R380. -/
def Reg.NVM.WEAR.WRITES : Fld := Fld.mk' (0x16) (0x4C) 0 17 0
/-- NVM.WIN.BLOCK, R380. -/
def Reg.NVM.WIN.BLOCK : Fld := Fld.mk' (0x16) (0x50) 0 3 0
/-- NVM.KEY.KEY, R380. -/
def Reg.NVM.KEY.KEY (i : Nat) : Fld := Fld.mk' (0x16) (0x60 + 4 * i) 0 32 0
/-- NVM.KEY_CTL.PROG, R380. -/
def Reg.NVM.KEY_CTL.PROG : Fld := Fld.mk' (0x16) (0x80) 0 1 0
/-- NVM.WIN_DATA.DATA, R380. -/
def Reg.NVM.WIN_DATA.DATA (i : Nat) : Fld := Fld.mk' (0x16) (0x800 + 4 * i) 0 32 0

/-- The registers of page NVM. -/
def Reg.NVM.rows : List RegRow :=
  [⟨0x40, 1, 4, false, fun _ _ => [⟨0, 1, .ro, 0, false⟩, ⟨1, 1, .ro, 0, false⟩, ⟨2, 1, .ro, 0, false⟩, ⟨3, 29, .ro, 0, true⟩]⟩,
   ⟨0x44, 1, 4, false, fun _ _ => [⟨0, 32, .ro, 0, false⟩]⟩,
   ⟨0x48, 1, 4, false, fun _ _ => [⟨0, 9, .ro, 0, false⟩, ⟨9, 23, .ro, 0, true⟩]⟩,
   ⟨0x4C, 1, 4, false, fun _ _ => [⟨0, 17, .ro, 0, false⟩, ⟨17, 15, .ro, 0, true⟩]⟩,
   ⟨0x50, 1, 4, false, fun _ _ => [⟨0, 3, .rw, 0, false⟩, ⟨3, 29, .ro, 0, true⟩]⟩,
   ⟨0x60, 8, 4, false, fun _ _ => [⟨0, 32, .wo, 0, false⟩]⟩,
   ⟨0x80, 1, 4, false, fun _ _ => [⟨0, 1, .wo, 0, false⟩, ⟨1, 31, .wo, 0, true⟩]⟩,
   ⟨0x800, 512, 4, false, fun _ _ => [⟨0, 32, .ro, 0, false⟩]⟩]

/-! ### Page XBAR -/

/-- XBAR.QOS0.M0, R418. -/
def Reg.XBAR.QOS0.M0 : Fld := Fld.mk' (0x18) (0x40) 0 4 8
/-- XBAR.QOS0.M1, R418. -/
def Reg.XBAR.QOS0.M1 : Fld := Fld.mk' (0x18) (0x40) 4 4 10
/-- XBAR.QOS0.M2, R418. -/
def Reg.XBAR.QOS0.M2 : Fld := Fld.mk' (0x18) (0x40) 8 4 15
/-- XBAR.QOS0.M3, R418. -/
def Reg.XBAR.QOS0.M3 : Fld := Fld.mk' (0x18) (0x40) 12 4 14
/-- XBAR.QOS0.M4, R418. -/
def Reg.XBAR.QOS0.M4 : Fld := Fld.mk' (0x18) (0x40) 16 4 6
/-- XBAR.QOS0.M5, R418. -/
def Reg.XBAR.QOS0.M5 : Fld := Fld.mk' (0x18) (0x40) 20 4 12
/-- XBAR.QOS0.M6, R418. -/
def Reg.XBAR.QOS0.M6 : Fld := Fld.mk' (0x18) (0x40) 24 4 8
/-- XBAR.SLICE.MST, R418. -/
def Reg.XBAR.SLICE.MST : Fld := Fld.mk' (0x18) (0x44) 0 7 0
/-- XBAR.SLICE.TGT, R418. -/
def Reg.XBAR.SLICE.TGT : Fld := Fld.mk' (0x18) (0x44) 16 10 0
/-- XBAR.ORPHAN.MASTER, R418. -/
def Reg.XBAR.ORPHAN.MASTER : Fld := Fld.mk' (0x18) (0x48) 0 3 0
/-- XBAR.ORPHAN.TARGET, R418. -/
def Reg.XBAR.ORPHAN.TARGET : Fld := Fld.mk' (0x18) (0x48) 3 4 0
/-- XBAR.ORPHAN.BEATS_DONE, R418. -/
def Reg.XBAR.ORPHAN.BEATS_DONE : Fld := Fld.mk' (0x18) (0x48) 7 6 0
/-- XBAR.ORPHAN.BEATS, R418. -/
def Reg.XBAR.ORPHAN.BEATS : Fld := Fld.mk' (0x18) (0x48) 13 6 0
/-- XBAR.ORPHAN.READ, R418. -/
def Reg.XBAR.ORPHAN.READ : Fld := Fld.mk' (0x18) (0x48) 19 1 0
/-- XBAR.ORPHAN.VALID, R418. -/
def Reg.XBAR.ORPHAN.VALID : Fld := Fld.mk' (0x18) (0x48) 31 1 0
/-- XBAR.ORPHAN_ADDR.ADDR, R418. -/
def Reg.XBAR.ORPHAN_ADDR.ADDR : Fld := Fld.mk' (0x18) (0x4C) 0 32 0
/-- XBAR.DROP.COUNT, R418. -/
def Reg.XBAR.DROP.COUNT : Fld := Fld.mk' (0x18) (0x50) 0 16 0
/-- XBAR.DEC_LAST.MASTER, R418. -/
def Reg.XBAR.DEC_LAST.MASTER : Fld := Fld.mk' (0x18) (0x54) 0 3 0
/-- XBAR.DEC_LAST.WRITE, R418. -/
def Reg.XBAR.DEC_LAST.WRITE : Fld := Fld.mk' (0x18) (0x54) 3 1 0
/-- XBAR.DEC_LAST.VALID, R418. -/
def Reg.XBAR.DEC_LAST.VALID : Fld := Fld.mk' (0x18) (0x54) 4 1 0
/-- XBAR.DEC_ADDR.ADDR, R418. -/
def Reg.XBAR.DEC_ADDR.ADDR : Fld := Fld.mk' (0x18) (0x58) 0 32 0
/-- XBAR.ECC_CNT.SINGLE, R418. -/
def Reg.XBAR.ECC_CNT.SINGLE : Fld := Fld.mk' (0x18) (0x5C) 0 16 0
/-- XBAR.ECC_CNT.DOUBLE, R418. -/
def Reg.XBAR.ECC_CNT.DOUBLE : Fld := Fld.mk' (0x18) (0x5C) 16 16 0
/-- XBAR.ECC_LAST.MEM, R418. -/
def Reg.XBAR.ECC_LAST.MEM : Fld := Fld.mk' (0x18) (0x60) 0 4 0
/-- XBAR.ECC_LAST.LIVE, R418. -/
def Reg.XBAR.ECC_LAST.LIVE : Fld := Fld.mk' (0x18) (0x60) 4 1 0
/-- XBAR.ECC_LAST.DOUBLE, R418. -/
def Reg.XBAR.ECC_LAST.DOUBLE : Fld := Fld.mk' (0x18) (0x60) 5 1 0
/-- XBAR.ECC_LAST.UNIT, R418. -/
def Reg.XBAR.ECC_LAST.UNIT : Fld := Fld.mk' (0x18) (0x60) 6 7 0
/-- XBAR.ECC_LAST.VALID, R418. -/
def Reg.XBAR.ECC_LAST.VALID : Fld := Fld.mk' (0x18) (0x60) 13 1 0
/-- XBAR.ECC_ADDR.ADDR, R418. -/
def Reg.XBAR.ECC_ADDR.ADDR : Fld := Fld.mk' (0x18) (0x64) 0 32 0
/-- XBAR.SCRUB.PERIOD_MS, R418. -/
def Reg.XBAR.SCRUB.PERIOD_MS : Fld := Fld.mk' (0x18) (0x68) 0 14 100
/-- XBAR.SCRUB_STAT.PASSES, R418. -/
def Reg.XBAR.SCRUB_STAT.PASSES : Fld := Fld.mk' (0x18) (0x6C) 0 16 0
/-- XBAR.CLEAR.ORPHAN, R418. -/
def Reg.XBAR.CLEAR.ORPHAN : Fld := Fld.mk' (0x18) (0x70) 0 1 0
/-- XBAR.CLEAR.DEC, R418. -/
def Reg.XBAR.CLEAR.DEC : Fld := Fld.mk' (0x18) (0x70) 1 1 0
/-- XBAR.CLEAR.ECC, R418. -/
def Reg.XBAR.CLEAR.ECC : Fld := Fld.mk' (0x18) (0x70) 2 1 0

/-- The registers of page XBAR. -/
def Reg.XBAR.rows : List RegRow :=
  [⟨0x40, 1, 4, false, fun _ _ => [⟨0, 4, .rw, 8, false⟩, ⟨4, 4, .rw, 10, false⟩, ⟨8, 4, .ro, 15, false⟩, ⟨12, 4, .ro, 14, false⟩, ⟨16, 4, .rw, 6, false⟩, ⟨20, 4, .rw, 12, false⟩, ⟨24, 4, .rw, 8, false⟩, ⟨28, 4, .ro, 0, true⟩]⟩,
   ⟨0x44, 1, 4, false, fun _ _ => [⟨0, 7, .rw, 0, false⟩, ⟨7, 9, .ro, 0, true⟩, ⟨16, 10, .rw, 0, false⟩, ⟨26, 6, .ro, 0, true⟩]⟩,
   ⟨0x48, 1, 4, false, fun _ _ => [⟨0, 3, .ro, 0, false⟩, ⟨3, 4, .ro, 0, false⟩, ⟨7, 6, .ro, 0, false⟩, ⟨13, 6, .ro, 0, false⟩, ⟨19, 1, .ro, 0, false⟩, ⟨20, 11, .ro, 0, true⟩, ⟨31, 1, .ro, 0, false⟩]⟩,
   ⟨0x4C, 1, 4, false, fun _ _ => [⟨0, 32, .ro, 0, false⟩]⟩,
   ⟨0x50, 1, 4, false, fun _ _ => [⟨0, 16, .ro, 0, false⟩, ⟨16, 16, .ro, 0, true⟩]⟩,
   ⟨0x54, 1, 4, false, fun _ _ => [⟨0, 3, .ro, 0, false⟩, ⟨3, 1, .ro, 0, false⟩, ⟨4, 1, .ro, 0, false⟩, ⟨5, 27, .ro, 0, true⟩]⟩,
   ⟨0x58, 1, 4, false, fun _ _ => [⟨0, 32, .ro, 0, false⟩]⟩,
   ⟨0x5C, 1, 4, false, fun _ _ => [⟨0, 16, .ro, 0, false⟩, ⟨16, 16, .ro, 0, false⟩]⟩,
   ⟨0x60, 1, 4, false, fun _ _ => [⟨0, 4, .ro, 0, false⟩, ⟨4, 1, .ro, 0, false⟩, ⟨5, 1, .ro, 0, false⟩, ⟨6, 7, .ro, 0, false⟩, ⟨13, 1, .ro, 0, false⟩, ⟨14, 18, .ro, 0, true⟩]⟩,
   ⟨0x64, 1, 4, false, fun _ _ => [⟨0, 32, .ro, 0, false⟩]⟩,
   ⟨0x68, 1, 4, false, fun _ _ => [⟨0, 14, .rw, 100, false⟩, ⟨14, 18, .ro, 0, true⟩]⟩,
   ⟨0x6C, 1, 4, false, fun _ _ => [⟨0, 16, .ro, 0, false⟩, ⟨16, 16, .ro, 0, true⟩]⟩,
   ⟨0x70, 1, 4, false, fun _ _ => [⟨0, 1, .wo, 0, false⟩, ⟨1, 1, .wo, 0, false⟩, ⟨2, 1, .wo, 0, false⟩, ⟨3, 29, .wo, 0, true⟩]⟩]

/-! ### Page MON -/

/-- MON.CTL.EN, R419. -/
def Reg.MON.CTL.EN : Fld := Fld.mk' (0x19) (0x40) 0 4 0xF
/-- MON.CTL.CLEAR, R419. -/
def Reg.MON.CTL.CLEAR : Fld := Fld.mk' (0x19) (0x40) 8 4 0
/-- MON.SETTLE_CFG.BASE, R419. -/
def Reg.MON.SETTLE_CFG.BASE : Fld := Fld.mk' (0x19) (0x44) 0 10 0
/-- MON.SETTLE_MIN.NS, R419. -/
def Reg.MON.SETTLE_MIN.NS : Fld := Fld.mk' (0x19) (0x48) 0 32 0xFFFFFFFF
/-- MON.SETTLE_MAX.NS, R419. -/
def Reg.MON.SETTLE_MAX.NS : Fld := Fld.mk' (0x19) (0x4C) 0 32 0
/-- MON.SETTLE_N.COUNT, R419. -/
def Reg.MON.SETTLE_N.COUNT : Fld := Fld.mk' (0x19) (0x50) 0 32 0
/-- MON.OCC_CFG.LOGICAL, R419. -/
def Reg.MON.OCC_CFG.LOGICAL : Fld := Fld.mk' (0x19) (0x54) 0 6 0
/-- MON.OCC_CFG.ALL, R419. -/
def Reg.MON.OCC_CFG.ALL : Fld := Fld.mk' (0x19) (0x54) 6 1 1
/-- MON.OCC_CFG.DIV, R419. -/
def Reg.MON.OCC_CFG.DIV : Fld := Fld.mk' (0x19) (0x54) 8 4 0
/-- MON.OCC_MINMAX.MIN, R419. -/
def Reg.MON.OCC_MINMAX.MIN : Fld := Fld.mk' (0x19) (0x58) 0 10 1023
/-- MON.OCC_MINMAX.MAX, R419. -/
def Reg.MON.OCC_MINMAX.MAX : Fld := Fld.mk' (0x19) (0x58) 16 10 0
/-- MON.EPS_CFG.DIV, R419. -/
def Reg.MON.EPS_CFG.DIV : Fld := Fld.mk' (0x19) (0x5C) 0 4 10
/-- MON.EPS_MINMAX.MIN, R419. -/
def Reg.MON.EPS_MINMAX.MIN : Fld := Fld.mk' (0x19) (0x60) 0 16 0xFFFF
/-- MON.EPS_MINMAX.MAX, R419. -/
def Reg.MON.EPS_MINMAX.MAX : Fld := Fld.mk' (0x19) (0x60) 16 16 0
/-- MON.HIST_SAT.SAT, R419. -/
def Reg.MON.HIST_SAT.SAT : Fld := Fld.mk' (0x19) (0x64) 0 4 0
/-- MON.LAT_MINMAX.MIN, R419. -/
def Reg.MON.LAT_MINMAX.MIN (i : Nat) : Fld := Fld.mk' (0x19) (0x80 + 4 * i) 0 16 0xFFFF
/-- MON.LAT_MINMAX.MAX, R419. -/
def Reg.MON.LAT_MINMAX.MAX (i : Nat) : Fld := Fld.mk' (0x19) (0x80 + 4 * i) 16 16 0
/-- MON.SETTLE_BIN.COUNT, R419. -/
def Reg.MON.SETTLE_BIN.COUNT (i : Nat) : Fld := Fld.mk' (0x19) (0x100 + 4 * i) 0 32 0
/-- MON.OCC_BIN.COUNT, R419. -/
def Reg.MON.OCC_BIN.COUNT (i : Nat) : Fld := Fld.mk' (0x19) (0x200 + 4 * i) 0 32 0
/-- MON.EPS_BIN.COUNT, R419. -/
def Reg.MON.EPS_BIN.COUNT (i : Nat) : Fld := Fld.mk' (0x19) (0x300 + 4 * i) 0 32 0
/-- MON.LAT_BIN.COUNT, R419. -/
def Reg.MON.LAT_BIN.COUNT (i : Nat) : Fld := Fld.mk' (0x19) (0x400 + 4 * i) 0 32 0

/-- The registers of page MON. -/
def Reg.MON.rows : List RegRow :=
  [⟨0x40, 1, 4, false, fun _ _ => [⟨0, 4, .rw, 0xF, false⟩, ⟨4, 4, .ro, 0, true⟩, ⟨8, 4, .wo, 0, false⟩, ⟨12, 20, .ro, 0, true⟩]⟩,
   ⟨0x44, 1, 4, false, fun _ _ => [⟨0, 10, .rw, 0, false⟩, ⟨10, 22, .ro, 0, true⟩]⟩,
   ⟨0x48, 1, 4, false, fun _ _ => [⟨0, 32, .ro, 0xFFFFFFFF, false⟩]⟩,
   ⟨0x4C, 1, 4, false, fun _ _ => [⟨0, 32, .ro, 0, false⟩]⟩,
   ⟨0x50, 1, 4, false, fun _ _ => [⟨0, 32, .ro, 0, false⟩]⟩,
   ⟨0x54, 1, 4, false, fun _ _ => [⟨0, 6, .rw, 0, false⟩, ⟨6, 1, .rw, 1, false⟩, ⟨7, 1, .ro, 0, true⟩, ⟨8, 4, .rw, 0, false⟩, ⟨12, 20, .ro, 0, true⟩]⟩,
   ⟨0x58, 1, 4, false, fun _ _ => [⟨0, 10, .ro, 1023, false⟩, ⟨10, 6, .ro, 0, true⟩, ⟨16, 10, .ro, 0, false⟩, ⟨26, 6, .ro, 0, true⟩]⟩,
   ⟨0x5C, 1, 4, false, fun _ _ => [⟨0, 4, .rw, 10, false⟩, ⟨4, 28, .ro, 0, true⟩]⟩,
   ⟨0x60, 1, 4, false, fun _ _ => [⟨0, 16, .ro, 0xFFFF, false⟩, ⟨16, 16, .ro, 0, false⟩]⟩,
   ⟨0x64, 1, 4, false, fun _ _ => [⟨0, 4, .ro, 0, false⟩, ⟨4, 28, .ro, 0, true⟩]⟩,
   ⟨0x80, 7, 4, false, fun _ _ => [⟨0, 16, .ro, 0xFFFF, false⟩, ⟨16, 16, .ro, 0, false⟩]⟩,
   ⟨0x100, 64, 4, false, fun _ _ => [⟨0, 32, .ro, 0, false⟩]⟩,
   ⟨0x200, 64, 4, false, fun _ _ => [⟨0, 32, .ro, 0, false⟩]⟩,
   ⟨0x300, 64, 4, false, fun _ _ => [⟨0, 32, .ro, 0, false⟩]⟩,
   ⟨0x400, 224, 4, false, fun _ _ => [⟨0, 32, .ro, 0, false⟩]⟩]

/-! ### Page ACQ -/

/-- ACQ.RUN.RUN, R344. -/
def Reg.ACQ.RUN.RUN : Fld := Fld.mk' (0x1A) (0x40) 0 1 0
/-- ACQ.CFG.DRAIN, R344. -/
def Reg.ACQ.CFG.DRAIN : Fld := Fld.mk' (0x1A) (0x44) 0 1 0
/-- ACQ.FLUSH.US, R344. -/
def Reg.ACQ.FLUSH.US : Fld := Fld.mk' (0x1A) (0x48) 0 14 100
/-- ACQ.RESUME.REC, R344. -/
def Reg.ACQ.RESUME.REC : Fld := Fld.mk' (0x1A) (0x4C) 0 17 1024
/-- ACQ.WP.WP, R344. -/
def Reg.ACQ.WP.WP : Fld := Fld.mk' (0x1A) (0x50) 0 18 0
/-- ACQ.RP.RP, R344. -/
def Reg.ACQ.RP.RP : Fld := Fld.mk' (0x1A) (0x54) 0 18 0
/-- ACQ.STAT.RUNNING, R344. -/
def Reg.ACQ.STAT.RUNNING : Fld := Fld.mk' (0x1A) (0x58) 0 1 0
/-- ACQ.STAT.DROPPING, R344. -/
def Reg.ACQ.STAT.DROPPING : Fld := Fld.mk' (0x1A) (0x58) 1 1 0
/-- ACQ.STAT.HELD, R344. -/
def Reg.ACQ.STAT.HELD : Fld := Fld.mk' (0x1A) (0x58) 2 7 0
/-- ACQ.LOST.SAMPLES, R344. -/
def Reg.ACQ.LOST.SAMPLES : Fld := Fld.mk' (0x1A) (0x5C) 0 32 0
/-- ACQ.GAPS.GAPS, R344. -/
def Reg.ACQ.GAPS.GAPS : Fld := Fld.mk' (0x1A) (0x60) 0 16 0
/-- ACQ.GAPS.HELD_LOST, R344. -/
def Reg.ACQ.GAPS.HELD_LOST : Fld := Fld.mk' (0x1A) (0x60) 16 16 0
/-- ACQ.CH_CFG.EN, R344. -/
def Reg.ACQ.CH_CFG.EN (i : Nat) : Fld := Fld.mk' (0x1A) (0x100 + 4 * i) 0 1 0
/-- ACQ.CH_CFG.SRC, R344. -/
def Reg.ACQ.CH_CFG.SRC (i : Nat) : Fld := Fld.mk' (0x1A) (0x100 + 4 * i) 1 4 0
/-- ACQ.CH_CFG.SUB, R344. -/
def Reg.ACQ.CH_CFG.SUB (i : Nat) : Fld := Fld.mk' (0x1A) (0x100 + 4 * i) 5 3 0
/-- ACQ.CH_CFG.DEC, R344. -/
def Reg.ACQ.CH_CFG.DEC (i : Nat) : Fld := Fld.mk' (0x1A) (0x100 + 4 * i) 8 4 0
/-- ACQ.CH_CFG.RED, R344. -/
def Reg.ACQ.CH_CFG.RED (i : Nat) : Fld := Fld.mk' (0x1A) (0x100 + 4 * i) 12 2 0
/-- ACQ.CH_CFG.W32, R344. -/
def Reg.ACQ.CH_CFG.W32 (i : Nat) : Fld := Fld.mk' (0x1A) (0x100 + 4 * i) 14 1 0
/-- ACQ.CH_CFG.SHIFT, R344. -/
def Reg.ACQ.CH_CFG.SHIFT (i : Nat) : Fld := Fld.mk' (0x1A) (0x100 + 4 * i) 15 5 0
/-- ACQ.CH_SEL.E, R344. -/
def Reg.ACQ.CH_SEL.E (i : Nat) : Fld := Fld.mk' (0x1A) (0x180 + 4 * i) 0 13 0
/-- ACQ.CH_SEL.WORD, R344. -/
def Reg.ACQ.CH_SEL.WORD (i : Nat) : Fld := Fld.mk' (0x1A) (0x180 + 4 * i) 13 6 0
/-- ACQ.CH_SEL.HALF, R344. -/
def Reg.ACQ.CH_SEL.HALF (i : Nat) : Fld := Fld.mk' (0x1A) (0x180 + 4 * i) 19 1 0
/-- ACQ.CH_MEAS.EN, R344. -/
def Reg.ACQ.CH_MEAS.EN (i : Nat) : Fld := Fld.mk' (0x1A) (0x200 + 4 * i) 0 1 0
/-- ACQ.CH_MEAS.REF_MODE, R344. -/
def Reg.ACQ.CH_MEAS.REF_MODE (i : Nat) : Fld := Fld.mk' (0x1A) (0x200 + 4 * i) 1 1 0
/-- ACQ.CH_MEAS.MSPAN, R344. -/
def Reg.ACQ.CH_MEAS.MSPAN (i : Nat) : Fld := Fld.mk' (0x1A) (0x200 + 4 * i) 2 13 256
/-- ACQ.CH_MEAS.MEAS_N, R344. -/
def Reg.ACQ.CH_MEAS.MEAS_N (i : Nat) : Fld := Fld.mk' (0x1A) (0x200 + 4 * i) 15 13 16
/-- ACQ.CH_BAND.BAND, R344. -/
def Reg.ACQ.CH_BAND.BAND (i : Nat) : Fld := Fld.mk' (0x1A) (0x280 + 4 * i) 0 16 0
/-- ACQ.CH_REF.REF, R344. -/
def Reg.ACQ.CH_REF.REF (i : Nat) : Fld := Fld.mk' (0x1A) (0x300 + 4 * i) 0 32 0

/-- The registers of page ACQ. -/
def Reg.ACQ.rows : List RegRow :=
  [⟨0x40, 1, 4, false, fun _ _ => [⟨0, 1, .rw, 0, false⟩, ⟨1, 31, .ro, 0, true⟩]⟩,
   ⟨0x44, 1, 4, false, fun _ _ => [⟨0, 1, .rw, 0, false⟩, ⟨1, 31, .ro, 0, true⟩]⟩,
   ⟨0x48, 1, 4, false, fun _ _ => [⟨0, 14, .rw, 100, false⟩, ⟨14, 18, .ro, 0, true⟩]⟩,
   ⟨0x4C, 1, 4, false, fun _ _ => [⟨0, 17, .rw, 1024, false⟩, ⟨17, 15, .ro, 0, true⟩]⟩,
   ⟨0x50, 1, 4, false, fun _ _ => [⟨0, 18, .ro, 0, false⟩, ⟨18, 14, .ro, 0, true⟩]⟩,
   ⟨0x54, 1, 4, false, fun _ _ => [⟨0, 18, .rw, 0, false⟩, ⟨18, 14, .ro, 0, true⟩]⟩,
   ⟨0x58, 1, 4, false, fun _ _ => [⟨0, 1, .ro, 0, false⟩, ⟨1, 1, .ro, 0, false⟩, ⟨2, 7, .ro, 0, false⟩, ⟨9, 23, .ro, 0, true⟩]⟩,
   ⟨0x5C, 1, 4, false, fun _ _ => [⟨0, 32, .ro, 0, false⟩]⟩,
   ⟨0x60, 1, 4, false, fun _ _ => [⟨0, 16, .ro, 0, false⟩, ⟨16, 16, .ro, 0, false⟩]⟩,
   ⟨0x100, 32, 4, false, fun _ _ => [⟨0, 1, .rw, 0, false⟩, ⟨1, 4, .rw, 0, false⟩, ⟨5, 3, .rw, 0, false⟩, ⟨8, 4, .rw, 0, false⟩, ⟨12, 2, .rw, 0, false⟩, ⟨14, 1, .rw, 0, false⟩, ⟨15, 5, .rw, 0, false⟩, ⟨20, 12, .ro, 0, true⟩]⟩,
   ⟨0x180, 32, 4, false, fun _ _ => [⟨0, 13, .rw, 0, false⟩, ⟨13, 6, .rw, 0, false⟩, ⟨19, 1, .rw, 0, false⟩, ⟨20, 12, .ro, 0, true⟩]⟩,
   ⟨0x200, 32, 4, false, fun _ _ => [⟨0, 1, .rw, 0, false⟩, ⟨1, 1, .rw, 0, false⟩, ⟨2, 13, .rw, 256, false⟩, ⟨15, 13, .rw, 16, false⟩, ⟨28, 4, .ro, 0, true⟩]⟩,
   ⟨0x280, 32, 4, false, fun _ _ => [⟨0, 16, .rw, 0, false⟩, ⟨16, 16, .ro, 0, true⟩]⟩,
   ⟨0x300, 32, 4, false, fun _ _ => [⟨0, 32, .rw, 0, false⟩]⟩]

/-! ### Page TRIG -/

/-- TRIG.ACT.ARM, R345. -/
def Reg.TRIG.ACT.ARM : Fld := Fld.mk' (0x1B) (0x40) 0 1 0
/-- TRIG.ACT.DISARM, R345. -/
def Reg.TRIG.ACT.DISARM : Fld := Fld.mk' (0x1B) (0x40) 1 1 0
/-- TRIG.ACT.FORCE, R345. -/
def Reg.TRIG.ACT.FORCE : Fld := Fld.mk' (0x1B) (0x40) 2 1 0
/-- TRIG.CFG.START, R345. -/
def Reg.TRIG.CFG.START : Fld := Fld.mk' (0x1B) (0x44) 0 4 0
/-- TRIG.CFG.CASC, R345. -/
def Reg.TRIG.CFG.CASC : Fld := Fld.mk' (0x1B) (0x44) 4 1 0
/-- TRIG.CFG.PIN_OUT, R345. -/
def Reg.TRIG.CFG.PIN_OUT : Fld := Fld.mk' (0x1B) (0x44) 5 1 0
/-- TRIG.CFG.PULSE, R345. -/
def Reg.TRIG.CFG.PULSE : Fld := Fld.mk' (0x1B) (0x44) 8 8 25
/-- TRIG.PRE.FRAMES, R345. -/
def Reg.TRIG.PRE.FRAMES : Fld := Fld.mk' (0x1B) (0x48) 0 16 0
/-- TRIG.POST.FRAMES, R345. -/
def Reg.TRIG.POST.FRAMES : Fld := Fld.mk' (0x1B) (0x4C) 0 32 64
/-- TRIG.STAT.ARMED, R345. -/
def Reg.TRIG.STAT.ARMED : Fld := Fld.mk' (0x1B) (0x50) 0 1 0
/-- TRIG.STAT.STATE, R345. -/
def Reg.TRIG.STAT.STATE : Fld := Fld.mk' (0x1B) (0x50) 1 4 0
/-- TRIG.STAT.WIN_OPEN, R345. -/
def Reg.TRIG.STAT.WIN_OPEN : Fld := Fld.mk' (0x1B) (0x50) 5 1 0
/-- TRIG.STAT.ARM_ID, R345. -/
def Reg.TRIG.STAT.ARM_ID : Fld := Fld.mk' (0x1B) (0x50) 6 8 0
/-- TRIG.LAST.MASK, R345. -/
def Reg.TRIG.LAST.MASK : Fld := Fld.mk' (0x1B) (0x54) 0 16 0
/-- TRIG.LAST.INDEX, R345. -/
def Reg.TRIG.LAST.INDEX : Fld := Fld.mk' (0x1B) (0x54) 16 6 0
/-- TRIG.HITS.COUNT, R345. -/
def Reg.TRIG.HITS.COUNT : Fld := Fld.mk' (0x1B) (0x58) 0 32 0
/-- TRIG.CNT.COUNT, R345. -/
def Reg.TRIG.CNT.COUNT (i : Nat) : Fld := Fld.mk' (0x1B) (0x60 + 4 * i) 0 32 0
/-- TRIG.CMP.CMP, R345. -/
def Reg.TRIG.CMP.CMP (i : Nat) : Fld := Fld.mk' (0x1B) (0x70 + 4 * i) 0 32 0
/-- TRIG.TMR.STEPS, R345. -/
def Reg.TRIG.TMR.STEPS (i : Nat) : Fld := Fld.mk' (0x1B) (0x80 + 4 * i) 0 32 250
/-- TRIG.COND.TYPE, R345. -/
def Reg.TRIG.COND.TYPE (i : Nat) : Fld := Fld.mk' (0x1B) (0x100 + 8 * i) 0 4 0
/-- TRIG.COND.OP, R345. -/
def Reg.TRIG.COND.OP (i : Nat) : Fld := Fld.mk' (0x1B) (0x100 + 8 * i) 4 3 0
/-- TRIG.COND.ARG, R345. -/
def Reg.TRIG.COND.ARG (i : Nat) : Fld := Fld.mk' (0x1B) (0x100 + 8 * i) 8 11 0
/-- TRIG.COND.LO, R345. -/
def Reg.TRIG.COND.LO (i : Nat) : Fld := Fld.mk' (0x1B) (0x100 + 8 * i) 32 16 0
/-- TRIG.COND.HI, R345. -/
def Reg.TRIG.COND.HI (i : Nat) : Fld := Fld.mk' (0x1B) (0x100 + 8 * i) 48 16 0
/-- TRIG.TT.W0, R345. -/
def Reg.TRIG.TT.W0 (i : Nat) : Fld := Fld.mk' (0x1B) (0x200 + 8 * i) 0 32 0
/-- TRIG.TT.W1, R345. -/
def Reg.TRIG.TT.W1 (i : Nat) : Fld := Fld.mk' (0x1B) (0x200 + 8 * i) 32 32 0

/-- The registers of page TRIG. -/
def Reg.TRIG.rows : List RegRow :=
  [⟨0x40, 1, 4, false, fun _ _ => [⟨0, 1, .wo, 0, false⟩, ⟨1, 1, .wo, 0, false⟩, ⟨2, 1, .wo, 0, false⟩, ⟨3, 29, .wo, 0, true⟩]⟩,
   ⟨0x44, 1, 4, false, fun _ _ => [⟨0, 4, .rw, 0, false⟩, ⟨4, 1, .rw, 0, false⟩, ⟨5, 1, .rw, 0, false⟩, ⟨6, 2, .ro, 0, true⟩, ⟨8, 8, .rw, 25, false⟩, ⟨16, 16, .ro, 0, true⟩]⟩,
   ⟨0x48, 1, 4, false, fun _ _ => [⟨0, 16, .rw, 0, false⟩, ⟨16, 16, .ro, 0, true⟩]⟩,
   ⟨0x4C, 1, 4, false, fun _ _ => [⟨0, 32, .rw, 64, false⟩]⟩,
   ⟨0x50, 1, 4, false, fun _ _ => [⟨0, 1, .ro, 0, false⟩, ⟨1, 4, .ro, 0, false⟩, ⟨5, 1, .ro, 0, false⟩, ⟨6, 8, .ro, 0, false⟩, ⟨14, 18, .ro, 0, true⟩]⟩,
   ⟨0x54, 1, 4, false, fun _ _ => [⟨0, 16, .ro, 0, false⟩, ⟨16, 6, .ro, 0, false⟩, ⟨22, 10, .ro, 0, true⟩]⟩,
   ⟨0x58, 1, 4, false, fun _ _ => [⟨0, 32, .ro, 0, false⟩]⟩,
   ⟨0x60, 4, 4, false, fun _ _ => [⟨0, 32, .ro, 0, false⟩]⟩,
   ⟨0x70, 4, 4, false, fun _ _ => [⟨0, 32, .rw, 0, false⟩]⟩,
   ⟨0x80, 4, 4, false, fun _ _ => [⟨0, 32, .rw, 250, false⟩]⟩,
   ⟨0x100, 16, 8, false, fun _ _ => [⟨0, 4, .rw, 0, false⟩, ⟨4, 3, .rw, 0, false⟩, ⟨8, 11, .rw, 0, false⟩, ⟨7, 1, .ro, 0, true⟩, ⟨19, 13, .ro, 0, true⟩, ⟨32, 16, .rw, 0, false⟩, ⟨48, 16, .rw, 0, false⟩]⟩,
   ⟨0x200, 64, 8, false, fun _ _ => [⟨0, 32, .rw, 0, false⟩, ⟨32, 32, .rw, 0, false⟩]⟩]

/-! ### Page GLEW -/

/-- GLEW.CFG.EN, R319. -/
def Reg.GLEW.CFG.EN : Fld := Fld.mk' (0x1C) (0x40) 0 1 0
/-- GLEW.CFG.CHAIN, R319. -/
def Reg.GLEW.CFG.CHAIN : Fld := Fld.mk' (0x1C) (0x40) 1 3 0
/-- GLEW.ID.CASC_ID, R319. -/
def Reg.GLEW.ID.CASC_ID : Fld := Fld.mk' (0x1C) (0x44) 0 3 0
/-- GLEW.ID.MASTER, R319. -/
def Reg.GLEW.ID.MASTER : Fld := Fld.mk' (0x1C) (0x44) 3 1 0
/-- GLEW.ID.FOLLOWER, R319. -/
def Reg.GLEW.ID.FOLLOWER : Fld := Fld.mk' (0x1C) (0x44) 4 1 0
/-- GLEW.LINK.UP_STATE, R319. -/
def Reg.GLEW.LINK.UP_STATE : Fld := Fld.mk' (0x1C) (0x48) 0 3 0
/-- GLEW.LINK.DN_STATE, R319. -/
def Reg.GLEW.LINK.DN_STATE : Fld := Fld.mk' (0x1C) (0x48) 3 3 0
/-- GLEW.FLIGHT.UP, R319. -/
def Reg.GLEW.FLIGHT.UP : Fld := Fld.mk' (0x1C) (0x4C) 0 10 0
/-- GLEW.FLIGHT.DN, R319. -/
def Reg.GLEW.FLIGHT.DN : Fld := Fld.mk' (0x1C) (0x4C) 16 10 0
/-- GLEW.CORR.ING, R319. -/
def Reg.GLEW.CORR.ING : Fld := Fld.mk' (0x1C) (0x50) 0 16 52
/-- GLEW.CORR.EGR, R319. -/
def Reg.GLEW.CORR.EGR : Fld := Fld.mk' (0x1C) (0x50) 16 16 38
/-- GLEW.OFFSET.O, R319. -/
def Reg.GLEW.OFFSET.O : Fld := Fld.mk' (0x1C) (0x54) 0 32 0
/-- GLEW.READY_MAP.OK, R319. -/
def Reg.GLEW.READY_MAP.OK : Fld := Fld.mk' (0x1C) (0x58) 0 8 0
/-- GLEW.READY_MAP.PRESENT, R319. -/
def Reg.GLEW.READY_MAP.PRESENT : Fld := Fld.mk' (0x1C) (0x58) 8 8 0
/-- GLEW.NOTREADY.MEMBER, R319. -/
def Reg.GLEW.NOTREADY.MEMBER : Fld := Fld.mk' (0x1C) (0x5C) 0 3 0
/-- GLEW.NOTREADY.BITS, R319. -/
def Reg.GLEW.NOTREADY.BITS : Fld := Fld.mk' (0x1C) (0x5C) 8 11 0
/-- GLEW.LAST_2PC.SEQ, R319. -/
def Reg.GLEW.LAST_2PC.SEQ : Fld := Fld.mk' (0x1C) (0x60) 0 32 0
/-- GLEW.LAST_RES.RESULT, R319. -/
def Reg.GLEW.LAST_RES.RESULT : Fld := Fld.mk' (0x1C) (0x64) 0 2 0
/-- GLEW.LAST_RES.MEMBER, R319. -/
def Reg.GLEW.LAST_RES.MEMBER : Fld := Fld.mk' (0x1C) (0x64) 8 3 0
/-- GLEW.LAST_RES.CODE, R319. -/
def Reg.GLEW.LAST_RES.CODE : Fld := Fld.mk' (0x1C) (0x64) 16 8 0
/-- GLEW.CNT_CRC.UP, R319. -/
def Reg.GLEW.CNT_CRC.UP : Fld := Fld.mk' (0x1C) (0x68) 0 16 0
/-- GLEW.CNT_CRC.DN, R319. -/
def Reg.GLEW.CNT_CRC.DN : Fld := Fld.mk' (0x1C) (0x68) 16 16 0
/-- GLEW.MEVT.SOURCE, R319. -/
def Reg.GLEW.MEVT.SOURCE : Fld := Fld.mk' (0x1C) (0x6C) 0 11 0
/-- GLEW.MEVT.CLASS, R319. -/
def Reg.GLEW.MEVT.CLASS : Fld := Fld.mk' (0x1C) (0x6C) 11 3 0
/-- GLEW.MEVT.MEMBER, R319. -/
def Reg.GLEW.MEVT.MEMBER : Fld := Fld.mk' (0x1C) (0x6C) 14 3 0
/-- GLEW.MEVT.VALID, R319. -/
def Reg.GLEW.MEVT.VALID : Fld := Fld.mk' (0x1C) (0x6C) 31 1 0
/-- GLEW.MEVT_STAT.COUNT, R319. -/
def Reg.GLEW.MEVT_STAT.COUNT : Fld := Fld.mk' (0x1C) (0x70) 0 5 0
/-- GLEW.MEVT_STAT.LOST, R319. -/
def Reg.GLEW.MEVT_STAT.LOST : Fld := Fld.mk' (0x1C) (0x70) 8 8 0

/-- The registers of page GLEW. -/
def Reg.GLEW.rows : List RegRow :=
  [⟨0x40, 1, 4, false, fun _ _ => [⟨0, 1, .rw, 0, false⟩, ⟨1, 3, .rw, 0, false⟩, ⟨4, 28, .ro, 0, true⟩]⟩,
   ⟨0x44, 1, 4, false, fun _ _ => [⟨0, 3, .ro, 0, false⟩, ⟨3, 1, .ro, 0, false⟩, ⟨4, 1, .ro, 0, false⟩, ⟨5, 27, .ro, 0, true⟩]⟩,
   ⟨0x48, 1, 4, false, fun _ _ => [⟨0, 3, .ro, 0, false⟩, ⟨3, 3, .ro, 0, false⟩, ⟨6, 26, .ro, 0, true⟩]⟩,
   ⟨0x4C, 1, 4, false, fun _ _ => [⟨0, 10, .ro, 0, false⟩, ⟨10, 6, .ro, 0, true⟩, ⟨16, 10, .ro, 0, false⟩, ⟨26, 6, .ro, 0, true⟩]⟩,
   ⟨0x50, 1, 4, false, fun _ _ => [⟨0, 16, .rw, 52, false⟩, ⟨16, 16, .rw, 38, false⟩]⟩,
   ⟨0x54, 1, 4, false, fun _ _ => [⟨0, 32, .ro, 0, false⟩]⟩,
   ⟨0x58, 1, 4, false, fun _ _ => [⟨0, 8, .ro, 0, false⟩, ⟨8, 8, .ro, 0, false⟩, ⟨16, 16, .ro, 0, true⟩]⟩,
   ⟨0x5C, 1, 4, false, fun _ _ => [⟨0, 3, .ro, 0, false⟩, ⟨3, 5, .ro, 0, true⟩, ⟨8, 11, .ro, 0, false⟩, ⟨19, 13, .ro, 0, true⟩]⟩,
   ⟨0x60, 1, 4, false, fun _ _ => [⟨0, 32, .ro, 0, false⟩]⟩,
   ⟨0x64, 1, 4, false, fun _ _ => [⟨0, 2, .ro, 0, false⟩, ⟨2, 6, .ro, 0, true⟩, ⟨8, 3, .ro, 0, false⟩, ⟨11, 5, .ro, 0, true⟩, ⟨16, 8, .ro, 0, false⟩, ⟨24, 8, .ro, 0, true⟩]⟩,
   ⟨0x68, 1, 4, false, fun _ _ => [⟨0, 16, .ro, 0, false⟩, ⟨16, 16, .ro, 0, false⟩]⟩,
   ⟨0x6C, 1, 4, false, fun _ _ => [⟨0, 11, .ro, 0, false⟩, ⟨11, 3, .ro, 0, false⟩, ⟨14, 3, .ro, 0, false⟩, ⟨17, 14, .ro, 0, true⟩, ⟨31, 1, .ro, 0, false⟩]⟩,
   ⟨0x70, 1, 4, false, fun _ _ => [⟨0, 5, .ro, 0, false⟩, ⟨5, 3, .ro, 0, true⟩, ⟨8, 8, .ro, 0, false⟩, ⟨16, 16, .ro, 0, true⟩]⟩]

/-! ### Page PCIE -/

/-- PCIE.LINK.SPEED, R449. -/
def Reg.PCIE.LINK.SPEED : Fld := Fld.mk' (0x1D) (0x40) 0 3 0
/-- PCIE.LINK.WIDTH, R449. -/
def Reg.PCIE.LINK.WIDTH : Fld := Fld.mk' (0x1D) (0x40) 3 3 0
/-- PCIE.ID.VENDOR, R449. -/
def Reg.PCIE.ID.VENDOR : Fld := Fld.mk' (0x1D) (0x44) 0 16 0x1F6B
/-- PCIE.ID.DEVICE, R449. -/
def Reg.PCIE.ID.DEVICE : Fld := Fld.mk' (0x1D) (0x44) 16 16 0x4608
/-- PCIE.CMD_BASE_LO, R449. -/
def Reg.PCIE.CMD_BASE_LO.W : Fld := Fld.mk' (0x1D) (0x48) 0 32 0
/-- PCIE.CMD_BASE_HI, R449. -/
def Reg.PCIE.CMD_BASE_HI.W : Fld := Fld.mk' (0x1D) (0x4C) 0 32 0
/-- PCIE.CMD_CFG.EN, R449. -/
def Reg.PCIE.CMD_CFG.EN : Fld := Fld.mk' (0x1D) (0x50) 0 1 0
/-- PCIE.CMD_CFG.LOG2SIZE, R449. -/
def Reg.PCIE.CMD_CFG.LOG2SIZE : Fld := Fld.mk' (0x1D) (0x50) 1 4 4
/-- PCIE.CMD_TAIL.TAIL, R449. -/
def Reg.PCIE.CMD_TAIL.TAIL : Fld := Fld.mk' (0x1D) (0x54) 0 13 0
/-- PCIE.CMD_HEAD.HEAD, R449. -/
def Reg.PCIE.CMD_HEAD.HEAD : Fld := Fld.mk' (0x1D) (0x58) 0 13 0
/-- PCIE.CMD_HEAD.STOPPED, R449. -/
def Reg.PCIE.CMD_HEAD.STOPPED : Fld := Fld.mk' (0x1D) (0x58) 16 1 0
/-- PCIE.CPL_BASE_LO, R449. -/
def Reg.PCIE.CPL_BASE_LO.W : Fld := Fld.mk' (0x1D) (0x5C) 0 32 0
/-- PCIE.CPL_BASE_HI, R449. -/
def Reg.PCIE.CPL_BASE_HI.W : Fld := Fld.mk' (0x1D) (0x60) 0 32 0
/-- PCIE.CPL_CFG.EN, R449. -/
def Reg.PCIE.CPL_CFG.EN : Fld := Fld.mk' (0x1D) (0x64) 0 1 0
/-- PCIE.CPL_CFG.LOG2SIZE, R449. -/
def Reg.PCIE.CPL_CFG.LOG2SIZE : Fld := Fld.mk' (0x1D) (0x64) 1 4 4
/-- PCIE.CPL_CFG.MOD, R449. -/
def Reg.PCIE.CPL_CFG.MOD : Fld := Fld.mk' (0x1D) (0x64) 5 8 0
/-- PCIE.CPL_WP.WP, R449. -/
def Reg.PCIE.CPL_WP.WP : Fld := Fld.mk' (0x1D) (0x68) 0 13 0
/-- PCIE.CPL_RP.RP, R449. -/
def Reg.PCIE.CPL_RP.RP : Fld := Fld.mk' (0x1D) (0x6C) 0 13 0
/-- PCIE.CPL_MIRROR_LO, R449. -/
def Reg.PCIE.CPL_MIRROR_LO.W : Fld := Fld.mk' (0x1D) (0x70) 0 32 0
/-- PCIE.CPL_MIRROR_HI, R449. -/
def Reg.PCIE.CPL_MIRROR_HI.W : Fld := Fld.mk' (0x1D) (0x74) 0 32 0
/-- PCIE.CPL_STAT.QUEUED, R449. -/
def Reg.PCIE.CPL_STAT.QUEUED : Fld := Fld.mk' (0x1D) (0x78) 0 8 0
/-- PCIE.CPL_STAT.LOST, R449. -/
def Reg.PCIE.CPL_STAT.LOST : Fld := Fld.mk' (0x1D) (0x78) 16 16 0
/-- PCIE.ACQ_BASE_LO, R449. -/
def Reg.PCIE.ACQ_BASE_LO.W : Fld := Fld.mk' (0x1D) (0x80) 0 32 0
/-- PCIE.ACQ_BASE_HI, R449. -/
def Reg.PCIE.ACQ_BASE_HI.W : Fld := Fld.mk' (0x1D) (0x84) 0 32 0
/-- PCIE.ACQ_CFG.EN, R449. -/
def Reg.PCIE.ACQ_CFG.EN : Fld := Fld.mk' (0x1D) (0x88) 0 1 0
/-- PCIE.ACQ_CFG.LOG2SIZE, R449. -/
def Reg.PCIE.ACQ_CFG.LOG2SIZE : Fld := Fld.mk' (0x1D) (0x88) 1 4 0
/-- PCIE.ACQ_CFG.THRESH, R449. -/
def Reg.PCIE.ACQ_CFG.THRESH : Fld := Fld.mk' (0x1D) (0x88) 16 16 64
/-- PCIE.ACQ_WP.WP, R449. -/
def Reg.PCIE.ACQ_WP.WP : Fld := Fld.mk' (0x1D) (0x8C) 0 31 0
/-- PCIE.ACQ_RP.RP, R449. -/
def Reg.PCIE.ACQ_RP.RP : Fld := Fld.mk' (0x1D) (0x90) 0 31 0
/-- PCIE.DMA_ERR.ENGINE, R449. -/
def Reg.PCIE.DMA_ERR.ENGINE : Fld := Fld.mk' (0x1D) (0x94) 0 2 0
/-- PCIE.DMA_ERR.CAUSE, R449. -/
def Reg.PCIE.DMA_ERR.CAUSE : Fld := Fld.mk' (0x1D) (0x94) 2 3 0
/-- PCIE.DMA_ERR.VALID, R449. -/
def Reg.PCIE.DMA_ERR.VALID : Fld := Fld.mk' (0x1D) (0x94) 31 1 0
/-- PCIE.QSPI_CFG.DIV, R449. -/
def Reg.PCIE.QSPI_CFG.DIV : Fld := Fld.mk' (0x1D) (0xA0) 0 4 1
/-- PCIE.QSPI_CMD.OP, R449. -/
def Reg.PCIE.QSPI_CMD.OP : Fld := Fld.mk' (0x1D) (0xA4) 0 3 0
/-- PCIE.QSPI_CMD.GO, R449. -/
def Reg.PCIE.QSPI_CMD.GO : Fld := Fld.mk' (0x1D) (0xA4) 31 1 0
/-- PCIE.QSPI_ADDR.ADDR, R449. -/
def Reg.PCIE.QSPI_ADDR.ADDR : Fld := Fld.mk' (0x1D) (0xA8) 0 28 0
/-- PCIE.QSPI_STAT.BUSY, R449. -/
def Reg.PCIE.QSPI_STAT.BUSY : Fld := Fld.mk' (0x1D) (0xAC) 0 1 0
/-- PCIE.QSPI_STAT.FAIL, R449. -/
def Reg.PCIE.QSPI_STAT.FAIL : Fld := Fld.mk' (0x1D) (0xAC) 1 1 0
/-- PCIE.QSPI_STAT.SR, R449. -/
def Reg.PCIE.QSPI_STAT.SR : Fld := Fld.mk' (0x1D) (0xAC) 8 8 0
/-- PCIE.QSPI_BUF.DATA, R449. -/
def Reg.PCIE.QSPI_BUF.DATA (i : Nat) : Fld := Fld.mk' (0x1D) (0x100 + 4 * i) 0 32 0
/-- PCIE.MSIX_TABLE, R449. -/
def Reg.PCIE.MSIX_TABLE.W (i : Nat) : Fld := Fld.mk' (0x1D) (0x800 + 4 * i) 0 32 (if i % 4 = 3 then 1 else 0)
/-- PCIE.MSIX_PBA, R449. -/
def Reg.PCIE.MSIX_PBA.W (i : Nat) : Fld := Fld.mk' (0x1D) (0xC00 + 4 * i) 0 32 0

/-- The registers of page PCIE. -/
def Reg.PCIE.rows : List RegRow :=
  [⟨0x40, 1, 4, false, fun _ _ => [⟨0, 3, .ro, 0, false⟩, ⟨3, 3, .ro, 0, false⟩, ⟨6, 26, .ro, 0, true⟩]⟩,
   ⟨0x44, 1, 4, false, fun _ _ => [⟨0, 16, .ro, 0x1F6B, false⟩, ⟨16, 16, .ro, 0x4608, false⟩]⟩,
   ⟨0x48, 1, 4, false, fun _ _ => [⟨0, 32, .rw, 0, false⟩]⟩,
   ⟨0x4C, 1, 4, false, fun _ _ => [⟨0, 32, .rw, 0, false⟩]⟩,
   ⟨0x50, 1, 4, false, fun _ _ => [⟨0, 1, .rw, 0, false⟩, ⟨1, 4, .rw, 4, false⟩, ⟨5, 27, .ro, 0, true⟩]⟩,
   ⟨0x54, 1, 4, false, fun _ _ => [⟨0, 13, .rw, 0, false⟩, ⟨13, 19, .ro, 0, true⟩]⟩,
   ⟨0x58, 1, 4, false, fun _ _ => [⟨0, 13, .ro, 0, false⟩, ⟨13, 3, .ro, 0, true⟩, ⟨16, 1, .ro, 0, false⟩, ⟨17, 15, .ro, 0, true⟩]⟩,
   ⟨0x5C, 1, 4, false, fun _ _ => [⟨0, 32, .rw, 0, false⟩]⟩,
   ⟨0x60, 1, 4, false, fun _ _ => [⟨0, 32, .rw, 0, false⟩]⟩,
   ⟨0x64, 1, 4, false, fun _ _ => [⟨0, 1, .rw, 0, false⟩, ⟨1, 4, .rw, 4, false⟩, ⟨5, 8, .rw, 0, false⟩, ⟨13, 19, .ro, 0, true⟩]⟩,
   ⟨0x68, 1, 4, false, fun _ _ => [⟨0, 13, .ro, 0, false⟩, ⟨13, 19, .ro, 0, true⟩]⟩,
   ⟨0x6C, 1, 4, false, fun _ _ => [⟨0, 13, .rw, 0, false⟩, ⟨13, 19, .ro, 0, true⟩]⟩,
   ⟨0x70, 1, 4, false, fun _ _ => [⟨0, 32, .rw, 0, false⟩]⟩,
   ⟨0x74, 1, 4, false, fun _ _ => [⟨0, 32, .rw, 0, false⟩]⟩,
   ⟨0x78, 1, 4, false, fun _ _ => [⟨0, 8, .ro, 0, false⟩, ⟨8, 8, .ro, 0, true⟩, ⟨16, 16, .ro, 0, false⟩]⟩,
   ⟨0x80, 1, 4, false, fun _ _ => [⟨0, 32, .rw, 0, false⟩]⟩,
   ⟨0x84, 1, 4, false, fun _ _ => [⟨0, 32, .rw, 0, false⟩]⟩,
   ⟨0x88, 1, 4, false, fun _ _ => [⟨0, 1, .rw, 0, false⟩, ⟨1, 4, .rw, 0, false⟩, ⟨5, 11, .ro, 0, true⟩, ⟨16, 16, .rw, 64, false⟩]⟩,
   ⟨0x8C, 1, 4, false, fun _ _ => [⟨0, 31, .ro, 0, false⟩, ⟨31, 1, .ro, 0, true⟩]⟩,
   ⟨0x90, 1, 4, false, fun _ _ => [⟨0, 31, .rw, 0, false⟩, ⟨31, 1, .ro, 0, true⟩]⟩,
   ⟨0x94, 1, 4, false, fun _ _ => [⟨0, 2, .ro, 0, false⟩, ⟨2, 3, .ro, 0, false⟩, ⟨5, 26, .ro, 0, true⟩, ⟨31, 1, .ro, 0, false⟩]⟩,
   ⟨0xA0, 1, 4, false, fun _ _ => [⟨0, 4, .rw, 1, false⟩, ⟨4, 28, .ro, 0, true⟩]⟩,
   ⟨0xA4, 1, 4, false, fun _ _ => [⟨0, 3, .wo, 0, false⟩, ⟨3, 28, .wo, 0, true⟩, ⟨31, 1, .wo, 0, false⟩]⟩,
   ⟨0xA8, 1, 4, false, fun _ _ => [⟨0, 28, .rw, 0, false⟩, ⟨28, 4, .ro, 0, true⟩]⟩,
   ⟨0xAC, 1, 4, false, fun _ _ => [⟨0, 1, .ro, 0, false⟩, ⟨1, 1, .ro, 0, false⟩, ⟨2, 6, .ro, 0, true⟩, ⟨8, 8, .ro, 0, false⟩, ⟨16, 16, .ro, 0, true⟩]⟩,
   ⟨0x100, 64, 4, false, fun _ _ => [⟨0, 32, .rw, 0, false⟩]⟩,
   ⟨0x800, 256, 4, false, fun _ i => [⟨0, 32, .rw, (if i % 4 = 3 then 1 else 0), false⟩]⟩,
   ⟨0xC00, 2, 4, false, fun _ _ => [⟨0, 32, .ro, 0, false⟩]⟩]

/-! ### Page ETH -/

/-- ETH.CFG.EN, R450. -/
def Reg.ETH.CFG.EN (e : Nat) : Fld := Fld.mk' (0x1E + e) (0x40) 0 1 0
/-- ETH.CFG.AN_EN, R450. -/
def Reg.ETH.CFG.AN_EN (e : Nat) : Fld := Fld.mk' (0x1E + e) (0x40) 1 1 1
/-- ETH.CFG.CMD_EN, R450. -/
def Reg.ETH.CFG.CMD_EN (e : Nat) : Fld := Fld.mk' (0x1E + e) (0x40) 2 1 0
/-- ETH.CFG.VLAN_EN, R450. -/
def Reg.ETH.CFG.VLAN_EN (e : Nat) : Fld := Fld.mk' (0x1E + e) (0x40) 3 1 0
/-- ETH.CFG.VID, R450. -/
def Reg.ETH.CFG.VID (e : Nat) : Fld := Fld.mk' (0x1E + e) (0x40) 4 12 0
/-- ETH.CFG.PCP, R450. -/
def Reg.ETH.CFG.PCP (e : Nat) : Fld := Fld.mk' (0x1E + e) (0x40) 16 3 0
/-- ETH.STAT.LINK, R450. -/
def Reg.ETH.STAT.LINK (e : Nat) : Fld := Fld.mk' (0x1E + e) (0x44) 0 1 0
/-- ETH.STAT.AN_DONE, R450. -/
def Reg.ETH.STAT.AN_DONE (e : Nat) : Fld := Fld.mk' (0x1E + e) (0x44) 1 1 0
/-- ETH.STAT.SUBS, R450. -/
def Reg.ETH.STAT.SUBS (e : Nat) : Fld := Fld.mk' (0x1E + e) (0x44) 2 3 0
/-- ETH.MAC_LO.MAC, R450. -/
def Reg.ETH.MAC_LO.MAC (e : Nat) : Fld := Fld.mk' (0x1E + e) (0x48) 0 32 0
/-- ETH.MAC_HI.MAC, R450. -/
def Reg.ETH.MAC_HI.MAC (e : Nat) : Fld := Fld.mk' (0x1E + e) (0x4C) 0 16 0
/-- ETH.IP.ADDR, R450. -/
def Reg.ETH.IP.ADDR (e : Nat) : Fld := Fld.mk' (0x1E + e) (0x50) 0 32 0
/-- ETH.BOOT_ID.ID, R450. -/
def Reg.ETH.BOOT_ID.ID : Fld := Fld.mk' (0x1E) (0x54) 0 32 0
/-- ETH.WIN_HIGH.H, R450. -/
def Reg.ETH.WIN_HIGH.H : Fld := Fld.mk' (0x1E) (0x58) 0 32 0
/-- ETH.CNT_OK.COUNT, R450. -/
def Reg.ETH.CNT_OK.COUNT (e : Nat) : Fld := Fld.mk' (0x1E + e) (0x5C) 0 32 0
/-- ETH.CNT_AUTH.AUTH, R450. -/
def Reg.ETH.CNT_AUTH.AUTH (e : Nat) : Fld := Fld.mk' (0x1E + e) (0x60) 0 16 0
/-- ETH.CNT_AUTH.REPLAY, R450. -/
def Reg.ETH.CNT_AUTH.REPLAY (e : Nat) : Fld := Fld.mk' (0x1E + e) (0x60) 16 16 0
/-- ETH.CNT_DEC.DECODE, R450. -/
def Reg.ETH.CNT_DEC.DECODE (e : Nat) : Fld := Fld.mk' (0x1E + e) (0x64) 0 16 0
/-- ETH.CNT_DEC.SUPPRESSED, R450. -/
def Reg.ETH.CNT_DEC.SUPPRESSED (e : Nat) : Fld := Fld.mk' (0x1E + e) (0x64) 16 16 0
/-- ETH.CNT_DROP.RX, R450. -/
def Reg.ETH.CNT_DROP.RX (e : Nat) : Fld := Fld.mk' (0x1E + e) (0x68) 0 16 0
/-- ETH.CNT_DROP.TELEM, R450. -/
def Reg.ETH.CNT_DROP.TELEM (e : Nat) : Fld := Fld.mk' (0x1E + e) (0x68) 16 16 0

/-- The registers of page ETH. -/
def Reg.ETH.rows : List RegRow :=
  [⟨0x40, 1, 4, false, fun _ _ => [⟨0, 1, .rw, 0, false⟩, ⟨1, 1, .rw, 1, false⟩, ⟨2, 1, .rw, 0, false⟩, ⟨3, 1, .rw, 0, false⟩, ⟨4, 12, .rw, 0, false⟩, ⟨16, 3, .rw, 0, false⟩, ⟨19, 13, .ro, 0, true⟩]⟩,
   ⟨0x44, 1, 4, false, fun _ _ => [⟨0, 1, .ro, 0, false⟩, ⟨1, 1, .ro, 0, false⟩, ⟨2, 3, .ro, 0, false⟩, ⟨5, 27, .ro, 0, true⟩]⟩,
   ⟨0x48, 1, 4, false, fun _ _ => [⟨0, 32, .ro, 0, false⟩]⟩,
   ⟨0x4C, 1, 4, false, fun _ _ => [⟨0, 16, .ro, 0, false⟩, ⟨16, 16, .ro, 0, true⟩]⟩,
   ⟨0x50, 1, 4, false, fun _ _ => [⟨0, 32, .rw, 0, false⟩]⟩,
   ⟨0x54, 1, 4, false, fun _ _ => [⟨0, 32, .ro, 0, false⟩]⟩,
   ⟨0x58, 1, 4, false, fun _ _ => [⟨0, 32, .ro, 0, false⟩]⟩,
   ⟨0x5C, 1, 4, false, fun _ _ => [⟨0, 32, .ro, 0, false⟩]⟩,
   ⟨0x60, 1, 4, false, fun _ _ => [⟨0, 16, .ro, 0, false⟩, ⟨16, 16, .ro, 0, false⟩]⟩,
   ⟨0x64, 1, 4, false, fun _ _ => [⟨0, 16, .ro, 0, false⟩, ⟨16, 16, .ro, 0, false⟩]⟩,
   ⟨0x68, 1, 4, false, fun _ _ => [⟨0, 16, .ro, 0, false⟩, ⟨16, 16, .ro, 0, false⟩]⟩]

/-! ### Page ENG -/

/-- ENG.ID.PHYS, R206. -/
def Reg.ENG.ID.PHYS (e : Nat) : Fld := Fld.mk' (0x20 + e) (0x40) 0 7 e
/-- ENG.ID.STANDBY, R206. -/
def Reg.ENG.ID.STANDBY (e : Nat) : Fld := Fld.mk' (0x20 + e) (0x40) 7 1 (if e < 64 then 0 else 1)
/-- ENG.SERVE.LOGICAL, R206. -/
def Reg.ENG.SERVE.LOGICAL (e : Nat) : Fld := Fld.mk' (0x20 + e) (0x44) 0 6 (if e < 64 then e else 0)
/-- ENG.SERVE.SERVING, R206. -/
def Reg.ENG.SERVE.SERVING (e : Nat) : Fld := Fld.mk' (0x20 + e) (0x44) 6 1 (if e < 64 then 1 else 0)
/-- ENG.PROG.PROG_ID, R206. -/
def Reg.ENG.PROG.PROG_ID (e : Nat) : Fld := Fld.mk' (0x20 + e) (0x48) 0 32 0x00030002
/-- ENG.DIAG.ADDR_ERR, R206. -/
def Reg.ENG.DIAG.ADDR_ERR (e : Nat) : Fld := Fld.mk' (0x20 + e) (0x4C) 0 12 0
/-- ENG.DIAG.ACC_SAT, R206. -/
def Reg.ENG.DIAG.ACC_SAT (e : Nat) : Fld := Fld.mk' (0x20 + e) (0x4C) 12 12 0
/-- ENG.DIAG.CLEAR, R206. -/
def Reg.ENG.DIAG.CLEAR (e : Nat) : Fld := Fld.mk' (0x20 + e) (0x4C) 31 1 0
/-- ENG.OCC.MIN, R206. -/
def Reg.ENG.OCC.MIN (e : Nat) : Fld := Fld.mk' (0x20 + e) (0x50) 0 4 0
/-- ENG.OCC.MAX, R206. -/
def Reg.ENG.OCC.MAX (e : Nat) : Fld := Fld.mk' (0x20 + e) (0x50) 4 4 0
/-- ENG.PROG_CHK.FIRST_BAD, R206. -/
def Reg.ENG.PROG_CHK.FIRST_BAD : Fld := Fld.mk' (0x20) (0x64) 0 10 0
/-- ENG.PROG_CHK.CAUSE, R206. -/
def Reg.ENG.PROG_CHK.CAUSE : Fld := Fld.mk' (0x20) (0x64) 10 4 0
/-- ENG.PROG_CHK.BAD, R206. -/
def Reg.ENG.PROG_CHK.BAD : Fld := Fld.mk' (0x20) (0x64) 14 1 0
/-- ENG.PROG_CRC.CRC, R206. -/
def Reg.ENG.PROG_CRC.CRC : Fld := Fld.mk' (0x20) (0x68) 0 32 0
/-- ENG.COMMIT.PROG, R206. -/
def Reg.ENG.COMMIT.PROG : Fld := Fld.mk' (0x20) (0x28) 0 1 0
/-- ENG.CHK_STAT.ROLE, R381. -/
def Reg.ENG.CHK_STAT.ROLE (e : Nat) : Fld := Fld.mk' (0x20 + e) (0x80) 0 3 (if e < 64 then 0 else 1)
/-- ENG.CHK_STAT.OF, R381. -/
def Reg.ENG.CHK_STAT.OF (e : Nat) : Fld := Fld.mk' (0x20 + e) (0x80) 3 7 0
/-- ENG.CHK_STAT.COPY, R381. -/
def Reg.ENG.CHK_STAT.COPY (e : Nat) : Fld := Fld.mk' (0x20 + e) (0x80) 10 1 0
/-- ENG.CHK_CNT.MISMATCH, R381. -/
def Reg.ENG.CHK_CNT.MISMATCH (e : Nat) : Fld := Fld.mk' (0x20 + e) (0x84) 0 16 0
/-- ENG.CHK_CNT.WINDOWS, R381. -/
def Reg.ENG.CHK_CNT.WINDOWS (e : Nat) : Fld := Fld.mk' (0x20 + e) (0x84) 16 16 0
/-- ENG.MIS_LAST.SLOT, R381. -/
def Reg.ENG.MIS_LAST.SLOT (e : Nat) : Fld := Fld.mk' (0x20 + e) (0x88) 0 7 0
/-- ENG.MIS_LAST.WHAT, R381. -/
def Reg.ENG.MIS_LAST.WHAT (e : Nat) : Fld := Fld.mk' (0x20 + e) (0x88) 7 2 0
/-- ENG.MIS_LAST.WTICK, R381. -/
def Reg.ENG.MIS_LAST.WTICK (e : Nat) : Fld := Fld.mk' (0x20 + e) (0x88) 9 10 0
/-- ENG.MIS_LAST.OTHER, R381. -/
def Reg.ENG.MIS_LAST.OTHER (e : Nat) : Fld := Fld.mk' (0x20 + e) (0x88) 19 7 0
/-- ENG.HEALTH.FAILED, R381. -/
def Reg.ENG.HEALTH.FAILED (e : Nat) : Fld := Fld.mk' (0x20 + e) (0x8C) 0 1 0
/-- ENG.HEALTH.CAUSE, R381. -/
def Reg.ENG.HEALTH.CAUSE (e : Nat) : Fld := Fld.mk' (0x20 + e) (0x8C) 1 2 0
/-- ENG.HEALTH.SEGMENT, R381. -/
def Reg.ENG.HEALTH.SEGMENT (e : Nat) : Fld := Fld.mk' (0x20 + e) (0x8C) 3 6 0
/-- ENG.HEALTH.PASSES, R381. -/
def Reg.ENG.HEALTH.PASSES (e : Nat) : Fld := Fld.mk' (0x20 + e) (0x8C) 16 16 0
/-- ENG.SIG.SIG, R381. -/
def Reg.ENG.SIG.SIG (e : Nat) : Fld := Fld.mk' (0x20 + e) (0x90) 0 32 0
/-- ENG.CHK_CFG.ROT_EN, R381. -/
def Reg.ENG.CHK_CFG.ROT_EN : Fld := Fld.mk' (0x20) (0xA0) 0 1 1
/-- ENG.CHK_CFG.CONFIRM, R381. -/
def Reg.ENG.CHK_CFG.CONFIRM : Fld := Fld.mk' (0x20) (0xA0) 1 12 1000
/-- ENG.POOL.AVAIL, R381. -/
def Reg.ENG.POOL.AVAIL : Fld := Fld.mk' (0x20) (0xA4) 0 3 4
/-- ENG.POOL.FAILED, R381. -/
def Reg.ENG.POOL.FAILED : Fld := Fld.mk' (0x20) (0xA4) 3 7 0
/-- ENG.CHK_MIGRATE.LOGICAL, R381. -/
def Reg.ENG.CHK_MIGRATE.LOGICAL : Fld := Fld.mk' (0x20) (0xA8) 0 6 0
/-- ENG.CHK_MIGRATE.GO, R381. -/
def Reg.ENG.CHK_MIGRATE.GO : Fld := Fld.mk' (0x20) (0xA8) 31 1 0

/-- The registers of page ENG. -/
def Reg.ENG.rows : List RegRow :=
  [⟨0x40, 1, 4, false, fun e _ => [⟨0, 7, .ro, e, false⟩, ⟨7, 1, .ro, (if e < 64 then 0 else 1), false⟩, ⟨8, 24, .ro, 0, true⟩]⟩,
   ⟨0x44, 1, 4, false, fun e _ => [⟨0, 6, .ro, (if e < 64 then e else 0), false⟩, ⟨6, 1, .ro, (if e < 64 then 1 else 0), false⟩, ⟨7, 25, .ro, 0, true⟩]⟩,
   ⟨0x48, 1, 4, false, fun _ _ => [⟨0, 32, .ro, 0x00030002, false⟩]⟩,
   ⟨0x4C, 1, 4, false, fun _ _ => [⟨0, 12, .ro, 0, false⟩, ⟨12, 12, .ro, 0, false⟩, ⟨24, 7, .ro, 0, true⟩, ⟨31, 1, .wo, 0, false⟩]⟩,
   ⟨0x50, 1, 4, false, fun _ _ => [⟨0, 4, .ro, 0, false⟩, ⟨4, 4, .ro, 0, false⟩, ⟨8, 24, .ro, 0, true⟩]⟩,
   ⟨0x64, 1, 4, true, fun _ _ => [⟨0, 10, .ro, 0, false⟩, ⟨10, 4, .ro, 0, false⟩, ⟨14, 1, .ro, 0, false⟩, ⟨15, 17, .ro, 0, true⟩]⟩,
   ⟨0x68, 1, 4, true, fun _ _ => [⟨0, 32, .ro, 0, false⟩]⟩,
   ⟨0x28, 1, 4, true, fun _ _ => [⟨0, 1, .wo, 0, false⟩, ⟨1, 31, .wo, 0, true⟩]⟩,
   ⟨0x80, 1, 4, false, fun e _ => [⟨0, 3, .ro, (if e < 64 then 0 else 1), false⟩, ⟨3, 7, .ro, 0, false⟩, ⟨10, 1, .ro, 0, false⟩, ⟨11, 21, .ro, 0, true⟩]⟩,
   ⟨0x84, 1, 4, false, fun _ _ => [⟨0, 16, .ro, 0, false⟩, ⟨16, 16, .ro, 0, false⟩]⟩,
   ⟨0x88, 1, 4, false, fun _ _ => [⟨0, 7, .ro, 0, false⟩, ⟨7, 2, .ro, 0, false⟩, ⟨9, 10, .ro, 0, false⟩, ⟨19, 7, .ro, 0, false⟩, ⟨26, 6, .ro, 0, true⟩]⟩,
   ⟨0x8C, 1, 4, false, fun _ _ => [⟨0, 1, .ro, 0, false⟩, ⟨1, 2, .ro, 0, false⟩, ⟨3, 6, .ro, 0, false⟩, ⟨9, 7, .ro, 0, true⟩, ⟨16, 16, .ro, 0, false⟩]⟩,
   ⟨0x90, 1, 4, false, fun _ _ => [⟨0, 32, .ro, 0, false⟩]⟩,
   ⟨0xA0, 1, 4, true, fun _ _ => [⟨0, 1, .rw, 1, false⟩, ⟨1, 12, .rw, 1000, false⟩, ⟨13, 19, .ro, 0, true⟩]⟩,
   ⟨0xA4, 1, 4, true, fun _ _ => [⟨0, 3, .ro, 4, false⟩, ⟨3, 7, .ro, 0, false⟩, ⟨10, 22, .ro, 0, true⟩]⟩,
   ⟨0xA8, 1, 4, true, fun _ _ => [⟨0, 6, .wo, 0, false⟩, ⟨6, 25, .wo, 0, true⟩, ⟨31, 1, .wo, 0, false⟩]⟩]

/-! ### Page DRV -/

/-- DRV.CFG.RAIL, R97. -/
def Reg.DRV.CFG.RAIL (e : Nat) : Fld := Fld.mk' (0x80 + e) (0x40) 0 1 0
/-- DRV.CFG.CLR_MODE, R97. -/
def Reg.DRV.CFG.CLR_MODE (e : Nat) : Fld := Fld.mk' (0x80 + e) (0x40) 1 1 0
/-- DRV.CFG.DITH_EN, R97. -/
def Reg.DRV.CFG.DITH_EN (e : Nat) : Fld := Fld.mk' (0x80 + e) (0x40) 2 1 0
/-- DRV.STAT.RELEASED, R97. -/
def Reg.DRV.STAT.RELEASED (e : Nat) : Fld := Fld.mk' (0x80 + e) (0x44) 0 1 0
/-- DRV.STAT.CLEARED, R97. -/
def Reg.DRV.STAT.CLEARED (e : Nat) : Fld := Fld.mk' (0x80 + e) (0x44) 1 1 0
/-- DRV.STAT.SPAN_BUSY, R97. -/
def Reg.DRV.STAT.SPAN_BUSY (e : Nat) : Fld := Fld.mk' (0x80 + e) (0x44) 2 1 0
/-- DRV.STAT.ARMED, R97. -/
def Reg.DRV.STAT.ARMED (e : Nat) : Fld := Fld.mk' (0x80 + e) (0x44) 3 1 0
/-- DRV.STAT.CHATTER, R97. -/
def Reg.DRV.STAT.CHATTER (e : Nat) : Fld := Fld.mk' (0x80 + e) (0x44) 4 8 0
/-- DRV.STAT.ILIM_ROW, R97. -/
def Reg.DRV.STAT.ILIM_ROW (e : Nat) : Fld := Fld.mk' (0x80 + e) (0x44) 12 8 0
/-- DRV.STAT.ILIM_TRM, R97. -/
def Reg.DRV.STAT.ILIM_TRM (e : Nat) : Fld := Fld.mk' (0x80 + e) (0x44) 20 1 0
/-- DRV.CLR.REARM, R97. -/
def Reg.DRV.CLR.REARM (e : Nat) : Fld := Fld.mk' (0x80 + e) (0x48) 0 1 0
/-- DRV.RAIL_STAT.V_MEAS, R97. -/
def Reg.DRV.RAIL_STAT.V_MEAS (e : Nat) : Fld := Fld.mk' (0x80 + e) (0x4C) 0 13 0
/-- DRV.MTR_TICK.P_TICK, R97. -/
def Reg.DRV.MTR_TICK.P_TICK (e : Nat) : Fld := Fld.mk' (0x80 + e) (0x50) 0 17 0
/-- DRV.MTR_AVG.P_AVG, R97. -/
def Reg.DRV.MTR_AVG.P_AVG (e : Nat) : Fld := Fld.mk' (0x80 + e) (0x54) 0 17 0
/-- DRV.MTR_PEAK.P_PEAK, R97. -/
def Reg.DRV.MTR_PEAK.P_PEAK (e : Nat) : Fld := Fld.mk' (0x80 + e) (0x58) 0 17 0
/-- DRV.MTR_PEAK.CLEAR, R97. -/
def Reg.DRV.MTR_PEAK.CLEAR (e : Nat) : Fld := Fld.mk' (0x80 + e) (0x58) 31 1 0
/-- DRV.OUT_SEL.ROW, R97. -/
def Reg.DRV.OUT_SEL.ROW (e : Nat) : Fld := Fld.mk' (0x80 + e) (0x5C) 0 8 0
/-- DRV.OUT_RD.HTR_LIVE, R97. -/
def Reg.DRV.OUT_RD.HTR_LIVE (e : Nat) : Fld := Fld.mk' (0x80 + e) (0x60) 0 16 0
/-- DRV.OUT_RD.TRM_LIVE, R97. -/
def Reg.DRV.OUT_RD.TRM_LIVE (e : Nat) : Fld := Fld.mk' (0x80 + e) (0x60) 16 16 0
/-- DRV.OUT_PWR.P_OUT, R97. -/
def Reg.DRV.OUT_PWR.P_OUT (e : Nat) : Fld := Fld.mk' (0x80 + e) (0x64) 0 16 0
/-- DRV.OUT_PWR.SPAN, R97. -/
def Reg.DRV.OUT_PWR.SPAN (e : Nat) : Fld := Fld.mk' (0x80 + e) (0x64) 16 1 0
/-- DRV.OUT_TRANS.COUNT, R97. -/
def Reg.DRV.OUT_TRANS.COUNT (e : Nat) : Fld := Fld.mk' (0x80 + e) (0x68) 0 7 0
/-- DRV.SPAN.SPAN, R97. -/
def Reg.DRV.SPAN.SPAN (e : Nat) (i : Nat) : Fld := Fld.mk' (0x80 + e) (0x80 + 4 * i) 0 32 0
/-- DRV.HOST_CODE.HTR, R97. -/
def Reg.DRV.HOST_CODE.HTR (e : Nat) (i : Nat) : Fld := Fld.mk' (0x80 + e) (0x400 + 4 * i) 0 16 0
/-- DRV.HOST_CODE.TRM, R97. -/
def Reg.DRV.HOST_CODE.TRM (e : Nat) (i : Nat) : Fld := Fld.mk' (0x80 + e) (0x400 + 4 * i) 16 16 0
/-- DRV.LAUNCH.HTR, R97. -/
def Reg.DRV.LAUNCH.HTR (e : Nat) (i : Nat) : Fld := Fld.mk' (0x80 + e) (0x800 + 4 * i) 0 16 0
/-- DRV.LAUNCH.TRM, R97. -/
def Reg.DRV.LAUNCH.TRM (e : Nat) (i : Nat) : Fld := Fld.mk' (0x80 + e) (0x800 + 4 * i) 16 16 0
/-- DRV.ARM.ARM, R97. -/
def Reg.DRV.ARM.ARM (e : Nat) (i : Nat) : Fld := Fld.mk' (0x80 + e) (0xC00 + 4 * i) 0 32 0

/-- The registers of page DRV. -/
def Reg.DRV.rows : List RegRow :=
  [⟨0x40, 1, 4, false, fun _ _ => [⟨0, 1, .rw, 0, false⟩, ⟨1, 1, .rw, 0, false⟩, ⟨2, 1, .rw, 0, false⟩, ⟨3, 29, .ro, 0, true⟩]⟩,
   ⟨0x44, 1, 4, false, fun _ _ => [⟨0, 1, .ro, 0, false⟩, ⟨1, 1, .ro, 0, false⟩, ⟨2, 1, .ro, 0, false⟩, ⟨3, 1, .ro, 0, false⟩, ⟨4, 8, .ro, 0, false⟩, ⟨12, 8, .ro, 0, false⟩, ⟨20, 1, .ro, 0, false⟩, ⟨21, 11, .ro, 0, true⟩]⟩,
   ⟨0x48, 1, 4, false, fun _ _ => [⟨0, 1, .wo, 0, false⟩, ⟨1, 31, .ro, 0, true⟩]⟩,
   ⟨0x4C, 1, 4, false, fun _ _ => [⟨0, 13, .ro, 0, false⟩, ⟨13, 19, .ro, 0, true⟩]⟩,
   ⟨0x50, 1, 4, false, fun _ _ => [⟨0, 17, .ro, 0, false⟩, ⟨17, 15, .ro, 0, true⟩]⟩,
   ⟨0x54, 1, 4, false, fun _ _ => [⟨0, 17, .ro, 0, false⟩, ⟨17, 15, .ro, 0, true⟩]⟩,
   ⟨0x58, 1, 4, false, fun _ _ => [⟨0, 17, .ro, 0, false⟩, ⟨17, 14, .ro, 0, true⟩, ⟨31, 1, .wo, 0, false⟩]⟩,
   ⟨0x5C, 1, 4, false, fun _ _ => [⟨0, 8, .rw, 0, false⟩, ⟨8, 24, .ro, 0, true⟩]⟩,
   ⟨0x60, 1, 4, false, fun _ _ => [⟨0, 16, .ro, 0, false⟩, ⟨16, 16, .ro, 0, false⟩]⟩,
   ⟨0x64, 1, 4, false, fun _ _ => [⟨0, 16, .ro, 0, false⟩, ⟨16, 1, .ro, 0, false⟩, ⟨17, 15, .ro, 0, true⟩]⟩,
   ⟨0x68, 1, 4, false, fun _ _ => [⟨0, 7, .ro, 0, false⟩, ⟨7, 25, .ro, 0, true⟩]⟩,
   ⟨0x80, 8, 4, false, fun _ _ => [⟨0, 32, .rw, 0, false⟩]⟩,
   ⟨0x400, 256, 4, false, fun _ _ => [⟨0, 16, .rw, 0, false⟩, ⟨16, 16, .rw, 0, false⟩]⟩,
   ⟨0x800, 256, 4, false, fun _ _ => [⟨0, 16, .rw, 0, false⟩, ⟨16, 16, .rw, 0, false⟩]⟩,
   ⟨0xC00, 8, 4, false, fun _ _ => [⟨0, 32, .rw, 0, false⟩]⟩]

/-! ### Page SNS -/

/-- SNS.CFG.PD_BIAS, R128. -/
def Reg.SNS.CFG.PD_BIAS (e : Nat) : Fld := Fld.mk' (0xA0 + e) (0x40) 0 2 1
/-- SNS.CFG.AUTORANGE, R128. -/
def Reg.SNS.CFG.AUTORANGE (e : Nat) : Fld := Fld.mk' (0xA0 + e) (0x40) 2 1 1
/-- SNS.CFG.FIX_RANGE, R128. -/
def Reg.SNS.CFG.FIX_RANGE (e : Nat) : Fld := Fld.mk' (0xA0 + e) (0x40) 3 2 0
/-- SNS.FLOOR.I_FLOOR, R128. -/
def Reg.SNS.FLOOR.I_FLOOR (e : Nat) : Fld := Fld.mk' (0xA0 + e) (0x44) 0 20 410
/-- SNS.BAL.BAL_MIN, R128. -/
def Reg.SNS.BAL.BAL_MIN (e : Nat) : Fld := Fld.mk' (0xA0 + e) (0x48) 0 16 0x2000
/-- SNS.DEMOD.COMP, R128. -/
def Reg.SNS.DEMOD.COMP (e : Nat) : Fld := Fld.mk' (0xA0 + e) (0x4C) 0 8 94
/-- SNS.FRZ.N_FREEZE, R128. -/
def Reg.SNS.FRZ.N_FREEZE (e : Nat) : Fld := Fld.mk' (0xA0 + e) (0x50) 0 10 256
/-- SNS.DITH.DITH_FLOOR, R128. -/
def Reg.SNS.DITH.DITH_FLOOR (e : Nat) : Fld := Fld.mk' (0xA0 + e) (0x54) 0 16 16
/-- SNS.STAT.FROZEN, R128. -/
def Reg.SNS.STAT.FROZEN (e : Nat) : Fld := Fld.mk' (0xA0 + e) (0x58) 0 11 0
/-- SNS.STAT.TOPSAT, R128. -/
def Reg.SNS.STAT.TOPSAT (e : Nat) : Fld := Fld.mk' (0xA0 + e) (0x58) 11 11 0
/-- SNS.FIRST.INPUT, R128. -/
def Reg.SNS.FIRST.INPUT (e : Nat) : Fld := Fld.mk' (0xA0 + e) (0x5C) 0 10 0
/-- SNS.FIRST.CAUSE, R128. -/
def Reg.SNS.FIRST.CAUSE (e : Nat) : Fld := Fld.mk' (0xA0 + e) (0x5C) 10 2 0
/-- SNS.FIRST.CLEAR, R128. -/
def Reg.SNS.FIRST.CLEAR (e : Nat) : Fld := Fld.mk' (0xA0 + e) (0x5C) 31 1 0
/-- SNS.RAW_SEL.INPUT, R128. -/
def Reg.SNS.RAW_SEL.INPUT (e : Nat) : Fld := Fld.mk' (0xA0 + e) (0x60) 0 10 0
/-- SNS.RAW_RD.CODE, R128. -/
def Reg.SNS.RAW_RD.CODE (e : Nat) : Fld := Fld.mk' (0xA0 + e) (0x64) 0 14 0
/-- SNS.RAW_RD.RANGE, R128. -/
def Reg.SNS.RAW_RD.RANGE (e : Nat) : Fld := Fld.mk' (0xA0 + e) (0x64) 14 2 0
/-- SNS.BIAS_STAT.V_BIAS, R128. -/
def Reg.SNS.BIAS_STAT.V_BIAS (e : Nat) : Fld := Fld.mk' (0xA0 + e) (0x68) 0 12 0
/-- SNS.BIAS_STAT.LIMIT, R128. -/
def Reg.SNS.BIAS_STAT.LIMIT (e : Nat) : Fld := Fld.mk' (0xA0 + e) (0x68) 31 1 0
/-- SNS.RTD_CFG.IEXC, R128. -/
def Reg.SNS.RTD_CFG.IEXC : Fld := Fld.mk' (0xA0) (0x70) 0 2 1
/-- SNS.RTD_REC, R128. -/
def Reg.SNS.RTD_REC.W (i : Nat) : Fld := Fld.mk' (0xA0) (0x400 + 4 * i) 0 32 0
/-- SNS.RTD_RD.T, R128. -/
def Reg.SNS.RTD_RD.T (i : Nat) : Fld := Fld.mk' (0xA0) (0x600 + 4 * i) 0 16 0
/-- SNS.RTD_RD.R, R128. -/
def Reg.SNS.RTD_RD.R (i : Nat) : Fld := Fld.mk' (0xA0) (0x600 + 4 * i) 16 16 0
/-- SNS.COMMIT.OFS, R128. -/
def Reg.SNS.COMMIT.OFS (e : Nat) : Fld := Fld.mk' (0xA0 + e) (0x28) 0 1 0
/-- SNS.COMMIT.RTD, R128. -/
def Reg.SNS.COMMIT.RTD (e : Nat) : Fld := Fld.mk' (0xA0 + e) (0x28) 1 1 0

/-- The registers of page SNS. -/
def Reg.SNS.rows : List RegRow :=
  [⟨0x40, 1, 4, false, fun _ _ => [⟨0, 2, .rw, 1, false⟩, ⟨2, 1, .rw, 1, false⟩, ⟨3, 2, .rw, 0, false⟩, ⟨5, 27, .ro, 0, true⟩]⟩,
   ⟨0x44, 1, 4, false, fun _ _ => [⟨0, 20, .rw, 410, false⟩, ⟨20, 12, .ro, 0, true⟩]⟩,
   ⟨0x48, 1, 4, false, fun _ _ => [⟨0, 16, .rw, 0x2000, false⟩, ⟨16, 16, .ro, 0, true⟩]⟩,
   ⟨0x4C, 1, 4, false, fun _ _ => [⟨0, 8, .rw, 94, false⟩, ⟨8, 24, .ro, 0, true⟩]⟩,
   ⟨0x50, 1, 4, false, fun _ _ => [⟨0, 10, .rw, 256, false⟩, ⟨10, 22, .ro, 0, true⟩]⟩,
   ⟨0x54, 1, 4, false, fun _ _ => [⟨0, 16, .rw, 16, false⟩, ⟨16, 16, .ro, 0, true⟩]⟩,
   ⟨0x58, 1, 4, false, fun _ _ => [⟨0, 11, .ro, 0, false⟩, ⟨11, 11, .ro, 0, false⟩, ⟨22, 10, .ro, 0, true⟩]⟩,
   ⟨0x5C, 1, 4, false, fun _ _ => [⟨0, 10, .ro, 0, false⟩, ⟨10, 2, .ro, 0, false⟩, ⟨12, 19, .ro, 0, true⟩, ⟨31, 1, .wo, 0, false⟩]⟩,
   ⟨0x60, 1, 4, false, fun _ _ => [⟨0, 10, .rw, 0, false⟩, ⟨10, 22, .ro, 0, true⟩]⟩,
   ⟨0x64, 1, 4, false, fun _ _ => [⟨0, 14, .ro, 0, false⟩, ⟨14, 2, .ro, 0, false⟩, ⟨16, 16, .ro, 0, true⟩]⟩,
   ⟨0x68, 1, 4, false, fun _ _ => [⟨0, 12, .ro, 0, false⟩, ⟨12, 19, .ro, 0, true⟩, ⟨31, 1, .ro, 0, false⟩]⟩,
   ⟨0x70, 1, 4, true, fun _ _ => [⟨0, 2, .rw, 1, false⟩, ⟨2, 30, .ro, 0, true⟩]⟩,
   ⟨0x400, 128, 4, true, fun _ _ => [⟨0, 32, .rw, 0, false⟩]⟩,
   ⟨0x600, 64, 4, true, fun _ _ => [⟨0, 16, .ro, 0, false⟩, ⟨16, 16, .ro, 0, false⟩]⟩,
   ⟨0x28, 1, 4, false, fun _ _ => [⟨0, 1, .wo, 0, false⟩, ⟨1, 1, .wo, 0, false⟩]⟩]

/-! ### Page LCLASS -/

/-- LCLASS.CMD.TARGET, R165. -/
def Reg.LCLASS.CMD.TARGET : Fld := Fld.mk' (0xC0) (0x40) 0 13 0
/-- LCLASS.CMD.SCOPE, R165. -/
def Reg.LCLASS.CMD.SCOPE : Fld := Fld.mk' (0xC0) (0x40) 13 2 0
/-- LCLASS.CMD.OP, R165. -/
def Reg.LCLASS.CMD.OP : Fld := Fld.mk' (0xC0) (0x40) 16 2 0
/-- LCLASS.CMD_STAT.AFFECTED, R165. -/
def Reg.LCLASS.CMD_STAT.AFFECTED : Fld := Fld.mk' (0xC0) (0x44) 0 13 0
/-- LCLASS.CMD_STAT.SKIPPED, R165. -/
def Reg.LCLASS.CMD_STAT.SKIPPED : Fld := Fld.mk' (0xC0) (0x44) 16 13 0
/-- LCLASS.CMD_STAT.BUSY, R165. -/
def Reg.LCLASS.CMD_STAT.BUSY : Fld := Fld.mk' (0xC0) (0x44) 31 1 0
/-- LCLASS.ST_SEL.E, R165. -/
def Reg.LCLASS.ST_SEL.E : Fld := Fld.mk' (0xC0) (0x48) 0 13 0
/-- LCLASS.ST_RD.STATE, R165. -/
def Reg.LCLASS.ST_RD.STATE : Fld := Fld.mk' (0xC0) (0x4C) 0 3 0
/-- LCLASS.ST_RD.FILL, R165. -/
def Reg.LCLASS.ST_RD.FILL : Fld := Fld.mk' (0xC0) (0x4C) 3 1 0
/-- LCLASS.ST_RD.SAT, R165. -/
def Reg.LCLASS.ST_RD.SAT : Fld := Fld.mk' (0xC0) (0x4C) 4 1 0
/-- LCLASS.ST_RD.MODEL, R165. -/
def Reg.LCLASS.ST_RD.MODEL : Fld := Fld.mk' (0xC0) (0x4C) 5 1 0
/-- LCLASS.ST_RD.CAUSE, R165. -/
def Reg.LCLASS.ST_RD.CAUSE : Fld := Fld.mk' (0xC0) (0x4C) 8 3 0
/-- LCLASS.ST_RD.E_LAST, R165. -/
def Reg.LCLASS.ST_RD.E_LAST : Fld := Fld.mk' (0xC0) (0x4C) 16 16 0
/-- LCLASS.ST_RD2.H_LAST, R165. -/
def Reg.LCLASS.ST_RD2.H_LAST : Fld := Fld.mk' (0xC0) (0x50) 0 16 0
/-- LCLASS.ST_RD2.EPS_LAST, R165. -/
def Reg.LCLASS.ST_RD2.EPS_LAST : Fld := Fld.mk' (0xC0) (0x50) 16 16 0
/-- LCLASS.COUNT0.TRACK, R165. -/
def Reg.LCLASS.COUNT0.TRACK : Fld := Fld.mk' (0xC0) (0x54) 0 13 0
/-- LCLASS.COUNT0.FALLBACK, R165. -/
def Reg.LCLASS.COUNT0.FALLBACK : Fld := Fld.mk' (0xC0) (0x54) 16 13 0
/-- LCLASS.COUNT1.DARK, R165. -/
def Reg.LCLASS.COUNT1.DARK : Fld := Fld.mk' (0xC0) (0x58) 0 13 0
/-- LCLASS.COUNT1.FAULT, R165. -/
def Reg.LCLASS.COUNT1.FAULT : Fld := Fld.mk' (0xC0) (0x58) 16 13 0
/-- LCLASS.COUNT2.HOLD, R165. -/
def Reg.LCLASS.COUNT2.HOLD : Fld := Fld.mk' (0xC0) (0x5C) 0 13 0
/-- LCLASS.COUNT2.PARKED, R165. -/
def Reg.LCLASS.COUNT2.PARKED : Fld := Fld.mk' (0xC0) (0x5C) 16 13 4608
/-- LCLASS.COUNT3.TRANSIT, R165. -/
def Reg.LCLASS.COUNT3.TRANSIT : Fld := Fld.mk' (0xC0) (0x60) 0 13 0
/-- LCLASS.FIRST.E_CLAMP, R165. -/
def Reg.LCLASS.FIRST.E_CLAMP : Fld := Fld.mk' (0xC0) (0x64) 0 13 0
/-- LCLASS.FIRST.E_FAULT, R165. -/
def Reg.LCLASS.FIRST.E_FAULT : Fld := Fld.mk' (0xC0) (0x64) 16 13 0
/-- LCLASS.FIRST.V_CLAMP, R165. -/
def Reg.LCLASS.FIRST.V_CLAMP : Fld := Fld.mk' (0xC0) (0x64) 29 1 0
/-- LCLASS.FIRST.V_FAULT, R165. -/
def Reg.LCLASS.FIRST.V_FAULT : Fld := Fld.mk' (0xC0) (0x64) 30 1 0
/-- LCLASS.FIRST.CLEAR, R165. -/
def Reg.LCLASS.FIRST.CLEAR : Fld := Fld.mk' (0xC0) (0x64) 31 1 0
/-- LCLASS.CHK.CLASS, R165. -/
def Reg.LCLASS.CHK.CLASS : Fld := Fld.mk' (0xC0) (0x68) 0 4 0
/-- LCLASS.CHK.FIELD, R165. -/
def Reg.LCLASS.CHK.FIELD : Fld := Fld.mk' (0xC0) (0x68) 4 4 0
/-- LCLASS.CHK.BAD, R165. -/
def Reg.LCLASS.CHK.BAD : Fld := Fld.mk' (0xC0) (0x68) 8 1 0
/-- LCLASS.CHK.FAILING, R165. -/
def Reg.LCLASS.CHK.FAILING : Fld := Fld.mk' (0xC0) (0x68) 16 16 0
/-- LCLASS.CLASS, R165. -/
def Reg.LCLASS.CLASS.W (i : Nat) : Fld := Fld.mk' (0xC0) (0x100 + 4 * i) 0 32 (classResetWord (i % 8))
/-- LCLASS.CLASS_LIVE, R165. -/
def Reg.LCLASS.CLASS_LIVE.W (i : Nat) : Fld := Fld.mk' (0xC0) (0x300 + 4 * i) 0 32 (classResetWord (i % 8))
/-- LCLASS.COMMIT.CLASSES, R165. -/
def Reg.LCLASS.COMMIT.CLASSES : Fld := Fld.mk' (0xC0) (0x28) 0 16 0

/-- The registers of page LCLASS. -/
def Reg.LCLASS.rows : List RegRow :=
  [⟨0x40, 1, 4, false, fun _ _ => [⟨0, 13, .wo, 0, false⟩, ⟨13, 2, .wo, 0, false⟩, ⟨15, 1, .wo, 0, true⟩, ⟨16, 2, .wo, 0, false⟩, ⟨18, 14, .wo, 0, true⟩]⟩,
   ⟨0x44, 1, 4, false, fun _ _ => [⟨0, 13, .ro, 0, false⟩, ⟨13, 3, .ro, 0, true⟩, ⟨16, 13, .ro, 0, false⟩, ⟨29, 2, .ro, 0, true⟩, ⟨31, 1, .ro, 0, false⟩]⟩,
   ⟨0x48, 1, 4, false, fun _ _ => [⟨0, 13, .rw, 0, false⟩, ⟨13, 19, .ro, 0, true⟩]⟩,
   ⟨0x4C, 1, 4, false, fun _ _ => [⟨0, 3, .ro, 0, false⟩, ⟨3, 1, .ro, 0, false⟩, ⟨4, 1, .ro, 0, false⟩, ⟨5, 1, .ro, 0, false⟩, ⟨6, 2, .ro, 0, true⟩, ⟨8, 3, .ro, 0, false⟩, ⟨11, 5, .ro, 0, true⟩, ⟨16, 16, .ro, 0, false⟩]⟩,
   ⟨0x50, 1, 4, false, fun _ _ => [⟨0, 16, .ro, 0, false⟩, ⟨16, 16, .ro, 0, false⟩]⟩,
   ⟨0x54, 1, 4, false, fun _ _ => [⟨0, 13, .ro, 0, false⟩, ⟨13, 3, .ro, 0, true⟩, ⟨16, 13, .ro, 0, false⟩, ⟨29, 3, .ro, 0, true⟩]⟩,
   ⟨0x58, 1, 4, false, fun _ _ => [⟨0, 13, .ro, 0, false⟩, ⟨13, 3, .ro, 0, true⟩, ⟨16, 13, .ro, 0, false⟩, ⟨29, 3, .ro, 0, true⟩]⟩,
   ⟨0x5C, 1, 4, false, fun _ _ => [⟨0, 13, .ro, 0, false⟩, ⟨13, 3, .ro, 0, true⟩, ⟨16, 13, .ro, 4608, false⟩, ⟨29, 3, .ro, 0, true⟩]⟩,
   ⟨0x60, 1, 4, false, fun _ _ => [⟨0, 13, .ro, 0, false⟩, ⟨13, 19, .ro, 0, true⟩]⟩,
   ⟨0x64, 1, 4, false, fun _ _ => [⟨0, 13, .ro, 0, false⟩, ⟨13, 3, .ro, 0, true⟩, ⟨16, 13, .ro, 0, false⟩, ⟨29, 1, .ro, 0, false⟩, ⟨30, 1, .ro, 0, false⟩, ⟨31, 1, .wo, 0, false⟩]⟩,
   ⟨0x68, 1, 4, false, fun _ _ => [⟨0, 4, .ro, 0, false⟩, ⟨4, 4, .ro, 0, false⟩, ⟨8, 1, .ro, 0, false⟩, ⟨9, 7, .ro, 0, true⟩, ⟨16, 16, .ro, 0, false⟩]⟩,
   ⟨0x100, 128, 4, false, fun _ i => [⟨0, 32, .rw, (classResetWord (i % 8)), false⟩]⟩,
   ⟨0x300, 128, 4, false, fun _ i => [⟨0, 32, .ro, (classResetWord (i % 8)), false⟩]⟩,
   ⟨0x28, 1, 4, false, fun _ _ => [⟨0, 16, .wo, 0, false⟩, ⟨16, 16, .wo, 0, true⟩]⟩]

/-! ### Page FTEST -/

/-- FTEST.ENG_FLIP.ENGINE, R382. -/
def Reg.FTEST.ENG_FLIP.ENGINE : Fld := Fld.mk' (0xF0) (0x40) 0 7 0
/-- FTEST.ENG_FLIP.SLOT, R382. -/
def Reg.FTEST.ENG_FLIP.SLOT : Fld := Fld.mk' (0xF0) (0x40) 7 7 0
/-- FTEST.ENG_FLIP.BIT, R382. -/
def Reg.FTEST.ENG_FLIP.BIT : Fld := Fld.mk' (0xF0) (0x40) 14 4 0
/-- FTEST.ENG_FLIP.GO, R382. -/
def Reg.FTEST.ENG_FLIP.GO : Fld := Fld.mk' (0xF0) (0x40) 31 1 0
/-- FTEST.SEQ_FLIP.CHANNEL, R382. -/
def Reg.FTEST.SEQ_FLIP.CHANNEL : Fld := Fld.mk' (0xF0) (0x44) 0 2 0
/-- FTEST.SEQ_FLIP.WORD, R382. -/
def Reg.FTEST.SEQ_FLIP.WORD : Fld := Fld.mk' (0xF0) (0x44) 2 11 0
/-- FTEST.SEQ_FLIP.GO, R382. -/
def Reg.FTEST.SEQ_FLIP.GO : Fld := Fld.mk' (0xF0) (0x44) 31 1 0
/-- FTEST.ECC.TARGET, R382. -/
def Reg.FTEST.ECC.TARGET : Fld := Fld.mk' (0xF0) (0x48) 0 4 0
/-- FTEST.ECC.DOUBLE, R382. -/
def Reg.FTEST.ECC.DOUBLE : Fld := Fld.mk' (0xF0) (0x48) 4 1 0
/-- FTEST.ECC.GO, R382. -/
def Reg.FTEST.ECC.GO : Fld := Fld.mk' (0xF0) (0x48) 31 1 0
/-- FTEST.ADC_HOLD.INPUT, R382. -/
def Reg.FTEST.ADC_HOLD.INPUT : Fld := Fld.mk' (0xF0) (0x4C) 0 10 0
/-- FTEST.ADC_HOLD.PAGE, R382. -/
def Reg.FTEST.ADC_HOLD.PAGE : Fld := Fld.mk' (0xF0) (0x4C) 10 4 0
/-- FTEST.ADC_HOLD.HOLD, R382. -/
def Reg.FTEST.ADC_HOLD.HOLD : Fld := Fld.mk' (0xF0) (0x4C) 30 1 0
/-- FTEST.ST_FAIL.STANDBY, R382. -/
def Reg.FTEST.ST_FAIL.STANDBY : Fld := Fld.mk' (0xF0) (0x50) 0 2 0
/-- FTEST.ST_FAIL.GO, R382. -/
def Reg.FTEST.ST_FAIL.GO : Fld := Fld.mk' (0xF0) (0x50) 31 1 0

/-- The registers of page FTEST. -/
def Reg.FTEST.rows : List RegRow :=
  [⟨0x40, 1, 4, false, fun _ _ => [⟨0, 7, .rw, 0, false⟩, ⟨7, 7, .rw, 0, false⟩, ⟨14, 4, .rw, 0, false⟩, ⟨18, 13, .ro, 0, true⟩, ⟨31, 1, .rw, 0, false⟩]⟩,
   ⟨0x44, 1, 4, false, fun _ _ => [⟨0, 2, .rw, 0, false⟩, ⟨2, 11, .rw, 0, false⟩, ⟨13, 18, .ro, 0, true⟩, ⟨31, 1, .rw, 0, false⟩]⟩,
   ⟨0x48, 1, 4, false, fun _ _ => [⟨0, 4, .rw, 0, false⟩, ⟨4, 1, .rw, 0, false⟩, ⟨5, 26, .ro, 0, true⟩, ⟨31, 1, .rw, 0, false⟩]⟩,
   ⟨0x4C, 1, 4, false, fun _ _ => [⟨0, 10, .rw, 0, false⟩, ⟨10, 4, .rw, 0, false⟩, ⟨14, 16, .ro, 0, true⟩, ⟨30, 1, .rw, 0, false⟩, ⟨31, 1, .ro, 0, true⟩]⟩,
   ⟨0x50, 1, 4, false, fun _ _ => [⟨0, 2, .rw, 0, false⟩, ⟨2, 29, .ro, 0, true⟩, ⟨31, 1, .rw, 0, false⟩]⟩]

end Sys2Proof.Machine
end

