-- ==== Sys2Proof/Machine/State.lean ====
section
/-!
DEFINITION. The state of the block as plain data: what every register, memory, queue, counter and pin holds, the
queue of waiting commands, and the reasons a step can stop. Register fields stand in one field file (`regs`),
keyed as Machine/Regs.lean names them; the rest is grouped by block.
-/
set_option autoImplicit false

namespace Sys2Proof.Machine

/-- The twelve modes, with the codes of R173 by their order. -/
inductive Mode where
  | reset | boot | idle | calibrate | openHold | track | transition | degraded | thermalLimit | safe
  | shutdown | factoryTest
deriving DecidableEq, Repr

/-- The mode's code (R173). -/
def Mode.code : Mode → Nat
  | .reset => 0 | .boot => 1 | .idle => 2 | .calibrate => 3 | .openHold => 4 | .track => 5
  | .transition => 6 | .degraded => 7 | .thermalLimit => 8 | .safe => 9 | .shutdown => 10 | .factoryTest => 11

/-- The working modes of the modes chapter: TRACK, TRANSITION, DEGRADED and THERMAL_LIMIT. -/
def Mode.working : Mode → Bool
  | .track | .transition | .degraded | .thermalLimit => true
  | _ => false

/-- The seven element states, with the codes of R130 by their order. -/
inductive LoopState where
  | parked | hold | track | fallback | transit | dark | fault
deriving DecidableEq, Repr

/-- The state's code (R130, R171). -/
def LoopState.code : LoopState → Nat
  | .parked => 0 | .hold => 1 | .track => 2 | .fallback => 3 | .transit => 4 | .dark => 5 | .fault => 6

/-- The state of a code; a program that stores code 7, which no state has, leaves FAULT here.
(DESIGN CHOICE, log 25). -/
def LoopState.ofCode (n : Nat) : LoopState :=
  match n % 8 with
  | 0 => .parked | 1 => .hold | 2 => .track | 3 => .fallback | 4 => .transit | 5 => .dark | _ => .fault

/-- The loop is closed in TRACK, FALLBACK, TRANSIT and DARK (R130). -/
def LoopState.closed : LoopState → Bool
  | .track | .fallback | .transit | .dark => true
  | _ => false

/-- One event source: latch bit and latched class, mask, raw bit, count (R347, R348), and its reaction table
entry: class and LOG (R352). -/
structure EvRec where
  latch : Bool
  lcls : Nat
  mask : Bool
  raw : Bool
  count : Nat
  cls : Nat
  log : Bool
deriving DecidableEq, Repr

/-- The default reaction class of source `s`: 0 INFO, 1 WARN, 2 DEGRADE, 3 SAFE, 4 SHUTDOWN
(R96, R126, R164, R262, R375, R391 and the event tables of the other chapters). -/
def defaultClass (s : Nat) : Nat :=
  if s < 544 then
    (match s % 8 with
      | 0 => 1 | 1 => 1 | 4 => 1 | 5 => 1 | _ => 0)
  else if s < 832 then
    (match (s - 544) % 16 with
      | 0 => 1 | 1 => 1 | 2 => 3 | 3 => 1 | 4 => 1 | _ => 0)
  else if s < 895 then
    (match (s - 832) % 7 with
      | 0 => 1 | 1 => 1 | 2 => 1 | 4 => 3 | _ => 0)
  else if s < 896 then 0
  else if s < 928 then
    (match s - 896 with
      | 0 => 1 | 1 => 1 | 2 => 4 | 3 => 1 | 4 => 1 | 5 => 4 | 6 => 1 | 7 => 1 | 8 => 3 | 9 => 1 | _ => 0)
  else if s < 960 then
    (match s - 928 with
      | 0 => 1 | 1 => 1 | 3 => 1 | _ => 0)
  else if s < 992 then
    (match s - 960 with
      | 0 => 1 | 1 => 1 | 3 => 1 | 4 => 3 | _ => 0)
  else if s < 1024 then
    (match s - 992 with
      | 0 => 2 | 1 => 3 | 2 => 1 | _ => 0)
  else if s < 1056 then
    (match s - 1024 with
      | 1 => 1 | 2 => 1 | 3 => 1 | 4 => 1 | _ => 0)
  else if s < 1088 then
    (match s - 1056 with
      | 0 => 1 | 2 => 1 | 3 => 1 | 4 => 1 | 5 => 1 | 7 => 1 | 8 => 1 | 10 => 1 | 12 => 1 | 20 => 1 | _ => 0)
  else if s < 1120 then
    (match s - 1088 with
      | 0 => 1 | 1 => 1 | 2 => 1 | 3 => 1 | 4 => 1 | 5 => 1 | 6 => 1 | _ => 0)
  else
    (match s - 1120 with
      | 0 => 1 | 2 => 1 | 6 => 1 | 8 => 2 | 9 => 3 | 10 => 1 | 11 => 1 | 12 => 1 | _ => 0)

/-- The record of source `s` after reset (R352, R376). -/
def EvRec.reset (s : Nat) : EvRec :=
  { latch := false, lcls := 0, mask := true, raw := false, count := 0, cls := defaultClass s
    log := decide (3 ≤ defaultClass s) }

/-- A heater modulator (R65): error states in units of 2^-16, run length, last output, the flag of the first
period after a launch, transitions in the present tick, periods already run in it, and the saturations in it. -/
structure Modulator where
  e1 : Int
  e2 : Int
  run : Nat
  last : Bool
  first : Bool
  trans : Nat
  done : Nat
  clamps : Nat
deriving DecidableEq, Repr

/-- A span sequence in progress (R76): the tick boundary at which it starts, the code it ramps from, the kept
trim code, and whether the span switch has changed. -/
structure SpanSeq where
  start : Nat
  src : Half
  kept : Half
  switched : Bool
deriving DecidableEq, Repr

/-- What drove an element's outputs until instant `q` of elapsed time (R321): the live codes, the span sequence, whether the bank was
cleared, and whether R79 allowed dither but for the span sequence. -/
structure OutSnap where
  q : Nat
  htr : Half
  trm : Half
  seq : Option SpanSeq
  clr : Bool
  dith : Bool
deriving DecidableEq, Repr

/-- The drive part of an element: tick, live and launch shadow codes and the ARM bit (R80 to R82), the number of the
last tick boundary whose transfer is ignored (R81), the span in force and its sequence (R75, R76), the modulator, the sum of live
heater codes over the periods of the present tick, P_OUT and transitions of the last tick (R94, R97), and whether
the output is in a limiting episode (R69); `old` gives what drove the outputs before each change inside a tick, oldest
first. -/
structure ElemDrv where
  htrTick : Half
  trmTick : Half
  htrLive : Half
  trmLive : Half
  htrSh : Half
  trmSh : Half
  arm : Bool
  skipTo : Nat
  span : Bool
  seq : Option SpanSeq
  md : Modulator
  sum : Nat
  pOut : Nat
  pTick : Nat
  transLast : Nat
  limiting : Bool
  old : List OutSnap
deriving DecidableEq, Repr

/-- One monitor input (R104, R105, R119, R120): raw code and range of the last sample, the range of the next
window, the length of the run of identical samples, samples clipped in range 2 in the present tick, TOPSAT of the
last tick, highest range and clipping in the tick, whether it was frozen at a sample of the tick, the
corrected values of the last frame sampled and of the frame before it, and the number of the last frame plus one. -/
structure InState where
  raw : Nat
  rng : Nat
  nextRng : Nat
  same : Nat
  frozen : Bool
  clip2 : Nat
  topsat : Bool
  rngMax : Nat
  clipped : Bool
  frozeTick : Bool
  corr : Nat
  corrOld : Nat
  frame : Nat
deriving DecidableEq, Repr

/-- A monitor record (R118); `sumAbsD` is the sum of |D| over its frames, which the dither response takes (R121). -/
structure MonRec where
  sumA : Nat
  rngA : Nat
  clipA : Bool
  sumB : Nat
  rngB : Nat
  clipB : Bool
  sumD : Int
  sumAbsD : Nat
  iA : Int
  qA : Int
  iB : Int
  qB : Int
  h2 : Int
  chk : List Nat
  freeze : Bool
  topsat : Bool
  dithLow : Bool
  epsLast : Nat
  epsMax : Nat
deriving DecidableEq, Repr

/-- The dither response window of R121: the sums over the ticks seen, whether the window still counts, and the
flag that the next window's records carry. -/
structure DithWin where
  h2 : Int
  i : Int
  q : Int
  d : Int
  counts : Bool
  low : Bool
  ended : Nat
deriving DecidableEq, Repr

/-- The sensing part of an element: its two inputs, the state byte of its demodulator (R115), the input latch of a
stage-0 element (R111), the record under construction and the record of the last tick. `sinceLoad` is the instant, in
quarter-nanoseconds of elapsed time, of the last load of the state byte, which may still lie ahead, `oldLoad` the
instant of the load before it, and `oldByte` the byte before it. -/
structure ElemSns where
  a : InState
  b : InState
  latchP0 : Nat
  latchP1 : Nat
  latchOk : Bool
  oldByte : Byte
  sinceLoad : Nat
  oldLoad : Nat
  cur : MonRec
  prev : MonRec
  lightPrev : Bool
  win : DithWin
  dithNow : Bool
  dithPrev : Bool
deriving DecidableEq, Repr

/-- The outcome codes of R226; `tracking` is an element still tracked. -/
inductive Outcome where
  | tracking | delivered | model | fail | notLaunched | aborted
deriving DecidableEq, Repr

/-- A delivery tracker (R224): its counters, the check of the window's last instant, the launch instant and the
window's end in quarter-nanoseconds of elapsed time, the settle time and the outcome. -/
structure Tracker where
  run : Nat
  lit : Bool
  last : Nat
  npass : Nat
  ndark : Nat
  lastDark : Bool
  t0 : Nat
  tEnd : Nat
  settle : Nat
  outcome : Outcome
  frame : Word
deriving DecidableEq, Repr

/-- The hand-over decided in step 7 of R135 for the next slot. -/
inductive Hand where
  | none | toFallback | toTrack
deriving DecidableEq, Repr

/-- The loop part of an element: ESTAT (R171), the state byte of the last solve (R62), how many mode entries its
slots have seen (R135, R160), the next tick in which its slot has not run, the pending hand-over, membership of the
freeze set (R458), the exit change of a TRANSIT element set by a mode entry (R160), the FF of
its last slot (R132), integrity flags held in TRANSIT (R137), and the instant of its latest launch (R141). -/
structure ElemLoop where
  st : LoopState
  sbyte : Byte
  next : Byte
  launched : Bool
  moved : Bool
  seen : Nat
  slotTick : Nat
  hand : Hand
  inFreeze : Bool
  exitTo : LoopState
  ffLast : Int
  heldFl : Nat
  launchQ : Option Nat
deriving DecidableEq, Repr

/-- What the block holds for one element beside the tables. -/
structure Elem where
  drv : ElemDrv
  sns : ElemSns
  lp : ElemLoop
  trk : Option Tracker
deriving DecidableEq, Repr

/-- A modulator that has made no transition (R66). -/
def Modulator.reset : Modulator :=
  { e1 := 0, e2 := 0, run := 4, last := false, first := false, trans := 0, done := 0, clamps := 0 }

/-- Drive part after reset (R85). -/
def ElemDrv.reset : ElemDrv :=
  { htrTick := 0, trmTick := 0, htrLive := 0, trmLive := 0, htrSh := 0, trmSh := 0, arm := false, skipTo := 0
    span := false, seq := none, md := Modulator.reset, sum := 0, pOut := 0, pTick := 0, transLast := 0
    limiting := false, old := [] }

/-- Input after reset. -/
def InState.reset : InState :=
  { raw := 0, rng := 0, nextRng := 0, same := 0, frozen := false, clip2 := 0, topsat := false, rngMax := 0
    clipped := false, frozeTick := false, corr := 0, corrOld := 0, frame := 0 }

/-- A record with no check in it; EPS values read 0xFFFF, none computed (R118). -/
def MonRec.empty : MonRec :=
  { sumA := 0, rngA := 0, clipA := false, sumB := 0, rngB := 0, clipB := false, sumD := 0, sumAbsD := 0, iA := 0, qA := 0
    iB := 0, qB := 0, h2 := 0, chk := [], freeze := false, topsat := false, dithLow := false
    epsLast := 0xFFFF, epsMax := 0xFFFF }

/-- Dither window after reset. -/
def DithWin.reset : DithWin := { h2 := 0, i := 0, q := 0, d := 0, counts := false, low := false, ended := 0 }

/-- Sensing part after reset: the latch is invalid (R111). -/
def ElemSns.reset : ElemSns :=
  { a := InState.reset, b := InState.reset, latchP0 := 0, latchP1 := 0, latchOk := false, oldByte := 0, sinceLoad := 0, oldLoad := 0
    cur := MonRec.empty, prev := MonRec.empty, lightPrev := false, win := DithWin.reset, dithNow := false
    dithPrev := false }

/-- Loop part after reset: PARKED (R196), bar and unlit state byte (R63). -/
def ElemLoop.reset : ElemLoop :=
  { st := .parked, sbyte := 0, next := 0, launched := false, moved := false, seen := 0, slotTick := 0
    hand := .none, inFreeze := false, exitTo := .track, ffLast := 0, heldFl := 0
    launchQ := none }

/-- An element after reset. -/
def Elem.reset : Elem :=
  { drv := ElemDrv.reset, sns := ElemSns.reset, lp := ElemLoop.reset, trk := none }

/-- The datapath of a slot or of a planner engine (R167, R204): D, A, F registers, pointers P, B and L, scratch,
bundles issued in the slot, bundles still suppressed, the REP loop being recorded or run, whether OUT was carried out, the
slot's data memory writes in order and the ESTAT.STATE it stored last (R360). Each table lists what differs from the preset
of its register. -/
structure Dp where
  elem : Nat
  d : Tbl Half
  a : Tbl Acc40
  f : Tbl Bool
  p : Tbl Nat
  b : Tbl Nat
  l : Tbl Nat
  scr : Tbl Half
  issued : Nat
  skip : Nat
  repN : Nat
  repCount : Nat
  repBody : List (List Instr)
  outDone : Bool
  wrote : List (Nat × Nat)
  stored : Option LoopState
deriving DecidableEq, Repr

/-- A datapath at the start of a slot (R167). -/
def Dp.reset : Dp :=
  { elem := 0, d := [], a := [], f := [], p := [], b := [], l := [], scr := [], issued := 0, skip := 0
    repN := 0, repCount := 0, repBody := [], outDone := false
    wrote := [], stored := none }

/-- What a bank holds beside its page (R71, R72, R85 to R92): released and cleared, the rail in force, whether the
clear in force is PARK, an accepted REARM or EN = 0 waiting for its boundary, the rounds counted out of and inside
the rail window, the rail condition, the sum of the ticks of the present millisecond in mW, the rows of the host
code window ever written and those waiting for the next boundary, and the in-limit trim output. -/
structure Bank where
  released : Bool
  cleared : Bool
  railLive : Bool
  parkCode : Bool
  rearm : Bool
  powerDown : Bool
  outN : Nat
  inN : Nat
  railCond : Bool
  msSum : Rat
  msN : Nat
  hostRows : List Nat
  hostPend : List Nat
deriving DecidableEq, Repr

/-- A bank after reset (R85). -/
def Bank.reset : Bank :=
  { released := false, cleared := false, railLive := false, parkCode := false, rearm := false, powerDown := false
    outN := 0, inN := 0, railCond := false, msSum := 0, msN := 0, hostRows := [], hostPend := [] }

/-- A peer of the UDP protocol: Ethernet port, Ethernet address, IPv4 address and UDP port (R433). -/
structure Peer where
  port : Fin 2
  mac : BitVec 48
  ip : Word
  udp : Nat
deriving DecidableEq, Repr

/-- A frame that has arrived and waits for evaluation (R236): its words, its arrival stamp in local time, its path,
and the sequence number of the UDP message it came in (R440). -/
structure Arrival where
  stamp : Nat
  peer : Option Peer
  msg : Word
  words : List Word
deriving DecidableEq, Repr

/-- Where a queued frame stands (R207, R235 to R240). -/
inductive Stage where
  | queued | solving | solved | planning | planned | voted | armed | launched
deriving DecidableEq, Repr

/-- An accepted frame (R233 to R239): its fields, its launch time as a count of whole nanoseconds of local time, its
settle time in units of 31.25 ns, the predictions made at its acceptance with `rel`, its launch time plus T_SETTLE in
quarter-nanoseconds of local time (R207), its stage, whether solving keeps (R52) and when
it began, the state bytes that solving
gave its member's elements, the elements that its plan arms, the moved ones that it found PARKED and that have not entered
PARKED since, what the plan counted (nothing before it has read the contexts), and, once launched,
the launch instant in quarter-nanoseconds of elapsed time. In a chain: `members` holds the state sets of the other members,
`ready` the members that sent READY, `sums` their SUMMARY words, `commit` says that COMMIT is held, `casc` that the frame
came over Glewlink, and `cells` the STATES cells received. -/
structure Frame where
  kind : Nat
  slot : Nat
  seq : Word
  settle : Nat
  launch : Nat
  payload : List Word
  peer : Option Peer
  ta : Nat
  tp : Nat
  sFree : Nat
  pEnd : Nat
  rel : Nat
  stage : Stage
  states : List Byte
  members : List (Nat × List Byte)
  armSet : List Nat
  wasParked : List Nat
  planStart : Nat
  t0 : Nat
  ready : List Nat
  refused : Bool
  sums : List (Nat × List Nat)
  keep : Bool
  solveStart : Nat
  plan : List Nat
  commit : Bool
  casc : Bool
  cells : Tbl (List Word)
deriving DecidableEq, Repr

/-- What leaves the block: an outward trace, newest first. -/
inductive Out where
  | answer (m : Master) (a : Nat) (code : Nat) (v : Word)
  | msix (vec : Nat)
  | dma (addr : Nat) (ws : List Word)
  | udp (peer : Peer) (src : Nat) (ws : List Word) (tag : List Byte)
  | completion (status : Nat)
  | eth (port : Nat) (kind : Nat) (ws : List Word)
  | ptp (port : Nat) (kind : Nat) (head : List Nat) (ws : List Nat)
  | time (d : Port) (ws : List Nat)
  | link (d : Port) (lanes : List (List Byte))
  | pin (name : Nat) (level : Bool)
  | i2c (bytes : List Byte)
  | tap (ir : Nat) (v : Nat)
deriving DecidableEq, Repr

/-- A context half that waits to become live (R198, R199): its value, the tick that ends at its boundary, and whether
the host wrote it (R133). -/
structure PendHalf where
  val : Half
  tick : Nat
  host : Bool
deriving DecidableEq, Repr

/-- An NVM write in the queue (R369 to R371): its place, its bytes, whether a log record, and whether it is the retry. -/
structure NvmWrite where
  addr : Nat
  bytes : List Byte
  wearIx : Nat
  log : Bool
  retry : Bool
deriving DecidableEq, Repr

/-- A loop command that waits for, or is in, its tick (R156): operation, scope, target, and the tick in which it acts. -/
structure LoopCmd where
  op : Nat
  scope : Nat
  target : Nat
  tick : Nat
deriving DecidableEq, Repr

/-- What one physical engine does as a checker (R358 to R365): the tick at which its present phase began, whether it
is a lone re-check of R362, self-test segment and failures in a row, the fewest and most bundles of a slot and their sum in the
tick, and the first slot, counted 72 to a tick, that its own schedule has not run. -/
structure EngRt where
  t0 : Nat
  lone : Nat
  segment : Nat
  failRun : Nat
  occMin : Nat
  occMax : Nat
  occSum : Nat
  nextSlot : Nat
deriving DecidableEq, Repr

/-- Engine bookkeeping after reset. -/
def EngRt.reset : EngRt :=
  { t0 := 0, lone := 0, segment := 0, failRun := 0, occMin := 15, occMax := 0, occSum := 0, nextSlot := 0 }

/-- What a slot gives to the comparator (R360): the heater and trim tick codes of OUT, the address and value of each data
memory write in order, and the ESTAT.STATE written. -/
structure SlotRes where
  codes : Option (Half × Half)
  writes : List (Nat × Nat)
  state : Option LoopState
deriving DecidableEq, Repr

/-- A confirmation (R361): the serving engine and the two standbys, the tick at which they begin to copy, and whether the
serving engine has been outvoted, so that it ends at the next boundary. -/
structure Confirm where
  serving : Nat
  s1 : Nat
  s2 : Nat
  start : Nat
  decided : Bool
deriving DecidableEq, Repr

/-- A migration waiting for its boundary (R363, R365): logical engine, new engine, the tick that ends at the
boundary, and the cause code of R369. -/
structure Migration where
  logical : Nat
  dest : Nat
  tick : Nat
  cause : Nat
deriving DecidableEq, Repr

/-- The scheduler beside its page (R235 to R250): the queue in launch order, frames that wait for evaluation, the
solver-free and plan-completion instants before the queue's first frame and `rel` of the last completed one, peak allowance windows in
quarter-nanoseconds of elapsed time, whether METER_OVER was raised in this millisecond, the ticks of the millisecond,
the slot, start, KEEP, SIZE and entries of a running trial solve (R62), and the status records that wait for the completion ring (R259, R428). -/
structure Sched where
  queue : List Frame
  arrivals : List Arrival
  sFree : Nat
  pEnd : Nat
  rel : Nat
  relTick : Nat
  windows : List (Nat × Nat)
  overMs : Bool
  msTick : Nat
  trySlot : Option Nat
  tryStart : Nat
  tryKeep : Bool
  trySize : Nat
  tryEntries : List Nat
  recs : List (List Word)
deriving DecidableEq, Repr

/-- The time base beside its page: the local time as whole nanoseconds and a fraction in units of 2^-28 ns (R265),
a deferred step (R274), the consecutive good updates (R281), whether an edge was accepted in the present PPS window
and the second it belongs to (R288), the instant holdover began, the
last accepted PPS edge, the master followed last (port, parent, grandmaster), and the clock as it stood before its latest steps and
changes of INCR, newest first: edge of elapsed time, whole nanoseconds, fraction and INCR. -/
structure TimeSt where
  ns : Nat
  frac : Nat
  defer : Option Int
  good : Nat
  ppsSec : Option Nat
  holdStart : Nat
  ppsOut : Bool
  ppsEnd : Nat
  ppsSeen : Option Nat
  master : Option (Nat × PortId × BitVec 64)
  past : List (Nat × Nat × Nat × Nat)
deriving DecidableEq, Repr

/-- A foreign master heard on a port (R285): its data set, its announce interval in quarter-nanoseconds, the number of its
Announce messages up to 2, and the instants of the last two. -/
structure Foreign where
  prio1 : Nat
  quality : Nat
  prio2 : Nat
  gm : BitVec 64
  steps : Nat
  src : PortId
  intv : Nat
  n : Nat
  last : Nat
  prev : Nat
deriving DecidableEq, Repr

/-- A PTP port beside its page (R284 to R287): the foreign masters heard; a two-step Sync that waits for its Follow_Up
(sequenceId, ingress stamp, correction); the origin and ingress stamp of the last complete Sync, corrections applied; the
outstanding Delay_Req and Pdelay_Req with their egress stamps; a Pdelay_Resp that waits for its follow-up (sequenceId, t2, t4,
correction); the next sequence number; egress stamps missed in a row; whether the path delay is known; and when a faulty port
recovers. Stamps are in units of 2^-16 ns. -/
structure PtpSt where
  foreign : List Foreign
  sync : Option (Nat × Int × Int)
  last : Option (Int × Int)
  dreq : Option (Nat × Int)
  preq : Option (Nat × Int)
  presp : Option (Nat × Int × Int × Int)
  seq : Nat
  missed : Nat
  delayKnown : Bool
  recoverAt : Option Nat
deriving DecidableEq, Repr

/-- The parts of the block that act on modes and resets (R451 to R463): requests, tables committed since reset,
limit request, resets asserted, filtered pins, whether IDLE was left, the mode entries made since reset, whether REFCLK is
present, whether the boot self-test has ended, and how many times BOOT_ID was drawn (R436). -/
structure SysSt where
  mode : Mode
  req : Option Mode
  shutClr : Bool
  tblElem : Bool
  tblXt : Bool
  limitReq : Bool
  entries : List Mode
  leftIdle : Bool
  frozenLow : Bool
  frozenTick : Bool
  clrLow : Bool
  resetPor : Bool
  resetPin : Bool
  softReq : Bool
  softRun : Bool
  refOk : Bool
  tested : Bool
  draws : Nat
  tmode : Bool
deriving DecidableEq, Repr

/-- The events block beside its table and page (R349, R356, R357, R369): message spacing of the vectors (elapsed
quarter-nanoseconds of the last message of each) and messages due, boundaries since ALIVE was last able to toggle,
the watchdog's start, whether its expiry holds ALIVE and whether the present period's expiry was raised, the instant of the last KIND 6 record,
and sources that an action raised in passing and that are raised at its end. -/
structure EvSt where
  tab : Tbl EvRec
  lastMsg : Tbl Nat
  due : List Nat
  aliveN : Nat
  wdStart : Nat
  wdOver : Bool
  wdDone : Bool
  lastLog : Option Nat
  late : List Nat
deriving DecidableEq, Repr

/-- The redundancy block (R358 to R366). -/
structure RedSt where
  engs : Tbl EngRt
  confirm : List Confirm
  migr : List Migration
  shadowOf : Tbl Nat
  wnd : Nat
deriving DecidableEq, Repr

/-- The NVM with its write queue, the counters in RAM, the write counts of its cells, the ticks of powered time since the
last counter write, the metered energy in nJ that is not yet a Wh, and whether the key is programmed (R368 to R373). -/
structure NvmSt where
  mem : Tbl Byte
  queue : List NvmWrite
  life : Tbl Nat
  wear : Tbl Nat
  wearSaid : Bool
  seqn : Nat
  powered : Nat
  energy : Nat
  keySet : Bool
deriving DecidableEq, Repr

/-- Housekeeping beside its pages (R383 to R394): rounds completed; by 3 × region + level the entry count, the exit count
and whether the region holds the level, with controller regions 0 to 5 and photonic regions from 6; by supply channel the
rounds outside and inside the window in a row; DETAIL of the latest SHUT of each die (R391); and the settings that a write replaced
during a round, with the number of that round and their value in it, oldest first (R386, R393, R396). -/
structure HkSt where
  rounds : Nat
  lvl : Tbl (Nat × Nat × Bool)
  sup : Tbl (Nat × Nat)
  detC : Nat
  detP : Nat
  held : List (Nat × Fld × Nat)
deriving DecidableEq, Repr

/-- Housekeeping after reset. -/
def HkSt.reset : HkSt := { rounds := 0, lvl := [], sup := [], detC := 0, detP := 0, held := [] }

/-- The crossbar beside its page (R411, R412): words with a single-bit error, those found and not yet rewritten, and words
of the tables with a double-bit error. -/
structure XbSt where
  single : List EccWord
  fix : List EccWord
  double : List EccWord
deriving DecidableEq, Repr

/-- A crossbar without errors. -/
def XbSt.reset : XbSt := { single := [], fix := [], double := [] }

/-- A sample of a probe channel (R321, R323): its instant in quarter-nanoseconds and the CLK_TICK edge of its decision, both
of elapsed time, the TIME32W count of its instant, its value, and whether an EPS value was not computed. -/
structure Samp where
  q : Nat
  t : Nat
  dec : Nat
  val : Int
  void : Bool
deriving DecidableEq, Repr

/-- A measurement in progress (R341): T in quarter-nanoseconds of elapsed time and as TIME32W, the controller that made the
window, V_0, the span's instants and values, oldest first, the end of its window, and whether that window has closed. -/
structure Meas where
  t : Nat
  stamp : Nat
  origin : Nat
  v0 : Option Int
  xs : List (Nat × Int)
  stop : Option Nat
  past : Bool
deriving DecidableEq, Repr

/-- A probe channel (R321 to R325): the group being formed (values taken, index, instant and stamp of its first, that value with
its check code, largest and smallest, sum and number of the values kept), the first frame of an output code not yet taken, the
context word or ESTAT read after the slot of a tick, the latest samples, newest first, the DATA record being filled (its samples, the
stamp of the first, its instant and the edge of its decision, instant and stamp of the last), and the measurement. -/
structure ChanSt where
  gN : Nat
  gIdx : Nat
  gQ : Nat
  gT : Nat
  first : Int × Nat
  big : Option (Int × Nat)
  low : Option (Int × Nat)
  sum : Int
  kept : Nat
  seen : Nat
  snap : Option (Nat × Nat)
  hist : List Samp
  part : List Int
  partT : Nat
  partQ : Nat
  partDec : Nat
  partZ : Nat × Nat
  meas : Option Meas
deriving DecidableEq, Repr

/-- A channel that has seen nothing. -/
def ChanSt.reset : ChanSt :=
  { gN := 0, gIdx := 0, gQ := 0, gT := 0, first := (0, 0), big := none, low := none, sum := 0, kept := 0, seen := 0, snap := none
    hist := [], part := [], partT := 0, partQ := 0, partDec := 0, partZ := (0, 0), meas := none }

/-- Acquisition beside its page (R324 to R332): the channels, a RUN written that waits for its boundary, the held records
(header and words), the first and last lost samples (instant and stamp), how many were lost in which channels, the held
records dropped, whether a step was applied since the last SYNC, and the multiple of 2^30 ns last passed. -/
structure AcqSt where
  chans : Tbl ChanSt
  runReq : Option Bool
  held : List (Nat × List Nat)
  lostA : Option (Nat × Nat)
  lostZ : Option (Nat × Nat)
  lostN : Nat
  lostMask : Nat
  heldLost : Nat
  stepped : Bool
  mark : Nat
deriving DecidableEq, Repr

/-- Acquisition after reset. -/
def AcqSt.reset : AcqSt :=
  { chans := [], runReq := none, held := [], lostA := none, lostZ := none, lostN := 0, lostMask := 0, heldLost := 0
    stepped := false, mark := 0 }

/-- An open marked window (R340): T and the end in quarter-nanoseconds of elapsed time, and W_END. -/
structure Win where
  t : Nat
  stop : Option Nat
  wEnd : Nat
deriving DecidableEq, Repr

/-- The trigger engine beside its page (R333 to R342): the first step not evaluated, the conditions that are true at one step
only (step, TYPE, ARG), the open window, the timers' windows in steps, the pulse on TRIG, a chain-wide arm or disarm
(TIME32W instant, arm, identity), and the level of TRIG last accepted, true for released, with the step at which it was.
Steps are CLK_TICK edges of elapsed time. -/
structure TrigSt where
  next : Nat
  once : List (Nat × Nat × Nat)
  win : Option Win
  tmr : Tbl (Nat × Nat)
  pulse : Option (Nat × Nat)
  armAt : Option (Nat × Bool × Nat)
  level : Bool
  levelAt : Nat
deriving DecidableEq, Repr

/-- The trigger engine after reset. -/
def TrigSt.reset : TrigSt :=
  { next := 0, once := [], win := none, tmr := [], pulse := none, armAt := none, level := true, levelAt := 0 }

/-- A cell that waits for its slot (R296, R299): the CLK_TICK edge, counted from the start, at which it came, its type, and its words
0 to 8. -/
structure TxCell where
  at_ : Nat
  typ : Nat
  ws : List Nat
deriving DecidableEq, Repr

/-- One port of the cascade beside its fields (R300, R301): the serial of the last ID cell, the departure stamps of the
latest link frames (frame number, whole nanoseconds, fraction in 2^-28 ns), the last TIME cell's link frame number and
arrival stamp, bad TIME cells in a row, the sums of two-way measurements (count, flight times in ns), and the cells that wait to
leave, oldest first (R299). -/
structure PortSt where
  serial : Option (BitVec 64)
  dep : List (Nat × Nat × Nat)
  rxFrame : Nat
  rxNs : Nat
  rxFrac : Nat
  bad : Nat
  n : Nat
  flight : Rat
  tx : List TxCell
deriving DecidableEq, Repr

/-- A port that has trained never. -/
def PortSt.reset : PortSt :=
  { serial := none, dep := [], rxFrame := 0, rxNs := 0, rxFrac := 0, bad := 0, n := 0, flight := 0, tx := [] }

/-- What the master knows of a member (R305, R306, R314): the instant and bits of its last STATUS, the tick count and
the ledger image number it carried, and whether MEMBER_LOST was raised since it was last heard. -/
structure MemberSt where
  seen : Option Nat
  bits : Nat
  imgSeq : Nat
  lost : Bool
deriving DecidableEq, Repr

/-- A member never heard. -/
def MemberSt.reset : MemberSt := { seen := none, bits := 0, imgSeq := 0, lost := false }

/-- Glewlink beside its page (R300 to R317): the ports; on a member the offsets of the present 64 link frames, the
upstream INCR and whether upstream says that the master is in holdover, whether the next update steps, whether a step was applied since the last TIME cell sent, the number of
ledger images sent, the image cells still to send and the PARKED bitmap of the last; when COMMIT or ABORT last left; on the master the members, their ledger images by 32,768 k + word
and their elements' state bytes by 8,192 k + element, and the queue of member events. -/
structure GlewSt where
  up : PortSt
  dn : PortSt
  oSum : Rat
  oN : Nat
  upIncr : Nat
  upHold : Bool
  stepNext : Bool
  stepped : Bool
  imgSeq : Nat
  imgQ : List Nat
  imgParked : List Nat
  cmdAt : Option Nat
  mems : Tbl MemberSt
  image : Tbl Word
  mstates : Tbl Byte
  mevt : List (Nat × Nat × Nat)
deriving DecidableEq, Repr

/-- Glewlink after reset. -/
def GlewSt.reset : GlewSt :=
  { up := PortSt.reset, dn := PortSt.reset, oSum := 0, oN := 0, upIncr := 0x40000000, upHold := false, stepNext := false, stepped := false
    imgSeq := 0, imgQ := [], imgParked := [], cmdAt := none, mems := [], image := [], mstates := [], mevt := [] }

/-- The host's links beside the PCIE page (R420 to R431, R442 to R446): bus mastering, whether CMD_CFG.EN was written 0, the instant of the last message of
vector 24 and whether one is due, records streamed since the last message of vector 25, the flash operation in progress
(operation and address), the I2C byte pointer, the TAP's instruction and boundary register, and of the function's configuration
space the power state D3hot and the codes of Max Payload Size and Max Read Request Size (R420, R431). -/
structure HostSt where
  busMaster : Bool
  cmdOff : Bool
  cplSig : Option Nat
  cplDue : Bool
  acqSig : Nat
  qspi : Option (Nat × Nat)
  i2cPtr : Nat
  tapIr : Nat
  boundary : BitVec 35
  d3 : Bool
  mps : Nat
  mrrs : Nat
deriving DecidableEq, Repr

/-- The host's links after reset: IDCODE is selected (R446). (DESIGN CHOICE, log 117; PRESUMED, log 136). -/
def HostSt.reset : HostSt :=
  { busMaster := false, cmdOff := false, cplSig := none, cplDue := false, acqSig := 0, qspi := none, i2cPtr := 0, tapIr := 1, boundary := 0
    d3 := false, mps := 0, mrrs := 2 }

/-- A subscription (R441): its peer, what it asks for, its period in ms, the ends of its lease and of its present period
in quarter-nanoseconds of elapsed time, and the start and number of the events of the present second. -/
structure Sub where
  peer : Peer
  records : Bool
  events : Bool
  summary : Bool
  period : Nat
  lease : Nat
  next : Nat
  evStart : Nat
  evN : Nat
deriving DecidableEq, Repr

/-- The UDP protocol beside its pages (R437, R438, R440, R441): the window's bits for [H - 63, H] with bit 0 for H, the
last answer's sequence number, the instant of the last ERROR of each port, and the subscriptions. -/
structure EthSt where
  win : Nat
  ansSeq : Nat
  errAt : Tbl Nat
  subs : List Sub
deriving DecidableEq, Repr

/-- The UDP protocol at a new BOOT_ID: every bit of the window is set (R438). -/
def EthSt.reset : EthSt := { win := 18446744073709551615, ansSeq := 0, errAt := [], subs := [] }

/-- Everything the block holds but its queue of commands. `tick` counts the tick boundaries since the clock started
and `edge` the CLK_TICK edges since the last one (R30, R270); `regs` is the field file; `shadow` and `live` are the
table memories by BAR2 offset (R491), with the contexts and the acquisition buffer in `live`; `clsLive` and `rtdLive`
are the live classes and RTD records (R161, R123); `pend` holds the context halves that wait (R199), keyed by BAR2
offset; `biasLive` is the PD_BIAS selection in force by SNS page (R99) and `biasSeen` the tick, plus one, in which its
supply was last in limit (R100); `strobe` is the edge, counted from the start, at which a strobe that was issued acts (R83); `dpS` holds, by logical engine, the datapaths that single syllables of a slot use, and `dpP` those of the planner engines;
`planFw` holds the words of the planner firmware that a boot image placed, none for that of the ROM (R205, R469); `permDone`
lists the permutation slots ever committed (R54) and `xtCrc` is the CRC computed over the shadow crosstalk table (R231, over
zeros after reset); `free` counts the open values taken and `sent` is the outward trace: these two are the model's own. -/
structure Blk where
  tick : Nat
  edge : Nat
  time : TimeSt
  ptp : Tbl PtpSt
  sys : SysSt
  regs : Tbl Nat
  ev : EvSt
  shadow : Tbl Byte
  live : Tbl Byte
  pend : Tbl PendHalf
  clsLive : Tbl Word
  rtdLive : Tbl Word
  elems : Tbl Elem
  banks : Tbl Bank
  biasLive : Tbl Nat
  biasSeen : Tbl Nat
  strobe : Option Nat
  cmd : Option LoopCmd
  sched : Sched
  epsLock : Nat
  epsPend : Bool
  red : RedSt
  nvm : NvmSt
  dpS : Tbl Dp
  dpP : Tbl Dp
  planFw : List Word
  pmem : Tbl Half
  hk : HkSt
  xb : XbSt
  acq : AcqSt
  trig : TrigSt
  glew : GlewSt
  host : HostSt
  eth : EthSt
  flash : Tbl Byte
  permDone : List Nat
  xtCrc : Nat
  free : Nat
  sent : List Out
deriving DecidableEq, Repr

/-- The state of the machine: the commands that wait, first in first out, and the block. -/
structure State where
  pending : List Instr
  b : Blk
deriving DecidableEq, Repr

/-- Why a step could stop with a fault. No command of this block does: the block has no state in which it stops, so
the one constructor is raised by nothing (safe). -/
inductive Fault where
  /-- Raised by no command. -/
  | none
deriving DecidableEq, Repr

/-- Why a command could have no meaning. -/
inductive Refusal where
  /-- The dispatch arm of a command that has no meaning yet (safe). -/
  | notModelled (mnemonic : String)
deriving DecidableEq, Repr

/-- The time base at reset (R267). -/
def TimeSt.reset : TimeSt :=
  { ns := 0, frac := 0, defer := none, good := 0, ppsSec := none, holdStart := 0, ppsOut := false, ppsEnd := 0
    ppsSeen := none, master := none, past := [] }

/-- A PTP port at reset. -/
def PtpSt.reset : PtpSt :=
  { foreign := [], sync := none, last := none, dreq := none, preq := none, presp := none, seq := 0, missed := 0
    delayKnown := false, recoverAt := none }

/-- The mode block after a controller reset: RESET, filtered FREEZE_N and CLR_N high (R457, R88). -/
def SysSt.reset : SysSt :=
  { mode := .reset, req := none, shutClr := false, tblElem := false, tblXt := false, limitReq := false, entries := []
    leftIdle := false, frozenLow := false, frozenTick := false, clrLow := false, resetPor := false, resetPin := false
    softReq := false, softRun := false, refOk := false, tested := false, draws := 0, tmode := false }

/-- The events block after reset (R347, R356). -/
def EvSt.reset : EvSt :=
  { tab := [], lastMsg := [], due := [], aliveN := 0, wdStart := 0, wdOver := false, wdDone := false, lastLog := none, late := [] }

/-- The redundancy block after reset. -/
def RedSt.reset : RedSt := { engs := [], confirm := [], migr := [], shadowOf := [], wnd := 0 }

/-- A blank NVM: nothing listed. -/
def NvmSt.reset : NvmSt :=
  { mem := [], queue := [], life := [], wear := [], wearSaid := false, seqn := 0, powered := 0, energy := 0
    keySet := false }

/-- The scheduler after reset. -/
def Sched.reset : Sched :=
  { queue := [], arrivals := [], sFree := 0, pEnd := 0, rel := 0, relTick := 0, windows := [], overMs := false, msTick := 0
    trySlot := none, tryStart := 0, tryKeep := true, trySize := 0, tryEntries := [], recs := [] }

/-- The block after a controller reset: every register field and memory byte at its default.
(DEDUCED, log 4; DESIGN CHOICE, log 5; DESIGN CHOICE, log 8). -/
def Blk.reset : Blk :=
  { tick := 0, edge := 0, time := TimeSt.reset, ptp := [], sys := SysSt.reset, regs := [], ev := EvSt.reset
    shadow := [], live := [], pend := [], clsLive := [], rtdLive := [], elems := [], banks := [], biasLive := [], biasSeen := [], strobe := none, cmd := none
    sched := Sched.reset, epsLock := 207, epsPend := false, red := RedSt.reset, nvm := NvmSt.reset, dpS := []
    dpP := [], planFw := [], pmem := [], hk := HkSt.reset, xb := XbSt.reset, acq := AcqSt.reset, trig := TrigSt.reset
    glew := GlewSt.reset, host := HostSt.reset, eth := EthSt.reset, flash := [], permDone := [], xtCrc := 2805525020
    free := 0, sent := [] }

/-- The machine right after a power-on reset has ended, in RESET with no PLL locked (R461, R463); the queue is empty.
(DEDUCED, log 4). -/
def State.reset : State := { pending := [], b := { Blk.reset with regs := [(Reg.SYS.RST_CAUSE.CAUSE.key, 1)] } }

end Sys2Proof.Machine
end

