-- ==== Sys2Proof/Machine/Mem.lean ====
section
/-!
DEFINITION. The table memories of BAR2 (R491): what they hold after reset (R472, R196), reading and writing bytes,
halves and words, and the copy of a shadow region to its live copy.
-/
set_option autoImplicit false

namespace Sys2Proof.Machine

/-- Tone index of element `e` (R45). -/
def toneOf (e : Nat) : Nat := (e % 256 + 3 * (e / 256)) % 8

/-- Words 0 to 30 of the default element record (R472). -/
def dfltRecWord (e w : Nat) : Nat :=
  match w with
  | 0 => 2000 + toneOf e * 33554432
  | 3 => 0x8000 + 0x2000 * 65536
  | 6 => 0x8000 + 0x8000 * 65536
  | 8 => 1000
  | _ => 0

/-- The default element record's CHECK word (R43, R472). -/
def dfltCheck (e : Nat) : Nat :=
  crc32 ((List.range 31).flatMap fun w => wordBytes (BitVec.ofNat 32 (dfltRecWord e w)))

/-- The CRC of the ROM program image (R193, R200): 13 bundles and 72 entries of 0. -/
def romCrc : Nat := crc32 ((List.range 208).map Config.romByte ++ List.replicate 288 0)

/-- A word of the ROM program header (R193, R200). -/
def romHeader (w : Nat) : Nat :=
  match w with
  | 0 => 0x00030002
  | 1 => 13
  | 2 => romCrc
  | _ => 0

/-- Byte `i` of a word held as a number. -/
def byteOf (w i : Nat) : Byte := BitVec.ofNat 8 (w / 256 ^ i)

/-- What byte `a` of the BAR2 tables reads as after reset (R472, R196). (DESIGN CHOICE, log 6). -/
def tblDflt (a : Nat) : Byte :=
  if a < 0x90000 then
    byteOf (if a % 128 / 4 = 31 then dfltCheck (a / 128) else dfltRecWord (a / 128) (a % 128 / 4)) (a % 4)
  else if a < 0x200000 then 0
  else if a < 0x248000 then (if a % 2 = 0 then 0 else BitVec.ofNat 8 (a % 64 / 2))
  else if a < 0x250000 then (if a % 2 = 0 then 0 else 0x10)
  else if a < 0x300000 then 0
  else if a < 0x304000 then Config.romByte (a - 0x300000)
  else if a < 0x304200 then 0
  else if a < 0x304210 then byteOf (romHeader (a % 16 / 4)) (a % 4)
  else 0

/-- A byte of a BAR2 table copy. -/
def rdB (m : Tbl Byte) (a : Nat) : Byte := m.get (tblDflt a) a

/-- A table copy with one byte written. -/
def wrB (m : Tbl Byte) (a : Nat) (v : Byte) : Tbl Byte := m.set (tblDflt a) a v

/-- A half-word of a table copy, as a number (R18). -/
def rdH (m : Tbl Byte) (a : Nat) : Nat := (rdB m a).toNat + 256 * (rdB m (a + 1)).toNat

/-- A word of a table copy, as a number (R18). -/
def rdW (m : Tbl Byte) (a : Nat) : Nat := rdH m a + 65536 * rdH m (a + 2)

/-- Bytes written from address `a` on. -/
def wrBytes (m : Tbl Byte) : Nat → List Byte → Tbl Byte
  | _, [] => m
  | a, x :: t => wrBytes (wrB m a x) (a + 1) t

/-- A half-word written. -/
def wrH (m : Tbl Byte) (a v : Nat) : Tbl Byte := wrB (wrB m a (byteOf v 0)) (a + 1) (byteOf v 1)

/-- A word written. -/
def wrW (m : Tbl Byte) (a v : Nat) : Tbl Byte := wrH (wrH m a v) (a + 2) (v / 65536)

/-- `n` bytes from address `a`. -/
def rdBytes (m : Tbl Byte) (a n : Nat) : List Byte := (List.range n).map fun i => rdB m (a + i)

/-- The entries of a table in `[lo, hi)`. -/
def Tbl.inside {β : Type} (t : Tbl β) (lo hi : Nat) : Tbl β := t.filter fun e => decide (lo ≤ e.1 ∧ e.1 < hi)

/-- A commit's copy: `[lo, hi)` of `live` becomes what `shadow` holds there, every other place stays. -/
def copyRange (shadow live : Tbl Byte) (lo hi : Nat) : Tbl Byte :=
  live.filter (fun e => decide (e.1 < lo)) ++ shadow.inside lo hi ++ live.filter (fun e => decide (hi ≤ e.1))

/-! ### The element record (R42), from a table copy -/

/-- Word `w` of element `e`'s record. -/
def recW (m : Tbl Byte) (e w : Nat) : Nat := rdW m (128 * e + 4 * w)

/-- R_HEATER in 0.1 ohm. -/
def rHeater (m : Tbl Byte) (e : Nat) : Nat := natBits (recW m e 0) 0 16
/-- THERM_CLASS. -/
def thermClass (m : Tbl Byte) (e : Nat) : Nat := natBits (recW m e 0) 16 5
/-- LOOP_CLASS. -/
def loopClass (m : Tbl Byte) (e : Nat) : Nat := natBits (recW m e 0) 21 4
/-- TONE. -/
def tone (m : Tbl Byte) (e : Nat) : Nat := natBits (recW m e 0) 25 3
/-- PHI_BAR, PHI_CROSS or PHI_BLANK of a state code (R42, R212). -/
def phiOf (m : Tbl Byte) (e st : Nat) : Nat :=
  match st with
  | 0 => natBits (recW m e 1) 0 16
  | 1 => natBits (recW m e 1) 16 16
  | _ => natBits (recW m e 2) 0 16
/-- TRM_CENTRE. -/
def trmCentre (m : Tbl Byte) (e : Nat) : Nat := natBits (recW m e 3) 0 16
/-- HTR_MAX. -/
def htrMax (m : Tbl Byte) (e : Nat) : Nat := natBits (recW m e 3) 16 16
/-- PARK_HTR. -/
def parkHtr (m : Tbl Byte) (e : Nat) : Nat := natBits (recW m e 4) 0 16
/-- PARK_TRM. -/
def parkTrm (m : Tbl Byte) (e : Nat) : Nat := natBits (recW m e 4) 16 16
/-- TRIM_K1, Q1.15. -/
def trimK1 (m : Tbl Byte) (e : Nat) : Int := sext 16 (natBits (recW m e 5) 0 16)
/-- TRIM_K2, Q1.15. -/
def trimK2 (m : Tbl Byte) (e : Nat) : Int := sext 16 (natBits (recW m e 5) 16 16)
/-- MON_A_GAIN. -/
def monAGain (m : Tbl Byte) (e : Nat) : Nat := natBits (recW m e 6) 0 16
/-- MON_B_GAIN. -/
def monBGain (m : Tbl Byte) (e : Nat) : Nat := natBits (recW m e 6) 16 16
/-- XT_BASE. -/
def xtBase (m : Tbl Byte) (e : Nat) : Nat := natBits (recW m e 7) 0 19
/-- XT_COUNT. -/
def xtCount (m : Tbl Byte) (e : Nat) : Nat := natBits (recW m e 7) 19 7
/-- TAU_TH in ns. -/
def tauTh (m : Tbl Byte) (e : Nat) : Nat := natBits (recW m e 8) 0 16

/-- Knot `i` of element `e`'s curve (R48). -/
def knot (m : Tbl Byte) (e i : Nat) : Nat := rdH m (0x200000 + 64 * e + 2 * i)

/-- The piecewise-linear function of R48 over 32 knots, before the limit HTR_MAX. -/
def pwl (y : Nat → Nat) (x : Nat) : Nat :=
  let i := x / 2048
  let f := x % 2048
  let num : Int :=
    if i ≤ 30 then 2048 * (y i : Int) + ((y (i + 1) : Int) - (y i : Int)) * (f : Int)
    else 2048 * (y 31 : Int) + ((y 31 : Int) - (y 30 : Int)) * (f : Int)
  (satU16 (rne num 2048)).toNat

/-- The heater code for phase `x` (R48, R47). -/
def curveCode (m : Tbl Byte) (e x : Nat) : Nat := min (pwl (knot m e) x) (htrMax m e)

/-- Address of context word `w` of element `e` (R197). -/
def ctxAddr (e w : Nat) : Nat := 0x310000 + 256 * e + 4 * w

end Sys2Proof.Machine
end

