-- ==== Sys2Proof/Machine/Ops.lean ====
section
/-!
DEFINITION. The named operations that the commands' meanings share: register fields, elements and banks, the clock,
raising an event with all its reactions (R347 to R355), clearing banks (R87, R91), withdrawing frames (R237, R253),
changing the mode (R454), NVM records (R369) and the rejection of a register write (R15, R482).
-/
set_option autoImplicit false

namespace Sys2Proof.Machine

/-! ### Register fields -/

/-- The value of a register field. -/
def getF (b : Blk) (f : Fld) : Nat := b.regs.get f.rst f.key

/-- A register field set, to the width of the field. -/
def setF (f : Fld) (v : Nat) (b : Blk) : Blk := { b with regs := b.regs.set f.rst f.key (v % 2 ^ f.wid) }

/-- A one-bit field as a truth value. -/
def flag (b : Blk) (f : Fld) : Bool := getF b f == 1

/-- A one-bit field set from a truth value. -/
def setFlag (f : Fld) (v : Bool) (b : Blk) : Blk := setF f (if v then 1 else 0) b

/-- A field raised by one, up to its greatest value (the saturating counts of the field tables). -/
def incF (f : Fld) (b : Blk) : Blk := setF f (satInc (2 ^ f.wid - 1) (getF b f)) b

/-- ERR_CODE.CODE of a page (R479). -/
def Reg.HDR.errCode (p : Nat) : Fld := Fld.mk' p 0x20 0 8 0
/-- ERR_CODE.OFFSET of a page (R479). -/
def Reg.HDR.errOff (p : Nat) : Fld := Fld.mk' p 0x20 8 12 0
/-- ERR_CODE.MASTER of a page (R479). -/
def Reg.HDR.errMaster (p : Nat) : Fld := Fld.mk' p 0x20 20 3 0
/-- ERR_COUNT.COUNT of a page (R479). -/
def Reg.HDR.errCount (p : Nat) : Fld := Fld.mk' p 0x24 0 16 0
/-- COMMIT_STAT bit `j` of a page (R479, R488). -/
def Reg.HDR.pend (p j : Nat) : Fld := Fld.mk' p 0x2C j 1 0
/-- CTRL.EN of a DRV page (R479, R481). -/
def Reg.HDR.en (n : Nat) : Fld := Fld.mk' (0x80 + n) 0x08 0 1 0

/-- The number of a master (R482). -/
def masterNo : Master → Nat
  | .m0 => 0 | .m1 => 1 | .m2 => 2 | .m3 => 3 | .m4 => 4 | .m5 => 5 | .m6 => 6

/-- A rejected write leaves its code, offset and master in ERR_CODE of the page and counts in ERR_COUNT (R15, R482). -/
def reject (p off code : Nat) (m : Master) (b : Blk) : Blk :=
  incF (Reg.HDR.errCount p)
    (setF (Reg.HDR.errMaster p) (masterNo m)
      (setF (Reg.HDR.errOff p) off (setF (Reg.HDR.errCode p) code b)))

/-- Something leaves the block. -/
def send (o : Out) (b : Blk) : Blk := { b with sent := o :: b.sent }

/-- An open value is taken: the next free value, and the count of those taken. (DESIGN CHOICE, log 8). -/
def takeFree (b : Blk) : Word × Blk := (Config.freeValue b.free, { b with free := b.free + 1 })

/-! ### Messages and cells -/

/-- The mask bit of MSI-X vector `v` (R423). -/
def msixMasked (b : Blk) (v : Nat) : Bool := natBits (getF b (Reg.PCIE.MSIX_TABLE.W (4 * v + 3))) 0 1 == 1

/-- MSI-X vector `v` is signalled: a message, or, where the vector is masked, its pending bit (R423). (PRESUMED, log 136). -/
def signalMsix (v : Nat) (b : Blk) : Blk :=
  let f := Reg.PCIE.MSIX_PBA.W (v / 32 % 2)
  if msixMasked b v then setF f (getF b f ||| 2 ^ (v % 32)) b else send (.msix v) b

/-- The UDP port of the command protocol (R433). -/
def udpPort : Nat := 47810

/-- The key of the command protocol: the 32 bytes of NVM region KEY (R368, R435). -/
def keyBytes (b : Blk) : List Byte := (List.range 32).map fun i => b.nvm.mem.get 0 (0x40 + i)

/-- A message of the UDP protocol with its header and its tag, from UDP port 47810 (R433, R435, R440). -/
def sendUdp (p : Peer) (typ : Nat) (body : List Word) (b : Blk) : Blk :=
  let n := b.eth.ansSeq + 1
  let b := { b with eth := { b.eth with ansSeq := n } }
  let ws := [BitVec.ofNat 32 (1 + typ * 256 + 4 * body.length * 65536), BitVec.ofNat 32 (getF b Reg.ETH.BOOT_ID.ID),
    BitVec.ofNat 32 n] ++ body
  send (.udp p udpPort ws (hmacTag (keyBytes b) (ws.flatMap wordBytes))) b

/-- A member of a chain: CASC_ID is not 0 (R293, R295). (DEDUCED, log 42). -/
def isMember (b : Blk) : Bool := getF b Reg.GLEW.ID.CASC_ID != 0

/-- The number of members of the chain that this controller is the master of (R233, R308). -/
def chainN (b : Blk) : Nat := if flag b Reg.GLEW.CFG.EN ∧ isMember b = false then getF b Reg.GLEW.CFG.CHAIN else 0

/-- The state field of a port (R300, R319). -/
def portState (b : Blk) (d : Port) : Nat :=
  match d with
  | .up => getF b Reg.GLEW.LINK.UP_STATE
  | .dn => getF b Reg.GLEW.LINK.DN_STATE

/-- The header word of a cell (R298). -/
def cellHeader (typ src dest : Nat) (bcast : Bool) (arg : Nat) : Nat :=
  typ + src * 16 + dest * 128 + (if bcast then 1024 else 0) + arg % 65536 * 65536

/-- What the block keeps of a port. -/
def portSt (b : Blk) (d : Port) : PortSt :=
  match d with
  | .up => b.glew.up
  | .dn => b.glew.dn

/-- What the block keeps of a port, replaced. -/
def setPort (d : Port) (x : PortSt) (b : Blk) : Blk :=
  match d with
  | .up => { b with glew := { b.glew with up := x } }
  | .dn => { b with glew := { b.glew with dn := x } }

/-- A cell waits for a slot of port `d`: its words 0 to 8, short payloads filled with 0 (R297, R299). -/
def queueCell (d : Port) (typ : Nat) (ws : List Nat) (b : Blk) : Blk :=
  let c : TxCell := { at_ := 250 * b.tick + b.edge, typ := typ, ws := ws ++ List.replicate (9 - ws.length) 0 }
  setPort d { portSt b d with tx := (portSt b d).tx ++ [c] } b

/-- A cell of types 3 to 15 is given to a port in RUN (R297 to R300): header and payload words. -/
def sendCell (d : Port) (typ dest : Nat) (bcast : Bool) (arg : Nat) (ws : List Nat) (b : Blk) : Blk :=
  if portState b d = 5 then queueCell d typ (cellHeader typ (getF b Reg.GLEW.ID.CASC_ID) dest bcast arg :: ws) b else b

/-- READY and the like from a member to the master, three times in consecutive slots (R299). -/
def sendUp3 (typ : Nat) (seq : Word) (ws : List Word) (b : Blk) : Blk :=
  (List.range 3).foldl (fun b _ => sendCell .up typ 0 false (seq.toNat % 65536) (ws.map BitVec.toNat) b) b

/-- LAST_2PC and LAST_RES of the GLEW page (R310, R319). -/
def show2pc (seq : Word) (res member code : Nat) (b : Blk) : Blk :=
  setF Reg.GLEW.LAST_RES.CODE code (setF Reg.GLEW.LAST_RES.MEMBER member (setF Reg.GLEW.LAST_RES.RESULT res
    (setF Reg.GLEW.LAST_2PC.SEQ seq.toNat b)))

/-- COMMIT and ABORT from the master to every member, three times in consecutive slots (R299). -/
def sendDown3 (typ : Nat) (seq : Word) (ws : List Word) (b : Blk) : Blk :=
  (List.range 3).foldl (fun b _ => sendCell .dn typ 0 true (seq.toNat % 65536) (ws.map BitVec.toNat) b)
    { b with glew := { b.glew with cmdAt := some ((250 * b.tick + b.edge) * 16) } }

/-! ### Elements and banks -/

/-- What the block holds for element `e`. -/
def Blk.elem (b : Blk) (e : Nat) : Elem := b.elems.get Elem.reset e

/-- Element `e` replaced. -/
def setElem (e : Nat) (x : Elem) (b : Blk) : Blk := { b with elems := b.elems.set Elem.reset e x }

/-- Element `e` changed by a function. -/
def updElem (e : Nat) (f : Elem → Elem) (b : Blk) : Blk := setElem e (f (b.elem e)) b

/-- The elements listed, changed one after the other. -/
def updElems (es : List Nat) (f : Nat → Elem → Elem) (b : Blk) : Blk := es.foldl (fun b e => updElem e (f e) b) b

/-- The elements that differ from their reset value. -/
def Blk.listed (b : Blk) : List Nat := b.elems.map Prod.fst

/-- Bank `n`. -/
def Blk.bank (b : Blk) (n : Nat) : Bank := b.banks.get Bank.reset n

/-- Bank `n` replaced. -/
def setBank (n : Nat) (x : Bank) (b : Blk) : Blk := { b with banks := b.banks.set Bank.reset n x }

/-- The bank of element `e` (R19). -/
def bankOf (e : Nat) : Nat := e / 256

/-- The elements of bank `n`. -/
def bankElems (n : Nat) : List Nat := (List.range 256).map fun r => 256 * n + r

/-- The loop of element `e` is closed (R130). -/
def closed (b : Blk) (e : Nat) : Bool := (b.elem e).lp.st.closed

/-- Some loop of bank `n` is closed. -/
def bankClosed (b : Blk) (n : Nat) : Bool := (bankElems n).any fun e => closed b e

/-! ### Heater modulators (R65, R66) -/

/-- One CLK_MOD period of a modulator under live code `u`. With code 0 the error state is held at 0 and the output is low
but for the minimum run of 4 periods, which a high run finishes unless this is the first period after a launch (R65, R66).
(DEDUCED, log 12). -/
def Modulator.period (u : Nat) (m : Modulator) : Modulator :=
  if u = 0 then
    let y := m.last && decide (m.run < 4 ∧ m.first = false)
    { m with
      e1 := 0, e2 := 0, last := y, first := false, done := m.done + 1
      run := if y = m.last then min 4 (m.run + 1) else 1
      trans := if y = m.last then m.trans else m.trans + 1 }
  else
    let v : Int := (u : Int) + 2 * m.e1 - m.e2
    let y := if m.run < 4 ∧ m.first = false then m.last else decide (32768 ≤ v)
    let e : Int := v - (if y then 65536 else 0)
    let c := decide (262144 < e) || decide (e < -262144)
    { e1 := clampI (-262144) 262144 e, e2 := m.e1
      run := if y = m.last then min 4 (m.run + 1) else 1
      last := y, first := false
      trans := if y = m.last then m.trans else m.trans + 1
      done := m.done + 1, clamps := m.clamps + (if c then 1 else 0) }

/-- `n` periods of a modulator. -/
def Modulator.periods (u : Nat) : Nat → Modulator → Modulator
  | 0, m => m
  | n + 1, m => Modulator.periods u n (m.period u)

/-- The drive part run up to period `x` of the present tick, summing the live heater code (R65, R94). -/
def ElemDrv.runTo (x : Nat) (d : ElemDrv) : ElemDrv :=
  let n := x - d.md.done
  { d with md := d.md.periods d.htrLive.toNat n, sum := d.sum + n * d.htrLive.toNat }

/-- A live heater code set at period `x`: the modulator has run under the old code until then. -/
def ElemDrv.setHtr (x : Nat) (code : Half) (d : ElemDrv) : ElemDrv :=
  if d.htrLive = code then d else { d.runTo x with htrLive := code }

/-- The heater code limited to HTR_MAX of the committed record (R47). -/
def limitHtr (b : Blk) (e : Nat) (code : Nat) : Half := BitVec.ofNat 16 (min code (htrMax b.live e))

/-! ### Time -/

/-- Elapsed time since the clock started, in quarter-nanoseconds (R271). (DESIGN CHOICE, log 116). -/
def Blk.q (b : Blk) : Nat := (250 * b.tick + b.edge) * 16

/-- Local time moved by `n` CLK_TICK edges (R265). -/
def TimeSt.edges (incr n : Nat) (t : TimeSt) : TimeSt :=
  let x := t.frac + n * incr
  { t with ns := (t.ns + x / 2 ^ 28) % (2 ^ 48 * 1000000000), frac := x % 2 ^ 28 }

/-- The clock as it stands: edge of elapsed time, whole nanoseconds, fraction and INCR. -/
def clockNow (b : Blk) : Nat × Nat × Nat × Nat := (b.q / 16, b.time.ns, b.time.frac, getF b Reg.TIME.INCR.INCR)

/-- The clock is about to step or to change its rate: it is kept as it stands, so that an instant before has its count. -/
def anchor (b : Blk) : Blk := { b with time := { b.time with past := (clockNow b :: b.time.past).take 64 } }

/-- The local time, in whole ns, at an instant of elapsed time, by the clock that ran then. (DEDUCED, log 19). -/
def localAt (b : Blk) (q : Nat) : Nat :=
  let c := (b.time.past.reverse.find? fun a => decide (q / 16 < a.1)).getD (clockNow b)
  (((c.2.1 * 2 ^ 28 + c.2.2.1 : Int) + ((q / 16 : Nat) - (c.1 : Nat) : Int) * c.2.2.2) / 2 ^ 28).toNat

/-- The block with its clock moved to edge `x` of the present tick, if that lies ahead.
(DEDUCED, log 3; DESIGN CHOICE, log 116). -/
def toEdge (x : Nat) (b : Blk) : Blk :=
  { b with time := b.time.edges (getF b Reg.TIME.INCR.INCR) (x - b.edge), edge := max x b.edge }

/-- A commanded instant, in quarter-nanoseconds of elapsed time: the clock runs on to it inside the present tick and
`f` happens; an instant that lies beyond the tick is not reached and nothing happens.
(DEDUCED, log 3; DESIGN CHOICE, log 116). -/
def atQ (t : Nat) (f : Blk → Blk) (b : Blk) : Blk :=
  let x := (t + 15) / 16 - 250 * b.tick
  if x < 250 ∧ b.sys.mode ≠ .reset then f (toEdge x b) else b

/-- What passes where no command waits: one CLK_TICK edge while the clock runs and the tick is not over.
(DESIGN CHOICE, log 1). -/
def idleEdge (b : Blk) : Blk :=
  if b.edge < 249 ∧ b.sys.mode ≠ .reset then toEdge (b.edge + 1) b else b

/-- Seconds of a local time. -/
def secOf (ns : Nat) : Nat := ns / 1000000000
/-- Nanoseconds below the second. -/
def nsOf (ns : Nat) : Nat := ns % 1000000000

/-- The three stamp words of R259 and R354 in the view that TIME.CFG.FMT selects (R266). (DEDUCED, log 19). -/
def stampWords (b : Blk) (ns : Nat) : Nat × Nat × Nat :=
  if flag b Reg.TIME.CFG.FMT then (ns % 2 ^ 32, 0, 0)
  else (nsOf ns, secOf ns % 2 ^ 32, secOf ns / 2 ^ 32 % 2 ^ 16)

/-! ### Events (R347 to R355) -/

/-- The record of source `s`. -/
def evGet (b : Blk) (s : Nat) : EvRec := b.ev.tab.get (EvRec.reset s) s

/-- The record of source `s` replaced. -/
def evSet (s : Nat) (r : EvRec) (b : Blk) : Blk :=
  { b with ev := { b.ev with tab := b.ev.tab.set (EvRec.reset s) s r } }

/-- The raw bit of source `s` set to `v` (R347). -/
def setRaw (s : Nat) (v : Bool) (b : Blk) : Blk := evSet s { evGet b s with raw := v } b

/-- The MSI-X vector of event group `g` (R349). -/
def vecOfGroup (g : Nat) : Nat := if g < 16 then g / 4 else if g = 16 then 3 else g - 13

/-- A message of vector `v` falls due: it is sent now, or waits for the end of the spacing (R349).
(DESIGN CHOICE, log 54). -/
def signalVec (v : Nat) (b : Blk) : Blk :=
  let gap := getF b Reg.EVT.CFG.HOLDOFF * 4000
  if (b.ev.lastMsg.find v).all (fun t => decide (t + gap ≤ b.q)) then
    signalMsix v { b with ev := { b.ev with lastMsg := b.ev.lastMsg.put v b.q } }
  else if v ∈ b.ev.due then b else { b with ev := { b.ev with due := v :: b.ev.due } }

/-- First-error capture of a raise of class `c` (R353, R354). -/
def capture (s c : Nat) (tx : Option (Nat × Nat × Nat)) (b : Blk) : Blk :=
  if c = 0 then b
  else if flag b Reg.FCAP.STAT.VALID then
    let b := incF Reg.FCAP.STAT.MERGE_CNT (setFlag Reg.FCAP.STAT.MERGED true b)
    let g := s / 32
    if g < 32 then setF Reg.FCAP.MERGED_GRP0.GROUPS (getF b Reg.FCAP.MERGED_GRP0.GROUPS ||| 2 ^ g) b
    else setF Reg.FCAP.MERGED_GRP1.GROUPS (getF b Reg.FCAP.MERGED_GRP1.GROUPS ||| 2 ^ (g - 32)) b
  else
    let t := stampWords b b.time.ns
    let x := tx.getD (7, 0, 0)
    setF Reg.FCAP.T_SHI.SEC t.2.2 (setF Reg.FCAP.T_SLO.SEC t.2.1 (setF Reg.FCAP.T_NS.NS t.1
      (setF Reg.FCAP.ADDR.ADDR x.2.2 (setF Reg.FCAP.SRC.ACCESS x.2.1 (setF Reg.FCAP.SRC.MASTER x.1
        (setF Reg.FCAP.SRC.CLASS c (setF Reg.FCAP.SRC.SOURCE s (setFlag Reg.FCAP.STAT.VALID true b))))))))

/-- A lifetime counter in RAM raised by `n` (R371). -/
def lifeAdd (w n : Nat) (b : Blk) : Blk :=
  { b with nvm := { b.nvm with life := b.nvm.life.set 0 w (b.nvm.life.get 0 w + n) } }

/-- The write of the log record whose first seven words are `ws`, SEQN the second of them (R368, R369). -/
def recordWrite (ws : List Nat) : NvmWrite :=
  let bs := ws.flatMap fun w => wordBytes (BitVec.ofNat 32 w)
  let n := ws.getD 1 0 % 480
  { addr := 0x400 + 32 * n, bytes := bs ++ wordBytes (BitVec.ofNat 32 (crc32 bs)), wearIx := 8 + n, log := true, retry := false }

/-- A log record joins the queue of NVM writes (R369). -/
def nvmRecord (kind src cls detail : Nat) (b : Blk) : Blk :=
  let n := (b.nvm.seqn + 1) % 2 ^ 32
  let ws : List Nat :=
    [kind + src * 256 + cls * 524288 + b.sys.mode.code * 4194304, n, nsOf b.time.ns,
     secOf b.time.ns % 2 ^ 32, secOf b.time.ns / 2 ^ 32 % 2 ^ 16, detail, b.nvm.life.get 0 1]
  setFlag Reg.NVM.STAT.BUSY true { b with nvm := { b.nvm with queue := b.nvm.queue ++ [recordWrite ws], seqn := n } }

/-- The counters written to their next copy (R371). -/
def nvmCounters (b : Blk) : Blk :=
  let b := lifeAdd 0 1 b
  let gen := b.nvm.life.get 0 0
  let bs := (List.range 27).flatMap fun w => wordBytes (BitVec.ofNat 32 (b.nvm.life.get 0 w))
  let w : NvmWrite := { addr := 0x80 + 112 * (gen % 8), bytes := bs ++ wordBytes (BitVec.ofNat 32 (crc32 bs))
                        wearIx := gen % 8, log := false, retry := false }
  setFlag Reg.NVM.STAT.BUSY true { b with nvm := { b.nvm with queue := b.nvm.queue ++ [w] } }

/-- One telemetry event for a subscription: at most 64 in a second, the others are dropped and counted (R441).
(DEDUCED, log 47). -/
def tellEvent (ws : List Word) (x : List Sub × Blk) (s : Sub) : List Sub × Blk :=
  if s.events then
    let s := if s.evStart + 4000000000 ≤ x.2.q then { s with evStart := x.2.q, evN := 0 } else s
    if s.evN < 64 then (x.1 ++ [{ s with evN := s.evN + 1 }], sendUdp s.peer 0x83 ws x.2)
    else (x.1 ++ [s], incF (Reg.ETH.CNT_DROP.TELEM s.peer.port.val) x.2)
  else (x.1 ++ [s], x.2)

/-- The reports of a raise of class WARN or worse that leave by other ways than MSI-X: telemetry events (R441) and, from a
member, an EVENT cell (R317). -/
def announceEvent (s c : Nat) (b : Blk) : Blk :=
  if c = 0 then b
  else
    let t := [nsOf b.time.ns, secOf b.time.ns % 2 ^ 32, secOf b.time.ns / 2 ^ 32 % 2 ^ 16]
    let r := b.eth.subs.foldl (tellEvent ((1 :: (s + c * 2048) :: t).map (BitVec.ofNat 32))) ([], b)
    let b := { r.2 with eth := { r.2.eth with subs := r.1 } }
    if isMember b then sendCell .up 13 0 false 0 ((s + c * 2048) :: t) b else b

/-- A condition of the trigger engine is true at step `k` only (R334); it is kept where a condition unit watches it. -/
def trigOnce (k typ arg : Nat) (b : Blk) : Blk :=
  if (List.range 16).any fun c => getF b (Reg.TRIG.COND.TYPE c) == typ then
    { b with trig := { b.trig with once := b.trig.once ++ [(k, typ, arg)] } }
  else b

/-- The present CLK_TICK edge of elapsed time, which is a step of the trigger engine. (DEDUCED, log 19). -/
def Blk.now (b : Blk) : Nat := 250 * b.tick + b.edge

/-- Latching, counting, presenting and logging of one raise, without the reactions of its class (R347, R369). -/
def latch (tx : Option (Nat × Nat × Nat)) (b : Blk) (s : Nat) : Blk :=
  let r := evGet b s
  let b := trigOnce (b.now + 1) 5 s (evSet s { r with latch := true, lcls := r.cls, count := satInc 255 r.count } b)
  let b := if r.latch = false ∧ r.mask = false then signalVec (vecOfGroup (s / 32)) b else b
  let b := capture s r.cls tx b
  let b := if r.log ∧ b.ev.lastLog.all (fun t => decide (t + 400000000 ≤ b.q)) then
      nvmRecord 6 s r.cls 0 { b with ev := { b.ev with lastLog := some b.q } }
    else b
  announceEvent s r.cls b

/-- The highest class among sources (R351). -/
def topClass (b : Blk) (ss : List Nat) : Nat := ss.foldl (fun c s => max c (evGet b s).cls) 0

/-- Sources of one cycle in the order in which capture takes them: highest class first, lowest index among equals. -/
def byClass (b : Blk) (ss : List Nat) : List Nat :=
  ss.mergeSort fun x y =>
    decide ((evGet b y).cls < (evGet b x).cls) || (decide ((evGet b y).cls = (evGet b x).cls) && decide (x ≤ y))

/-! ### Clearing banks (R87, R91) -/

/-- The clear code of an element: PARK_HTR and PARK_TRM of its record, or ZERO. -/
def clearCode (b : Blk) (park : Bool) (e : Nat) : Half × Half :=
  if park then (limitHtr b e (parkHtr b.live e), BitVec.ofNat 16 (parkTrm b.live e)) else (0, 0)

/-- Element `e`'s output is driven by a clear (R87): its bank is released and cleared. -/
def outClear (b : Blk) (e : Nat) : Bool := (b.bank (bankOf e)).released && (b.bank (bankOf e)).cleared

/-- R79 allows the element's dither but for a span sequence. -/
def dithFree (b : Blk) (e : Nat) (x : Elem) : Bool :=
  let k := b.bank (bankOf e)
  flag b (Reg.DRV.CFG.DITH_EN (bankOf e)) && k.released && !k.cleared && x.lp.st != .parked

/-- What drives the outputs of element `e`, until instant `q`. -/
def outSnap (b : Blk) (q e : Nat) (x : Elem) : OutSnap :=
  { q := q, htr := x.drv.htrLive, trm := x.drv.trmLive, seq := x.drv.seq, clr := outClear b e, dith := dithFree b e x }

/-- The snapshots of the present tick with that of instant `q`, at which the outputs of element `e` change (R321). -/
def outsTo (b : Blk) (q e : Nat) (x : Elem) : List OutSnap :=
  (x.drv.old.filter fun o => decide (o.q / 4000 = q / 4000)) ++ [outSnap b q e x]

/-- The snapshots of element `e` where its loop state becomes `st`: dither stops at PARKED and returns after it (R79). -/
def outsState (b : Blk) (e : Nat) (st : LoopState) (x : Elem) : List OutSnap :=
  if (x.lp.st == .parked) = (st == .parked) then x.drv.old else outsTo b b.q e x

/-- An element takes its clear code: live codes, no ARM bit, kept code of a span sequence (R87). -/
def clearElem (b : Blk) (park : Bool) (e : Nat) (x : Elem) : Elem :=
  let c := clearCode b park e
  let d := x.drv.setHtr b.edge c.1
  { x with drv := { d with trmLive := c.2, arm := false, old := outsTo b b.q e x, seq := d.seq.map fun q => { q with kept := c.2 } } }

/-- Every ARM bit of every bank cleared. -/
def clearArms (b : Blk) : Blk := updElems b.listed (fun _ x => { x with drv := { x.drv with arm := false } }) b

/-- Every bank cleared as by an accepted CLR_N assertion (R87, R91). A bank that is cleared already keeps the codes it took at
the start of its clear (R92), and one that is not released keeps the power-up state; the ARM bits of all of them clear. -/
def clearBanks (b : Blk) : Blk :=
  (List.range 18).foldl (fun b n =>
    let k := b.bank n
    let park := if k.cleared then k.parkCode else flag b (Reg.DRV.CFG.CLR_MODE n)
    let b := if k.released && !k.cleared then updElems (bankElems n) (fun e x => clearElem b park e x) b else b
    setBank n { k with cleared := true, parkCode := park, rearm := false } b) (clearArms b)

/-- The CLEARED sources of the 18 banks (R96). -/
def clearedSources : List Nat := (List.range 18).map fun n => 544 + 16 * n + 5

/-! ### Withdrawing frames (R237, R251 to R253) -/

/-- The eight words of a status record (R259). (DEDUCED, log 45). -/
def recordWords (b : Blk) (w0 : Nat) (seq : Word) (tval n3 n4 ns hi : Nat) : List Word :=
  let t := stampWords b ns
  [BitVec.ofNat 32 w0, seq, BitVec.ofNat 32 tval, BitVec.ofNat 32 n3, BitVec.ofNat 32 n4, BitVec.ofNat 32 t.1,
   BitVec.ofNat 32 t.2.1, BitVec.ofNat 32 (t.2.2 + hi * 65536)]

/-- Free places of the completion queue that no ring frame has reserved (R428): a ring frame reserves two places from its
fetch until its last record has entered the queue. -/
def cplFree (b : Blk) : Nat :=
  128 - (b.sched.recs.length + 2 * (b.sched.arrivals.filter fun a => a.peer.isNone).length
    + (b.sched.queue.filter fun f => f.peer.isNone && !f.casc).length)

/-- Something an action raises in passing: it is raised when the action is over. -/
def raiseLate (s : Nat) (b : Blk) : Blk := { b with ev := { b.ev with late := b.ev.late ++ [s] } }

/-- A record enters the completion queue, or is dropped where it has no reserved place and none is free (R428).
(DEDUCED, log 45). -/
def addCpl (ring : Bool) (ws : List Word) (b : Blk) : Blk :=
  if ring || decide (0 < cplFree b) then { b with sched := { b.sched with recs := b.sched.recs ++ [ws] } }
  else raiseLate 1060 (incF Reg.PCIE.CPL_STAT.LOST b)

/-- A status record is posted (R259, R428, R440, R441): to the completion queue, to the frame's sender in a STATUS that
answers message `msg`, and to every subscription with RECORDS. (DEDUCED, log 45). -/
def postRecord (ring : Bool) (peer : Option Peer) (msg : Word) (ws : List Word) (b : Blk) : Blk :=
  let b := addCpl ring ws b
  let code := natBits (ws.headD 0).toNat 8 8
  let b := match peer with
    | some p => sendUdp p 0x81 ([msg, BitVec.ofNat 32 code] ++ (if code = 0 then ws else List.replicate 8 0)) b
    | none => b
  b.eth.subs.foldl (fun b s => if s.records then sendUdp s.peer 0x81 ([0, 0] ++ ws) b else b) b

/-- The sequencer disarms the comparator and clears every ARM bitmap (R252). -/
def disarm (b : Blk) : Blk := clearArms (setFlag Reg.SEQ.STAT.ARMED false b)

/-- Some queued frame stands at stage `g`. -/
def anyStage (b : Blk) (g : Stage) : Bool := b.sched.queue.any fun f => f.stage == g

/-- The status fields that follow the queue: SCHED.STAT.QUEUED (R235), ROUTE.STAT.BUSY, PLAN.STAT.BUSY and WAIT. -/
def showQueue (b : Blk) : Blk :=
  setFlag Reg.PLAN.STAT.WAIT (anyStage b .solved) (setFlag Reg.PLAN.STAT.BUSY (anyStage b .planning)
    (setFlag Reg.ROUTE.STAT.BUSY (b.sched.trySlot.isSome || anyStage b .solving)
      (setF Reg.SCHED.STAT.QUEUED b.sched.queue.length b)))

/-- The frame at position `i` leaves the queue: a frame of the controller's own leaves a WITHDRAWN record with cause `c`
(R237, R259), one that came over Glewlink a READY with 0x02 (R309). -/
def dropFrame (i c : Nat) (b : Blk) : Blk :=
  match b.sched.queue[i]? with
  | none => b
  | some f =>
    let b := { b with sched := { b.sched with queue := b.sched.queue.eraseIdx i } }
    if f.casc then sendUp3 7 f.seq [f.seq, 2] b
    else postRecord (f.peer.isNone && c != 0) f.peer 0 (recordWords b (3 + c * 262144) f.seq 0 0 0 b.time.ns 0) b

/-- The frames from position `i` on leave the queue, the first with cause `c` and the later ones with cause `c'`; the
comparator is disarmed, and the master of a chain sends ABORT for the first where its set was distributed (R237, R252,
R310 to R312). -/
def withdrawFrom (i c c' : Nat) (b : Blk) : Blk :=
  match b.sched.queue.drop i with
  | [] => b
  | f :: rest =>
    let gone := f :: rest
    let b := if gone.any (fun f => f.stage == .armed || f.stage == .voted || f.stage == .planned || f.stage == .planning)
      then disarm b else b
    let b := if 0 < chainN b ∧ f.stage ≠ .queued ∧ f.stage ≠ .solving then show2pc f.seq 2 0 0 (sendDown3 9 f.seq [f.seq] b)
      else b
    showQueue (rest.foldl (fun b _ => dropFrame i c' b) (dropFrame i c b))

/-- The position of the first frame that has not launched. -/
def firstUnlaunched (b : Blk) : Nat := (b.sched.queue.takeWhile fun f => f.stage == .launched).length

/-- FRAME_WITHDRAWN is raised where a cause-2 record was posted. -/
def withdrawn2 (b : Blk) : List Nat :=
  if b.sched.queue.any fun f => f.stage != .launched && !f.casc then [1026] else []

/-- Every frame not yet launched is withdrawn with cause NOT_LAUNCHED (R253). -/
def withdrawAll (b : Blk) : Blk := withdrawFrom (firstUnlaunched b) 2 2 b

/-! ### Mode changes (R453, R454) -/

/-- MSTAT.REQ_DROP sets where an automatic change overtakes a request (R454). -/
def dropReq (b : Blk) : Blk :=
  if b.sys.req.isSome ∨ b.sys.shutClr then
    setFlag Reg.SYS.MSTAT.REQ_DROP true { b with sys := { b.sys with req := none, shutClr := false } }
  else b

/-- The freeze set empties (R459). -/
def emptyFreeze (b : Blk) : Blk :=
  setF Reg.SYS.FREEZE.HELD 0 (updElems b.listed (fun _ x => { x with lp := { x.lp with inFreeze := false } }) b)

/-- The mode becomes `m`: previous mode and count on page SYS, and one more mode entry for the slots (R160, R473). A
change between working modes is no entry that changes elements (R160). -/
def setMode (m : Mode) (b : Blk) : Blk :=
  if b.sys.mode = m then b
  else
    let old := b.sys.mode
    let b := incF Reg.SYS.MODE_CNT.COUNT (setF Reg.SYS.MSTAT.PREV old.code b)
    { b with sys := { b.sys with mode := m, entries := b.sys.entries ++ [m]
                                 leftIdle := b.sys.leftIdle || (old == .idle) } }

/-- A mode is entered: on leaving the working modes, frames not yet launched are withdrawn and the freeze set
empties (R253, R459). (DEDUCED, log 17). -/
def enterMode (m : Mode) (b : Blk) : Blk :=
  let b := if b.sys.mode.working && !m.working then emptyFreeze (withdrawAll b) else b
  setMode m b

/-- The SAFE actions of R350: banks cleared, frames withdrawn, SAFE entered, which parks the elements in their next
slots (R160). In RESET, BOOT and SHUTDOWN the raise is latched only (R453). -/
def safeActions (b : Blk) : Blk :=
  if b.sys.mode = .reset ∨ b.sys.mode = .boot ∨ b.sys.mode = .shutdown ∨ b.sys.mode = .safe then
    (if b.sys.mode = .safe then clearBanks b else b)
  else lifeAdd 3 1 (enterMode .safe (clearBanks (withdrawAll (dropReq b))))

/-- Sources that the SAFE actions raise themselves: CLEARED of every bank, and FRAME_WITHDRAWN (R91, R253). -/
def safeSources (b : Blk) : List Nat :=
  if b.sys.mode = .reset ∨ b.sys.mode = .boot ∨ b.sys.mode = .shutdown then [] else clearedSources ++ withdrawn2 b

/-- DETAIL of a SHUTDOWN record: temperature and sensor of the region whose entry raised the source (R369, R391). -/
def shutDetail (s : Nat) (b : Blk) : Nat :=
  if s = 898 then b.hk.detC else if s = 901 then b.hk.detP else 0

/-- SHUTDOWN of R350, R453: the SAFE actions, then the NVM record (with the mode at the raise, R369) and the counters join
the NVM writes, then SHUTDOWN is entered and shown, all in the cycle of the raise (R454). In BOOT loading is abandoned
(R453). (DEDUCED, log 17). -/
def shutdownActions (s : Nat) (b : Blk) : Blk :=
  if b.sys.mode = .reset ∨ b.sys.mode = .shutdown then b
  else
    let b := if b.sys.mode = .boot then setF Reg.SYS.BOOT_STAT.RESULT 4 b else b
    let b := enterMode .shutdown (nvmCounters (nvmRecord 1 s 4 (shutDetail s b) (lifeAdd 4 1
      (clearBanks (withdrawAll (dropReq b))))))
    { setF Reg.ACQ.RUN.RUN 0 b with acq := { b.acq with runReq := some false } }

/-- Sources raised in one cycle: each is latched and counted, the highest class acts once, and the sources that its
actions raise follow (R347, R350, R351). (DEDUCED, log 17). -/
def raiseTx (ss : List Nat) (tx : Option (Nat × Nat × Nat)) (b : Blk) : Blk :=
  if ss = [] then b
  else
    let c := topClass b ss
    let first := (byClass b ss).headD 0
    let b := (byClass b ss).foldl (latch tx) b
    let more := if 3 ≤ c then safeSources b else []
    let c2 := max c (topClass b more)
    let b := if 4 ≤ c2 then shutdownActions first b else if 3 ≤ c2 then safeActions b else b
    more.foldl (latch none) b

/-- What actions raised in passing is raised now. -/
def flushLate (b : Blk) : Blk := raiseTx b.ev.late none { b with ev := { b.ev with late := [] } }

/-- Sources raised by no crossbar transaction (R354). -/
def raiseAll (ss : List Nat) (b : Blk) : Blk := flushLate (raiseTx ss none b)

/-- One source raised. (DESIGN CHOICE, log 2). -/
def raise (s : Nat) (b : Blk) : Blk := raiseAll [s] b

/-- One source raised where a condition holds. -/
def raiseIf (p : Bool) (s : Nat) (b : Blk) : Blk := if p then raise s b else b

/-- Some source is latched with a class in `cs`. -/
def latchedClass (b : Blk) (cs : List Nat) : Bool := b.ev.tab.any fun e => e.2.latch && decide (e.2.lcls ∈ cs)

end Sys2Proof.Machine
end

