-- ==== Sys2Proof/Machine/Operands.lean ====
section
/-!
DEFINITION. The operands of an engine: registers with their presets (R167), the data memory of a slot (R169 to R171,
R174) and of a planner engine (R204), pointer updates (R178), ESTAT, and which engine serves an element (R19).
-/
set_option autoImplicit false

namespace Sys2Proof.Machine

/-! ### Which engine serves -/

/-- The physical engine that serves logical engine `l`, if there is one (R19, R363). -/
def serverOf (b : Blk) (l : Nat) : Option Nat :=
  (List.range 68).find? fun e =>
    getF b (Fld.mk' (0x20 + e) 0x44 6 1 (if e < 64 then 1 else 0)) == 1
      && getF b (Fld.mk' (0x20 + e) 0x44 0 6 (if e < 64 then e else 0)) == l

/-- The physical engine that serves element `e`. -/
def engineOf (b : Blk) (e : Nat) : Option Nat := serverOf b (e % 64)

/-! ### ESTAT (R171) -/

/-- The state byte in force for element `x` at instant `t` (R115): the new one from L on. -/
def sbyteAt (x : Elem) (t : Nat) : Byte := if x.sns.sinceLoad ≤ t then x.lp.sbyte else x.sns.oldByte

/-- DELIV: delivered, from the first tick boundary after the delivering check (R171, R225). -/
def estDeliv (b : Blk) (x : Elem) : Bool :=
  x.trk.any fun t => t.outcome == .delivered && decide (t.t0 + t.settle < 4000 * b.tick)

/-- SETTLE_END: the present tick began at or after the end of the settle window (R171, R225). -/
def estSettle (b : Blk) (x : Elem) : Bool := x.trk.any fun t => decide (t.tEnd ≤ 4000 * b.tick)

/-- The element is in the scope of a loop command (R156). -/
def inScope (b : Blk) (c : LoopCmd) (e : Nat) : Bool :=
  match c.scope with
  | 0 => e == c.target
  | 1 => bankOf e == c.target
  | 2 => loopClass b.live e == c.target
  | _ => true

/-- The element is used in the controller's FABRIC role (R59). -/
def usedIn (b : Blk) (e : Nat) : Bool :=
  if getF b Reg.FABRIC.CFG.ROLE = 1 then
    decide (e < (if getF b Reg.FABRIC.CFG.SIZE = 1 then 1024 else 4096))
  else true

/-- A command in its tick cannot be applied to the element (R157 to R159, R459). -/
def cmdSkips (b : Blk) (c : LoopCmd) (e : Nat) (x : Elem) : Bool :=
  x.lp.st == .transit ||
    (c.op == 2 &&
      ((x.lp.st == .fault && (x.sns.prev.freeze || x.sns.prev.topsat || x.sns.prev.dithLow)) ||
        !(b.bank (bankOf e)).released || (b.bank (bankOf e)).cleared || !usedIn b e || b.sys.frozenLow))

/-- CMD of ESTAT: the host command that applies to the element in this slot (R171). -/
def estCmd (b : Blk) (e : Nat) (x : Elem) : Nat :=
  match b.cmd with
  | some c => if c.tick = b.tick ∧ inScope b c e ∧ cmdSkips b c e x = false then c.op else 0
  | none => 0

/-- The ESTAT word of element `e` (R171). -/
def estat (b : Blk) (e : Nat) (x : Elem) : Nat :=
  (sbyteAt x b.q).toNat + x.lp.st.code * 256 + (if x.lp.launched then 4096 else 0) + (if x.lp.moved then 8192 else 0)
    + (if estDeliv b x then 16384 else 0) + (if estSettle b x then 32768 else 0) + estCmd b e x * 65536
    + b.sys.mode.code * 262144 + (if x.lp.seen < b.sys.entries.length then 4194304 else 0)

/-! ### The monitor record as words (R118) -/

/-- Word `w` of a monitor record. -/
def MonRec.word (r : MonRec) (w : Nat) : Nat :=
  match w with
  | 0 => r.sumA + r.rngA * 16777216 + (if r.clipA then 67108864 else 0)
  | 1 => r.sumB + r.rngB * 16777216 + (if r.clipB then 67108864 else 0)
  | 2 => toBits 27 r.sumD
  | 3 => toBits 24 r.iA
  | 4 => toBits 24 r.qA
  | 5 => toBits 24 r.iB
  | 6 => toBits 24 r.qB
  | 7 => toBits 24 r.h2
  | 8 =>
    (r.chk.zipIdx.foldl (fun n c => n + c.1 * 4 ^ c.2) 0)
      + (if r.chk.all (fun c => c != 2) then 65536 else 0) + (if r.freeze then 131072 else 0)
      + (if r.topsat then 262144 else 0) + (if r.dithLow then 524288 else 0)
  | 9 => r.epsLast + r.epsMax * 65536
  | _ => 0

/-! ### Registers and memory of a datapath -/

/-- The preset of pointer and base register `i` on an engine (R167); planner engines have no presets. -/
def ptrPreset (u : Eng) (i : Nat) : Nat :=
  match u with
  | .slot _ => [0x000, 0x080, 0x0A0, 0x0C0, 0x0E0, 0x100, 0, 0].getD i 0
  | .planner _ => 0

/-- How far pointers count: 12 bits, or 15 on a planner engine (R178, R204). -/
def ptrMod (u : Eng) : Nat :=
  match u with
  | .slot _ => 4096
  | .planner _ => 32768

/-- D register. -/
def Dp.rD (dp : Dp) (i : Nat) : Half := dp.d.get 0 i
/-- A register. -/
def Dp.rA (dp : Dp) (i : Nat) : Acc40 := dp.a.get 0 i
/-- Flag. -/
def Dp.rF (dp : Dp) (i : Nat) : Bool := dp.f.get false i
/-- Pointer register. -/
def Dp.rP (u : Eng) (dp : Dp) (i : Nat) : Nat := dp.p.get (ptrPreset u i) i
/-- Base register. -/
def Dp.rB (u : Eng) (dp : Dp) (i : Nat) : Nat := dp.b.get (ptrPreset u i) i
/-- Length register. -/
def Dp.rL (dp : Dp) (i : Nat) : Nat := dp.l.get 0 i

/-- Pointer `p` of register `i` moved by `m` (R178). -/
def advance (u : Eng) (dp : Dp) (i : Nat) (p : Nat) (m : Int) : Nat :=
  let l := dp.rL i
  let base := dp.rB u i
  if l = 0 then (((p : Int) + m) % (ptrMod u : Int)).toNat
  else (base + (((p : Int) - base + m) % (l : Int)).toNat) % ptrMod u

/-- A halfword of the slot's data memory, and whether the address is mapped (R169, R174). -/
def readSlot (b : Blk) (dp : Dp) (e a : Nat) : Half × Bool :=
  if a < 0x80 then (BitVec.ofNat 16 (rdH b.live (ctxAddr e 0 + 2 * a)), true)
  else if a < 0xA0 then
    let i := a - 0x80
    (BitVec.ofNat 16 (if i < 16 then rdH b.live (128 * e + 2 * i)
      else if i < 18 then estat b e (b.elem e) / 65536 ^ (i - 16) else 0), true)
  else if a < 0xC0 then (BitVec.ofNat 16 (knot b.live e (a - 0xA0)), true)
  else if a < 0xD4 then
    let i := a - 0xC0
    (BitVec.ofNat 16 ((b.elem e).sns.prev.word (i / 2) / 65536 ^ (i % 2)), true)
  else if a < 0xE0 then (0, false)
  else if a < 0xF0 then
    let i := a - 0xE0
    let w := b.clsLive.get (BitVec.ofNat 32 (classResetWord (i / 2))) (8 * loopClass b.live e + i / 2)
    (BitVec.ofNat 16 (w.toNat / 65536 ^ (i % 2)), true)
  else if a < 0x100 then (0, false)
  else if a < 0x180 then (dp.scr.get 0 (a - 0x100), true)
  else (0, false)

/-- A halfword of an engine's data memory. -/
def readMem (b : Blk) (dp : Dp) (u : Eng) (a : Nat) : Half × Bool :=
  match u with
  | .slot e => readSlot b dp e.val a
  | .planner p => (b.pmem.get 0 (32768 * p.val + a % 32768), true)

/-- A write of a slot's program takes effect here: CTX, SCR and ESTAT.STATE (R169, R171). -/
def writable (a : Nat) : Bool := decide (a < 0x80 ∨ a = 0x90 ∨ (0x100 ≤ a ∧ a < 0x180))

/-- Word `w` of live class `c` (R161). -/
def classW (b : Blk) (c w : Nat) : Nat := (b.clsLive.get (BitVec.ofNat 32 (classResetWord w)) (8 * c + w)).toNat

/-- INC_k of the tone accumulators (R77). -/
def toneInc (k : Nat) : Nat :=
  [8589935, 10737418, 12884902, 15032386, 17179869, 19327353, 21474836, 23622320].getD k 0

/-- Tone accumulator `k` after `n` CLK_MOD edges of the present tick (R77): it restarts at every eighth boundary. -/
def toneAcc (b : Blk) (k n : Nat) : Nat := toneInc k * (250 * (b.tick % 8) + n) % 2 ^ 32

end Sys2Proof.Machine
end

