-- ==== Sys2Proof/Machine/Sense.lean ====
section
/-!
DEFINITION. Monitors and demodulation (R98 to R129): sampling, correction, the extinction check, the delivery tracker's
step (R224), feedback integrity and dither response.
-/
set_option autoImplicit false

namespace Sys2Proof.Machine

/-- The quarter wave of R78: round(32,767 × sin(π/2 × (i + 0.5) / 256)). -/
def quarterWave : List Nat :=
  [101, 302, 503, 704, 905, 1106, 1307, 1507, 1708, 1909, 2110, 2310, 2511, 2711, 2911, 3112] ++
   [3312, 3512, 3712, 3911, 4111, 4310, 4509, 4708, 4907, 5106, 5305, 5503, 5701, 5899, 6096, 6294] ++
   [6491, 6688, 6885, 7081, 7277, 7473, 7669, 7864, 8059, 8254, 8448, 8642, 8836, 9030, 9223, 9416] ++
   [9608, 9800, 9992, 10183, 10374, 10564, 10754, 10944, 11133, 11322, 11511, 11699, 11886, 12074, 12260, 12446] ++
   [12632, 12817, 13002, 13187, 13370, 13554, 13736, 13919, 14101, 14282, 14462, 14643, 14822, 15001, 15180, 15358] ++
   [15535, 15712, 15888, 16063, 16238, 16413, 16586, 16759, 16932, 17104, 17275, 17445, 17615, 17784, 17953, 18121] ++
   [18288, 18454, 18620, 18785, 18950, 19113, 19276, 19438, 19600, 19761, 19921, 20080, 20238, 20396, 20553, 20709] ++
   [20865, 21019, 21173, 21326, 21479, 21630, 21781, 21930, 22079, 22227, 22375, 22521, 22667, 22812, 22956, 23099] ++
   [23241, 23382, 23522, 23662, 23801, 23938, 24075, 24211, 24346, 24480, 24613, 24746, 24877, 25007, 25137, 25265] ++
   [25393, 25519, 25645, 25770, 25893, 26016, 26138, 26259, 26378, 26497, 26615, 26732, 26848, 26962, 27076, 27189] ++
   [27300, 27411, 27521, 27629, 27737, 27843, 27949, 28053, 28157, 28259, 28360, 28460, 28560, 28658, 28755, 28850] ++
   [28945, 29039, 29131, 29223, 29313, 29403, 29491, 29578, 29664, 29749, 29832, 29915, 29997, 30077, 30156, 30234] ++
   [30311, 30387, 30462, 30535, 30607, 30679, 30749, 30818, 30885, 30952, 31017, 31082, 31145, 31206, 31267, 31327] ++
   [31385, 31442, 31498, 31553, 31607, 31659, 31710, 31760, 31809, 31857, 31903, 31949, 31993, 32036, 32077, 32118] ++
   [32157, 32195, 32232, 32267, 32302, 32335, 32367, 32397, 32427, 32455, 32482, 32508, 32533, 32556, 32578, 32599] ++
   [32619, 32637, 32655, 32671, 32685, 32699, 32711, 32722, 32732, 32741, 32748, 32755, 32759, 32763, 32766, 32767]

/-- s(x) of R78 and R116 for a phase code: p is its bits [15:6]. -/
def wave (x : Nat) : Int :=
  let p := natBits x 6 10
  let i := p % 256
  match p / 256 with
  | 0 => (quarterWave.getD i 0 : Nat)
  | 1 => (quarterWave.getD (255 - i) 0 : Nat)
  | 2 => -(quarterWave.getD i 0 : Nat)
  | _ => -(quarterWave.getD (255 - i) 0 : Nat)

/-- The dither term of element `e` on CLK_MOD edge `n` of the tick (R78), before R79 decides whether it is added. -/
def ditherTerm (b : Blk) (e n : Nat) : Int :=
  rne ((natBits (classW b (loopClass b.live e) 6) 16 16 : Nat) * wave (toneAcc b (tone b.live e) n / 65536)) 32768

/-- R79: the dither term is added to the element's trim output. -/
def dithOn (b : Blk) (e : Nat) (x : Elem) : Bool :=
  dithFree b e x && !x.drv.seq.any (fun q => decide (4000 * q.start ≤ b.q))

/-- The trim code on CLK_MOD edge `n` of tick `t`: in the first tick of a span sequence it ramps to 0 (R76), unless the bank
is cleared, `clr`, where it is the clear code (R87). (DEDUCED, log 20; DEDUCED, log 34; DESIGN CHOICE, log 123). -/
def ElemDrv.trmAt (clr : Bool) (t n : Nat) (d : ElemDrv) : Nat :=
  match d.seq with
  | some q =>
    if q.start = t ∧ q.switched = false ∧ clr = false then (rne (q.src.toNat * (250 - n)) 250).toNat else d.trmLive.toNat
  | none => d.trmLive.toNat

/-- The trim output of element `e` on CLK_MOD edge `n` of the tick (R78, R79). -/
def trimOut (b : Blk) (e n : Nat) : Int :=
  let x := b.elem e
  clampI 0 65535 (x.drv.trmAt (outClear b e) b.tick n + (if dithOn b e x then ditherTerm b e n else 0))

/-- The commanded voltage of element `e`'s trim output on CLK_MOD edge `n` of the tick, in volts: span × code / 65,536 with
the 2.0 V or 4.0 V span in force (R6, R75). -/
def trimVolts (b : Blk) (e n : Nat) : Rat :=
  (((if (b.elem e).drv.span then 4 else 2) * trimOut b e n : Int) : Rat) / 65536

/-! ### Samples (R104, R105, R108) -/

/-- The SNS page of an element. -/
def snsPage (e : Nat) : Nat := e / 512

/-- The range of an input's present window (R104). -/
def rangeNow (b : Blk) (e : Nat) (i : InState) : Nat :=
  if flag b (Reg.SNS.CFG.AUTORANGE (snsPage e)) then i.nextRng else getF b (Reg.SNS.CFG.FIX_RANGE (snsPage e))

/-- The range of the next window (R104). -/
def rangeNext (g c : Nat) : Nat :=
  if c = 16383 then 2 else if 15360 ≤ c ∧ g < 2 then g + 1 else if c < 1536 ∧ 0 < g then g - 1 else g

/-- The monitor value of a sample (R105). -/
def monValue (b : Blk) (e arm g c : Nat) : Nat :=
  let w := rdW b.live (0x440000 + 4 * (2 * e + arm))
  (clampI 0 1048575 (((8 ^ g : Nat) : Int) * ((c : Int) - natBits w 0 14) - natBits w 16 14)).toNat

/-- The corrected value of a sample (R108). -/
def corrected (b : Blk) (e arm m : Nat) : Nat :=
  (clampI 0 1048575 (rne ((if arm = 0 then monAGain b.live e else monBGain b.live e) * m : Nat) 32768)).toNat

/-- The raw code an input gives: the code held by fault injection, or the one converted (R382). -/
def rawCode (b : Blk) (e arm : Nat) (i : InState) (c : BitVec 14) : Nat :=
  if flag b Reg.FTEST.ADC_HOLD.HOLD ∧ getF b Reg.FTEST.ADC_HOLD.PAGE = snsPage e
      ∧ getF b Reg.FTEST.ADC_HOLD.INPUT = 2 * (e % 512) + arm then i.raw else c.toNat

/-- One sample of one input, of frame `g` (R104, R105, R108, R119, R120). (DEDUCED, log 118). -/
def sampleIn (b : Blk) (e arm g : Nat) (c : BitVec 14) (i : InState) : InState :=
  let r := rangeNow b e i
  let raw := rawCode b e arm i c
  let same := if i.raw = raw ∧ i.rng = r then satInc 1023 i.same else 1
  let froz := i.frozen && decide (i.raw = raw ∧ i.rng = r)
  { raw := raw, rng := r, nextRng := rangeNext r raw, same := same, frozen := froz
    clip2 := if raw = 16383 ∧ r = 2 then i.clip2 + 1 else i.clip2
    topsat := i.topsat, rngMax := max i.rngMax r, clipped := i.clipped || raw == 16383
    frozeTick := i.frozeTick || froz
    corr := corrected b e arm (monValue b e arm r raw)
    corrOld := if i.frame = g then i.corr else 0, frame := g + 1 }

/-- The corrected value of frame `g`, 0 where the frame was not sampled. -/
def InState.at_ (i : InState) (g : Nat) : Nat :=
  if i.frame = g + 1 then i.corr else if i.frame = g + 2 then i.corrOld else 0

/-! ### References and sums (R116, R117) -/

/-- The reference phase code of R116 for tone `k` and an instant in eighth-nanoseconds after the epoch's start. -/
def refPhase (k : Nat) (comp : Nat) (h8 : Nat) : Nat :=
  let t8 := (((h8 : Int) - 8 * comp) % 64000).toNat
  ((rne (1024 * (4 + k) * t8 : Nat) 1000).toNat) % 65536

/-- The hold instant of arm `a` of element `e` in frame `j`, in eighth-nanoseconds after the epoch's start (R106). -/
def holdAt (b : Blk) (e arm j : Nat) : Nat :=
  8000 * (b.tick % 8) + 1000 * j + (if e % 2 = 0 then 0 else 500) + 250 * arm

/-- The sums of one frame added to the record under construction (R117). -/
def addSums (b : Blk) (e j : Nat) (ia ib : Nat) (r : MonRec) : MonRec :=
  let k := tone b.live e
  let comp := getF b (Reg.SNS.DEMOD.COMP (snsPage e))
  let ta := refPhase k comp (holdAt b e 0 j)
  let tb := refPhase k comp (holdAt b e 1 j)
  let tm := refPhase k comp (holdAt b e 0 j + 125)
  { r with
    sumA := r.sumA + ia, sumB := r.sumB + ib
    iA := r.iA + rne ((ia : Int) * wave ta) 32768
    qA := r.qA + rne ((ia : Int) * wave ((ta + 16384) % 65536)) 32768
    iB := r.iB + rne ((ib : Int) * wave tb) 32768
    qB := r.qB + rne ((ib : Int) * wave ((tb + 16384) % 65536)) 32768
    h2 := r.h2 + rne (((ia : Int) - ib) * wave ((2 * tm + 16384) % 65536)) 32768 }

/-! ### The wrong-port fraction and the check (R110 to R114) -/

/-- b(s) of R36. -/
def lineBit (s : Nat) : Nat := if s = 17 then 0 else if s ≤ 8 then 8 - s else s - 8

/-- The lines of row `r` of stage `s` at ports 0 and 1 (R37). -/
def lineOf (s r port : Nat) : Nat :=
  let p := 2 ^ lineBit s
  r / p * (2 * p) + r % p + port * p

/-- Row and port at which line `l` meets stage `s` (R37). -/
def rowOf (s l : Nat) : Nat × Nat :=
  let p := 2 ^ lineBit s
  (l / (2 * p) * p + l % p, l / p % 2)

/-- The corrected value that arrives on line `l` from stage `s`, in frame `g` (R110). -/
def lineValue (b : Blk) (s l g : Nat) : Nat :=
  let rp := rowOf s l
  let x := b.elem (256 * s + rp.1)
  if rp.2 = 0 then x.sns.a.at_ g else x.sns.b.at_ g

/-- P0 and P1 of element `e` in frame `g`: line link, or the input latch in stage 0 (R110, R111). -/
def inputPowers (b : Blk) (e g : Nat) (x : Elem) : Nat × Nat :=
  let s := e / 256
  if s = 0 then (x.sns.latchP0, x.sns.latchP1)
  else (lineValue b (s - 1) (lineOf s (e % 256) 0) g, lineValue b (s - 1) (lineOf s (e % 256) 1) g)

/-- D of a frame, where R110 gives one. -/
def frameD (b : Blk) (e g : Nat) (byte : Byte) (x : Elem) : Option Int :=
  let ia : Int := x.sns.a.at_ g
  let ib : Int := x.sns.b.at_ g
  let l0 := byte.toNat / 4 % 2 == 1
  let l1 := byte.toNat / 8 % 2 == 1
  let p := inputPowers b e g x
  match l0, l1 with
  | true, false => some (ia + ib)
  | false, true => some (-(ia + ib))
  | true, true => if e / 256 = 0 ∧ x.sns.latchOk = false then none else some ((p.1 : Int) - p.2)
  | false, false => none

/-- ε in units of 2^-16 for a quotient, clamped to [0, 0xFFFE] (R112). -/
def epsOf (num den : Int) : Nat :=
  let n := if den < 0 then -num else num
  (clampI 0 0xFFFE (rne n den.natAbs)).toNat

/-- The check of frame `g` under a state byte: 0 FAIL, 1 PASS, 2 DARK, 3 UNOBS, with ε where it is computed
(R112, R113). -/
def checkFrame (b : Blk) (e g : Nat) (byte : Byte) (x : Elem) : Nat × Option Nat :=
  let ia : Int := x.sns.a.at_ g
  let ib : Int := x.sns.b.at_ g
  let st := byte.toNat % 4
  let l0 := byte.toNat / 4 % 2 == 1
  let l1 := byte.toNat / 8 % 2 == 1
  let p := inputPowers b e g x
  let ptot : Int := (p.1 : Int) + p.2
  let sum := if st = 2 then ptot else ia + ib
  let floor : Int := getF b (Reg.SNS.FLOOR.I_FLOOR (snsPage e))
  let d := (frameD b e g byte x).getD 0
  if (st ≠ 2 ∧ l0 = false ∧ l1 = false) ∨ sum = 0 ∨ sum < floor then (2, none)
  else if st ≠ 2 ∧ l0 = true ∧ l1 = true ∧
      (d = 0 ∨ (d.natAbs : Int) * 65536 < (getF b (Reg.SNS.BAL.BAL_MIN (snsPage e)) : Int) * ptot
        ∨ (e / 256 = 0 ∧ x.sns.latchOk = false)) then (3, none)
  else
    let eps := match st with
      | 0 => epsOf (32768 * (d - (ia - ib))) d
      | 1 => epsOf (32768 * (d + (ia - ib))) d
      | _ => epsOf (65536 * (ia + ib)) ptot
    (if eps ≤ b.epsLock then 1 else 0, some eps)

/-- The instant of the last load of the state byte at or before `t` (R111, R115). -/
def lastLoad (t : Nat) (x : ElemSns) : Nat := if x.sinceLoad ≤ t then x.sinceLoad else x.oldLoad

/-- The input latch of a stage-0 element at a check instant `t` (R111). -/
def latchStep (b : Blk) (e g t : Nat) (byte : Byte) (x : Elem) : Elem :=
  let ia := x.sns.a.at_ g
  let ib := x.sns.b.at_ g
  if e / 256 = 0 ∧ getF b (Reg.SNS.FLOOR.I_FLOOR (snsPage e)) ≤ ia + ib ∧ lastLoad t x.sns + 64000 ≤ t
      ∧ byte.toNat % 4 ≤ 1 then
    let bar := byte.toNat % 4 = 0
    { x with sns := { x.sns with latchP0 := if bar then ia else ib, latchP1 := if bar then ib else ia, latchOk := true } }
  else x

/-- The record takes a check's result (R114, R118). -/
def addCheck (c : Nat × Option Nat) (r : MonRec) : MonRec :=
  { r with
    chk := r.chk ++ [c.1]
    epsLast := c.2.getD r.epsLast
    epsMax := match c.2 with
      | some e => if r.epsMax = 0xFFFF then e else max r.epsMax e
      | none => r.epsMax }

/-- The delivery tracker at a check instant `t` (R224). -/
def Tracker.check (t : Nat) (c : Nat × Option Nat) (k : Tracker) : Tracker :=
  if k.outcome ≠ .tracking ∨ t < k.t0 ∨ k.tEnd ≤ t then k
  else match c.1 with
    | 1 =>
      let k' := { k with run := k.run + 1, lit := true, last := c.2.getD k.last, npass := satInc 255 k.npass
                         lastDark := false }
      if k.run + 1 = 3 then { k' with outcome := .delivered, settle := t - k.t0 } else k'
    | 0 => { k with run := 0, lit := true, last := c.2.getD k.last, lastDark := false }
    | _ => { k with run := 0, ndark := satInc 255 k.ndark, lastDark := true }

/-- D of a frame added to SUM_D (R117), and |D| to the sum that the dither response takes (R121). -/
def addD (d : Option Int) (r : MonRec) : MonRec :=
  { r with sumD := r.sumD + d.getD 0, sumAbsD := r.sumAbsD + (d.getD 0).natAbs }

/-- The instant of check `j` of the present tick (R114), in quarter-nanoseconds. -/
def checkInstant (b : Blk) (j : Nat) : Nat := 4000 * b.tick + 340 + 500 * j

/-- SNS.STAT.FROZEN follows an input that unfreezes (R128). -/
def unfreeze (was now : Bool) (n : Nat) (b : Blk) : Blk :=
  if was && !now then setF (Reg.SNS.STAT.FROZEN n) (getF b (Reg.SNS.STAT.FROZEN n) - 1) b else b

/-! ### Feedback integrity (R119, R121) -/

/-- SNS.FIRST takes the first cause (R128). -/
def snsFirst (n i cause : Nat) (b : Blk) : Blk :=
  if getF b (Reg.SNS.FIRST.CAUSE n) = 0 then
    setF (Reg.SNS.FIRST.CAUSE n) cause (setF (Reg.SNS.FIRST.INPUT n) i b)
  else b

/-- An input becomes frozen (R119). -/
def inputFrozen (i : Nat) (b : Blk) : Blk :=
  let e := i / 2
  let n := snsPage e
  let x := b.elem e
  let y := if i % 2 = 0 then x.sns.a else x.sns.b
  if getF b (Reg.SNS.FRZ.N_FREEZE n) ≤ y.same ∧ y.frozen = false ∧ b.sys.mode ≠ .reset then
    let y' := { y with frozen := true, frozeTick := true }
    let x' := { x with sns := if i % 2 = 0 then { x.sns with a := y' } else { x.sns with b := y' } }
    raise (832 + 7 * n) (snsFirst n (2 * (e % 512) + i % 2) 1
      (setF (Reg.SNS.STAT.FROZEN n) (getF b (Reg.SNS.STAT.FROZEN n) + 1) (setElem e x' b)))
  else b

/-- INPUT_FROZEN. -/
def execInputFrozen (i : Fin 9216) (s : State) : Host.Outcome State Fault Refusal :=
  .next { s with b := inputFrozen i s.b }

/-- A dither window of element `e` ends (R121): a counted window whose response lies below the floor sets DITH_LOW for
the next window, a counted window that passes clears it. SNS.FIRST.INPUT names the element's input A.
(DESIGN CHOICE, log 121). -/
def ditherWindowEnd (e : Nat) (b : Blk) : Blk :=
  let x := b.elem e
  let w := x.sns.win
  let n := snsPage e
  if b.tick % 1024 = 0 ∧ w.ended < b.tick ∧ b.sys.mode ≠ .reset then
    let resp := w.h2.natAbs + w.i.natAbs + w.q.natAbs
    let low := decide (resp * 65536 < getF b (Reg.SNS.DITH.DITH_FLOOR n) * w.d.natAbs)
    let w' : DithWin := { h2 := 0, i := 0, q := 0, d := 0, counts := true
                          low := if w.counts then low else w.low, ended := b.tick }
    let b := setElem e { x with sns := { x.sns with win := w' } } b
    if w.counts && low then raise (832 + 7 * n + 2) (snsFirst n (2 * (e % 512)) 3 b) else b
  else b

/-- DITHER_WINDOW_END. -/
def execDitherWindowEnd (e : Fin 4608) (s : State) : Host.Outcome State Fault Refusal :=
  .next { s with b := ditherWindowEnd e s.b }

/-- A PD_BIAS supply has been in limit for 1 µs (R100): BIAS_STAT shows the limit, and BIAS_FAULT is raised where the
supply was not in limit already. The voltage that the supply then has is not stated: it is an open value.
(DESIGN CHOICE, log 22; DESIGN CHOICE, log 122). -/
def biasFault (n : Nat) (b : Blk) : Blk :=
  if b.sys.mode = .reset then b
  else
    let was := (evGet b (832 + 7 * n + 4)).raw
    let v := takeFree { b with biasSeen := b.biasSeen.set 0 n (b.tick + 1) }
    raiseIf (!was) (832 + 7 * n + 4) (setRaw (832 + 7 * n + 4) true
      (setF (Reg.SNS.BIAS_STAT.V_BIAS n) v.1.toNat (setFlag (Reg.SNS.BIAS_STAT.LIMIT n) true v.2)))

/-- BIAS_FAULT. -/
def execBiasFault (n : Fin 9) (s : State) : Host.Outcome State Fault Refusal :=
  .next { s with b := biasFault n s.b }

/-! ### What a tick boundary does to the monitors (R107, R118, R120, R121, R126) -/

/-- An input at a tick boundary: TOPSAT of the ended tick, counters cleared (R120). -/
def InState.boundary (i : InState) : InState :=
  { i with topsat := decide (8 ≤ i.clip2), clip2 := 0, rngMax := 0, clipped := false, frozeTick := false }

/-- Code `j` of a record's checks; a check that no command registered counts as DARK. -/
def MonRec.code (r : MonRec) (j : Nat) : Nat := r.chk.getD j 2

/-- LIGHT: no check was DARK (R118). -/
def MonRec.light (r : MonRec) : Bool := (List.range 8).all fun j => r.code j != 2

/-- Every check is PASS or FAIL. -/
def MonRec.lit (r : MonRec) : Bool := (List.range 8).all fun j => decide (r.code j < 2)

/-- The finished record of the ended tick (R118). D of frame 7 is formed at the tick boundary, under the state byte of that
instant. (DESIGN CHOICE, log 120). -/
def finishRecord (b : Blk) (e : Nat) (x : Elem) : MonRec :=
  let g := 8 * b.tick + 7
  let r := if x.sns.a.frame = g + 1 then addD (frameD b e g (sbyteAt x (4000 * (b.tick + 1))) x) x.sns.cur else x.sns.cur
  { r with
    rngA := x.sns.a.rngMax, clipA := x.sns.a.clipped, rngB := x.sns.b.rngMax, clipB := x.sns.b.clipped
    freeze := x.sns.a.frozeTick || x.sns.b.frozeTick
    topsat := decide (8 ≤ x.sns.a.clip2) || decide (8 ≤ x.sns.b.clip2)
    dithLow := x.sns.win.low }

/-- The dither window takes the ended tick's record (R121). -/
def addWindow (dith : Bool) (r : MonRec) (w : DithWin) : DithWin :=
  if r.lit && dith then
    { w with h2 := w.h2 + r.h2, i := w.i + (r.iA - r.iB), q := w.q + (r.qA - r.qB), d := w.d + r.sumAbsD }
  else { w with counts := false }

/-- The sensing part of an element at the boundary that ends a tick. -/
def senseBoundary (b : Blk) (e : Nat) (x : Elem) : Elem :=
  let r := finishRecord b e x
  let dith := x.sns.dithNow && dithOn b e x
  { x with sns := { x.sns with
      a := x.sns.a.boundary, b := x.sns.b.boundary, cur := MonRec.empty, prev := r, lightPrev := x.sns.prev.light
      win := addWindow dith r x.sns.win, dithPrev := dith } }

/-- Inputs of an element whose first tick with TOPSAT follows one without it (R120). -/
def topsatNew (x : Elem) : List Nat :=
  (if 8 ≤ x.sns.a.clip2 ∧ x.sns.a.topsat = false then [0] else [])
    ++ (if 8 ≤ x.sns.b.clip2 ∧ x.sns.b.topsat = false then [1] else [])

end Sys2Proof.Machine
end

