-- ==== Sys2Proof/Machine/Xbar.lean ====
section
/-!
DEFINITION. The crossbar's own records (R401, R409 to R414, R418): refused accesses, master resets, SECDED errors and the
scrubber, and the errors that FTEST injects (R382).
-/
set_option autoImplicit false

namespace Sys2Proof.Machine

/-! ### T9 (R401) -/

/-- T9 answers a transaction of master `m` whose first beat is at crossbar address `a` (R401, R414).
(DEDUCED, log 103). -/
def decodeErr (m : Master) (write : Bool) (a : Nat) (b : Blk) : Blk :=
  let b := setF Reg.XBAR.DEC_ADDR.ADDR a (setFlag Reg.XBAR.DEC_LAST.VALID true (setFlag Reg.XBAR.DEC_LAST.WRITE write
    (setF Reg.XBAR.DEC_LAST.MASTER (masterNo m) b)))
  flushLate (raiseTx [960] (some (masterNo m, (if write then 2 else 1), a)) b)

/-! ### Master resets (R409, R410) -/

/-- The burst that a master reset orphans. -/
def orphan (m : Nat) (r : Burst) (b : Blk) : Blk :=
  let b := setF Reg.XBAR.ORPHAN_ADDR.ADDR r.addr.toNat (setFlag Reg.XBAR.ORPHAN.VALID true (setFlag Reg.XBAR.ORPHAN.READ r.read
    (setF Reg.XBAR.ORPHAN.BEATS r.beats (setF Reg.XBAR.ORPHAN.BEATS_DONE r.done (setF Reg.XBAR.ORPHAN.TARGET r.target.val
      (setF Reg.XBAR.ORPHAN.MASTER m b))))))
  flushLate (raiseTx [961] (some (m, (if r.read then 1 else 2), r.addr.toNat)) b)

/-- Master `m` is reset: what was not granted is counted in DROP, and the burst that each target granted is orphaned (R403,
R410). -/
def masterReset (m : Nat) (x : MstReset) (b : Blk) : Blk :=
  x.bursts.foldl (fun b r => orphan m r b) (setF Reg.XBAR.DROP.COUNT (min 65535 (getF b Reg.XBAR.DROP.COUNT + x.waiting)) b)

/-! ### SECDED (R411, R412) -/

/-- ECC_LAST, ECC_ADDR and ECC_CNT take an error (R411, R412, R418). -/
def eccNote (dbl : Bool) (w : EccWord) (b : Blk) : Blk :=
  let b := setF Reg.XBAR.ECC_ADDR.ADDR w.addr.toNat (setFlag Reg.XBAR.ECC_LAST.VALID true (setF Reg.XBAR.ECC_LAST.UNIT w.unit.val
    (setFlag Reg.XBAR.ECC_LAST.DOUBLE dbl (setFlag Reg.XBAR.ECC_LAST.LIVE w.live (setF Reg.XBAR.ECC_LAST.MEM w.mem.val b)))))
  incF (if dbl then Reg.XBAR.ECC_CNT.DOUBLE else Reg.XBAR.ECC_CNT.SINGLE) b

/-- An error of engine memory counts with the live copies (R415). -/
def eccInLive (w : EccWord) : Bool := w.live || decide (10 ≤ w.mem.val)

/-- The BAR2 offset of a table word, aligned to the 8 bytes that one code protects (R399, R411). -/
def eccOff (w : EccWord) : Nat := (w.addr.toNat - 0x10000000) / 8 * 8

/-- The 8 bytes of live word `a` hold a value that the spec does not give: a double-bit error is used as read (R412).
(DEDUCED, log 85). -/
def spoilLive (a : Nat) (b : Blk) : Blk :=
  let f := takeFree b
  let g := takeFree f.2
  { g.2 with live := wrBytes g.2.live a (wordBytes f.1 ++ wordBytes g.1) }

/-- A single-bit error is found: corrected, counted, and due to be rewritten (R411). (DEDUCED, log 85). -/
def foundSingle (w : EccWord) (b : Blk) : Blk :=
  let b := eccNote false w b
  { b with xb := { b.xb with single := if w ∈ b.xb.single then b.xb.single else b.xb.single ++ [w]
                             fix := if w ∈ b.xb.fix then b.xb.fix else b.xb.fix ++ [w] } }

/-- A double-bit error is found (R412). The error stays until the word is rewritten; a word of a live table copy is used as read,
and what it reads as is open from the first time the error is found on. (DEDUCED, log 85). -/
def foundDouble (w : EccWord) (b : Blk) : Blk :=
  let b := eccNote true w b
  if w ∈ b.xb.double then b
  else
    let b := if w.live ∧ w.mem.val < 7 then spoilLive (eccOff w) b else b
    { b with xb := { b.xb with double := b.xb.double ++ [w] } }

/-- SCRUB_PASS: every protected word was read once; each error raises its event with no master (R413, R414). -/
def scrubPass (x : ScrubIn) (b : Blk) : Blk :=
  if b.sys.mode = .reset then b
  else
    let b := setF Reg.XBAR.SCRUB_STAT.PASSES (getF b Reg.XBAR.SCRUB_STAT.PASSES + 1) b
    let s := b.xb.single ++ x.single.filter fun w => decide (w ∉ b.xb.single)
    let d := b.xb.double ++ x.double.filter fun w => decide (w ∉ b.xb.double)
    let b := s.foldl (fun b w => raise 962 (foundSingle w b)) b
    d.foldl (fun b w => raise (if eccInLive w then 964 else 963) (foundDouble w b)) b

/-- SCRUB_PASS. -/
def execScrubPass (x : ScrubIn) (s : State) : Host.Outcome State Fault Refusal := .next { s with b := scrubPass x s.b }

/-- ECC_WRITEBACK: the words that were found with a single-bit error are rewritten corrected (R411). -/
def eccWriteback (b : Blk) : Blk :=
  { b with xb := { b.xb with single := b.xb.single.filter (fun w => decide (w ∉ b.xb.fix)), fix := [] } }

/-- ECC_WRITEBACK. -/
def execEccWriteback (s : State) : Host.Outcome State Fault Refusal := .next { s with b := eccWriteback s.b }

/-- A word of the shadow region `[lo, hi)` of BAR2 is damaged: the region fails its table check (R412). -/
def damaged (b : Blk) (lo hi : Nat) : Bool := b.xb.double.any fun w => decide (!w.live ∧ w.mem.val < 7 ∧ lo ≤ eccOff w ∧ eccOff w < hi)

/-- The bytes `[lo, hi)` of BAR2 are rewritten in one copy: what was wrong in their words is gone (R412). -/
def healed (live : Bool) (lo hi : Nat) (b : Blk) : Blk :=
  let keep := fun (w : EccWord) => w.live != live || decide (7 ≤ w.mem.val ∨ eccOff w + 8 ≤ lo ∨ hi ≤ eccOff w)
  { b with xb := { single := b.xb.single.filter keep, fix := b.xb.fix.filter keep, double := b.xb.double.filter keep } }

/-- An armed FTEST.ECC injection acts on the write of target `t` at BAR2 offset `a` (R382). The result tells whether the
write took a double-bit error. (DEDUCED, log 107). -/
def injectEcc (t : Nat) (live : Bool) (a : Nat) (b : Blk) : Bool × Blk :=
  if flag b Reg.FTEST.ECC.GO ∧ getF b Reg.FTEST.ECC.TARGET = t then
    let dbl := flag b Reg.FTEST.ECC.DOUBLE
    let w : EccWord := { mem := Fin.ofNat 16 t, live := live, unit := 0, addr := BitVec.ofNat 32 (0x10000000 + a / 8 * 8) }
    let b := setFlag Reg.FTEST.ECC.GO false b
    if dbl then (true, { b with xb := { b.xb with double := b.xb.double ++ [w] } })
    else (false, { b with xb := { b.xb with single := b.xb.single ++ [w] } })
  else (false, b)

/-- What a read by the data path finds among the words `mine`: single-bit errors, corrected, and double-bit errors, used as read;
`tx` is the crossbar transaction that reads, none for the data path and the scrubber (R411, R412, R414). -/
def eccFind (tx : EccWord → Option (Nat × Nat × Nat)) (mine : EccWord → Bool) (b : Blk) : Blk :=
  let s := b.xb.single.filter mine
  let d := b.xb.double.filter mine
  if s = [] ∧ d = [] then b
  else
    let b := s.foldl (fun b w => flushLate (raiseTx [962] (tx w) (foundSingle w b))) b
    d.foldl (fun b w => flushLate (raiseTx [if eccInLive w then 964 else 963] (tx w) (foundDouble w b))) b

/-- What a read by the data path finds (R411, R412, R414). -/
def eccData (mine : EccWord → Bool) (b : Blk) : Blk := eccFind (fun _ => none) mine b

/-- A live word of target `t` whose BAR2 offset lies in `[lo, hi)`. -/
def liveWord (t lo hi : Nat) (w : EccWord) : Bool := w.live && decide (w.mem.val = t ∧ lo ≤ eccOff w ∧ eccOff w < hi)

/-- The live words of permutation slot `s`, which the route solver reads (R411). -/
def slotWords6 (s : Nat) (w : EccWord) : Bool :=
  liveWord 6 (0x280000 + 4096 * s) (0x281000 + 4096 * s) w || liveWord 6 (0x2A0000 + 16 * s) (0x2A0010 + 16 * s) w

/-- What the slot of element `e` on engine `g` reads: the element's record and context, its curves, the live program, and the engine's
data memory and program store (R169, R411). (DEDUCED, log 85). -/
def slotWord (g e : Nat) (w : EccWord) : Bool :=
  liveWord 4 (ctxAddr e 0) (ctxAddr e 64) w || liveWord 1 (128 * e) (128 * e + 128) w
    || liveWord 3 (0x200000 + 64 * e) (0x200000 + 64 * e + 64) w || liveWord 4 0x300000 0x304210 w
    || decide ((w.mem.val = 10 ∨ w.mem.val = 11) ∧ w.unit.val = g)

/-- What the slot of element `e` on engine `g` finds; the slot rewrites context words 0 to 14 and 32 to 39, which heals them
(R411, R412). (DEDUCED, log 85). -/
def eccSlot (g e : Nat) (b : Blk) : Blk :=
  let b := eccData (slotWord g e) b
  let kept := fun (w : EccWord) => !(liveWord 4 (ctxAddr e 0) (ctxAddr e 14) w || liveWord 4 (ctxAddr e 32) (ctxAddr e 40) w)
  if b.xb.double.all kept then b else { b with xb := { b.xb with double := b.xb.double.filter kept } }

/-- Fields set to 0. -/
def zeroF (fs : List Fld) (b : Blk) : Blk := fs.foldl (fun b f => setF f 0 b) b

/-- XBAR.CLEAR (R418). -/
def xbarClearDo (v : Word) (b : Blk) : Blk :=
  let b := if v.bit 0 then zeroF [Reg.XBAR.ORPHAN.MASTER, Reg.XBAR.ORPHAN.TARGET, Reg.XBAR.ORPHAN.BEATS_DONE,
      Reg.XBAR.ORPHAN.BEATS, Reg.XBAR.ORPHAN.READ, Reg.XBAR.ORPHAN.VALID, Reg.XBAR.ORPHAN_ADDR.ADDR] b else b
  let b := if v.bit 1 then zeroF [Reg.XBAR.DEC_LAST.MASTER, Reg.XBAR.DEC_LAST.WRITE, Reg.XBAR.DEC_LAST.VALID,
      Reg.XBAR.DEC_ADDR.ADDR] b else b
  if v.bit 2 then zeroF [Reg.XBAR.ECC_CNT.SINGLE, Reg.XBAR.ECC_CNT.DOUBLE, Reg.XBAR.ECC_LAST.MEM, Reg.XBAR.ECC_LAST.LIVE,
      Reg.XBAR.ECC_LAST.DOUBLE, Reg.XBAR.ECC_LAST.UNIT, Reg.XBAR.ECC_LAST.VALID, Reg.XBAR.ECC_ADDR.ADDR] b else b

/-- XBAR.QOS0 (R402): the QoS of a settable master lies in [0, 13]. -/
def qosErrs (v : Word) : List Nat := if [0, 4, 16, 20, 24].any fun i => decide (13 < v.bits i 4) then [1] else []

/-- XBAR.SLICE (R405). -/
def sliceErrs (b : Blk) : List Nat := if b.sys.mode = .boot then [] else [2]

/-- XBAR.SCRUB (R418). -/
def scrubErrs (v : Word) : List Nat := if 10 ≤ v.bits 0 14 ∧ v.bits 0 14 ≤ 10000 then [] else [1]

end Sys2Proof.Machine
end

