-- ==== Sys2Proof/Machine/Acq.lean ====
section
/-!
DEFINITION. The acquisition block (R320 to R332, R341, R343, R344): probe channels, stream records, running, dropping and
measurements.
-/
set_option autoImplicit false

namespace Sys2Proof.Machine

/-! ### The record stream (R324, R331, R332) -/

/-- Channel `c`. -/
def chanSt (b : Blk) (c : Nat) : ChanSt := b.acq.chans.get ChanSt.reset c

/-- Channel `c` replaced. -/
def setChan (c : Nat) (x : ChanSt) (b : Blk) : Blk :=
  { b with acq := { b.acq with chans := b.acq.chans.set ChanSt.reset c x } }

/-- Records in the buffer (R331). -/
def acqUsed (b : Blk) : Nat := (getF b Reg.ACQ.WP.WP + 262144 - getF b Reg.ACQ.RP.RP) % 262144

/-- The buffer is full. -/
def acqFull (b : Blk) : Bool := acqUsed b == 131072

/-- The next record is written to the buffer (R324, R382, R412): header without RSEQ, and the seven words.
(DEDUCED, log 55). -/
def putRec (hdr : Nat) (ws : List Nat) (b : Blk) : Blk :=
  let p := getF b Reg.ACQ.WP.WP
  let bytes := ((hdr + p % 65536 * 65536) :: ws).flatMap fun w => wordBytes (BitVec.ofNat 32 w)
  let a := 0x1000000 + 32 * (p % 131072)
  let b := (injectEcc 5 false a (healed false a (a + 32) b)).2
  setF Reg.ACQ.WP.WP (p + 1) { b with live := wrBytes b.live a bytes }

/-- `n` samples of channel `c` are lost: the first and the last, each with instant and stamp (R327, R332). -/
def lose (c n : Nat) (fst lst : Nat × Nat) (b : Blk) : Blk :=
  let a := b.acq
  let mask := if natBits a.lostMask c 1 = 1 then a.lostMask else a.lostMask + 2 ^ c
  setF Reg.ACQ.LOST.SAMPLES (min 0xFFFFFFFF (getF b Reg.ACQ.LOST.SAMPLES + n)) { b with acq := { a with
    lostA := match a.lostA with
      | some x => if fst.1 < x.1 then some fst else some x
      | none => some fst
    lostZ := match a.lostZ with
      | some x => if x.1 < lst.1 then some lst else some x
      | none => some lst
    lostN := min 0xFFFFFFFF (a.lostN + n), lostMask := mask } }

/-- A partly filled DATA record is discarded, its samples lost. -/
def losePart (b : Blk) (c : Nat) : Blk :=
  let x := chanSt b c
  let n := x.part.length
  if n = 0 then b else lose c n (x.partQ, x.partT) x.partZ (setChan c { x with part := [] } b)

/-- Dropping begins (R332, R343). -/
def enterDrop (b : Blk) : Blk :=
  raise 1120 ((List.range 32).foldl losePart (setFlag Reg.ACQ.STAT.DROPPING true b))

/-- A MARK or MEAS record goes to the held queue of 64, or is dropped and counted (R332). (DEDUCED, log 55). -/
def holdRec (hdr : Nat) (ws : List Nat) (b : Blk) : Blk :=
  if b.acq.held.length < 64 then
    let b := { b with acq := { b.acq with held := b.acq.held ++ [(hdr, ws)] } }
    setF Reg.ACQ.STAT.HELD b.acq.held.length b
  else
    raise 1122 (incF Reg.ACQ.GAPS.HELD_LOST { b with acq := { b.acq with heldLost := min 65535 (b.acq.heldLost + 1) } })

/-- A MARK or MEAS record is due (R330, R332). -/
def dueRec (hdr : Nat) (ws : List Nat) (b : Blk) : Blk :=
  if flag b Reg.ACQ.STAT.RUNNING = false then b
  else if flag b Reg.ACQ.STAT.DROPPING then holdRec hdr ws b
  else if acqFull b then holdRec hdr ws (enterDrop b)
  else putRec hdr ws b

/-- A SYNC record of the present CLK_TICK edge (R328). -/
def putSync (b : Blk) : Blk :=
  let n := b.time.ns
  let b' := putRec 5 [n % 2 ^ 32, nsOf n, secOf n % 2 ^ 32, secOf n / 2 ^ 32 % 2 ^ 16, getF b Reg.TIME.INCR.INCR,
    (if b.acq.stepped then 1 else 0) + (if flag b Reg.TIME.STAT.HOLDOVER then 2 else 0), 0] b
  { b' with acq := { b'.acq with stepped := false, mark := n / 2 ^ 30 } }

/-- A SYNC record is due: written where the stream runs and has room. -/
def dueSync (b : Blk) : Blk :=
  if flag b Reg.ACQ.STAT.RUNNING = false ∨ flag b Reg.ACQ.STAT.DROPPING then
    { b with acq := { b.acq with mark := b.time.ns / 2 ^ 30 } }
  else if acqFull b then enterDrop b
  else putSync b

/-- A step was applied (R273, R328). -/
def acqStepped (b : Blk) : Blk := dueSync { b with acq := { b.acq with stepped := true } }

/-- Samples packed into the six words of a DATA record (R325). (DEDUCED, log 62). -/
def packSamples (w32 : Bool) (xs : List Int) : List Nat :=
  (List.range 6).map fun i =>
    if w32 then toBits 32 (xs.getD i 0) else toBits 16 (xs.getD (2 * i) 0) + 65536 * toBits 16 (xs.getD (2 * i + 1) 0)

/-- The DATA record of channel `c` is written (R325), where it holds samples. -/
def flushData (b : Blk) (c : Nat) : Blk :=
  let x := chanSt b c
  if x.part = [] then b
  else if acqFull b then enterDrop b
  else
    let w := flag b (Reg.ACQ.CH_CFG.W32 c)
    putRec (1 + 16 * c + 512 * x.part.length + (if w then 8192 else 0)) (x.partT :: packSamples w x.part)
      (setChan c { x with part := [] } b)

/-- A sample goes to the stream (R325, R330, R332). -/
def streamSample (c : Nat) (s : Samp) (b : Blk) : Blk :=
  if flag b Reg.ACQ.STAT.RUNNING = false then b
  else
    if flag b Reg.ACQ.STAT.DROPPING then lose c 1 (s.q, s.t) (s.q, s.t) b
    else
      let x := chanSt b c
      let x := if x.part = [] then { x with partT := s.t, partQ := s.q, partDec := s.dec } else x
      let b := setChan c { x with part := x.part ++ [s.val], partZ := (s.q, s.t) } b
      if x.part.length + 1 = (if flag b (Reg.ACQ.CH_CFG.W32 c) then 6 else 12) then flushData b c else b

/-! ### Samples of a channel (R321 to R323) -/

/-- The format of a channel is signed: DEST, and REC with SUB 2 to 7 (R322). -/
def chanSigned (b : Blk) (c : Nat) : Bool :=
  let src := getF b (Reg.ACQ.CH_CFG.SRC c)
  src == 5 || (src == 8 && decide (2 ≤ getF b (Reg.ACQ.CH_CFG.SUB c)))

/-- A reduced value with its check code as the channel delivers it (R321, R322). -/
def chanFormat (b : Blk) (c : Nat) (v : Int) (code : Nat) : Int :=
  let src := getF b (Reg.ACQ.CH_CFG.SRC c)
  let w := flag b (Reg.ACQ.CH_CFG.W32 c)
  if src = 9 ∨ src = 10 then v
  else
    let x := v / ((2 ^ getF b (Reg.ACQ.CH_CFG.SHIFT c) : Nat) : Int)
    if w then (if src = 4 then x + 65536 * (code : Int) else x)
    else if chanSigned b c then satS16 x else satU16 x

/-- A measurement sees a sample of its channel (R341): one before T is V_0 until a later one comes, and one in the window joins the
span, of at most `n`, even where it is decided after the window has closed. (DEDUCED, log 62). -/
def Meas.take (n : Nat) (s : Samp) (m : Meas) : Meas :=
  if s.q < m.t then { m with v0 := some s.val }
  else if s.void || decide (n ≤ m.xs.length) || m.stop.any fun z => decide (z ≤ s.q) then m
  else { m with xs := m.xs ++ [(s.q, s.val)] }

/-- The channel's next sample (R323): the triggers and the measurement see it, and the stream takes it. -/
def chanSample (c : Nat) (s : Samp) (b : Blk) : Blk :=
  let x := chanSt b c
  let m := x.meas.map (Meas.take (getF b (Reg.ACQ.CH_MEAS.MSPAN c)) s)
  streamSample c s (setChan c { x with hist := (s :: x.hist).take 64, meas := m } b)

/-- A value joins the group that its channel forms (R323). -/
def ChanSt.join (v : Int) (code : Nat) (void : Bool) (x : ChanSt) : ChanSt :=
  let x := { x with gN := x.gN + 1 }
  if void then x
  else
    { x with
      sum := x.sum + v, kept := x.kept + 1
      big := match x.big with
        | some m => if m.1 < v then some (v, code) else some m
        | none => some (v, code)
      low := match x.low with
        | some m => if v < m.1 then some (v, code) else some m
        | none => some (v, code) }

/-- A group starts (R323). -/
def ChanSt.start (idx q t : Nat) (v : Int) (code : Nat) (x : ChanSt) : ChanSt :=
  { x with gN := 0, gIdx := idx, gQ := q, gT := t, first := (v, code), big := none, low := none, sum := 0, kept := 0 }

/-- A complete group reduced (R323): the value, its check code, and whether every EPS value in it was left out. The check
code of a mean over several values is not stated: it is an open value. (DEDUCED, log 58; DESIGN CHOICE, log 59). -/
def reduceGroup (red : Nat) (x : ChanSt) (b : Blk) : (Int × Nat × Bool) × Blk :=
  match red with
  | 0 => ((x.first.1, x.first.2, decide (x.first.1 = 65535) && decide (x.kept < x.gN)), b)
  | 1 =>
    if x.kept = 0 then ((65535, x.first.2, true), b)
    else if x.gN = 1 then ((x.sum, x.first.2, false), b)
    else
      let f := takeFree b
      ((rne x.sum x.kept, f.1.bits 0 2, false), f.2)
  | 2 => (((x.big.getD (65535, x.first.2)).1, (x.big.getD (65535, x.first.2)).2, x.big.isNone), b)
  | _ => (((x.low.getD (65535, x.first.2)).1, (x.low.getD (65535, x.first.2)).2, x.low.isNone), b)

/-- One source value of channel `c`: index, instant, decision latency in quarter-nanoseconds, value, check code, and whether
it is an EPS value not computed (R321, R323). (DEDUCED, log 58). -/
def chanFeed (c idx q lat : Nat) (v : Int) (code : Nat) (void : Bool) (b : Blk) : Blk :=
  let k := 2 ^ getF b (Reg.ACQ.CH_CFG.DEC c)
  let x := chanSt b c
  let x := if idx % k = 0 then x.start idx q (localAt b q % 2 ^ 32) v code else x
  if idx = x.gIdx + x.gN ∧ x.gN < k then
    let x := x.join v code void
    if x.gN = k then
      let r := reduceGroup (getF b (Reg.ACQ.CH_CFG.RED c)) x b
      chanSample c { q := x.gQ, t := x.gT, dec := (q + lat + 15) / 16, val := chanFormat r.2 c r.1.1 r.1.2.1, void := r.1.2.2 }
        (setChan c x r.2)
    else setChan c x b
  else b

/-- The channels enabled with a source that `p` accepts, on element or bank `e`. -/
def chansOn (b : Blk) (e : Nat) (p : Nat → Bool) : List Nat :=
  (List.range 32).filter fun c => flag b (Reg.ACQ.CH_CFG.EN c) && p (getF b (Reg.ACQ.CH_CFG.SRC c))
    && (getF b (Reg.ACQ.CH_SEL.E c) == e)

/-- What drives the outputs of element `e` at instant `q` of the present tick. -/
def outAt (b : Blk) (e q : Nat) : OutSnap :=
  ((b.elem e).drv.old.find? fun o => decide (q < o.q)).getD (outSnap b b.q e (b.elem e))

/-- The output codes of element `e` at the start of frame `j` of the present tick, heater or trim with its dither (R76, R78,
R321). -/
def outSource (b : Blk) (e j : Nat) (heater : Bool) : Int :=
  let t := 4000 * b.tick + 500 * j
  let o := outAt b e t
  if heater then o.htr.toNat
  else
    let n := 125 * j / 4
    let d := { (b.elem e).drv with trmLive := o.trm, seq := o.seq }
    let dith := o.dith && !o.seq.any fun q => decide (4000 * q.start ≤ t)
    clampI 0 65535 (d.trmAt o.clr b.tick n + (if dith then ditherTerm b e n else 0))

/-- Channel `c`, of source HTR or TRM, takes the code of frame `j` of the present tick, once (R321). -/
def outFeed (j c : Nat) (b : Blk) : Blk :=
  let f := 8 * b.tick + j
  if (chanSt b c).seen ≤ f then
    chanFeed c f (4000 * b.tick + 500 * j) 48
      (outSource b (getF b (Reg.ACQ.CH_SEL.E c)) j (getF b (Reg.ACQ.CH_CFG.SRC c) == 6)) 0 false
      (setChan c { chanSt b c with seen := f + 1 } b)
  else b

/-- Sources HTR and TRM as far as step `k` of the present tick decides them (R321, R329). -/
def acqOuts (k : Nat) (b : Blk) : Blk :=
  let cs := (List.range 32).filter fun c => flag b (Reg.ACQ.CH_CFG.EN c) && (getF b (Reg.ACQ.CH_CFG.SRC c) / 2 == 3)
  ((List.range 8).filter fun j => decide (4000 * b.tick + 500 * j + 48 ≤ 16 * k)).foldl (fun b j =>
    cs.foldl (fun b c => outFeed j c b) b) b

/-- The frame-rate sources but HTR and TRM of element `e` at check `j` of the present tick (R321), once its samples are taken: value, check
code and whether it is an EPS not computed, with instant and latency in quarter-nanoseconds. (DEDUCED, log 58). -/
def frameSource (b : Blk) (e j src : Nat) (c : Nat × Option Nat) (d : Option Int) : (Int × Nat × Bool) × Nat × Nat :=
  let x := b.elem e
  let t := 4000 * b.tick + 500 * j
  let hold := t + (if e % 2 = 0 then 0 else 250)
  match src with
  | 0 => ((x.sns.a.corr, 0, false), hold, 192)
  | 1 => ((x.sns.b.corr, 0, false), hold + 125, 192)
  | 2 => (((x.sns.a.raw + 16384 * x.sns.a.rng : Nat), 0, false), hold, 160)
  | 3 => (((x.sns.b.raw + 16384 * x.sns.b.rng : Nat), 0, false), hold + 125, 160)
  | 4 => (((c.2.getD 65535 : Nat), c.1, c.2.isNone), t + 340, 32)
  | _ => ((d.getD 0, 0, false), t + 340, 32)

/-- Every channel that taps element `e` takes its value of frame `j` (R321). -/
def acqFrame (e j : Nat) (c : Nat × Option Nat) (d : Option Int) (b : Blk) : Blk :=
  (chansOn b e fun s => decide (s < 6)).foldl (fun b ch =>
    let v := frameSource b e j (getF b (Reg.ACQ.CH_CFG.SRC ch)) c d
    chanFeed ch (8 * b.tick + j) v.2.1 v.2.2 v.1.1 v.1.2.1 v.1.2.2 b) (acqOuts b.now b)

/-- The context word or ESTAT that channel `c` taps, as it stands after the element's slot (R321).
(DEDUCED, log 61). -/
def slotSource (b : Blk) (e c : Nat) : Nat :=
  let w32 := flag b (Reg.ACQ.CH_CFG.W32 c)
  if getF b (Reg.ACQ.CH_CFG.SRC c) = 9 then
    let w := rdW b.live (ctxAddr e (getF b (Reg.ACQ.CH_SEL.WORD c)))
    if w32 then w else natBits w (16 * getF b (Reg.ACQ.CH_SEL.HALF c)) 16
  else
    let w := estat b e (b.elem e)
    if w32 then w else w % 65536

/-- The channels that tap element `e` after its slot keep what they saw (R321). -/
def acqSlot (e : Nat) (b : Blk) : Blk :=
  (chansOn b e fun s => s == 9 || s == 10).foldl (fun b c =>
    setChan c { chanSt b c with snap := some (b.tick, slotSource b e c) } b) b

/-- The field of a monitor record that SUB selects (R321). (DEDUCED, log 55). -/
def recSource (r : MonRec) (sub : Nat) : Int :=
  match sub with
  | 0 => r.sumA
  | 1 => r.sumB
  | 2 => r.sumD
  | 3 => r.iA
  | 4 => r.qA
  | 5 => r.iB
  | 6 => r.qB
  | _ => r.h2

/-- The tick-rate sources at the boundary that ends the present tick, once its records are finished (R321). -/
def acqTick (n : Nat) (b : Blk) : Blk :=
  let q := 4000 * (n + 1)
  (List.range 32).foldl (fun b c =>
    if flag b (Reg.ACQ.CH_CFG.EN c) then
      let e := getF b (Reg.ACQ.CH_SEL.E c)
      match getF b (Reg.ACQ.CH_CFG.SRC c) with
      | 8 => chanFeed c n q 32 (recSource (b.elem e).sns.prev (getF b (Reg.ACQ.CH_CFG.SUB c))) 0 false b
      | 9 | 10 =>
        match (chanSt b c).snap with
        | some s => if s.1 = n then chanFeed c n q 32 s.2 0 false b else b
        | none => b
      | 11 => chanFeed c n q 416 (getF b (Reg.DRV.MTR_TICK.P_TICK (e % 32))) 0 false b
      | _ => b
    else b) b

/-! ### Measurements (R341) -/

/-- The greatest and the least of a list of numbers. -/
def spread (xs : List Int) : Int × Int := (xs.foldl max (xs.headD 0), xs.foldl min (xs.headD 0))

/-- The start of the final run of values in a band: its index, or the length where the last value lies outside. -/
def lastRun (lo hi : Int) (xs : List Int) : Nat :=
  xs.length - (xs.reverse.takeWhile fun x => decide (lo ≤ x) && decide (x ≤ hi)).length

/-- The instants of the up-crossings of `vf` in a span, beginning with its second value (R341). -/
def upCrossings (vf : Int) : List (Nat × Int) → List Nat
  | x :: y :: t => (if x.2 < vf ∧ vf ≤ y.2 then [y.1] else []) ++ upCrossings vf (y :: t)
  | _ => []

/-- The words of a MEAS record (R341); `short` is set by a stop whatever the span holds (R330). -/
def measWords (b : Blk) (c : Nat) (short : Bool) (m : Meas) : List Nat :=
  let n := m.xs.length
  let mn := getF b (Reg.ACQ.CH_MEAS.MEAS_N c)
  let sh := (if short || decide (n < mn) then 2 else 0) + (if m.v0.isNone then 8 else 0)
  if n = 0 then [m.stamp, 0, 0, 0, 0, 0, sh + m.origin * 536870912]
  else
    let vs := m.xs.map Prod.snd
    let tail := m.xs.drop (n - min mn n)
    let tv := tail.map Prod.snd
    let vf := if flag b (Reg.ACQ.CH_MEAS.REF_MODE c) then sext 32 (getF b (Reg.ACQ.CH_REF.REF c))
      else rne (tv.foldl (· + ·) 0) tv.length
    let band : Int := getF b (Reg.ACQ.CH_BAND.BAND c)
    let j := lastRun (vf - band) (vf + band) vs
    let settle := if j = n then 2 ^ 32 - 1 else (rne ((m.xs.getD j (0, 0)).1 - m.t) 4).toNat
    let d : Int := if m.v0.any fun v => decide (vf < v) then -1 else 1
    let past := vs.foldl (fun o x => max o (d * (x - vf))) 0
    let s := spread tv
    let cs := upCrossings vf tail
    let k := cs.length
    let period := if 2 ≤ k then (rne ((cs.getLastD 0 : Int) - cs.headD 0) (4 * (k - 1))).toNat else 0
    [m.stamp, settle, toBits 32 past, toBits 32 (rne (s.1 - s.2) 2), period, toBits 32 vf,
      (if j = n then 1 else 0) + sh + (if k < 2 then 4 else 0) + n % 8192 * 65536 + m.origin * 536870912]

/-- The measurement of channel `c` ends: its MEAS record is queued and MEAS_DONE raised (R341, R343).
(DEDUCED, log 63). -/
def endMeas (short : Bool) (b : Blk) (c : Nat) : Blk :=
  match (chanSt b c).meas with
  | none => b
  | some m =>
    let ws := measWords b c short m
    let b := setChan c { chanSt b c with meas := none } b
    if flag b Reg.ACQ.STAT.RUNNING then
      raise 1125 (dueRec (4 + 16 * c + (if flag b (Reg.ACQ.CH_CFG.W32 c) then 8192 else 0)) ws b)
    else b

/-- A measurement whose span has ended: its last sample was taken, or its window has closed (R341). -/
def measOver (b : Blk) (c : Nat) : Bool :=
  (chanSt b c).meas.any fun m => m.past || decide (getF b (Reg.ACQ.CH_MEAS.MSPAN c) ≤ m.xs.length)

/-- MEAS_DONE. -/
def execMeasDone (c : Fin 32) (s : State) : Host.Outcome State Fault Refusal :=
  .next { s with b := if measOver s.b c.val then endMeas false s.b c.val else s.b }

/-- A window opens with T at elapsed instant `t`, to end at `stop`: every measured channel begins its span, with what it has already
sampled since (R341). (DEDUCED, log 63). -/
def startMeas (t stamp origin : Nat) (stop : Option Nat) (b : Blk) : Blk :=
  (List.range 32).foldl (fun b c =>
    if flag b (Reg.ACQ.CH_CFG.EN c) && flag b (Reg.ACQ.CH_MEAS.EN c) then
      let b := endMeas false b c
      let x := chanSt b c
      let m : Meas := { t := t, stamp := stamp, origin := origin, v0 := none, xs := [], stop := stop, past := false }
      let n := getF b (Reg.ACQ.CH_MEAS.MSPAN c)
      setChan c { x with meas := some (x.hist.reverse.foldl (fun m s => m.take n s) m) } b
    else b) b

/-- The open window closes at instant `z`: the spans end, and values of later instants are no part of them (R341). -/
def closeMeas (z : Nat) (b : Blk) : Blk :=
  (List.range 32).foldl (fun b c =>
    let x := chanSt b c
    if x.meas.isSome then
      setChan c { x with meas := x.meas.map fun m => { m with past := true, stop := some (m.stop.elim z (min z)) } } b
    else b) b

/-! ### Running (R330, R332) -/

/-- The stream starts at a tick boundary (R328, R330). -/
def acqStart (b : Blk) : Blk :=
  if flag b Reg.ACQ.STAT.RUNNING then b
  else
    let b := setFlag Reg.ACQ.STAT.RUNNING true b
    dueSync { b with acq := { b.acq with mark := b.time.ns / 2 ^ 30 } }

/-- A write of ACQ.RUN with RUN = 1 is rejected (R330). -/
def acqRunErrs (v : Word) (b : Blk) : List Nat := if v.bit 0 ∧ b.sys.mode = .shutdown then [2] else []

/-- An accepted write of ACQ.RUN waits for the next tick boundary (R330). -/
def acqRunDo (v : Word) (b : Blk) : Blk :=
  { setF Reg.ACQ.RUN.RUN (v.bits 0 1) b with acq := { b.acq with runReq := some (v.bit 0) } }

/-- A write of ACQ.RP is rejected (R331). -/
def acqRpErrs (v : Word) (b : Blk) : List Nat :=
  (if flag b Reg.ACQ.CFG.DRAIN then [3] else [])
    ++ (if acqUsed b < (v.bits 0 18 + 262144 - getF b Reg.ACQ.RP.RP) % 262144 then [1] else [])

/-- Writes that a running stream or a range forbids, by register offset (R344). -/
def acqErrs (off : Nat) (v : Word) (b : Blk) : List Nat :=
  let c := off % 128 / 4
  let lock := if 0x100 ≤ off ∧ off < 0x380 ∧ flag b Reg.ACQ.STAT.RUNNING then [3] else []
  lock ++ (
    if off = 0x48 then (if v.bits 0 14 < 1 ∨ 10000 < v.bits 0 14 then [1] else [])
    else if off = 0x4C then (if v.bits 0 17 < 128 ∨ 65536 < v.bits 0 17 then [1] else [])
    else if 0x100 ≤ off ∧ off < 0x180 then
      (if 12 ≤ v.bits 1 4 then [4] else [])
        ++ (if 24 < v.bits 15 5 ∨ (v.bits 12 2 ≠ 0 ∧ (v.bits 1 4 = 9 ∨ v.bits 1 4 = 10))
              ∨ (v.bits 1 4 = 11 ∧ 17 < getF b (Reg.ACQ.CH_SEL.E c) % 32) then [1] else [])
    else if 0x180 ≤ off ∧ off < 0x200 then
      (if 4607 < v.bits 0 13 ∨ (getF b (Reg.ACQ.CH_CFG.SRC c) = 11 ∧ 17 < v.bits 0 5) then [1] else [])
    else if 0x200 ≤ off ∧ off < 0x280 then
      (if v.bits 2 13 < 1 ∨ 4096 < v.bits 2 13 ∨ v.bits 15 13 < 1 ∨ v.bits 2 13 < v.bits 15 13 then [1] else [])
    else [])

/-- A channel that becomes enabled starts with no sample (R335), and an output code is taken from the next frame on where the channel
or its source is new. -/
def chanEnable (c : Nat) (v : Word) (b : Blk) : Blk :=
  let on := flag b (Reg.ACQ.CH_CFG.EN c)
  let x := if v.bit 0 && !on then ChanSt.reset else chanSt b c
  if on && v.bits 1 4 == getF b (Reg.ACQ.CH_CFG.SRC c) then b
  else setChan c { x with seen := 8 * b.tick + ceilDiv (16 * b.edge) 500 } b

/-- ACQ_FLUSH: FLUSH µs after its first sample's decision the DATA record of channel `c` is written (R325). -/
def acqFlush (c : Nat) (b : Blk) : Blk :=
  if (chanSt b c).part = [] then b
  else atQ (16 * (chanSt b c).partDec + 4000 * getF b Reg.ACQ.FLUSH.US) (fun b => flushData b c) b

/-- ACQ_FLUSH. -/
def execAcqFlush (c : Fin 32) (s : State) : Host.Outcome State Fault Refusal := .next { s with b := acqFlush c.val s.b }

/-- The GAP record of R327 for what was lost; where no sample was lost the two instants are open values.
(DESIGN CHOICE, log 60). -/
def putGap (b : Blk) : Blk :=
  let a := b.acq
  let f := takeFree b
  let g := takeFree f.2
  let b := if a.lostA.isSome then b else g.2
  let t0 := (a.lostA.map Prod.snd).getD f.1.toNat
  let t1 := (a.lostZ.map Prod.snd).getD g.1.toNat
  let b := putRec 3 [t0, t1, a.lostN, a.lostMask, a.heldLost, 0, 0] b
  incF Reg.ACQ.GAPS.GAPS { b with acq := { b.acq with lostA := none, lostZ := none, lostN := 0, lostMask := 0, heldLost := 0 } }

/-- ACQ_RESUME: the free space has reached RESUME and dropping ends (R332). (DEDUCED, log 63). -/
def acqResume (b : Blk) : Blk :=
  if flag b Reg.ACQ.STAT.DROPPING ∧ getF b Reg.ACQ.RESUME.REC ≤ 131072 - acqUsed b then
    let b := raise 1121 (putGap (setFlag Reg.ACQ.STAT.DROPPING false b))
    let held := b.acq.held
    let b := setF Reg.ACQ.STAT.HELD 0 { b with acq := { b.acq with held := [] } }
    putSync (held.foldl (fun b r => putRec r.1 r.2 b) b)
  else b

/-- ACQ_RESUME. -/
def execAcqResume (s : State) : Host.Outcome State Fault Refusal := .next { s with b := acqResume s.b }

/-- SYNC_RECORD: the clock runs on to the CLK_TICK edge at which the TIME32W count passes a multiple of 2^30, if it lies in
this tick, and the record is due (R328). -/
def syncRecord (b : Blk) : Blk :=
  if flag b Reg.ACQ.STAT.RUNNING = false ∨ b.sys.mode = .reset then b
  else if b.acq.mark ≠ b.time.ns / 2 ^ 30 then dueSync b
  else
    let goal := (b.time.ns / 2 ^ 30 + 1) * 2 ^ 30
    let n := ceilDiv (goal * 2 ^ 28 - (b.time.ns * 2 ^ 28 + b.time.frac)) (getF b Reg.TIME.INCR.INCR)
    if b.edge + n < 250 then dueSync (toEdge (b.edge + n) b) else b

/-- SYNC_RECORD. -/
def execSyncRecord (s : State) : Host.Outcome State Fault Refusal := .next { s with b := syncRecord s.b }

end Sys2Proof.Machine
end

