-- ==== Sys2Proof/Machine/Drive.lean ====
section
/-!
DEFINITION. Drive banks (R64 to R97) and the bias of the monitor pages (R98, R99): metering, tick transfers, spans,
release, clear, re-arm, host codes, launch shadows.
-/
set_option autoImplicit false

namespace Sys2Proof.Machine

/-! ### Names -/

/-- The source of drive event `i` of bank `n` (R96). -/
def drvSrc (n i : Nat) : Nat := 544 + 16 * n + i

/-- Some element in a list has a closed loop. -/
def anyClosed (b : Blk) (es : List Nat) : Bool := es.any fun e => closed b e

/-- The requested span of element `e` (R75). -/
def spanReq (b : Blk) (e : Nat) : Bool :=
  natBits (getF b (Reg.DRV.SPAN.SPAN (e / 256) (e % 256 / 32))) (e % 32) 1 == 1

/-- The listed elements of bank `n`. -/
def bankListed (b : Blk) (n : Nat) : List Nat := b.listed.filter fun e => bankOf e == n

/-! ### The end of a tick: modulators and meter (R65, R94, R95) -/

/-- Power in mW of a sum of live codes over a tick, at `v` mV on `r` tenths of an ohm (R94). (DEDUCED, log 33). -/
def outPower (sum v r : Nat) : Rat := ((sum * v * v : Nat) : Rat) / ((1638400000 * r : Nat) : Rat)

/-- The drive part of element `e` at the end of a tick: its 250 periods are complete, P_OUT and transitions are those of
the tick, and the counts start again. -/
def ElemDrv.endTick (v r : Nat) (d : ElemDrv) : ElemDrv :=
  let d := d.runTo 250
  { d with
    pTick := d.sum, pOut := (satU16 (ratRne (100 * outPower d.sum v r))).toNat, transLast := d.md.trans, sum := 0
    md := { d.md with trans := 0, done := 0, clamps := 0 } }

/-- The elements' modulators complete the tick; each saturation makes MOD_CLAMP of its bank due (R65, R96). -/
def endModulators (b : Blk) : List Nat × Blk :=
  b.listed.foldl (fun (s : List Nat × Blk) e =>
    let b := s.2
    let x := b.elem e
    let d := x.drv.runTo 250
    let v := getF b (Reg.DRV.RAIL_STAT.V_MEAS (bankOf e))
    (s.1 ++ List.replicate d.md.clamps (drvSrc (bankOf e) 7),
     setElem e { x with drv := d.endTick v (rHeater b.live e) } b)) ([], b)

/-- The metered power of bank `n` in the tick that ended (R94). (DEDUCED, log 33). -/
def bankPower (b : Blk) (n : Nat) : Rat :=
  (bankListed b n).foldl (fun p e =>
    p + outPower (b.elem e).drv.pTick (getF b (Reg.DRV.RAIL_STAT.V_MEAS n)) (rHeater b.live e)) 0

/-- MTR_TICK, MTR_PEAK and the millisecond's sum of every bank; the result carries the metered draw (R95).
(DEDUCED, log 33). -/
def meterBanks (b : Blk) : Blk × Rat :=
  (List.range 18).foldl (fun x n =>
    let p := bankPower x.1 n
    let w := (ratRne p).toNat
    let k := x.1.bank n
    let b := setF (Reg.DRV.MTR_TICK.P_TICK n) w x.1
    let b := setF (Reg.DRV.MTR_PEAK.P_PEAK n) (max w (getF b (Reg.DRV.MTR_PEAK.P_PEAK n))) b
    (setBank n { k with msSum := k.msSum + p, msN := k.msN + 1 } b, x.2 + p)) (b, 0)

/-- Limiting heater outputs in the tick that ended (R69): an episode that began raises HTR_ILIM; the raw bit follows. -/
def limitEpisodes (lim : List Nat) (b : Blk) : Blk :=
  let b := lim.foldl (fun b e =>
    if (b.elem e).drv.limiting then b
    else
      let n := bankOf e
      let b := updElem e (fun x => { x with drv := { x.drv with limiting := true } }) b
      raise (drvSrc n 0) (setRaw (drvSrc n 0) true
        (setF (Reg.DRV.STAT.ILIM_ROW n) (e % 256) (setFlag (Reg.DRV.STAT.ILIM_TRM n) false b)))) b
  let b := updElems (b.listed.filter fun e => decide (e ∉ lim)) (fun _ x => { x with drv := { x.drv with limiting := false } }) b
  (List.range 18).foldl (fun b n => setRaw (drvSrc n 0) ((bankListed b n).any fun e => (b.elem e).drv.limiting) b) b

/-! ### The boundary: rails, release, re-arm, spans, transfers -/

/-- A row's host code becomes its tick code (R93). -/
def hostRow (b : Blk) (n r : Nat) (x : Elem) : Elem :=
  { x with drv := { x.drv with htrTick := BitVec.ofNat 16 (getF b (Reg.DRV.HOST_CODE.HTR n r))
                               trmTick := BitVec.ofNat 16 (getF b (Reg.DRV.HOST_CODE.TRM n r)) } }

/-- Rows of bank `n` whose host codes replace their tick codes. -/
def hostRowsIn (n : Nat) (rows : List Nat) (b : Blk) : Blk :=
  updElems (rows.map fun r => 256 * n + r) (fun e x => hostRow b n (e % 256) x) b

/-- The span sequence of an output whose bank powers down at the boundary that begins tick `t` (R86): one in progress keeps
code 0 and ends in the 2.0 V span, and a 4.0 V span that no sequence leaves begins one. -/
def powerDownSeq (t : Nat) (d : ElemDrv) : Option SpanSeq :=
  match d.seq with
  | some q =>
    if q.switched && d.span then some { start := t, src := d.trmLive, kept := 0, switched := false }
    else some { q with kept := 0, src := if t ≤ q.start then d.trmLive else q.src }
  | none => if d.span then some { start := t, src := d.trmLive, kept := 0, switched := false } else none

/-- The bank returns to the power-up state: heater 0, trim 0, a 4.0 V span through its sequence (R85, R86). `t` is the
tick that begins. -/
def powerDownBank (t n : Nat) (b : Blk) : Blk :=
  let b := updElems (bankListed b n) (fun _ x =>
    let d := x.drv.setHtr 0 0
    let q := powerDownSeq t d
    { x with drv := { d with arm := false, seq := q, trmLive := if q.isNone then 0 else d.trmLive } }) b
  let k := b.bank n
  setRaw (drvSrc n 2) false
    (setBank n { k with released := false, powerDown := false, rearm := false, outN := 0, inN := 0, railCond := false } b)

/-- The bank is released (R85): its requested spans come into force, and in CALIBRATE its rows take the host codes. A
cleared bank drives its clear code. -/
def releaseBank (n : Nat) (b : Blk) : Blk :=
  let k := b.bank n
  let b := setBank n { k with released := true, outN := 0, inN := 0 } b
  let b := updElems ((bankElems n).filter fun e => spanReq b e != (b.elem e).drv.span) (fun _ x =>
    if x.drv.seq.any (fun q => !q.switched) then x else { x with drv := { x.drv with span := !x.drv.span } }) b
  let b := if k.cleared then updElems (bankElems n) (fun e x => clearElem b k.parkCode e x) b else b
  if b.sys.mode = .calibrate then hostRowsIn n k.hostRows b else b

/-- What a tick boundary does to bank `n` before the transfers: rail, power-down, release, re-arm, host codes (R71,
R85, R86, R89, R93). `t` is the tick that begins. (DEDUCED, log 89). -/
def bankBoundary (t n : Nat) (b : Blk) : Blk :=
  let k := b.bank n
  let b := setBank n { k with railLive := flag b (Reg.DRV.CFG.RAIL n) } b
  let b := if k.powerDown then powerDownBank t n b else b
  let b := if b.sys.leftIdle ∧ flag b (Reg.HDR.en n) ∧ (b.bank n).released = false then releaseBank n b else b
  let k := b.bank n
  let b := if k.rearm then
      let b := setBank n { k with cleared := false, rearm := false } b
      if b.sys.mode = .calibrate then hostRowsIn n k.hostRows b else b
    else b
  let k := b.bank n
  let b := if k.released ∧ k.cleared = false then hostRowsIn n k.hostPend b else b
  setBank n { b.bank n with hostPend := [] } b

/-- The tick transfer of one element at the boundary that begins tick `t` (R76, R80, R81). -/
def transferElem (b : Blk) (t e : Nat) (x : Elem) : Elem :=
  let k := b.bank (bankOf e)
  let d := x.drv
  let d := { d with seq := d.seq.map fun q =>
    if q.start = t ∧ k.released then { q with src := d.trmLive, kept := if k.cleared then q.kept else d.trmTick } else q }
  if k.released ∧ k.cleared = false ∧ d.skipTo < t then
    let d := d.setHtr 0 (limitHtr b e d.htrTick.toNat)
    match d.seq with
    | some q => if q.start ≤ t then { x with drv := { d with seq := some { q with kept := d.trmTick } } }
      else { x with drv := { d with trmLive := d.trmTick } }
    | none => { x with drv := { d with trmLive := d.trmTick } }
  else { x with drv := d }

/-- The tick transfers of every element. -/
def transfers (t : Nat) (b : Blk) : Blk := updElems b.listed (fun e x => transferElem b t e x) b

/-- The bias supply of page `n` at the boundary that begins tick `t`: the selection comes into force, a supply that was not
in limit in the ended tick leaves its limit, and out of limit BIAS_STAT shows the voltage selected, 0.50, 1.50 or 2.50 V
(R98 to R100). (DEDUCED, log 21; DESIGN CHOICE, log 122). -/
def biasBoundary (t n : Nat) (b : Blk) : Blk :=
  let sel := getF b (Reg.SNS.CFG.PD_BIAS n)
  let b := { b with biasLive := b.biasLive.set 1 n sel }
  if t ≤ b.biasSeen.get 0 n then b
  else setRaw (832 + 7 * n + 4) false
    (setFlag (Reg.SNS.BIAS_STAT.LIMIT n) false (setF (Reg.SNS.BIAS_STAT.V_BIAS n) (500 + 1000 * sel) b))

/-- The drive banks and bias supplies at a tick boundary (R71, R76, R80, R85, R86, R89, R93, R99). -/
def driveBoundary (t : Nat) (b : Blk) : Blk :=
  let b := (List.range 18).foldl (fun b n => bankBoundary t n b) b
  let b := (List.range 9).foldl (fun b n => biasBoundary t n b) b
  transfers t b

/-! ### Commands that are no register writes -/

/-- TRM_ILIM (R74). -/
def trmIlim (e : Nat) (b : Blk) : Blk :=
  if b.sys.mode = .reset then b
  else
    let n := bankOf e
    raise (drvSrc n 1) (setF (Reg.DRV.STAT.ILIM_ROW n) (e % 256) (setFlag (Reg.DRV.STAT.ILIM_TRM n) true b))

/-- TRM_ILIM. -/
def execTrmIlim (e : Fin 4608) (s : State) : Host.Outcome State Fault Refusal := .next { s with b := trmIlim e s.b }

/-- SPAN_SWITCH (R76): one tick into a span sequence the code is 0 and the span changes to the one requested; a bank in
the power-up state goes to the 2.0 V span (R85), and an output under a clear keeps its clear code (R87).
(DESIGN CHOICE, log 123). -/
def spanSwitch (e : Nat) (b : Blk) : Blk :=
  match (b.elem e).drv.seq with
  | some q =>
    if q.start + 1 ≤ b.tick ∧ q.switched = false then
      let k := b.bank (bankOf e)
      updElem e (fun x => { x with drv := { x.drv with
        span := k.released && spanReq b e, old := outsTo b b.q e x, trmLive := if k.released && k.cleared then x.drv.trmLive else 0
        seq := some { q with switched := true } } }) b
    else b
  | none => b

/-- SPAN_SWITCH. -/
def execSpanSwitch (e : Fin 4608) (s : State) : Host.Outcome State Fault Refusal := .next { s with b := spanSwitch e s.b }

/-- The elements of bank `n` whose span sequences have reached T + 2 µs. (DEDUCED, log 34). -/
def spanDone (b : Blk) (n : Nat) : List Nat :=
  (bankListed b n).filter fun e => (b.elem e).drv.seq.any fun q => q.switched && decide (q.start + 2 ≤ b.tick)

/-- SPAN_SEQUENCE_DONE (R76): the kept codes are applied in the new span and SPAN_DONE is raised. -/
def spanSequenceDone (n : Nat) (b : Blk) : Blk :=
  let es := spanDone b n
  if es = [] then b
  else raise (drvSrc n 6) (updElems es (fun e x =>
    match x.drv.seq with
    | some q => { x with drv := { x.drv with trmLive := q.kept, old := outsTo b b.q e x, seq := none } }
    | none => x) b)

/-- SPAN_SEQUENCE_DONE. -/
def execSpanSequenceDone (n : Fin 18) (s : State) : Host.Outcome State Fault Refusal :=
  .next { s with b := spanSequenceDone n s.b }

/-- CLR_N_ASSERT: an accepted assertion of CLR_N (R87, R90, R96, R371). -/
def clrNAssert (b : Blk) : Blk :=
  if b.sys.mode = .reset ∨ b.sys.clrLow then b
  else
    let b := clearBanks { b with sys := { b.sys with clrLow := true } }
    let b := (List.range 18).foldl (fun b n => incF (Reg.DRV.STAT.CHATTER n) b) (lifeAdd 12 1 b)
    raiseAll (clearedSources ++ [1126]) b

/-- CLR_N_ASSERT. -/
def execClrNAssert (s : State) : Host.Outcome State Fault Refusal := .next { s with b := clrNAssert s.b }

/-- CLR_N_RELEASE: the filtered CLR_N is high again; the banks stay cleared (R89, R90). -/
def clrNRelease (b : Blk) : Blk := { b with sys := { b.sys with clrLow := false } }

/-- CLR_N_RELEASE. -/
def execClrNRelease (s : State) : Host.Outcome State Fault Refusal := .next { s with b := clrNRelease s.b }

/-! ### Register writes of the DRV and SNS pages: why one is rejected, and what one does -/

/-- DRV.CFG (R71). -/
def drvCfgErrs (n : Nat) (v : Word) (b : Blk) : List Nat :=
  if v.bit 0 ≠ flag b (Reg.DRV.CFG.RAIL n) ∧ bankClosed b n then [0x13] else []

/-- An accepted DRV.CFG (R97). With DITH_EN 0 the trim outputs of the bank carry no dither throughout this tick (R79, R121). -/
def drvCfgDo (n : Nat) (v : Word) (b : Blk) : Blk :=
  let b := setF (Reg.DRV.CFG.DITH_EN n) (v.bits 2 1) (setF (Reg.DRV.CFG.CLR_MODE n) (v.bits 1 1)
    (setF (Reg.DRV.CFG.RAIL n) (v.bits 0 1) b))
  if v.bit 2 then b else updElems (bankListed b n) (fun _ x => { x with sns := { x.sns with dithNow := false } }) b

/-- DRV.SPANn (R75). -/
def spanErrs (n i : Nat) (v : Word) (b : Blk) : List Nat :=
  let es := (List.range 32).filterMap fun j =>
    if v.bit j ≠ (natBits (getF b (Reg.DRV.SPAN.SPAN n i)) j 1 == 1) then some (256 * n + 32 * i + j) else none
  (if anyClosed b es then [0x13] else []) ++ (if es ≠ [] ∧ (b.bank n).cleared then [2] else [])
    ++ (if es.any (fun e => (b.elem e).drv.seq.isSome) then [3] else [])

/-- An accepted DRV.SPANn: every element of a released bank whose bit changes starts its sequence at the next boundary
(R75, R76). -/
def spanDo (n i : Nat) (v : Word) (b : Blk) : Blk :=
  let es := (List.range 32).filterMap fun j =>
    if v.bit j ≠ (natBits (getF b (Reg.DRV.SPAN.SPAN n i)) j 1 == 1) then some (256 * n + 32 * i + j) else none
  let b := setF (Reg.DRV.SPAN.SPAN n i) v.toNat b
  if (b.bank n).released then
    updElems es (fun _ x => { x with drv := { x.drv with
      seq := some { start := b.tick + 1, src := x.drv.trmLive, kept := x.drv.trmTick, switched := false } } }) b
  else b

/-- DRV.CTRL.EN (R86). -/
def drvEnErrs (n : Nat) (v : Word) (b : Blk) : List Nat :=
  if v.bit 0 = false ∧ (b.bank n).released ∧ bankClosed b n then [0x13] else []

/-- An accepted DRV.CTRL (R85, R86). A 1 written before the boundary of a power-down cancels it. (DESIGN CHOICE, log 124). -/
def drvEnDo (n : Nat) (v : Word) (b : Blk) : Blk :=
  setBank n { b.bank n with powerDown := (b.bank n).released && !v.bit 0 } (setF (Reg.HDR.en n) (v.bits 0 1) b)

/-- DRV.CLR.REARM (R89). -/
def rearmErrs (v : Word) (b : Blk) : List Nat :=
  if v.bit 0 then
    (if b.sys.mode ∈ [Mode.idle, .calibrate, .openHold] then [] else [2]) ++ (if b.sys.clrLow then [3] else [])
  else []

/-- An accepted REARM releases the clear at the next boundary (R89). -/
def rearmDo (n : Nat) (v : Word) (b : Blk) : Blk :=
  if v.bit 0 then setBank n { b.bank n with rearm := (b.bank n).cleared } b else b

/-- MTR_PEAK.CLEAR (R95, R97). -/
def mtrPeakDo (n : Nat) (v : Word) (b : Blk) : Blk := if v.bit 31 then setF (Reg.DRV.MTR_PEAK.P_PEAK n) 0 b else b

/-- HOST_CODE (R93). -/
def hostCodeErrs (b : Blk) : List Nat := if b.sys.mode = .calibrate then [] else [2]

/-- An accepted host code: stored, and a released, uncleared bank takes it at the next boundary (R93).
(DEDUCED, log 89). -/
def hostCodeDo (n r : Nat) (v : Word) (b : Blk) : Blk :=
  let b := setF (Reg.DRV.HOST_CODE.TRM n r) (v.bits 16 16) (setF (Reg.DRV.HOST_CODE.HTR n r) (v.bits 0 16) b)
  let k := b.bank n
  let add := fun (l : List Nat) => if r ∈ l then l else r :: l
  setBank n { k with hostRows := add k.hostRows
                     hostPend := if k.released ∧ k.cleared = false then add k.hostPend else k.hostPend } b

/-- LAUNCH and ARM windows (R82). -/
def launchShadowErrs (m : Master) : List Nat := if m = .m2 ∨ m = .m3 then [] else [3]

/-- An accepted write of the launch shadow of row `r` (R82). -/
def launchShadowDo (n r : Nat) (v : Word) (b : Blk) : Blk :=
  updElem (256 * n + r) (fun x => { x with drv := { x.drv with
    htrSh := BitVec.ofNat 16 (v.bits 0 16), trmSh := BitVec.ofNat 16 (v.bits 16 16) } }) b

/-- An accepted write of ARM word `i` (R82). -/
def armDo (n i : Nat) (v : Word) (b : Blk) : Blk :=
  updElems ((List.range 32).map fun j => 256 * n + 32 * i + j)
    (fun e x => { x with drv := { x.drv with arm := v.bit (e % 32) } }) b

/-- SNS.CFG (R98, R99, R128). -/
def snsCfgErrs (n : Nat) (v : Word) (b : Blk) : List Nat :=
  (if v.bits 0 2 = 3 ∨ v.bits 3 2 = 3 then [4] else [])
    ++ (if v.bits 0 2 ≠ getF b (Reg.SNS.CFG.PD_BIAS n) ∧ (bankClosed b (2 * n) ∨ bankClosed b (2 * n + 1)) then [0x13] else [])

/-- SNS.FIRST.CLEAR (R128). -/
def snsFirstDo (n : Nat) (v : Word) (b : Blk) : Blk :=
  if v.bit 31 then setF (Reg.SNS.FIRST.CAUSE n) 0 (setF (Reg.SNS.FIRST.INPUT n) 0 b) else b

end Sys2Proof.Machine
end

