-- ==== Sys2Proof/Machine/Redund.lean ====
section
/-!
DEFINITION. Engine checking and redundancy (R358 to R366): windows, comparison, confirmation, self-test, migration.
-/
set_option autoImplicit false

namespace Sys2Proof.Machine

/-- ENGe.SERVE.SERVING. -/
def serving (b : Blk) (e : Nat) : Bool := getF b (Fld.mk' (0x20 + e) 0x44 6 1 (if e < 64 then 1 else 0)) == 1

/-- ENGe.HEALTH.FAILED. -/
def failedEng (b : Blk) (e : Nat) : Bool := flag b (Reg.ENG.HEALTH.FAILED e)

/-- The engine is one of the two standbys of a confirmation, or its serving engine. -/
def confirming (b : Blk) (e : Nat) : Bool :=
  b.red.confirm.any fun c => c.serving == e || c.s1 == e || c.s2 == e

/-- An available standby: not serving, not FAILED, not in a confirmation (R358), and not about to serve (R365). -/
def availableEng (b : Blk) (e : Nat) : Bool :=
  !serving b e && !failedEng b e && !confirming b e && !b.red.migr.any (fun m => m.dest == e)

/-- The available standbys, ascending. -/
def standbys (b : Blk) : List Nat := (List.range 68).filter fun e => availableEng b e

/-- ENG0.POOL. -/
def showPool (b : Blk) : Blk :=
  setF Reg.ENG.POOL.AVAIL (standbys b).length
    (setF Reg.ENG.POOL.FAILED ((List.range 68).filter fun e => failedEng b e).length b)

/-- Bookkeeping of engine `e`. -/
def engRt (b : Blk) (e : Nat) : EngRt := b.red.engs.get EngRt.reset e

/-- Bookkeeping of engine `e` replaced. -/
def setEngRt (e : Nat) (r : EngRt) (b : Blk) : Blk :=
  { b with red := { b.red with engs := b.red.engs.set EngRt.reset e r } }

/-- CHK_STAT of engine `e`. -/
def setRole (e role of : Nat) (copy : Bool) (b : Blk) : Blk :=
  setFlag (Reg.ENG.CHK_STAT.COPY e) copy (setF (Reg.ENG.CHK_STAT.OF e) of (setF (Reg.ENG.CHK_STAT.ROLE e) role b))

/-- The role of engine `e`: 0 SERVING, 1 SELF_TEST, 2 SHADOW, 3 CONFIRM, 4 FAILED. -/
def roleOf (b : Blk) (e : Nat) : Nat := getF b (Reg.ENG.CHK_STAT.ROLE e)

/-- Engine `e` starts a copy phase at the boundary that begins tick `t` (R359). -/
def startCopy (e role of t lone : Nat) (b : Blk) : Blk :=
  setRole e role of true (setEngRt e { engRt b e with t0 := t, lone := lone } b)

/-- Engine `e` goes back to self-test. -/
def toSelfTest (e : Nat) (b : Blk) : Blk := setRole e 1 0 false (setEngRt e { engRt b e with lone := 0 } b)

/-- Engine `e` becomes FAILED with a cause of HEALTH; a standby that fails leaves a KIND 5 record (R361, R364, R369). -/
def failEngine (e cause : Nat) (b : Blk) : Blk :=
  let standby := !serving b e
  let b := setRole e 4 0 false (setF (Reg.ENG.HEALTH.CAUSE e) cause (setFlag (Reg.ENG.HEALTH.FAILED e) true b))
  let b := lifeAdd 10 1 b
  let b := if standby then nvmRecord 5 (8 * e + 5) (evGet b (8 * e + 5)).cls (e + cause * 128) b else b
  showPool (raise (8 * e + 5) b)

/-- A migration of logical engine `l` joins those that wait for the boundary that ends tick `t` (R363). -/
def queueMigration (l dest t cause : Nat) (b : Blk) : Blk :=
  { b with red := { b.red with migr := b.red.migr ++ [{ logical := l, dest := dest, tick := t, cause := cause }] } }

/-- The logical engine whose elements engine `e` serves. -/
def logicalOf (b : Blk) (e : Nat) : Nat := getF b (Fld.mk' (0x20 + e) 0x44 0 6 (if e < 64 then e else 0))

/-- The standbys of the confirmations of serving engine `g`, which end with a migration, go back to self-test, but for the
one that serves from now on (R361, R364). -/
def releaseStandbys (g dest : Nat) (b : Blk) : Blk :=
  ((b.red.confirm.filter fun c => c.serving == g).flatMap fun c => [c.s1, c.s2]).foldl (fun b e =>
    if e = dest ∨ failedEng b e ∨ serving b e then b else toSelfTest e b) b

/-- A migration takes effect (R363): SERVE, roles, MIGRATED, the ENG_MIGRATE record and STANDBY_EXHAUSTED. -/
def migrate (m : Migration) (b : Blk) : Blk :=
  let old := serverOf b m.logical
  let b := releaseStandbys (old.getD 68) m.dest b
  let b := match old with
    | some o =>
      let b := setF (Fld.mk' (0x20 + o) 0x44 6 1 (if o < 64 then 1 else 0)) 0 b
      if failedEng b o then b else toSelfTest o b
    | none => b
  let b := setF (Fld.mk' (0x20 + m.dest) 0x44 6 1 (if m.dest < 64 then 1 else 0)) 1
    (setF (Fld.mk' (0x20 + m.dest) 0x44 0 6 (if m.dest < 64 then m.dest else 0)) m.logical b)
  let b := setRole m.dest 0 0 false (setEngRt m.dest { engRt b m.dest with lone := 0 } b)
  let b := { b with red := { b.red with
    migr := b.red.migr.filter (fun x => x.dest != m.dest)
    confirm := b.red.confirm.filter fun c => c.serving != old.getD 68 } }
  let b := nvmRecord 4 (8 * m.dest + 6) (evGet b (8 * m.dest + 6)).cls
    (old.getD 0 + m.dest * 128 + m.logical * 16384 + m.cause * 1048576) b
  let b := raise (8 * m.dest + 6) b
  let b := raiseIf (standbys b).isEmpty 1128 b
  showPool b

/-- The standbys of a confirmation that ends go back to self-test (R361). -/
def endConfirm (c : Confirm) (b : Blk) : Blk :=
  let b := { b with red := { b.red with confirm := b.red.confirm.filter fun x => x != c } }
  showPool ([c.s1, c.s2].foldl (fun b e => if failedEng b e || serving b e then b else toSelfTest e b) b)

/-- MIS_LAST and CHK_CNT of one engine of a mismatch (R360, R381). -/
def recordMismatch (e other slot what wtick : Nat) (b : Blk) : Blk :=
  incF (Reg.ENG.CHK_CNT.MISMATCH e) (setF (Reg.ENG.MIS_LAST.OTHER e) other (setF (Reg.ENG.MIS_LAST.WTICK e) wtick
    (setF (Reg.ENG.MIS_LAST.WHAT e) what (setF (Reg.ENG.MIS_LAST.SLOT e) slot b))))

/-- What differs between two results of a slot, as MIS_LAST.WHAT codes it, the lowest code first: 0 a tick code, 1 a memory
write, 2 ESTAT.STATE (R360, R381). (DEDUCED, log 128). -/
def SlotRes.what (x y : SlotRes) : Option Nat :=
  if x.codes ≠ y.codes then some 0 else if x.writes ≠ y.writes then some 1 else if x.state ≠ y.state then some 2 else none

/-- A mismatch `what` of serving engine `g` and standby `n` in slot `s` (R360 to R362): a confirmation starts where another
standby is available and neither engine is in one. (DEDUCED, log 31). -/
def mismatch (g n s what : Nat) (b : Blk) : Blk :=
  let w := (b.tick - (engRt b n).t0) % 1000
  let b := recordMismatch g n s what w (recordMismatch n g s what w (raise (8 * g + 4) b))
  if (engRt b n).lone = 2 then
    if b.red.migr.any fun m => m.dest == n then b else queueMigration (logicalOf b g) n b.tick 1 (failEngine g 1 b)
  else if confirming b g || confirming b n then b
  else
    match (standbys b).find? fun e => e != n with
    | some k =>
      let c : Confirm := { serving := g, s1 := min n k, s2 := max n k, start := b.tick + 1, decided := false }
      showPool { b with red := { b.red with confirm := b.red.confirm ++ [c] } }
    | none => setEngRt n { engRt b n with lone := 1, segment := 0 } (setF (Reg.ENG.CHK_STAT.ROLE n) 1 b)

/-- ENG_FLIP is armed for slot `s` of engine `g` (R382). -/
def flipArmed (b : Blk) (g s : Nat) : Bool :=
  flag b Reg.FTEST.ENG_FLIP.GO && getF b Reg.FTEST.ENG_FLIP.ENGINE == g && getF b Reg.FTEST.ENG_FLIP.SLOT == s

/-- A slot's result on engine `g`, its heater code with an armed ENG_FLIP (R374, R382). -/
def flipRes (b : Blk) (g s : Nat) (r : SlotRes) : SlotRes :=
  if flipArmed b g s then
    { r with codes := r.codes.map fun c => (c.1 ^^^ BitVec.ofNat 16 (2 ^ getF b Reg.FTEST.ENG_FLIP.BIT), c.2) }
  else r

/-- The injection has acted on a slot that gave codes. (DEDUCED, log 31). -/
def flipDone (r : SlotRes) (b : Blk) (g s : Nat) : Blk :=
  if flipArmed b g s && r.codes.isSome then setFlag Reg.FTEST.ENG_FLIP.GO false b else b

/-- The standby that compares with serving engine `g` in this tick, if there is one (R359). (DEDUCED, log 31). -/
def comparer (b : Blk) (g : Nat) : Option Nat :=
  (List.range 68).find? fun n => roleOf b n == 2 && getF b (Reg.ENG.CHK_STAT.OF n) == g && !flag b (Reg.ENG.CHK_STAT.COPY n)
    && !serving b n

/-- A confirmation in which slots of serving engine `g` are voted now (R361). -/
def votes (b : Blk) (g : Nat) : Option Confirm :=
  b.red.confirm.find? fun c => c.serving == g && roleOf b c.s1 == 3 && !flag b (Reg.ENG.CHK_STAT.COPY c.s1)

/-- The standbys that run the slots of serving engine `g` beside it, comparing or voting (R359, R361). -/
def copiers (b : Blk) (g : Nat) : List Nat :=
  match votes b g with
  | some c => [c.s1, c.s2]
  | none => (comparer b g).toList

/-- The vote of slot `s` on the results of serving engine `g` and the two standbys: the result that stands, and what follows
(R361). Once the serving engine is outvoted, the slots that are left in the tick are voted, with no further action. -/
def vote (g s : Nat) (c : Confirm) (r : SlotRes) (b : Blk) : SlotRes × Blk :=
  let rg := flipRes b g s r
  let r1 := flipRes b c.s1 s r
  let r2 := flipRes b c.s2 s r
  let b := flipDone r (flipDone r (flipDone r b g s) c.s1 s) c.s2 s
  if c.decided then (if r1 = r2 then r1 else rg, b)
  else if rg = r1 ∧ rg = r2 then (rg, b)
  else if r1 = r2 then
    let b := { b with red := { b.red with confirm := b.red.confirm.map fun x => if x = c then { c with decided := true } else x } }
    (r1, queueMigration (logicalOf b g) c.s1 b.tick 0 (failEngine g 1 b))
  else if rg = r2 then (rg, endConfirm c (failEngine c.s1 1 b))
  else if rg = r1 then (rg, endConfirm c (failEngine c.s2 1 b))
  else (rg, raise 1129 (endConfirm c b))

/-- What slot `s` of serving engine `g` computed, checked against the engines that run the same slot: the result that stands,
and what the check finds (R360, R361). A standby computes the same result but for an injected fault.
(DEDUCED, log 31). -/
def checkSlot (g s : Nat) (r : SlotRes) (b : Blk) : SlotRes × Blk :=
  match votes b g with
  | some c => vote g s c r b
  | none =>
    let rg := flipRes b g s r
    match comparer b g with
    | some n =>
      let rn := flipRes b n s r
      let b := flipDone r (flipDone r b g s) n s
      match rg.what rn with
      | none => (rg, b)
      | some w => (rg, mismatch g n s w b)
    | none => (rg, flipDone r b g s)

/-! ### The commands of checking -/

/-- What passes only while the clock runs. -/
def running (b : Blk) : Bool := b.sys.mode != .reset

/-- CHECK_WINDOW_START: at every 1,000th tick the windows that ran end and the available standbys take their logical
engines, where rotation is enabled (R358). -/
def checkWindowStart (b : Blk) : Blk :=
  if b.tick % 1000 = 0 ∧ b.red.wnd ≠ b.tick + 1 ∧ running b then
    let w := b.tick / 1000
    let b := (standbys b).foldl (fun b n =>
      if roleOf b n = 2 ∧ (engRt b n).lone = 0 then
        let g := getF b (Reg.ENG.CHK_STAT.OF n)
        let b := if flag b (Reg.ENG.CHK_STAT.COPY n) then b
          else incF (Reg.ENG.CHK_CNT.WINDOWS n) (incF (Reg.ENG.CHK_CNT.WINDOWS g) b)
        toSelfTest n b
      else b) b
    let b := { b with red := { b.red with wnd := b.tick + 1 } }
    if flag b Reg.ENG.CHK_CFG.ROT_EN then
      let av := standbys b
      av.zipIdx.foldl (fun b x =>
        if (engRt b x.1).lone = 0 then
          (match serverOf b ((av.length * w + x.2) % 64) with
          | some g => startCopy x.1 2 g b.tick 0 b
          | none => b)
        else b) b
    else b
  else b

/-- CHECK_WINDOW_START. -/
def execCheckWindowStart (s : State) : Host.Outcome State Fault Refusal := .next { s with b := checkWindowStart s.b }

/-- COMPARE_PHASE_START: every copy phase that has run nine ticks ends (R359, R361, R362). -/
def comparePhaseStart (b : Blk) : Blk :=
  if running b then
    (List.range 68).foldl (fun b n =>
      if flag b (Reg.ENG.CHK_STAT.COPY n) ∧ (engRt b n).t0 + 9 ≤ b.tick then setFlag (Reg.ENG.CHK_STAT.COPY n) false b
      else b) b
  else b

/-- COMPARE_PHASE_START. -/
def execComparePhaseStart (s : State) : Host.Outcome State Fault Refusal := .next { s with b := comparePhaseStart s.b }

/-- CONFIRMATION_START: from the boundary after the mismatch both standbys copy from the serving engine (R361). -/
def confirmationStart (b : Blk) : Blk :=
  b.red.confirm.foldl (fun b c =>
    if c.start ≤ b.tick ∧ roleOf b c.s1 ≠ 3 ∧ running b then
      startCopy c.s1 3 c.serving b.tick 0 (startCopy c.s2 3 c.serving b.tick 0 b)
    else b) b

/-- CONFIRMATION_START. -/
def execConfirmationStart (s : State) : Host.Outcome State Fault Refusal := .next { s with b := confirmationStart s.b }

/-- CONFIRMATION_END: CONFIRM ticks of voting, or of the compare of R362, have passed without difference, so the
mismatch counts as transient (R361, R362). -/
def confirmationEnd (b : Blk) : Blk :=
  let n := getF b Reg.ENG.CHK_CFG.CONFIRM
  let b := b.red.confirm.foldl (fun b c =>
    if roleOf b c.s1 = 3 ∧ c.decided = false ∧ (engRt b c.s1).t0 + 9 + n ≤ b.tick then endConfirm c b else b) b
  (List.range 68).foldl (fun b e =>
    let r := engRt b e
    if r.lone = 2 ∧ r.t0 + 9 + n ≤ b.tick ∧ serving b e = false ∧ failedEng b e = false
        ∧ b.red.migr.any (fun m => m.dest == e) = false then toSelfTest e b else b) b

/-- CONFIRMATION_END. -/
def execConfirmationEnd (s : State) : Host.Outcome State Fault Refusal := .next { s with b := confirmationEnd s.b }

/-- The engine runs self-test in its slots: a standby in self-test, or in the copy phase of a shadow window (R359, R364). -/
def selfTesting (b : Blk) (e : Nat) : Bool :=
  !serving b e && !failedEng b e && (roleOf b e == 1 || (roleOf b e == 2 && flag b (Reg.ENG.CHK_STAT.COPY e)))

/-- SELFTEST_SEGMENT_END: the signature of a nine-tick segment agrees with the ROM value or not; an armed ST_FAIL makes
the segment fail (R364, R362, R382). (DESIGN CHOICE, log 32). -/
def selftestSegmentEnd (e : Nat) (agree : Bool) (b : Blk) : Blk :=
  if selfTesting b e ∧ running b then
    let r := engRt b e
    let inj := flag b Reg.FTEST.ST_FAIL.GO && getF b Reg.FTEST.ST_FAIL.STANDBY + 64 == e
    let b := if inj then setFlag Reg.FTEST.ST_FAIL.GO false b else b
    if agree && !inj then
      let b := setF (Reg.ENG.SIG.SIG e) (Config.selfTestSig e r.segment).toNat b
      if r.segment = 63 then
        let b := incF (Reg.ENG.HEALTH.PASSES e) (setEngRt e { r with segment := 0, failRun := 0 } b)
        if r.lone = 1 then startCopy e 2 (getF b (Reg.ENG.CHK_STAT.OF e)) b.tick 2 b else b
      else setEngRt e { r with segment := r.segment + 1, failRun := 0 } b
    else
      let v := takeFree b
      let b := setF (Reg.ENG.SIG.SIG e) v.1.toNat (setF (Reg.ENG.HEALTH.SEGMENT e) r.segment v.2)
      if r.failRun = 0 then setEngRt e { r with failRun := 1 } b
      else failEngine e 2 (setEngRt e { r with failRun := 0, lone := 0 } b)
  else b

/-- SELFTEST_SEGMENT_END. -/
def execSelftestSegmentEnd (e : Fin 68) (agree : Bool) (s : State) : Host.Outcome State Fault Refusal :=
  .next { s with b := selftestSegmentEnd e agree s.b }

/-- The failing codes of a write of ENG0.CHK_MIGRATE (R365). -/
def chkMigrateErrs (v : Word) (b : Blk) : List Nat :=
  if v.bit 31 then
    (if b.sys.mode ∈ [Mode.reset, .boot, .safe, .shutdown] then [2] else [])
      ++ (if (standbys b).isEmpty ∨ b.red.confirm.any (fun c => logicalOf b c.serving == v.bits 0 6) then [3] else [])
  else []

/-- An accepted ENG0.CHK_MIGRATE.GO: the lowest-numbered available standby copies for nine ticks and then serves
(R365). -/
def chkMigrateDo (v : Word) (b : Blk) : Blk :=
  match v.bit 31, (standbys b).head? with
  | true, some n =>
    let b := startCopy n 2 ((serverOf b (v.bits 0 6)).getD 0) (b.tick + 1) 0 b
    showPool (queueMigration (v.bits 0 6) n (b.tick + 9) 2 b)
  | _, _ => b

end Sys2Proof.Machine
end

