-- ==== Sys2Proof/WellFormed.lean ====
section
/-!
DEFINITION. What the spec demands of a command's operands beyond their types: the fields that a syllable must hold
at 0 and the ranges of the program check (R182, R183, R194, R204), the beats of a burst (R398), the words of a ring entry (R424),
the codes of PCIE.LINK (R449), and the lengths of what comes from outside.
-/
set_option autoImplicit false

namespace Sys2Proof

/-- The dual-MAC syllable `k` exists on the engine: M3 only on a planner engine (R180, R204). -/
def Eng.hasMac (u : Eng) (k : Fin 4) : Bool :=
  match u with
  | .slot _ => decide (k.val < 3)
  | .planner _ => true

/-- The engine is a loop engine's slot. -/
def Eng.isSlot : Eng → Bool
  | .slot _ => true
  | .planner _ => false

/-- X and Y name accumulators or pointers: their high bits are 0 (R182). -/
def MacLane.low (x y : Bool) (l : MacLane) : Bool :=
  (!x || decide (l.x.val < 8)) && (!y || decide (l.y.val < 8))

/-- A burst has 1 to 32 beats and was cut before its last, and a target grants one burst at a time (R398, R403, R410). -/
def MstReset.wf (x : MstReset) : Bool :=
  x.bursts.all (fun r => decide (1 ≤ r.beats ∧ r.beats ≤ 32 ∧ r.done < r.beats)) && decide (x.bursts.map Burst.target).Nodup

/-- A word of a memory that SECDED protects (R411, R418). -/
def EccWord.wf (w : EccWord) : Bool := decide (w.mem.val ∈ [1, 2, 3, 4, 5, 6, 10, 11, 12])

/-- The operands of a command are ones that the spec lets it carry. -/
def Instr.wf : Instr → Bool
  | .nop u k md a c => u.hasMac k && decide (md = 0) && decide (a = ⟨0, 0, 0⟩) && decide (c = ⟨0, 0, 0⟩)
  | .mac u k _ _ _ | .msu u k _ _ _ | .mul u k _ _ _ => u.hasMac k
  | .mova u k _ a c | .addx u k _ a c => u.hasMac k && decide (a.y = 0) && decide (c.y = 0)
  | .aop u k _ a c => u.hasMac k && a.low true false && c.low true false && decide (a.y = 0) && decide (c.y = 0)
  | .sha u k md a c => u.hasMac k && decide (md.toNat < 2) && a.low true false && c.low true false
  | .ftapm u k _ a c | .cmpsel u k _ a c => u.hasMac k && a.low true true && c.low true true
  | .clamp u k md a c => u.hasMac k && decide (md = 0) && a.low true true && c.low true true
  | .norm u k md a c => u.hasMac k && decide (md = 0) && a.low true false && c.low true false
  | .rcp u k md a c => u.hasMac k && decide (md = 0) && decide (a.y = 0) && decide (c.y = 0)
  | .satd u k _ a c => u.hasMac k && decide (a.x = 0) && decide (c.x = 0)
  | .ldw _ d _ _ | .stw _ d _ _ => decide (d.val % 2 = 0)
  | .ldv _ d _ _ | .stv _ d _ _ => decide (d.val % 8 = 0)
  | .stS _ _ sh _ _ _ _ _ _ => decide (sh.val ≤ 24)
  | .skip _ f neg n alw => decide (1 ≤ n.val ∧ n.val ≤ 12) && (!alw || (decide (f = 0) && !neg))
  | .out u _ _ => u.isSlot
  | .rep u n c => !u.isSlot && decide (1 ≤ n.val) && decide (1 ≤ c.val)
  | .registerWrite _ (.bus _) ws => decide (1 ≤ ws.length ∧ ws.length ≤ 128)
  | .registerWrite m (.config _) ws => decide (m = .m0 ∧ ws.length = 1)
  | .tableWrite _ _ bytes | .contextWrite _ _ bytes => decide (1 ≤ bytes.length ∧ bytes.length ≤ 512)
  | .nowNsRead x => decide (1 ≤ x.len ∧ x.len ≤ 512)
  | .cmdEntryFetch x => decide (x.entry.length = 4)
  | .pcieLinkUp speed width => decide (1 ≤ speed.toNat ∧ speed.toNat ≤ 4 ∧ width.toNat ∈ [1, 2, 4])
  | .housekeepingRound x => decide (x.diodes.length = 24 ∧ x.rtds.length = 64 ∧ x.supplies.length = 40)
  | .modeReqOther c => decide (c.toNat ∉ [2, 3, 4, 5, 9])
  | .idCell x | .statusCell x | .frameCell x | .states x | .nochange x | .ready x | .commitCell x | .abortCell x
  | .summary x | .eventCell x | .ledger x | .ctrlPauseClr x | .trigArm x | .trigFire x => decide (x.ws.length = 10)
  | .ethLinkLoss _ x | .ethCfgWrite _ _ x | .pcieLinkDown x | .pcieHotReset x | .functionLevelReset x
  | .bitLockLoss _ x => x.wf
  | .glewCfgWrite x => x.reset.wf
  | .cellCrc x _ => decide (x.cell.ws.length = 10) && x.reset.wf
  | .bootComplete x => x.m6.wf
  | .scrubPass x => x.single.all EccWord.wf && x.double.all EccWord.wf
  | .timeCell x => decide (x.w.length = 8)
  | _ => true

end Sys2Proof
end

