-- ==== Sys2Proof/Machine/Engine.lean ====
section
/-!
DEFINITION. The loop and planner engines' instruction set (R166 to R192, R204): every syllable as the writes it makes,
the writes of one bundle carried out in the order of R192, and each syllable of the table as a command.
-/
set_option autoImplicit false

namespace Sys2Proof.Machine

/-- A write that a syllable makes (R192). -/
inductive Wr where
  | d (i : Nat) (v : Half)
  | a (i : Nat) (v : Int)
  | f (i : Nat) (v : Bool)
  | p (i v : Nat)
  | b (i v : Nat)
  | l (i v : Nat)
  | mem (a : Nat) (v : Half)
  | mems (a : Nat) (vs : List Half)
  | badRead
  | out (h t : Half)
  | skip (n : Nat)
  | rep (n c : Nat)
deriving DecidableEq, Repr

/-- What a syllable reads: block, datapath, engine. -/
structure Rd where
  blk : Blk
  dp : Dp
  u : Eng

/-- The mark of a read at an unmapped address (R174). -/
def badIf (ok : Bool) : List Wr := if ok then [] else [.badRead]

/-- A halfword read with its mark. -/
def Rd.mem (r : Rd) (a : Nat) : Half × List Wr :=
  let x := readMem r.blk r.dp r.u a
  (x.1, badIf x.2)

/-- `n` halfwords from address `a` on, read in one access with one mark (R174, R179). -/
def Rd.mems (r : Rd) (a n : Nat) : (Nat → Half) × List Wr :=
  (fun i => (readMem r.blk r.dp r.u (a + i)).1, badIf ((List.range n).all fun i => (readMem r.blk r.dp r.u (a + i)).2))

/-! ### Dual-MAC lanes (R182); `n` is the lane number, whose flag is F n -/

/-- MAC. -/
def macLane (r : Rd) (md : BitVec 2) (q : MacLane) : List Wr :=
  [.a q.acc (accI (r.dp.rA q.acc) + product md (r.dp.rD q.x) (r.dp.rD q.y))]
/-- MSU. -/
def msuLane (r : Rd) (md : BitVec 2) (q : MacLane) : List Wr :=
  [.a q.acc (accI (r.dp.rA q.acc) - product md (r.dp.rD q.x) (r.dp.rD q.y))]
/-- MUL. -/
def mulLane (r : Rd) (md : BitVec 2) (q : MacLane) : List Wr :=
  [.a q.acc (product md (r.dp.rD q.x) (r.dp.rD q.y))]
/-- MOVA. -/
def movaLane (r : Rd) (md : BitVec 2) (q : MacLane) : List Wr := [.a q.acc (aligned md (r.dp.rD q.x))]
/-- ADDX. -/
def addxLane (r : Rd) (md : BitVec 2) (q : MacLane) : List Wr :=
  [.a q.acc (accI (r.dp.rA q.acc) + aligned md (r.dp.rD q.x))]
/-- AOP. -/
def aopLane (r : Rd) (md : BitVec 2) (q : MacLane) : List Wr :=
  let x := accI (r.dp.rA (q.x % 8))
  let y := accI (r.dp.rA q.acc)
  [.a q.acc (match md.toNat with
    | 0 => y + x | 1 => y - x | 2 => x | _ => -x)]
/-- SHA. -/
def shaLane (r : Rd) (md : BitVec 2) (q : MacLane) : List Wr :=
  let k := if md.toNat % 2 = 1 then clampI (-40) 40 (r.dp.rD q.y).toInt else sext 5 q.y
  [.a q.acc (shiftA (accI (r.dp.rA (q.x % 8))) k)]
/-- FTAPM (R184). -/
def ftapmLane (r : Rd) (md : BitVec 2) (q : MacLane) : List Wr :=
  let pi : Nat := q.x % 8
  let qi : Nat := q.y % 8
  let p := r.dp.rP r.u pi
  let s := r.dp.rP r.u qi
  let c := r.mem p
  let x := r.mem s
  c.2 ++ x.2 ++
    [.a q.acc (accI (r.dp.rA q.acc) + product md c.1 x.1), .mem (advance r.u r.dp qi s 1) x.1,
     .p pi (advance r.u r.dp pi p 1), .p qi (advance r.u r.dp qi s (-1))]
/-- CLAMP. -/
def clampLane (r : Rd) (q : MacLane) : List Wr :=
  [.a q.acc (min (max (accI (r.dp.rA q.acc)) (accI (r.dp.rA (q.x % 8)))) (accI (r.dp.rA (q.y % 8))))]
/-- CMPSEL (R188). -/
def cmpselLane (r : Rd) (md : BitVec 2) (n : Nat) (q : MacLane) : List Wr :=
  let t := condHolds (condOf md) (accI (r.dp.rA q.acc)) (accI (r.dp.rA (q.x % 8)))
  .f n t :: (if t then [.a q.acc (accI (r.dp.rA (q.y % 8)))] else [])
/-- NORM (R187). -/
def normLane (r : Rd) (n : Nat) (q : MacLane) : List Wr :=
  let x := accI (r.dp.rA (q.x % 8))
  let k := normCount x
  [.a q.acc (shiftA x k), .d q.y (toHalf k), .f n (decide (x = 0))]
/-- RCP (R186). -/
def rcpLane (r : Rd) (n : Nat) (q : MacLane) : List Wr :=
  let t := rcp (r.dp.rD q.x)
  .a q.acc t.1 :: (if t.2 then [.f n true] else [])
/-- SATD (R177, R182). -/
def satdLane (r : Rd) (md : BitVec 2) (q : MacLane) : List Wr :=
  let x := accI (r.dp.rA q.acc)
  [.d q.y (match md.toNat with
    | 0 => satStore .rne false x 16 | 1 => satStore .rne false x 15
    | 2 => satStore .rne true x 15 | _ => satStore .rne false x 17)]

/-- Both lanes of syllable `k`; lane b is idle where its fields repeat lane a's (R181). -/
def dual (lane : Nat → MacLane → List Wr) (k : Fin 4) (a c : MacLane) : List Wr :=
  lane (2 * k.val) a ++ (if c = a then [] else lane (2 * k.val + 1) c)

/-! ### Control syllables (R183) -/

/-- The post-modify of a pointer. -/
def postMod (r : Rd) (p : Fin 8) (m : BitVec 6) : Wr := .p p (advance r.u r.dp p (r.dp.rP r.u p) m.toInt)

/-- LD. -/
def ldW (r : Rd) (d : Fin 32) (p : Fin 8) (m : BitVec 6) : List Wr :=
  let x := r.mem (r.dp.rP r.u p)
  x.2 ++ [.d d x.1, postMod r p m]
/-- LDW: bit 0 of the address is ignored (R179). -/
def ldwW (r : Rd) (d : Fin 32) (p : Fin 8) (m : BitVec 6) : List Wr :=
  let x := r.mems (r.dp.rP r.u p / 2 * 2) 2
  x.2 ++ [.d d (x.1 0), .d (d + 1) (x.1 1), postMod r p m]
/-- LDV: bits [2:0] of the address are ignored (R179). -/
def ldvW (r : Rd) (d : Fin 32) (p : Fin 8) (m : BitVec 6) : List Wr :=
  let x := r.mems (r.dp.rP r.u p / 8 * 8) 8
  x.2 ++ ((List.range 8).map fun i => Wr.d (d + i) (x.1 i)) ++ [postMod r p m]
/-- LDA. -/
def ldaW (r : Rd) (a : Fin 8) (p : Fin 8) (m : BitVec 6) : List Wr :=
  let x := r.mems (r.dp.rP r.u p / 2 * 2) 2
  x.2 ++ [.a a (sext 32 ((x.1 0).toNat + 65536 * (x.1 1).toNat)), postMod r p m]
/-- STD. -/
def stdW (r : Rd) (d : Fin 32) (p : Fin 8) (m : BitVec 6) : List Wr :=
  [.mem (r.dp.rP r.u p) (r.dp.rD d), postMod r p m]
/-- STW. -/
def stwW (r : Rd) (d : Fin 32) (p : Fin 8) (m : BitVec 6) : List Wr :=
  [.mems (r.dp.rP r.u p / 2 * 2) [r.dp.rD d, r.dp.rD (d + 1)], postMod r p m]
/-- STV. -/
def stvW (r : Rd) (d : Fin 32) (p : Fin 8) (m : BitVec 6) : List Wr :=
  [.mems (r.dp.rP r.u p / 8 * 8) ((List.range 8).map fun i => r.dp.rD (d + i)), postMod r p m]
/-- STA: the accumulator saturated to S32. -/
def staW (r : Rd) (a : Fin 8) (p : Fin 8) (m : BitVec 6) : List Wr :=
  let v := toBits 32 (satS32 (accI (r.dp.rA a)))
  [.mems (r.dp.rP r.u p / 2 * 2) [BitVec.ofNat 16 v, BitVec.ofNat 16 (v / 65536)], postMod r p m]
/-- ST.S (R177). -/
def stSW (r : Rd) (a : Fin 8) (sh : Fin 32) (rm : Rnd) (uns toMem : Bool) (d : Fin 32) (p : Fin 8) (m : BitVec 6) :
    List Wr :=
  let v := satStore rm uns (accI (r.dp.rA a)) sh
  if toMem then [.mem (r.dp.rP r.u p) v, postMod r p m] else [.d d v]
/-- PWLIN (R185): its 32 knots are one access. (DEDUCED, log 129). -/
def pwlinW (r : Rd) (d x y : Fin 32) (p : Fin 8) : List Wr :=
  let k := r.mems (r.dp.rP r.u p) 32
  k.2 ++ [.d d (BitVec.ofNat 16 (min (pwl (fun i => (k.1 i).toNat) (r.dp.rD x).toNat) (r.dp.rD y).toNat))]
/-- PHA (R189): the accumulator as it stood at the boundary that began the tick. (DESIGN CHOICE, log 151). -/
def phaW (r : Rd) (d : Fin 32) (src : Bool) (k : Fin 8) : List Wr :=
  let t : Nat := if src then (match r.u with
    | .slot e => tone r.blk.live e.val
    | .planner p => Config.plannerTone p) else k.val
  [.d d (BitVec.ofNat 16 (toneAcc r.blk t 0 / 65536))]

/-- The writes of one syllable; a command that is no syllable makes none. -/
def sylWr (r : Rd) (i : Instr) : List Wr :=
  match i with
  | .mac _ k md a c => dual (fun _ => macLane r md) k a c
  | .msu _ k md a c => dual (fun _ => msuLane r md) k a c
  | .mul _ k md a c => dual (fun _ => mulLane r md) k a c
  | .mova _ k md a c => dual (fun _ => movaLane r md) k a c
  | .addx _ k md a c => dual (fun _ => addxLane r md) k a c
  | .aop _ k md a c => dual (fun _ => aopLane r md) k a c
  | .sha _ k md a c => dual (fun _ => shaLane r md) k a c
  | .ftapm _ k md a c => dual (fun _ => ftapmLane r md) k a c
  | .clamp _ k _ a c => dual (fun _ => clampLane r) k a c
  | .cmpsel _ k md a c => dual (cmpselLane r md) k a c
  | .norm _ k _ a c => dual (normLane r) k a c
  | .rcp _ k _ a c => dual (rcpLane r) k a c
  | .satd _ k md a c => dual (fun _ => satdLane r md) k a c
  | .ld _ d p m => ldW r d p m
  | .ldw _ d p m => ldwW r d p m
  | .ldv _ d p m => ldvW r d p m
  | .lda _ a p m => ldaW r a p m
  | .std _ d p m => stdW r d p m
  | .stw _ d p m => stwW r d p m
  | .stv _ d p m => stvW r d p m
  | .sta _ a p m => staW r a p m
  | .stS _ a sh rm u t d p m => stSW r a sh rm u t d p m
  | .movi _ d imm => [.d d imm]
  | .alu _ d x y fn => [.d d (aluEval fn (r.dp.rD x) (r.dp.rD y))]
  | .alui _ d x fn imm => [.d d (aluEval fn (r.dp.rD x) (imm.signExtend 16))]
  | .cmpd _ f cond uns x y =>
    [.f f (if uns then condHolds cond (r.dp.rD x).toNat (r.dp.rD y).toNat else condHolds cond (r.dp.rD x).toInt (r.dp.rD y).toInt)]
  | .flog _ f fn fa fb => [.f f (flagEval fn (r.dp.rF fa) (r.dp.rF fb))]
  | .skip _ f neg n alw => if alw || (r.dp.rF f ^^ neg) then [.skip n] else []
  | .setp _ reg i imm => [match reg with
    | .p => .p i imm.toNat | .b => .b i imm.toNat | .l => .l i imm.toNat]
  | .pwlin _ d x y p => pwlinW r d x y p
  | .pha _ d src k => phaW r d src k
  | .out _ dh dt => [.out (r.dp.rD dh) (r.dp.rD dt)]
  | .sel _ d x y f => [.d d (if r.dp.rF f then r.dp.rD x else r.dp.rD y)]
  | .rep _ n c => [.rep n c]
  | _ => []

/-! ### Carrying out the writes -/

/-- DIAG counting of engine `e`; ENG_DIAG is raised when a count leaves 0 (R174, R176, R375). -/
def diag (f : Nat → Fld) (e : Nat) (b : Blk) : Blk :=
  let first := getF b (f e) == 0
  raiseIf first (8 * e + 7) (incF (f e) b)

/-- DIAG counting of the engine that serves, and of the standbys that run its slots beside it (R206, R359, R361). -/
def diagAll (f : Nat → Fld) (g : Nat) (b : Blk) : Blk := (g :: copiers b g).foldl (fun b n => diag f n b) b

/-- DIAG counting on the engines that run the slots of `u`; a planner engine has no DIAG. -/
def diagOf (f : Nat → Fld) (u : Eng) (b : Blk) : Blk :=
  match u with
  | .slot e => (match engineOf b e.val with
    | some g => diagAll f g b
    | none => b)
  | .planner _ => b

/-- An access outside the program's reach is counted (R174). -/
def addrErr (u : Eng) (b : Blk) : Blk := diagOf Reg.ENG.DIAG.ADDR_ERR u b

/-- A saturation is counted (R176). -/
def accSat (u : Eng) (b : Blk) : Blk := diagOf Reg.ENG.DIAG.ACC_SAT u b

/-- The CLK_ENG cycle, counted from the start, in which a slot's next bundle writes: bundle j of slot s in cycle 13 s + j of
the tick (R166), and none before the present edge. -/
def cycleOf (b : Blk) (dp : Dp) : Nat := max (1000 * b.tick + 13 * (dp.elem / 64) + dp.issued) (4 * b.now)

/-- The strobe moved the element in the cycle of the slot's store to ESTAT, or the store belongs before it (R83, R172). -/
def strobeWins (b : Blk) (dp : Dp) (x : Elem) : Bool :=
  x.lp.moved && x.lp.launchQ.any fun t => decide (cycleOf b dp ≤ (t - 112) / 4)

/-- ESTAT.STATE stored by a slot's program; a bank load strobe that moves the element in the same cycle stands (R172). -/
def storeState (e : Nat) (st : LoopState) (x : Blk × Dp) : Blk × Dp :=
  (if strobeWins x.1 x.2 (x.1.elem e) then x.1 else updElem e (fun el => { el with drv := { el.drv with old := outsState x.1 e st el }, lp := { el.lp with st := st } }) x.1,
   { x.2 with stored := some st })

/-- A program's store to a halfword of the slot's memory (R169, R171, R174). -/
def storeSlot (e a : Nat) (v : Half) (x : Blk × Dp) : Blk × Dp :=
  if a = 0x90 then storeState e (LoopState.ofCode (v.toNat / 256)) x
  else
    let dp := { x.2 with wrote := x.2.wrote ++ [(a, v.toNat)] }
    if a < 0x80 then ({ x.1 with live := wrH x.1.live (ctxAddr e 0 + 2 * a) v.toNat }, dp)
    else (x.1, { dp with scr := dp.scr.set 0 (a - 0x100) v })

/-- A store of an engine. -/
def store (u : Eng) (a : Nat) (v : Half) (x : Blk × Dp) : Blk × Dp :=
  match u with
  | .slot e => if writable a then storeSlot e.val a v x else (addrErr u x.1, x.2)
  | .planner p => ({ x.1 with pmem := x.1.pmem.set 0 (32768 * p.val + a % 32768) v }, x.2)

/-- The halfwords of one store in the order of their addresses: those that the program may not write are ignored, and the
access counts once (R174, R179). -/
def storeAll (u : Eng) (a : Nat) (vs : List Half) (x : Blk × Dp) : Blk × Dp :=
  match u with
  | .slot e =>
    let y := vs.zipIdx.foldl (fun x v => if writable (a + v.2) then storeSlot e.val (a + v.2) v.1 x else x) x
    (if (List.range vs.length).all fun i => writable (a + i) then y.1 else addrErr u y.1, y.2)
  | .planner _ => vs.zipIdx.foldl (fun x v => store u (a + v.2) v.1 x) x

/-- OUT: the slot element's tick codes, in every mode but CALIBRATE (R190, R134). -/
def outCodes (u : Eng) (h t : Half) (b : Blk) : Blk :=
  match u with
  | .slot e =>
    if b.sys.mode = .calibrate then b
    else updElem e.val (fun x => { x with drv := { x.drv with htrTick := h, trmTick := t } }) b
  | .planner _ => b

/-- One write carried out. -/
def doWr (u : Eng) (x : Blk × Dp) (w : Wr) : Blk × Dp :=
  match w with
  | .d i v => (x.1, { x.2 with d := x.2.d.set 0 (i % 32) v })
  | .a i v => (if accOver v then accSat u x.1 else x.1, { x.2 with a := x.2.a.set 0 i (accOf v) })
  | .f i v => (x.1, { x.2 with f := x.2.f.set false i v })
  | .p i v => (x.1, { x.2 with p := x.2.p.set (ptrPreset u i) i v })
  | .b i v => (x.1, { x.2 with b := x.2.b.set (ptrPreset u i) i v })
  | .l i v => (x.1, { x.2 with l := x.2.l.set 0 i v })
  | .mem a v => store u (a % ptrMod u) v x
  | .mems a vs => storeAll u (a % ptrMod u) vs x
  | .badRead => (addrErr u x.1, x.2)
  | .out h t => (outCodes u h t x.1, { x.2 with outDone := true })
  | .skip n => (x.1, { x.2 with skip := n })
  | .rep n c => (x.1, { x.2 with repN := n, repCount := c, repBody := [] })

/-- One bundle: every syllable reads before any writes; writes go in order lane 0 to the last lane, then the control
syllable (R192). A suppressed bundle takes its cycle and writes nothing (R166, R191); its lanes' reads and results count in
no field of DIAG. `syls` lists the dual-MAC syllables first and the control syllable last. (DESIGN CHOICE, log 130). -/
def bundle (u : Eng) (syls : List Instr) (x : Blk × Dp) : Blk × Dp :=
  if 0 < x.2.skip then (x.1, { x.2 with skip := x.2.skip - 1, issued := x.2.issued + 1 })
  else
    let y := (syls.flatMap (sylWr ⟨x.1, x.2, u⟩)).foldl (doWr u) x
    (y.1, { y.2 with issued := y.2.issued + 1 })

/-- A list of bundles, one after the other. -/
def bundles (u : Eng) (bs : List (List Instr)) (x : Blk × Dp) : Blk × Dp := bs.foldl (fun x is => bundle u is x) x

/-- A list of bundles run `n` times. -/
def repeatRun (u : Eng) (is : List (List Instr)) : Nat → Blk × Dp → Blk × Dp
  | 0, x => x
  | n + 1, x => repeatRun u is n (bundles u is x)

/-- The datapath of a slot of element `e` for the next syllable: a new slot starts for another element of the same engine,
and after 13 bundles (R166, R167). -/
def slotDp (b : Blk) (e : Nat) : Dp :=
  let dp := b.dpS.get Dp.reset (e % 64)
  if dp.elem = e ∧ dp.issued < 13 then dp else { Dp.reset with elem := e }

/-- The engines run slots at the present edge: in every mode but RESET, and not in the service cycles [936, 1,000), which
begin with edge 234 (R23, R168). -/
def slotCycles (b : Blk) : Bool := b.sys.mode != .reset && decide (b.edge < 234)

/-- A syllable command on a loop engine: a bundle whose other syllables are NOP, in the slot of its element. The slot
runs where an engine serves the element (R23, R363), and in no service cycle (R168). (DEDUCED, log 15). -/
def issueSlot (e : Fin 4608) (i : Instr) (b : Blk) : Blk :=
  if slotCycles b = false ∨ engineOf b e.val = none then b
  else
    let y := bundle (.slot e) [i] (b, slotDp b e.val)
    { y.1 with dpS := y.1.dpS.set Dp.reset (e.val % 64) y.2 }

/-- A bundle on a planner engine: up to four dual-MAC syllables and a control syllable (R204). The bundles after a REP form
its body; when the last has run once, the body runs the remaining times. (DEDUCED, log 15). -/
def plannerBundle (p : Fin 8) (is : List Instr) (b : Blk) : Blk :=
  if b.sys.mode = .reset then b
  else
    let b := eccData (fun w => decide (w.mem.val = 12 ∧ w.unit.val = p.val)) b
    let dp := b.dpP.get Dp.reset p.val
    let y := bundle (.planner p) is (b, dp)
    let z :=
      if dp.repN = 0 then y
      else
        let body := dp.repBody ++ [is]
        if dp.repN = 1 then
          let w := repeatRun (.planner p) body (dp.repCount - 1) (y.1, { y.2 with repN := 0, repCount := 0, repBody := [] })
          w
        else (y.1, { y.2 with repN := dp.repN - 1, repCount := dp.repCount, repBody := body })
    { z.1 with dpP := z.1.dpP.set Dp.reset p.val z.2 }

/-- A syllable command on a planner engine: a bundle whose other syllables are NOP. (DEDUCED, log 15). -/
def issuePlanner (p : Fin 8) (i : Instr) (b : Blk) : Blk := plannerBundle p [i] b

/-- A syllable issued on an engine. A syllable whose fields the program check refuses is in no running program, and
nothing happens (R194). (DEDUCED, log 15). -/
def issue (u : Eng) (i : Instr) (s : State) : Host.Outcome State Fault Refusal :=
  .next (if i.wf then { s with b := (match u with
    | .slot e => issueSlot e i s.b
    | .planner p => issuePlanner p i s.b) } else s)

/-! ### The syllables as commands -/

/-- NOP issued on engine `u`. -/
def execNop (u : Eng) (k : Fin 4) (md : BitVec 2) (a c : MacLane) (s : State) : Host.Outcome State Fault Refusal :=
  issue u (.nop u k md a c) s

/-- MAC issued on engine `u`. -/
def execMac (u : Eng) (k : Fin 4) (md : BitVec 2) (a c : MacLane) (s : State) : Host.Outcome State Fault Refusal :=
  issue u (.mac u k md a c) s

/-- MSU issued on engine `u`. -/
def execMsu (u : Eng) (k : Fin 4) (md : BitVec 2) (a c : MacLane) (s : State) : Host.Outcome State Fault Refusal :=
  issue u (.msu u k md a c) s

/-- MUL issued on engine `u`. -/
def execMul (u : Eng) (k : Fin 4) (md : BitVec 2) (a c : MacLane) (s : State) : Host.Outcome State Fault Refusal :=
  issue u (.mul u k md a c) s

/-- MOVA issued on engine `u`. -/
def execMova (u : Eng) (k : Fin 4) (md : BitVec 2) (a c : MacLane) (s : State) : Host.Outcome State Fault Refusal :=
  issue u (.mova u k md a c) s

/-- ADDX issued on engine `u`. -/
def execAddx (u : Eng) (k : Fin 4) (md : BitVec 2) (a c : MacLane) (s : State) : Host.Outcome State Fault Refusal :=
  issue u (.addx u k md a c) s

/-- AOP issued on engine `u`. -/
def execAop (u : Eng) (k : Fin 4) (md : BitVec 2) (a c : MacLane) (s : State) : Host.Outcome State Fault Refusal :=
  issue u (.aop u k md a c) s

/-- SHA issued on engine `u`. -/
def execSha (u : Eng) (k : Fin 4) (md : BitVec 2) (a c : MacLane) (s : State) : Host.Outcome State Fault Refusal :=
  issue u (.sha u k md a c) s

/-- FTAPM issued on engine `u`. -/
def execFtapm (u : Eng) (k : Fin 4) (md : BitVec 2) (a c : MacLane) (s : State) : Host.Outcome State Fault Refusal :=
  issue u (.ftapm u k md a c) s

/-- CLAMP issued on engine `u`. -/
def execClamp (u : Eng) (k : Fin 4) (md : BitVec 2) (a c : MacLane) (s : State) : Host.Outcome State Fault Refusal :=
  issue u (.clamp u k md a c) s

/-- CMPSEL issued on engine `u`. -/
def execCmpsel (u : Eng) (k : Fin 4) (md : BitVec 2) (a c : MacLane) (s : State) : Host.Outcome State Fault Refusal :=
  issue u (.cmpsel u k md a c) s

/-- NORM issued on engine `u`. -/
def execNorm (u : Eng) (k : Fin 4) (md : BitVec 2) (a c : MacLane) (s : State) : Host.Outcome State Fault Refusal :=
  issue u (.norm u k md a c) s

/-- RCP issued on engine `u`. -/
def execRcp (u : Eng) (k : Fin 4) (md : BitVec 2) (a c : MacLane) (s : State) : Host.Outcome State Fault Refusal :=
  issue u (.rcp u k md a c) s

/-- SATD issued on engine `u`. -/
def execSatd (u : Eng) (k : Fin 4) (md : BitVec 2) (a c : MacLane) (s : State) : Host.Outcome State Fault Refusal :=
  issue u (.satd u k md a c) s

/-- CONTROL_NOP issued on engine `u`. -/
def execControlNop (u : Eng) (s : State) : Host.Outcome State Fault Refusal :=
  issue u (.controlNop u) s

/-- LD issued on engine `u`. -/
def execLd (u : Eng) (d : Fin 32) (p : Fin 8) (m : BitVec 6) (s : State) : Host.Outcome State Fault Refusal :=
  issue u (.ld u d p m) s

/-- LDW issued on engine `u`. -/
def execLdw (u : Eng) (d : Fin 32) (p : Fin 8) (m : BitVec 6) (s : State) : Host.Outcome State Fault Refusal :=
  issue u (.ldw u d p m) s

/-- LDV issued on engine `u`. -/
def execLdv (u : Eng) (d : Fin 32) (p : Fin 8) (m : BitVec 6) (s : State) : Host.Outcome State Fault Refusal :=
  issue u (.ldv u d p m) s

/-- LDA issued on engine `u`. -/
def execLda (u : Eng) (a : Fin 8) (p : Fin 8) (m : BitVec 6) (s : State) : Host.Outcome State Fault Refusal :=
  issue u (.lda u a p m) s

/-- STD issued on engine `u`. -/
def execStd (u : Eng) (d : Fin 32) (p : Fin 8) (m : BitVec 6) (s : State) : Host.Outcome State Fault Refusal :=
  issue u (.std u d p m) s

/-- STW issued on engine `u`. -/
def execStw (u : Eng) (d : Fin 32) (p : Fin 8) (m : BitVec 6) (s : State) : Host.Outcome State Fault Refusal :=
  issue u (.stw u d p m) s

/-- STV issued on engine `u`. -/
def execStv (u : Eng) (d : Fin 32) (p : Fin 8) (m : BitVec 6) (s : State) : Host.Outcome State Fault Refusal :=
  issue u (.stv u d p m) s

/-- STA issued on engine `u`. -/
def execSta (u : Eng) (a : Fin 8) (p : Fin 8) (m : BitVec 6) (s : State) : Host.Outcome State Fault Refusal :=
  issue u (.sta u a p m) s

/-- ST_S issued on engine `u`. -/
def execStS (u : Eng) (a : Fin 8) (sh : Fin 32) (rm : Rnd) (uns : Bool) (toMem : Bool) (d : Fin 32) (p : Fin 8) (m : BitVec 6) (s : State) : Host.Outcome State Fault Refusal :=
  issue u (.stS u a sh rm uns toMem d p m) s

/-- MOVI issued on engine `u`. -/
def execMovi (u : Eng) (d : Fin 32) (imm : Half) (s : State) : Host.Outcome State Fault Refusal :=
  issue u (.movi u d imm) s

/-- ALU issued on engine `u`. -/
def execAlu (u : Eng) (d x y : Fin 32) (fn : AluFn) (s : State) : Host.Outcome State Fault Refusal :=
  issue u (.alu u d x y fn) s

/-- ALUI issued on engine `u`. -/
def execAlui (u : Eng) (d x : Fin 32) (fn : AluFn) (imm : BitVec 12) (s : State) : Host.Outcome State Fault Refusal :=
  issue u (.alui u d x fn imm) s

/-- CMPD issued on engine `u`. -/
def execCmpd (u : Eng) (f : Fin 8) (cond : Cond) (uns : Bool) (x y : Fin 32) (s : State) : Host.Outcome State Fault Refusal :=
  issue u (.cmpd u f cond uns x y) s

/-- FLOG issued on engine `u`. -/
def execFlog (u : Eng) (f : Fin 8) (fn : FlagFn) (fa fb : Fin 8) (s : State) : Host.Outcome State Fault Refusal :=
  issue u (.flog u f fn fa fb) s

/-- SKIP issued on engine `u`. -/
def execSkip (u : Eng) (f : Fin 8) (neg : Bool) (n : Fin 16) (alw : Bool) (s : State) : Host.Outcome State Fault Refusal :=
  issue u (.skip u f neg n alw) s

/-- SETP issued on engine `u`. -/
def execSetp (u : Eng) (reg : PtrReg) (i : Fin 8) (imm : BitVec 12) (s : State) : Host.Outcome State Fault Refusal :=
  issue u (.setp u reg i imm) s

/-- PWLIN issued on engine `u`. -/
def execPwlin (u : Eng) (d x y : Fin 32) (p : Fin 8) (s : State) : Host.Outcome State Fault Refusal :=
  issue u (.pwlin u d x y p) s

/-- PHA issued on engine `u`. -/
def execPha (u : Eng) (d : Fin 32) (src : Bool) (k : Fin 8) (s : State) : Host.Outcome State Fault Refusal :=
  issue u (.pha u d src k) s

/-- OUT issued on engine `u`. -/
def execOut (u : Eng) (dh dt : Fin 32) (s : State) : Host.Outcome State Fault Refusal :=
  issue u (.out u dh dt) s

/-- SEL issued on engine `u`. -/
def execSel (u : Eng) (d x y : Fin 32) (f : Fin 8) (s : State) : Host.Outcome State Fault Refusal :=
  issue u (.sel u d x y f) s

/-- REP issued on engine `u`. -/
def execRep (u : Eng) (n : Fin 32) (count : Fin 4097) (s : State) : Host.Outcome State Fault Refusal :=
  issue u (.rep u n count) s

end Sys2Proof.Machine
end

