-- ==== Sys2Proof/Machine/Program.lean ====
section
/-!
DEFINITION. Loop programs as words (R180, R181, R193): the reading of a bundle, the check of the shadow image (R194),
and the run of a slot's 13 bundles (R166).
-/
set_option autoImplicit false

namespace Sys2Proof.Machine

/-- A field of `n` bits as a number below `2^n`. -/
def fin (w lo n : Nat) : Fin (2 ^ n) := ⟨natBits w lo n, Nat.mod_lt _ (Nat.two_pow_pos n)⟩

/-- The lanes of a dual-MAC word (R181). -/
def laneA (w : Nat) : MacLane := ⟨fin w 23 3, fin w 18 5, fin w 13 5⟩
/-- Lane b of a dual-MAC word. -/
def laneB (w : Nat) : MacLane := ⟨fin w 10 3, fin w 5 5, fin w 0 5⟩

/-- A dual-MAC word read as a syllable; OP 0xE and 0xF are reserved (R182). -/
def readMac (u : Eng) (k : Fin 4) (w : Nat) : Option Instr :=
  let md := BitVec.ofNat 2 (natBits w 26 2)
  let a := laneA w
  let c := laneB w
  match natBits w 28 4 with
  | 0x0 => some (.nop u k md a c) | 0x1 => some (.mac u k md a c) | 0x2 => some (.msu u k md a c)
  | 0x3 => some (.mul u k md a c) | 0x4 => some (.mova u k md a c) | 0x5 => some (.addx u k md a c)
  | 0x6 => some (.aop u k md a c) | 0x7 => some (.sha u k md a c) | 0x8 => some (.ftapm u k md a c)
  | 0x9 => some (.clamp u k md a c) | 0xA => some (.cmpsel u k md a c) | 0xB => some (.norm u k md a c)
  | 0xC => some (.rcp u k md a c) | 0xD => some (.satd u k md a c)
  | _ => none

/-- The ALU function of a code; 14 and 15 are reserved (R183). -/
def aluOf (n : Nat) : Option AluFn :=
  match n with
  | 0 => some .add | 1 => some .sub | 2 => some .addu | 3 => some .subu | 4 => some .and | 5 => some .or
  | 6 => some .xor | 7 => some .min | 8 => some .max | 9 => some .minu | 10 => some .maxu | 11 => some .shl
  | 12 => some .shr | 13 => some .sra | _ => none

/-- The rounding mode of a code (R177). -/
def rndOf (n : Nat) : Rnd := match n with
  | 0 => .rne | 1 => .rtz | 2 => .rdn | _ => .rha

/-- The flag function of a code (R183). -/
def flagFnOf (n : Nat) : FlagFn := match n with
  | 0 => .and | 1 => .or | 2 => .andNot | _ => .xor

/-- A control word read as a syllable (R183); `none` where its OP, its ALU function or SETP's register is reserved. -/
def readCtl (u : Eng) (w : Nat) : Option Instr :=
  let d := fin w 22 5
  let x := fin w 17 5
  let y := fin w 12 5
  let p := fin w 19 3
  let m := BitVec.ofNat 6 (natBits w 13 6)
  let a := fin w 24 3
  match natBits w 27 5 with
  | 0x00 => some (.controlNop u)
  | 0x01 => some (.ld u d p m)
  | 0x02 => some (.ldw u d p m)
  | 0x03 => some (.ldv u d p m)
  | 0x04 => some (.lda u a p m)
  | 0x05 => some (.std u d p m)
  | 0x06 => some (.stw u d p m)
  | 0x07 => some (.stv u d p m)
  | 0x08 => some (.sta u a p m)
  | 0x09 => some (.stS u a (fin w 19 5) (rndOf (natBits w 17 2)) (natBits w 16 1 == 1) (natBits w 15 1 == 1)
      (fin w 10 5) (fin w 7 3) (BitVec.ofNat 6 (natBits w 1 6)))
  | 0x0A => some (.movi u d (BitVec.ofNat 16 w))
  | 0x0B => (aluOf (natBits w 8 4)).map fun fn => .alu u d x y fn
  | 0x0C => (aluOf (natBits w 13 4)).map fun fn => .alui u d x fn (BitVec.ofNat 12 w)
  | 0x0D => some (.cmpd u a (condOf (BitVec.ofNat 2 (natBits w 22 2))) (natBits w 21 1 == 1) (fin w 16 5) (fin w 11 5))
  | 0x0E => some (.flog u a (flagFnOf (natBits w 22 2)) (fin w 19 3) (fin w 16 3))
  | 0x0F => some (.skip u a (natBits w 23 1 == 1) (fin w 19 4) (natBits w 18 1 == 1))
  | 0x10 => (match natBits w 25 2 with
      | 0 => some (.setp u .p (fin w 22 3) (BitVec.ofNat 12 w))
      | 1 => some (.setp u .b (fin w 22 3) (BitVec.ofNat 12 w))
      | 2 => some (.setp u .l (fin w 22 3) (BitVec.ofNat 12 w))
      | _ => none)
  | 0x11 => some (.pwlin u d x y (fin w 9 3))
  | 0x12 => some (.pha u d (natBits w 21 1 == 1) (fin w 18 3))
  | 0x13 => some (.out u d x)
  | 0x14 => some (.sel u d x y (fin w 9 3))
  | _ => none

/-- A control word of a planner engine: OP 0x15 is REP, and a count field of 0 stands for 4,096 (R204). (DEDUCED, log 131). -/
def readPlanCtl (u : Eng) (w : Nat) : Option Instr :=
  if natBits w 27 5 = 0x15 then
    let c := natBits w 10 12
    some (.rep u (fin w 22 5) ⟨if c = 0 then 4096 else c, by have : c < 4096 := Nat.mod_lt _ (by decide); split <;> omega⟩)
  else readCtl u w

/-- The five words of a planner bundle read as its syllables: M0 to M2, then M3 in [159:128], then the control syllable in
[31:0] (R180, R204). -/
def readPlanBundle (u : Eng) (w : Nat → Nat) : List (Option Instr) :=
  [readMac u 0 (w 1), readMac u 1 (w 2), readMac u 2 (w 3), readMac u 3 (w 4), readPlanCtl u (w 0)]

/-- Word `i` of the planner engines' program store (R205, R469): the firmware that a boot image placed, or that of the ROM. -/
def plannerWord (b : Blk) (i : Nat) : Word := if b.planFw = [] then Config.plannerRom i else b.planFw.getD i 0

/-- The bits that a control word's OP lists (R183). -/
def ctlBits (op : Nat) : List (Nat × Nat) :=
  match op with
  | 0x00 => []
  | 0x01 | 0x02 | 0x03 | 0x05 | 0x06 | 0x07 => [(22, 5), (19, 3), (13, 6)]
  | 0x04 | 0x08 => [(24, 3), (19, 3), (13, 6)]
  | 0x09 => [(24, 3), (19, 5), (17, 2), (16, 1), (15, 1), (10, 5), (7, 3), (1, 6)]
  | 0x0A => [(22, 5), (0, 16)]
  | 0x0B => [(22, 5), (17, 5), (12, 5), (8, 4)]
  | 0x0C => [(22, 5), (17, 5), (13, 4), (0, 12)]
  | 0x0D => [(24, 3), (22, 2), (21, 1), (16, 5), (11, 5)]
  | 0x0E => [(24, 3), (22, 2), (19, 3), (16, 3)]
  | 0x0F => [(24, 3), (23, 1), (19, 4), (18, 1)]
  | 0x10 => [(25, 2), (22, 3), (0, 12)]
  | 0x11 | 0x14 => [(22, 5), (17, 5), (12, 5), (9, 3)]
  | 0x12 => [(22, 5), (21, 1), (18, 3)]
  | 0x13 => [(22, 5), (17, 5)]
  | _ => []

/-- A control word has a bit set that its OP does not list (R183). -/
def ctlStray (w : Nat) : Bool :=
  let kept := (ctlBits (natBits w 27 5)).foldl (fun n f => n + natBits w f.1 f.2 * 2 ^ f.1) (natBits w 27 5 * 2 ^ 27)
  decide (kept ≠ w)

/-- The registers that a lane or a control syllable writes, as pairs of a register file and a number: 0 D, 1 A, 2 F,
3 P, 4 B, 5 L (R194 cause 3). -/
def dests (i : Instr) : List (List (Nat × Nat)) :=
  let two := fun (k : Fin 4) (a c : MacLane) (f : Nat → MacLane → List (Nat × Nat)) =>
    f (2 * k.val) a :: (if c = a then [] else [f (2 * k.val + 1) c])
  match i with
  | .mac _ k _ a c | .msu _ k _ a c | .mul _ k _ a c | .mova _ k _ a c | .addx _ k _ a c | .aop _ k _ a c
  | .sha _ k _ a c | .clamp _ k _ a c => two k a c fun _ q => [(1, q.acc.val)]
  | .ftapm _ k _ a c => two k a c fun _ q => [(1, q.acc.val), (3, q.x % 8), (3, q.y % 8)]
  | .cmpsel _ k _ a c | .rcp _ k _ a c => two k a c fun n q => [(1, q.acc.val), (2, n)]
  | .norm _ k _ a c => two k a c fun n q => [(1, q.acc.val), (0, q.y.val), (2, n)]
  | .satd _ k _ a c => two k a c fun _ q => [(0, q.y.val)]
  | .ld _ d p _ => [[(0, d.val), (3, p.val)]]
  | .ldw _ d p _ => [[(0, d.val), (0, d.val + 1), (3, p.val)]]
  | .ldv _ d p _ => [(3, p.val) :: (List.range 8).map fun j => (0, d.val + j)]
  | .lda _ a p _ => [[(1, a.val), (3, p.val)]]
  | .std _ _ p _ | .stw _ _ p _ | .stv _ _ p _ | .sta _ _ p _ => [[(3, p.val)]]
  | .stS _ _ _ _ _ toMem d p _ => [if toMem then [(3, p.val)] else [(0, d.val)]]
  | .movi _ d _ | .alu _ d _ _ _ | .alui _ d _ _ _ | .pwlin _ d _ _ _ | .pha _ d _ _ | .sel _ d _ _ _ =>
    [[(0, d.val)]]
  | .cmpd _ f _ _ _ _ | .flog _ f _ _ _ => [[(2, f.val)]]
  | .setp _ reg j _ => [[(match reg with
      | .p => 3 | .b => 4 | .l => 5, j.val)]]
  | _ => []

/-- Two lists of one bundle share a register. -/
def clash : List (List (Nat × Nat)) → Bool
  | [] => false
  | x :: t => t.any (fun y => x.any fun r => decide (r ∈ y)) || clash t

/-- The four words of bundle `i` of a program image (R180). -/
def bundleWord (m : Tbl Byte) (i k : Nat) : Nat := rdW m (0x300000 + 16 * i + 4 * k)

/-- The syllables of bundle `i`: M0, M1, M2, then the control syllable; `none` for a reserved OP. -/
def readBundle (m : Tbl Byte) (u : Eng) (i : Nat) : List (Option Instr) :=
  [readMac u 0 (bundleWord m i 1), readMac u 1 (bundleWord m i 2), readMac u 2 (bundleWord m i 3),
   readCtl u (bundleWord m i 0)]

/-- A syllable's fields are ones that cause `c` of R194 lets pass; causes 4 to 6 take the control syllables whose
check stands in their row, cause 2 the rest. -/
def fieldCause (i : Instr) : Nat :=
  if i.wf then 0
  else match i with
    | .ldw _ _ _ _ | .stw _ _ _ _ | .ldv _ _ _ _ | .stv _ _ _ _ => 4
    | .skip _ _ _ _ _ => 5
    | .stS _ _ _ _ _ _ _ _ _ => 6
    | _ => 2

/-- The causes of R194 that bundle `i` shows. -/
def bundleCauses (m : Tbl Byte) (i : Nat) : List Nat :=
  let u : Eng := .slot 0
  let syl := readBundle m u i
  let w0 := bundleWord m i 0
  let op := natBits w0 27 5
  let reserved := (syl.take 3).any Option.isNone || decide (0x15 ≤ op)
  let setp3 := op == 0x10 && natBits w0 25 2 == 3
  let alu := (op == 0x0B && natBits w0 8 4 ≥ 14) || (op == 0x0C && natBits w0 13 4 ≥ 14)
  let ok := syl.filterMap id
  (if reserved then [1] else []) ++ (if ctlStray w0 || alu || ok.any (fun x => fieldCause x == 2) then [2] else [])
    ++ (if clash (ok.flatMap dests) then [3] else []) ++ (if ok.any (fun x => fieldCause x == 4) then [4] else [])
    ++ (if ok.any (fun x => fieldCause x == 5) then [5] else [])
    ++ (if setp3 || ok.any (fun x => fieldCause x == 6) then [6] else [])

/-- LENGTH of a program image (R193). -/
def progLength (m : Tbl Byte) : Nat := rdW m 0x304204
/-- ENTRY[s] of a program image. -/
def progEntry (m : Tbl Byte) (s : Nat) : Nat := natBits (rdW m (0x304000 + 4 * s)) 0 10
/-- The CRC over bundles and entry words (R193). -/
def progCrc (m : Tbl Byte) : Nat :=
  crc32 (rdBytes m 0x300000 (16 * min (progLength m) 1024) ++ rdBytes m 0x304000 288)

/-- The image is the ROM image: nothing of its window is listed (R196). -/
def isRom (m : Tbl Byte) : Bool := (m.inside 0x300000 0x304210).isEmpty

/-- A reserved bit of an entry word or word 3 of the header is not 0 (R193). -/
def entryStray (m : Tbl Byte) : Bool :=
  (List.range 72).any (fun s => decide (1024 ≤ rdW m (0x304000 + 4 * s))) || rdW m 0x30420C != 0

/-- The check of R194: cause and lowest failing bundle; cause 0 where the image passes. The ROM image passes (R206). Reserved
bits outside the bundles are cause 2 with bundle 0 where no bundle shows it. (DEDUCED, log 132). -/
def progCheck (m : Tbl Byte) : Nat × Nat :=
  if isRom m then (0, 0)
  else
    let n := min (progLength m) 1024
    let all := (List.range n).map fun i => (i, bundleCauses m i)
    let low := fun c => (all.find? fun x => decide (c ∈ x.2)).map fun x => (c, x.1)
    match (List.range 7).findSome? fun c => (low c).or (if c = 2 ∧ entryStray m then some (2, 0) else none) with
    | some r => r
    | none =>
      if (List.range 72).any fun s => decide (progLength m < progEntry m s + 13) then (7, 0)
      else if progLength m < 1 ∨ 1024 < progLength m ∨ progCrc m ≠ rdW m 0x304208 then (8, 0)
      else (0, 0)

/-- Bundle `i` of the program that starts at `start`, with the count of the bundles that were not suppressed. -/
def runBundle (l : Tbl Byte) (u : Eng) (start : Nat) (x : (Blk × Dp) × Nat) (i : Nat) : (Blk × Dp) × Nat :=
  (bundle u ((readBundle l u ((start + i) % 1024)).filterMap id) x.1, if x.1.2.skip = 0 then x.2 + 1 else x.2)

/-- A slot's 13 bundles of the live program, from a fresh datapath (R166, R167): block, datapath and the count of unsuppressed
bundles. -/
def runProgram (b : Blk) (e : Fin 4608) : (Blk × Dp) × Nat :=
  let u : Eng := .slot e
  let start := progEntry b.live (e.val / 64)
  let r := (List.range 13).foldl (runBundle b.live u start) ((b, { Dp.reset with elem := e.val }), 0)
  ((r.1.1, r.1.2), r.2)

end Sys2Proof.Machine
end

