-- ==== Sys2Proof/Machine/Commit.lean ====
section
/-!
DEFINITION. Table commits (R26, R27, R486 to R488): the checks of shadow tables, why a COMMIT write is rejected, what an
accepted one does, and what takes effect at a tick boundary (R46, R56, R57, R127, R163, R195, R230).
-/
set_option autoImplicit false

namespace Sys2Proof.Machine

/-- Neighbouring equal numbers are written once. -/
def dedupAdj : List Nat → List Nat
  | [] => []
  | x :: t => match dedupAdj t with
    | [] => [x]
    | y :: u => if x = y then y :: u else x :: y :: u

/-- No two entries in one list are out of order: for the 31 steps of a curve. -/
def nonDecreasing (f : Nat → Nat) (n : Nat) : Bool := (List.range n).all fun i => decide (f i ≤ f (i + 1))

/-! ### Element records and curves (R45, R63) -/

/-- A reserved bit of the record is 1 (R42). (DEDUCED, log 105). -/
def recReserved (m : Tbl Byte) (e : Nat) : Bool :=
  let w := recW m e
  natBits (w 0) 28 4 != 0 || natBits (w 2) 16 16 != 0 || natBits (w 8) 16 16 != 0 || natBits (w 29) 16 16 != 0
    || w 30 != 0 || (List.range 19).any fun i => w (9 + i) != 0

/-- The cause for which a shadow record fails (R45), coded as TBL_STAT.CAUSE with the lowest code first; 0 where it
passes. -/
def recCause (m : Tbl Byte) (e : Nat) : Nat :=
  let t := natBits (recW m e 0) 25 3
  if crc32 (rdBytes m (128 * e) 124) ≠ recW m e 31 then 1
  else if rHeater m e < 2000 ∨ 20000 < rHeater m e then 2
  else if t ≠ toneOf e then 3
  else if 112 < xtCount m e ∨ 524288 < xtBase m e + xtCount m e then 4
  else if nonDecreasing (knot m e) 31 = false then 5
  else if recReserved m e then 6
  else if htrMax m e < parkHtr m e ∨ (e < 4352 ∧ natBits (recW m e 2) 0 16 ≠ 0) then 7
  else 0

/-- The elements of which a shadow record or curve byte differs from its reset contents, ascending; every other record
has its reset contents, which pass. -/
def touchedRecs (m : Tbl Byte) : List Nat :=
  let a := dedupAdj ((m.inside 0 0x90000).map fun x => x.1 / 128)
  let c := dedupAdj ((m.inside 0x200000 0x248000).map fun x => (x.1 - 0x200000) / 64)
  dedupAdj ((a ++ c).mergeSort)

/-- The failing shadow records, ascending. -/
def badRecs (m : Tbl Byte) : List Nat := (touchedRecs m).filter fun e => recCause m e != 0

/-- FABRIC.COMMIT (R46, R486, R487). -/
def fabricCommitErrs (v : Word) (b : Blk) : List Nat :=
  if v = 0 then []
  else
    (if b.sys.mode ∈ [Mode.reset, .boot] then [2] else [])
      ++ (if flag b (Reg.HDR.pend 0xC 0) then [3] else [])
      ++ (if (touchedRecs b.shadow ++ touchedRecs b.live).any fun e =>
            loopClass b.shadow e != loopClass b.live e && closed b e then [0x13] else [])
      ++ (if badRecs b.shadow ≠ [] ∨ damaged b 0 0x90000 ∨ damaged b 0x200000 0x248000 then [0x17] else [])

/-- An accepted COMMIT: the selected units of the page show pending (R488). -/
def commitDo (page : Nat) (v : Word) (b : Blk) : Blk :=
  (List.range 32).foldl (fun b j => if v.bit j then setFlag (Reg.HDR.pend page j) true b else b) b

/-- A selected unit's commit is still pending (R487). -/
def commitPending (page : Nat) (v : Word) (b : Blk) : Bool :=
  (List.range 32).any fun j => v.bit j && flag b (Reg.HDR.pend page j)

/-! ### Permutation slots (R49, R55, R56) -/

/-- SIZE of a slot's header. -/
def slotSize (m : Tbl Byte) (s : Nat) : Nat := natBits (rdW m (0x2A0000 + 16 * s)) 0 2

/-- Ports of a SIZE code: 512, 1,024, 2,048. -/
def portsOf (size : Nat) : Nat := 512 * 2 ^ size

/-- The first N entries of a slot. -/
def slotEntries (m : Tbl Byte) (s n : Nat) : List Nat := (List.range n).map fun k => rdH m (0x280000 + 4096 * s + 2 * k)

/-- A permutation is valid: every entry below N or 0xFFFF, and no output twice (R49). -/
def permValid (n : Nat) (es : List Nat) : Bool :=
  let used := (es.filter fun x => x != 0xFFFF).mergeSort
  es.all (fun x => x == 0xFFFF || decide (x < n)) && decide (dedupAdj used = used)

/-- A selected slot fails (R56). -/
def slotBad (m : Tbl Byte) (s : Nat) : Bool :=
  let z := slotSize m s
  let n := portsOf z
  z == 3 || crc32 (rdBytes m (0x280000 + 4096 * s) (2 * n)) != rdW m (0x2A0000 + 16 * s + 8)
    || !permValid n (slotEntries m s n)

/-- ROUTE.COMMIT (R56, R486, R487). -/
def routeCommitErrs (v : Word) (b : Blk) : List Nat :=
  if v = 0 then []
  else
    (if b.sys.mode ∈ [Mode.reset, .boot] then [2] else []) ++ (if commitPending 0xB v b then [3] else [])
      ++ (if (List.range 32).any fun s => v.bit s && (slotBad b.shadow s
            || damaged b (0x280000 + 4096 * s) (0x281000 + 4096 * s) || damaged b (0x2A0000 + 16 * s) (0x2A0010 + 16 * s)) then [0x17] else [])

/-! ### Crosstalk table and step shapes (R217, R230, R231) -/

/-- A CRC carried on over `n` bytes of 0. -/
def crcZeros : Nat → Nat → Nat
  | 0, c => c
  | n + 1, c => crcZeros n (crcByte c 0)

/-- The CRC-32 over `[lo, hi)` of a memory whose unlisted bytes there are 0. -/
def crcSparse (m : Tbl Byte) (lo hi : Nat) : Nat :=
  let r := (m.inside lo hi).foldl (fun (s : Nat × Nat) x =>
    (x.1 + 1, crcByte (crcZeros (x.1 - s.1) s.2) x.2)) (lo, 0xFFFFFFFF)
  crcZeros (hi - r.1) r.2 ^^^ 0xFFFFFFFF

/-- A shadow shape fails: s[255] is not 4,096 (R217). -/
def shapeBad (m : Tbl Byte) (k : Nat) : Bool := rdH m (0x248000 + 512 * k + 510) != 4096

/-- PLAN.COMMIT (R230, R486, R487). -/
def planCommitErrs (v : Word) (b : Blk) : List Nat :=
  if v = 0 then []
  else
    (if b.sys.mode ∈ [Mode.reset, .boot] then [2] else [])
      ++ (if commitPending 0xA v b ∨ (v.bit 0 ∧ flag b Reg.PLAN.XT_STAT.CRC_BUSY) then [3] else [])
      ++ (if (v.bit 0 ∧ (b.xtCrc ≠ getF b Reg.PLAN.XT_CRC.CRC ∨ damaged b 0x100000 0x200000))
            ∨ (v.bit 1 ∧ (((List.range 64).any fun k => shapeBad b.shadow k) ∨ damaged b 0x248000 0x250000)) then [0x17] else [])

/-- XT_CRC_DONE (R231): the CRC over the shadow crosstalk table is available. -/
def xtCrcDone (b : Blk) : Blk :=
  if flag b Reg.PLAN.XT_STAT.CRC_BUSY then
    setFlag Reg.PLAN.XT_STAT.CRC_BUSY false { b with xtCrc := crcSparse b.shadow 0x100000 0x200000 }
  else b

/-- XT_CRC_DONE. -/
def execXtCrcDone (s : State) : Host.Outcome State Fault Refusal := .next { s with b := xtCrcDone s.b }

/-! ### Loop classes (R161 to R163) -/

/-- Shadow word `w` of class `c`. -/
def shClass (b : Blk) (c w : Nat) : Nat := getF b (Reg.LCLASS.CLASS.W (8 * c + w))

/-- Word `w` of a class is outside the ranges of R161. (DEDUCED, log 100). -/
def classWordBad (k : Nat → Nat) (w : Nat) : Bool :=
  let lo := natBits (k w) 0 16
  let hi := natBits (k w) 16 16
  match w with
  | 0 | 1 => decide (32768 ≤ lo ∨ 32768 ≤ hi)
  | 2 => decide (12 < natBits (k 2) 4 4 ∨ natBits (k 2) 8 4 = 0 ∨ natBits (k 2) 12 4 ≠ 0 ∨ hi = 0 ∨ 32768 ≤ hi)
  | 3 => decide (lo = 0 ∨ hi = 0)
  | 4 => decide (hi = 0)
  | 5 => decide (lo ≤ natBits (k 4) 0 16 ∨ hi = 0 ∨ 4096 < hi)
  | 6 => decide (natBits (k 6) 0 8 = 0 ∨ natBits (k 6) 8 8 < 8 ∨ 4096 < hi)
  | _ => decide (k 7 ≥ 2)

/-- Shadow class `c` fails (R162). -/
def classBad (b : Blk) (c : Nat) : Bool := (List.range 8).any fun w => classWordBad (shClass b c) w

/-- The shadow of class `c` differs from its live copy. -/
def classChanged (b : Blk) (c : Nat) : Bool := (List.range 8).any fun w => shClass b c w != classW b c w

/-- LCLASS.COMMIT (R163, R486, R487). -/
def lclassCommitErrs (v : Word) (b : Blk) : List Nat :=
  if v.bits 0 16 = 0 then []
  else
    (if b.sys.mode ∈ [Mode.reset, .boot] then [2] else []) ++ (if commitPending 0xC0 v b then [3] else [])
      ++ (if (List.range 16).any fun c => v.bit c && classChanged b c
            && b.listed.any (fun e => closed b e && loopClass b.live e == c) then [0x13] else [])
      ++ (if (List.range 16).any fun c => v.bit c && classBad b c then [0x17] else [])

/-! ### Monitors and program (R127, R195) -/

/-- The modes of a commit that waits for open loops. -/
def quietMode (b : Blk) : Bool := decide (b.sys.mode ∈ [Mode.idle, .calibrate, .openHold])

/-- SNSn.COMMIT (R127, R486, R487). (DEDUCED, log 86). -/
def snsCommitErrs (n : Nat) (v : Word) (b : Blk) : List Nat :=
  if v = 0 then []
  else (if quietMode b then [] else [2]) ++ (if commitPending (0xA0 + n) v b then [3] else [])

/-- ENG0.COMMIT.PROG (R195, R486, R487). -/
def progCommitErrs (v : Word) (b : Blk) : List Nat :=
  if v = 0 then []
  else
    (if quietMode b then [] else [2]) ++ (if commitPending 0x20 v b then [3] else [])
      ++ (if anyClosed b b.listed then [0x13] else []) ++ (if (progCheck b.shadow).1 ≠ 0 ∨ damaged b 0x300000 0x304210 then [0x17] else [])

/-! ### What takes effect at a tick boundary -/

/-- A frame lies between the start of its planning and its completion event (R27). -/
def planToCompletion (b : Blk) : Bool :=
  b.sched.queue.any fun f => f.stage == .planning || f.stage == .planned || f.stage == .voted || f.stage == .armed
    || f.stage == .launched

/-- A pending unit takes effect with `f` where `p` holds (R488). -/
def takeCommit (page j : Nat) (p : Bool) (f : Blk → Blk) (b : Blk) : Blk :=
  if flag b (Reg.HDR.pend page j) && p then setFlag (Reg.HDR.pend page j) false (f b) else b

/-- A live table takes the shadow's bytes of `[lo, hi)`: what was wrong in its words is gone (R411, R412). -/
def copyLive (lo hi : Nat) (b : Blk) : Blk := healed true lo hi { b with live := copyRange b.shadow b.live lo hi }

/-- SYS.MSTAT.TABLES sets where both tables have been committed since reset (R456). -/
def showTables (b : Blk) : Blk := setFlag Reg.SYS.MSTAT.TABLES (b.sys.tblElem && b.sys.tblXt) b

/-- A queued frame names slot `s` and its solving has not begun (R57): KIND 2 is a stored permutation. A frame that came over
Glewlink names no slot of its own. -/
def slotNamed (b : Blk) (s : Nat) : Bool :=
  b.sched.queue.any fun f => f.stage == .queued && f.kind == 2 && f.slot == s && !f.casc

/-- A member sends its whole ledger image again after a commit that changes model codes (R306). -/
def resendImage (b : Blk) : Blk :=
  if isMember b then { b with glew := { b.glew with imgQ := List.range 2333 } } else b

/-- The shadow element table and curves become live (R46). -/
def takeElements (b : Blk) : Blk :=
  resendImage <| showTables { copyLive 0x200000 0x248000 (copyLive 0 0x90000 b) with sys := { b.sys with tblElem := true } }

/-- The shadow crosstalk table becomes live (R230). -/
def takeCrosstalk (b : Blk) : Blk := resendImage <| showTables { copyLive 0x100000 0x200000 b with sys := { b.sys with tblXt := true } }

/-- The shadow step shapes become live (R230). -/
def takeShapes (b : Blk) : Blk := resendImage (copyLive 0x248000 0x250000 b)

/-- The shadow of permutation slot `s` becomes live (R57). -/
def takeSlot (s : Nat) (b : Blk) : Blk :=
  { copyLive (0x2A0000 + 16 * s) (0x2A0010 + 16 * s) (copyLive (0x280000 + 4096 * s) (0x281000 + 4096 * s) b) with
    permDone := if s ∈ b.permDone then b.permDone else s :: b.permDone }

/-- The shadow of loop class `c` becomes live (R163). -/
def takeClass (c : Nat) (b : Blk) : Blk :=
  { b with clsLive := (List.range 8).foldl (fun t w =>
      t.set (BitVec.ofNat 32 (classResetWord w)) (8 * c + w) (BitVec.ofNat 32 (shClass b c w))) b.clsLive }

/-- The shadow monitor offsets of page SNSn become live (R127). (DEDUCED, log 86). -/
def takeOffsets (n : Nat) (b : Blk) : Blk := copyLive (0x440000 + 4096 * n) (0x441000 + 4096 * n) b

/-- The shadow RTD records become live (R127). -/
def takeRtds (b : Blk) : Blk :=
  { b with rtdLive := (List.range 128).foldl (fun t i => t.set 0 i (BitVec.ofNat 32 (getF b (Reg.SNS.RTD_REC.W i)))) b.rtdLive }

/-- The shadow program, entry table and header become live in every engine (R195). -/
def takeProgram (b : Blk) : Blk :=
  let b := copyLive 0x300000 0x304210 b
  (List.range 68).foldl (fun b e => setF (Reg.ENG.PROG.PROG_ID e) (rdW b.live 0x304200) b) b

/-- Every pending commit whose condition holds takes effect (R26, R27, R46, R56, R57, R127, R163, R195, R230). -/
def commitBoundary (b : Blk) : Blk :=
  let clear := !planToCompletion b
  let b := takeCommit 0xC 0 clear takeElements b
  let b := takeCommit 0xA 0 clear takeCrosstalk b
  let b := takeCommit 0xA 1 clear takeShapes b
  let b := (List.range 32).foldl (fun b s => takeCommit 0xB s (!slotNamed b s) (takeSlot s) b) b
  let b := (List.range 16).foldl (fun b c => takeCommit 0xC0 c true (takeClass c) b) b
  let b := (List.range 9).foldl (fun b n => takeCommit (0xA0 + n) 0 true (takeOffsets n) b) b
  let b := takeCommit 0xA0 1 true takeRtds b
  takeCommit 0x20 0 true takeProgram b

end Sys2Proof.Machine
end

