-- ==== Sys2Proof/Machine/Mon.lean ====
section
/-!
DEFINITION. The performance histograms of page MON (R416, R417, R419).
-/
set_option autoImplicit false

namespace Sys2Proof.Machine

/-- Histogram `h` counts: 0 SETTLE, 1 OCC, 2 EPS, 3 LAT. -/
def histOn (b : Blk) (h : Nat) : Bool := natBits (getF b Reg.MON.CTL.EN) h 1 == 1

/-- One sample in a bin of histogram `h`; a count that reaches its limit sets the HIST_SAT bit. (DEDUCED, log 52). -/
def histAdd (h : Nat) (bin : Fld) (b : Blk) : Blk :=
  let b := incF bin b
  if getF b bin = 2 ^ 32 - 1 then
    setF Reg.MON.HIST_SAT.SAT (getF b Reg.MON.HIST_SAT.SAT ||| 2 ^ h) b
  else b

/-- The minimum and maximum of a histogram take a sample. -/
def histRange (lo hi : Fld) (n : Nat) (b : Blk) : Blk := setF hi (max n (getF b hi)) (setF lo (min n (getF b lo)) b)

/-- A settle time in quarter-nanoseconds (R416). -/
def monSettle (t : Nat) (b : Blk) : Blk :=
  if histOn b 0 then
    let bin := min 63 ((t - 125 * getF b Reg.MON.SETTLE_CFG.BASE) / 125)
    incF Reg.MON.SETTLE_N.COUNT (histRange Reg.MON.SETTLE_MIN.NS Reg.MON.SETTLE_MAX.NS (t / 4)
      (histAdd 0 (Reg.MON.SETTLE_BIN.COUNT bin) b))
  else b

/-- Unsuppressed bundles of one logical engine in a tick (R416). -/
def monOcc (n : Nat) (b : Blk) : Blk :=
  if histOn b 1 then
    histRange Reg.MON.OCC_MINMAX.MIN Reg.MON.OCC_MINMAX.MAX n (histAdd 1 (Reg.MON.OCC_BIN.COUNT (min 63 (64 * n / 936))) b)
  else b

/-- An EPS_MAX code of an element in TRACK (R416). -/
def monEps (n : Nat) (b : Blk) : Blk :=
  if histOn b 2 ∧ n ≠ 0xFFFF then
    histRange Reg.MON.EPS_MINMAX.MIN Reg.MON.EPS_MINMAX.MAX n
      (histAdd 2 (Reg.MON.EPS_BIN.COUNT (if n ≤ 1 then 0 else (n ^ 4).log2)) b)
  else b

/-- Histogram `h` cleared: bins, HIST_SAT bit, minimum and maximum (R417). -/
def histClear (h : Nat) (b : Blk) : Blk :=
  let b := setF Reg.MON.HIST_SAT.SAT (getF b Reg.MON.HIST_SAT.SAT &&& (15 - 2 ^ h)) b
  let clr := fun (n : Nat) (f : Nat → Fld) (b : Blk) => (List.range n).foldl (fun b i => setF (f i) 0 b) b
  match h with
  | 0 => setF Reg.MON.SETTLE_N.COUNT 0 (setF Reg.MON.SETTLE_MAX.NS 0 (setF Reg.MON.SETTLE_MIN.NS 0xFFFFFFFF
      (clr 64 Reg.MON.SETTLE_BIN.COUNT b)))
  | 1 => setF Reg.MON.OCC_MINMAX.MAX 0 (setF Reg.MON.OCC_MINMAX.MIN 1023 (clr 64 Reg.MON.OCC_BIN.COUNT b))
  | 2 => setF Reg.MON.EPS_MINMAX.MAX 0 (setF Reg.MON.EPS_MINMAX.MIN 0xFFFF (clr 64 Reg.MON.EPS_BIN.COUNT b))
  | _ => (List.range 7).foldl (fun b m => setF (Reg.MON.LAT_MINMAX.MAX m) 0 (setF (Reg.MON.LAT_MINMAX.MIN m) 0xFFFF b))
      (clr 224 Reg.MON.LAT_BIN.COUNT b)

/-- A field takes a free value. -/
def setFree (f : Fld) (b : Blk) : Blk := let x := takeFree b; setF f x.1.toNat x.2

/-- The LAT histogram stops counting: what it has counted by then is open, for the spec gives no latency (R416, R417).
(DESIGN CHOICE, log 53). -/
def latStop (b : Blk) : Blk :=
  let b := (List.range 224).foldl (fun b i => setFree (Reg.MON.LAT_BIN.COUNT i) b) b
  let b := (List.range 7).foldl (fun b m => setFree (Reg.MON.LAT_MINMAX.MAX m) (setFree (Reg.MON.LAT_MINMAX.MIN m) b)) b
  let x := takeFree b
  setF Reg.MON.HIST_SAT.SAT (getF b Reg.MON.HIST_SAT.SAT % 8 + x.1.toNat % 2 * 8) x.2

/-- A read of offset `off` of the MON page while LAT counts: its bins, minima and maxima, and its HIST_SAT bit, are free values; `v`
is what the field file holds (R416). (DESIGN CHOICE, log 53). -/
def latRead (off v : Nat) (b : Blk) : Nat × Blk :=
  if histOn b 3 = false then (v, b)
  else if (0x80 ≤ off ∧ off < 0x9C) ∨ (0x400 ≤ off ∧ off < 0x780) then let x := takeFree b; (x.1.toNat, x.2)
  else if off = 0x64 then let x := takeFree b; (v % 8 + x.1.toNat % 2 * 8, x.2)
  else (v, b)

/-- A write of MON.CTL: the enables, and the histograms whose CLEAR bit is 1 (R417). -/
def monCtlDo (v : Word) (b : Blk) : Blk :=
  let b := if histOn b 3 && !v.bit 3 then latStop b else b
  (List.range 4).foldl (fun b h => if v.bit (8 + h) then histClear h b else b) (setF Reg.MON.CTL.EN (v.bits 0 4) b)

end Sys2Proof.Machine
end

