-- ==== Sys2Proof/Machine/Loops.lean ====
section
/-!
DEFINITION. The element loops (R130 to R160) as the standard loop program 3.2 runs them in an engine slot (R166, R200
to R203, R223), and the slot itself.
-/
set_option autoImplicit false

namespace Sys2Proof.Machine

/-! ### The context words of program 3.2 (R201, R221) -/

/-- The fields that a slot reads and writes. -/
structure Cx where
  hLast : Nat
  tLast : Nat
  ff : Int
  ffH : Int
  hH : Nat
  tH : Nat
  i : Int
  dst : Int
  ePrev : Int
  eLast : Int
  tRes : Int
  base : Int
  down : Bool
  since : Nat
  nOut : Nat
  nSat : Nat
  nIn : Nat
  useC : Nat
  hptr : Nat
  epsLast : Nat
  hE : Nat
  ffE : Int
  fill : Bool
  sat : Bool
  model : Bool
  cause : Nat
  si : Int
  sd : Int
  ffNext : Int
  pend : Bool
  idx : Int
  lh : Nat
  lt : Nat
deriving DecidableEq, Repr

/-- Context word `w` of element `e`. -/
def cw (m : Tbl Byte) (e w : Nat) : Nat := rdW m (ctxAddr e w)

/-- Context word `w` of element `e` written. -/
def cwSet (e w v : Nat) (m : Tbl Byte) : Tbl Byte := wrW m (ctxAddr e w) v

/-- The fields of element `e`'s live context. -/
def readCx (m : Tbl Byte) (e : Nat) : Cx :=
  let w := cw m e
  { hLast := natBits (w 0) 0 16, tLast := natBits (w 0) 16 16, ff := sext 16 (w 1), ffH := sext 16 (w 1 / 65536)
    hH := natBits (w 2) 0 16, tH := natBits (w 2) 16 16, i := sext 32 (w 3), dst := sext 32 (w 4)
    ePrev := sext 16 (w 5), eLast := sext 16 (w 5 / 65536), tRes := sext 17 (w 6), base := sext 18 (w 7)
    down := natBits (w 7) 18 1 == 1, since := natBits (w 7) 24 8, nOut := natBits (w 8) 0 16
    nSat := natBits (w 8) 16 16, nIn := natBits (w 9) 0 16, useC := natBits (w 9) 16 8, hptr := natBits (w 9) 24 3
    epsLast := natBits (w 10) 0 16, hE := natBits (w 11) 0 16, ffE := sext 16 (w 11 / 65536)
    fill := natBits (w 12) 0 1 == 1, sat := natBits (w 12) 1 1 == 1, model := natBits (w 12) 2 1 == 1
    cause := natBits (w 12) 3 3, si := sext 32 (w 13), sd := sext 32 (w 14)
    ffNext := sext 16 (w 40), pend := natBits (w 40) 16 1 == 1, idx := sext 8 (w 42)
    lh := natBits (w 41) 0 16, lt := natBits (w 41) 16 16 }

/-- A flag as a number. -/
def b2n (p : Bool) : Nat := if p then 1 else 0

/-- The fields written back: words 0 to 14, 0 in the reserved words 32 to 39, FF_PEND of word 40 and IDX of word 42. -/
def writeCx (e : Nat) (c : Cx) (m : Tbl Byte) : Tbl Byte :=
  let ws : List Nat :=
    [c.hLast + c.tLast * 65536, toBits 16 c.ff + toBits 16 c.ffH * 65536, c.hH + c.tH * 65536, toBits 32 c.i,
     toBits 32 c.dst, toBits 16 c.ePrev + toBits 16 c.eLast * 65536, toBits 17 c.tRes,
     toBits 18 c.base + b2n c.down * 262144 + c.since * 16777216, c.nOut + c.nSat * 65536,
     c.nIn + c.useC * 65536 + c.hptr * 16777216, c.epsLast, c.hE + toBits 16 c.ffE * 65536,
     b2n c.fill + b2n c.sat * 2 + b2n c.model * 4 + c.cause * 8, toBits 32 c.si, toBits 32 c.sd]
  let m := ws.zipIdx.foldl (fun m x => cwSet e x.2 x.1 m) m
  let m := (List.range 8).foldl (fun m i => cwSet e (32 + i) 0 m) m
  let m := wrB m (ctxAddr e 40 + 2) (byteOf ((rdB m (ctxAddr e 40 + 2)).toNat / 2 * 2 + b2n c.pend) 0)
  wrB m (ctxAddr e 42) (byteOf (toBits 8 c.idx) 0)

/-! ### The slot's working state -/

/-- The entry that the law step performs. -/
inductive Ent where
  | none | pid | preset | fallback
deriving DecidableEq, Repr

/-- What a slot of program 3.2 works on: the element, its context, sources 0 to 3 of R164 raised, the entry to perform,
the codes for OUT, and what it asks of the rest of the block: ABORTED for its tracker, the ARM bit cleared, a
saturation counted. -/
structure Sl where
  x : Elem
  c : Cx
  ev : List Nat
  ent : Ent
  out : Option (Nat × Nat)
  unarm : Bool
  sats : Nat
deriving DecidableEq, Repr

/-- What a slot reads beside its element: block, element number, state byte, record, class words. -/
structure SlIn where
  b : Blk
  e : Nat
  st : Nat
  mr : MonRec
  k : Nat → Nat

/-- A slot's state changes. (DEDUCED, log 29). -/
def Sl.goto (st : LoopState) (ent : Ent) (s : Sl) : Sl :=
  { s with x := { s.x with lp := { s.x.lp with st := st } }, ent := ent }

/-- Entry to TRACK from a state that holds its codes: the residual is taken from the held trim code (R146, R151). -/
def Sl.resume (s : Sl) : Sl := { s with c := { s.c with tLast := s.c.tH } }.goto .track .pid

/-- Nothing is left of a TRANSIT that ends otherwise than by its exit: no held flag and no exit change (R137, R160). -/
def Sl.endTransit (s : Sl) : Sl := { s with x := { s.x with lp := { s.x.lp with heldFl := 0, exitTo := .track } } }

/-- The element leaves the freeze set. -/
def Sl.unfreeze (s : Sl) : Sl := { s with x := { s.x with lp := { s.x.lp with inFreeze := false } } }

/-- The element joins the freeze set. -/
def Sl.joinFreeze (s : Sl) : Sl := { s with x := { s.x with lp := { s.x.lp with inFreeze := true } } }

/-- The exit change of a TRANSIT element (R160, R458). -/
def Sl.setExit (st : LoopState) (s : Sl) : Sl := { s with x := { s.x with lp := { s.x.lp with exitTo := st } } }

/-- Entry to PARKED: no PID state, no ARM bit (R154, R215). (DEDUCED, log 29). -/
def Sl.park (s : Sl) : Sl :=
  let c := { s.c with i := 0, dst := 0, tRes := 0, nOut := 0, nSat := 0, nIn := 0, fill := false, sat := false
                      model := false }
  ({ s with c := c, unarm := true }.goto .parked .none).unfreeze.endTransit

/-- h_H, the held trim code and FF_H from the last slot (R132). (DEDUCED, log 26). -/
def Sl.store (s : Sl) : Sl :=
  { s with c := { s.c with hH := s.c.hLast, tH := s.c.tLast, ffH := s.x.lp.ffLast } }

/-- Entry to HOLD (R132). -/
def Sl.hold (s : Sl) : Sl := s.store.goto .hold .none

/-- Entry to DARK (R140). -/
def Sl.dark (s : Sl) : Sl := { s.store.goto .dark .none with ev := s.ev ++ [3] }

/-- Entry to FAULT with the flags that caused it (R139, R215, R459). `moves` says that a planned frame moves the
element, which keeps its ARM bit. -/
def Sl.fault (moves : Bool) (flags : Nat) (s : Sl) : Sl :=
  let t := (s.store.goto .fault .none).unfreeze
  { t with c := { t.c with cause := flags }, ev := t.ev ++ [1], unarm := t.unarm || !moves }

/-- FREEZE, TOPSAT and DITH_LOW of a record as CAUSE bits; DITH_LOW is not acted on where the state byte is blank
(R139). (DEDUCED, log 27). -/
def recFlags (st : Nat) (r : MonRec) : Nat :=
  b2n r.freeze + 2 * b2n r.topsat + (if st = 2 then 0 else 4 * b2n r.dithLow)

/-! ### Step 0: the window, FF at a launch -/

/-- FF_NEXT is taken where the element was launched (R223), and the launch codes of a moved element are its last output
until a slot of its trajectory has run (R35, R221). -/
def Sl.takeFf (s : Sl) : Sl :=
  let s := if s.x.lp.launched ∧ s.c.pend then { s with c := { s.c with ff := s.c.ffNext, pend := false } } else s
  if s.x.lp.launched ∧ s.x.lp.moved then { s with c := { s.c with hLast := s.c.lh, tLast := s.c.lt } } else s

/-- The record is usable (R141). (DEDUCED, log 27). -/
def usable (q : SlIn) (s : Sl) : Bool :=
  decide (0 < q.b.tick) && q.mr.lit && !(q.mr.freeze || q.mr.topsat || q.mr.dithLow) && s.x.sns.dithPrev
    && s.x.lp.launchQ.all fun t => decide (t ≤ 4000 * (q.b.tick - 1))

/-- The ring entry that holds `I_A - I_B` of a record, or its SUM_D; sums run over the last eight records (R142). -/
def ringSum (m : Tbl Byte) (e w : Nat) : Int :=
  satS32 ((List.range 8).foldl (fun n j => n + sext 32 (cw m e (w + j))) 0)

/-- The rings take the record; the block's live memory changes at once. -/
def pushRings (q : SlIn) (hptr : Nat) (m : Tbl Byte) : Tbl Byte :=
  cwSet q.e (24 + hptr) (toBits 32 q.mr.sumD) (cwSet q.e (16 + hptr) (toBits 32 (q.mr.iA - q.mr.iB)) m)

/-- The window's sums and count after the record is taken. -/
def Sl.window (q : SlIn) (m : Tbl Byte) (s : Sl) : Sl :=
  { s with c := { s.c with
      si := ringSum m q.e 16, sd := ringSum m q.e 24, hptr := (s.c.hptr + 1) % 8
      useC := if usable q s then satInc 255 s.c.useC else 0 } }

/-- The error window is valid (R141). -/
def Sl.valid (s : Sl) : Bool := decide (8 ≤ s.c.useC)

/-- The lock error by the sequence of R202, with a saturation flag (R176). -/
def lockError (q : SlIn) (c : Cx) : Int × Bool :=
  let kd := normCount c.sd
  let ks := normCount c.si
  let satd := fun (n : Int) (sh : Nat) => satS16 (rne n (2 ^ sh))
  let md := satd (shiftA c.sd kd) 16
  let ms := satd (shiftA c.si ks) 16
  let rq := satd (satA (rcp (toHalf md)).1) 17
  let neg := (q.st ≠ 0) != decide (trimK1 q.b.live q.e < 0)
  let p := if neg then -(ms * rq) else ms * rq
  let sh := clampI (-40) 40 (kd - ks + natBits (q.k 2) 4 4 + 2)
  let a := shiftA p sh
  (satd (satA a) 16, accOver a)

/-! ### Steps 1 to 5 -/

/-- The hand-over decided in the slot before (R135, R149, R150). (DEDUCED, log 28). -/
def Sl.handOver (s : Sl) : Sl :=
  let t := { s with x := { s.x with lp := { s.x.lp with hand := .none } } }
  match s.x.lp.hand, s.x.lp.st with
  | .toFallback, .track => t.goto .fallback .fallback
  | .toTrack, .fallback => t.goto .track .pid
  | _, _ => t

/-- A mode entry (R160, R458): `old` is the mode left. (DEDUCED, log 88). -/
def Sl.modeEntry (frozen : Bool) (live : Nat × Nat) (old m : Mode) (s : Sl) : Sl :=
  let st := s.x.lp.st
  match m with
  | .reset | .boot | .safe | .shutdown => s.park
  | .idle => if st = .transit then s.setExit .parked else s.park
  | .calibrate =>
    { (s.goto .hold .none).endTransit with c := { s.c with hH := live.1, tH := live.2, ffH := s.c.ff } }
  | .openHold =>
    match st with
    | .track | .fallback | .dark => s.hold
    | .transit => s.setExit .hold
    | _ => s
  | .track | .transition | .degraded | .thermalLimit =>
    if old = .openHold ∧ st = .hold then (if frozen then s.joinFreeze else s.resume) else s
  | .factoryTest => s

/-- The mode entries that the element's slots have not seen, in order, each with the mode before it.
(DEDUCED, log 88). -/
def unseenEntries (b : Blk) (x : Elem) : List (Mode × Mode) :=
  ((Mode.reset :: b.sys.entries).zip b.sys.entries).drop x.lp.seen

/-- FREEZE_N in step 1 (R458, R460). -/
def Sl.freeze (b : Blk) (s : Sl) : Sl :=
  if b.sys.mode.working then
    if b.sys.frozenTick then
      match s.x.lp.st with
      | .track | .fallback | .dark => s.hold.joinFreeze
      | .transit => (s.setExit .hold).joinFreeze
      | _ => s
    else if s.x.lp.inFreeze then
      match s.x.lp.st with
      | .hold => s.resume.unfreeze
      | .transit => (s.setExit .track).unfreeze
      | _ => s.unfreeze
    else s
  else s

/-- The host command of the slot (R157): 1 OPEN, 2 CLOSE, 3 PARK. -/
def Sl.command (op : Nat) (s : Sl) : Sl :=
  match op, s.x.lp.st with
  | 1, .fault => s.goto .hold .none
  | 1, .track | 1, .fallback | 1, .dark => s.hold
  | 2, .hold | 2, .fault => s.resume
  | 2, .parked => s.goto .track .preset
  | 3, .transit => s
  | 3, _ => s.park
  | _, _ => s

/-- Exit from TRANSIT (R137), with the exit change of a mode entry; `flags` are those of the present record. The result
carries the flags to be evaluated in step 4. -/
def Sl.exit (leave : Bool) (flags : Nat) (s : Sl) : Sl × Nat :=
  if s.x.lp.st = .transit then
    if leave then
      let f := s.x.lp.heldFl ||| flags
      let t := { s with x := { s.x with lp := { s.x.lp with heldFl := 0, exitTo := .track } } }
      match s.x.lp.exitTo with
      | .parked => (t.park, f)
      | .hold => (t.hold, f)
      | _ => (t.goto .track .pid, f)
    else ({ s with x := { s.x with lp := { s.x.lp with heldFl := s.x.lp.heldFl ||| flags } } }, 0)
  else (s, flags)

/-- The integrity check (R139). -/
def Sl.integrity (moves : Bool) (flags : Nat) (s : Sl) : Sl :=
  match s.x.lp.st with
  | .track | .fallback | .dark | .hold => if flags = 0 then s else s.fault moves flags
  | _ => s

/-- The light check (R140, R141). -/
def Sl.light (q : SlIn) (s : Sl) : Sl :=
  match s.x.lp.st with
  | .track | .fallback => if q.mr.lit then s else s.dark
  | .dark => if natBits (q.k 6) 8 8 ≤ s.c.useC then s.resume else s
  | _ => s

/-! ### Step 6 and 7: the laws -/

/-- One heater code as a heater fraction in the accumulator (R144). -/
def frac (n : Int) : Int := n * 32768

/-- The trim code of TRACK and FALLBACK, and the residual's decay (R146). (DEDUCED, log 26). -/
def Sl.trim (q : SlIn) (s : Sl) : Nat × Sl :=
  let t := (clampI 0 65535 (trmCentre q.b.live q.e + s.c.tRes)).toNat
  let d : Int := max 1 (s.c.tRes.natAbs / 2 ^ natBits (q.k 2) 8 4 : Nat)
  let r := if 0 < s.c.tRes then max 0 (s.c.tRes - d) else if s.c.tRes < 0 then min 0 (s.c.tRes + d) else 0
  (t, { s with c := { s.c with tRes := r } })

/-- HTR_MAX of the element. -/
def SlIn.hmax (q : SlIn) : Int := htrMax q.b.live q.e

/-- The integrator value of an entry, held to its limits (R145, R153). -/
def Sl.setI (q : SlIn) (i : Int) (s : Sl) : Sl :=
  let lim := frac q.hmax
  { s with c := { s.c with i := clampI 0 lim i }, ev := if i < 0 ∨ lim < i then s.ev ++ [0] else s.ev }

/-- The lock error of the slot, stored as E_LAST, in each slot whose window is valid; a blank element has none (R142, R147).
(DEDUCED, log 26). -/
def Sl.error (q : SlIn) (s : Sl) : Sl :=
  if s.valid ∧ q.st ≠ 2 then
    let e := lockError q s.c
    { s with c := { s.c with eLast := e.1 }, sats := s.sats + (if e.2 then 1 else 0) }
  else { s with c := { s.c with eLast := 0 } }

/-- P, KI and KD terms: gain × error scaled down by G_SH. -/
def gain (g e : Int) (sh : Nat) : Int := (2 * g * e) / ((2 ^ sh : Nat) : Int)

/-- The counters of R149 after a law step that formed an error: n_out, n_sat, and the hand-over to FALLBACK. -/
def Sl.count (q : SlIn) (sat : Bool) (s : Sl) : Sl :=
  let nOut := if sext 16 (q.k 2 / 65536) < s.c.eLast.natAbs then satInc 65535 s.c.nOut else 0
  let nSat := if sat then satInc 65535 s.c.nSat else 0
  let past := natBits (q.k 7) 0 1 = 1 ∧ (natBits (q.k 3) 0 16 ≤ nOut ∨ natBits (q.k 3) 16 16 ≤ nSat)
  { s with c := { s.c with nOut := if past then 0 else nOut, nSat := if past then 0 else nSat }
           ev := if past then s.ev ++ [2] else s.ev
           x := if past then { s.x with lp := { s.x.lp with hand := .toFallback } } else s.x }

/-- PID entry (R151): the heater code and the slot after it. An entry with a valid window is no slot of the window fill, so it
counts (R149); it runs no law that could saturate. (DEDUCED, log 125). -/
def Sl.pidEntry (q : SlIn) (s : Sl) : Int × Sl :=
  let hl : Int := s.c.hLast
  if s.valid then
    let p := gain (sext 16 (q.k 0)) s.c.eLast (natBits (q.k 2) 0 4)
    (hl, (({ s with c := { s.c with dst := 0, ePrev := s.c.eLast, fill := false } }).setI q
      (frac hl - frac s.c.ff - p)).count q false)
  else (hl, ({ s with c := { s.c with dst := 0, fill := true } }).setI q (frac hl - frac s.c.ff))

/-- The PID law and the counters of R149 (R144). (DEDUCED, log 26). -/
def Sl.pid (q : SlIn) (t : Sl) : Int × Sl :=
  let g := natBits (q.k 2) 0 4
  let e := t.c.eLast
  let p := gain (sext 16 (q.k 0)) e g
  let dn := t.c.dst + (sext 16 (q.k 1 / 65536) * (gain (sext 16 (q.k 1)) (e - t.c.ePrev) g - t.c.dst)) / 32768
  let di := gain (sext 16 (q.k 0 / 65536)) e g
  let f := frac t.c.ff
  let h := frac q.hmax
  let tot := t.c.i + di + p + dn + f
  let i := clampI 0 h (if (h < tot ∧ 0 < di) ∨ (tot < 0 ∧ di < 0) then t.c.i else t.c.i + di)
  let u := i + p + dn + f
  let sat := decide (u < 0 ∨ h < u)
  (clampI 0 q.hmax (rne u 32768),
   ({ t with c := { t.c with i := i, dst := satS32 dn, ePrev := e, sat := sat } }).count q sat)

/-- The model preset's heater code (R48, R155). -/
def presetCode (q : SlIn) (s : Sl) : Int := clampI 0 q.hmax (curveCode q.b.live q.e (phiOf q.b.live q.e q.st) + s.c.ff)

/-- TRACK (R144, R147, R151, R155). The model preset holds its integrator to the limits of R145 as a PID entry does, with
HANDOVER_CLAMP. (DESIGN CHOICE, log 126). -/
def Sl.track (q : SlIn) (s : Sl) : (Int × Nat) × Sl :=
  let code := presetCode q s
  let s := match s.ent with
    | .preset => { s with c := { s.c with tRes := 0 } }
    | .pid => { s with c := { s.c with tRes := (s.c.tLast : Int) - trmCentre q.b.live q.e } }
    | _ => s
  let r : Int × Sl :=
    if q.st = 2 then
      if s.ent = .none then
        (clampI 0 q.hmax (s.c.hE + s.c.ff - s.c.ffE), s)
      else
        let h := if s.ent = .preset then code else s.c.hLast
        (h, { s with c := { s.c with hE := h.toNat, ffE := s.c.ff, model := true, fill := false } })
    else
      let s := { s with c := { s.c with model := false } }
      if s.ent = .preset then
        (code, ({ s with c := { s.c with dst := 0, fill := true } }).setI q (frac code - frac s.c.ff))
      else if s.ent = .pid ∨ (s.c.fill ∧ s.valid) then s.pidEntry q
      else if s.c.fill then (clampI 0 q.hmax (rne (s.c.i + frac s.c.ff) 32768), s)
      else if s.valid then s.pid q
      else s.pidEntry q
  let t := r.2.trim q
  ((r.1, t.1), t.2)

/-- FALLBACK (R148, R150, R152); `eLast` is the last e. -/
def Sl.fallback (q : SlIn) (eLast : Int) (s : Sl) : (Int × Nat) × Sl :=
  let eps := q.mr.epsMax
  let r : Int × Sl :=
    if s.ent = .fallback then
      (s.c.hLast, { s with c := { s.c with
        base := (s.c.hLast : Int) - s.c.ff, down := decide (eLast < 0), since := 1
        tRes := (s.c.tLast : Int) - trmCentre q.b.live q.e } })
    else
      let rev := decide (natBits (q.k 6) 0 8 ≤ s.c.since ∧ natBits (q.k 5) 0 16 ≤ eps ∧ s.c.epsLast < eps)
      let down := s.c.down != rev
      let step : Int := natBits (q.k 5) 16 16
      let bs := clampI (-s.c.ff) (q.hmax - s.c.ff) (s.c.base + (if down then -step else step))
      (clampI 0 q.hmax (bs + s.c.ff), { s with c := { s.c with
        base := bs, down := down, since := satInc 255 (if rev then 0 else s.c.since) } })
  let s := r.2
  let nIn := if eps < natBits (q.k 4) 0 16 then satInc 65535 s.c.nIn else 0
  let back := decide (natBits (q.k 4) 16 16 ≤ nIn)
  let s := { s with c := { s.c with nIn := if back then 0 else nIn }
                    x := if back then { s.x with lp := { s.x.lp with hand := .toTrack } } else s.x }
  let t := s.trim q
  ((r.1, t.1), t.2)

/-- The trajectory (R223). -/
def Sl.transit (q : SlIn) (s : Sl) : (Int × Nat) × Sl :=
  let k := (clampI 0 15 s.c.idx).toNat
  let h := rdH q.b.live (ctxAddr q.e 43 + 2 * k)
  let t := rdH q.b.live (ctxAddr q.e 51 + 2 * k)
  (((h : Int), t), { s with c := { s.c with idx := min (s.c.idx + 1) 15 } })

/-- The law of the resulting state (R130). -/
def Sl.law (q : SlIn) (eLast : Int) (s : Sl) : (Int × Nat) × Sl :=
  match s.x.lp.st with
  | .parked => (((parkHtr q.b.live q.e : Int), parkTrm q.b.live q.e), s)
  | .hold | .dark => ((clampI 0 q.hmax (s.c.hH + s.c.ff - s.c.ffH), s.c.tH), s)
  | .fault => (((s.c.hH : Int), s.c.tH), s)
  | .transit => s.transit q
  | .track => s.track q
  | .fallback => s.fallback q eLast

/-- Steps 6 and 7 with OUT; in CALIBRATE no codes are written, and the held codes are the live codes (R134). -/
def Sl.lawStep (q : SlIn) (s : Sl) : Sl :=
  let eLast := s.c.eLast
  let s := s.error q
  if q.b.sys.mode = .calibrate then
    let h := s.x.drv.htrLive.toNat
    let t := s.x.drv.trmLive.toNat
    { s with c := { s.c with hLast := h, tLast := t, hH := h, tH := t, ffH := s.c.ff } }
  else
    let r := s.law q eLast
    let s := r.2
    let c := { s.c with hLast := r.1.1.toNat, tLast := r.1.2
                        fill := s.c.fill && s.x.lp.st == .track, model := s.c.model && s.x.lp.st == .track }
    { s with c := c, out := some (r.1.1.toNat, r.1.2) }

/-! ### The slot -/

/-- A planned frame moves the element (R215). -/
def planMoves (b : Blk) (e : Nat) : Bool :=
  b.sched.queue.any fun f =>
    (f.stage == .planned || f.stage == .voted || f.stage == .armed) && natBits (f.states.getD e 0).toNat 4 1 == 1

/-- The slot of element `e` under program 3.2, in the order of R135. -/
def romSlot (q : SlIn) (moves : Bool) (m : Tbl Byte) (s : Sl) : Sl :=
  let frozen := q.b.sys.frozenTick
  let live := (s.x.drv.htrLive.toNat, s.x.drv.trmLive.toNat)
  let s := (s.takeFf.window q m).handOver
  let s := ((unseenEntries q.b s.x).foldl (fun s p => s.modeEntry frozen live p.1 p.2) s).freeze q.b
  let s := s.command (estCmd q.b q.e s.x)
  let r := s.exit (estDeliv q.b s.x || estSettle q.b s.x) (recFlags q.st q.mr)
  let s := ((r.1.integrity moves r.2).light q).lawStep q
  { s with c := { s.c with epsLast := q.mr.epsMax } }

/-- A tracker is aborted where its element became PARKED in its window by SAFE or SHUTDOWN (R226). -/
def abortTrack (b : Blk) (k : Tracker) : Tracker :=
  if k.outcome = .tracking ∧ b.q < k.tEnd then { k with outcome := .aborted } else k

/-- The first element that raised HANDOVER_CLAMP or LOOP_FAULT (R164, R165). -/
def lclassFirst (e i : Nat) (b : Blk) : Blk :=
  if i = 0 ∧ !flag b Reg.LCLASS.FIRST.V_CLAMP then
    setF Reg.LCLASS.FIRST.E_CLAMP e (setFlag Reg.LCLASS.FIRST.V_CLAMP true b)
  else if i = 1 ∧ !flag b Reg.LCLASS.FIRST.V_FAULT then
    setF Reg.LCLASS.FIRST.E_FAULT e (setFlag Reg.LCLASS.FIRST.V_FAULT true b)
  else b

/-- The members of the freeze set are counted in SYS.FREEZE.HELD. -/
def countFreeze (was now : Bool) (b : Blk) : Blk :=
  if was = now then b
  else setF Reg.SYS.FREEZE.HELD (if now then getF b Reg.SYS.FREEZE.HELD + 1 else getF b Reg.SYS.FREEZE.HELD - 1) b

/-- The result of slot `s` of engine `g` passes the check of R360 and R361, and its tick codes reach the drive. -/
def slotOut (g s e : Nat) (r : SlotRes) (b : Blk) : Blk :=
  let y := checkSlot g s r b
  match y.1.codes with
  | none => y.2
  | some c => updElem e (fun x => { x with drv := { x.drv with htrTick := c.1, trmTick := c.2 } }) y.2

/-- AFFECTED and SKIPPED of the command in its tick (R165, R171). (DEDUCED, log 30). -/
def countCmd (e : Nat) (x0 x1 : Elem) (b : Blk) : Blk :=
  match b.cmd with
  | some c =>
    if c.tick = b.tick ∧ inScope b c e then
      let b := if cmdSkips b c e x0 then
          setF Reg.LCLASS.CMD_STAT.SKIPPED (getF b Reg.LCLASS.CMD_STAT.SKIPPED + 1) b else b
      if x0.lp.st ≠ x1.lp.st then setF Reg.LCLASS.CMD_STAT.AFFECTED (getF b Reg.LCLASS.CMD_STAT.AFFECTED + 1) b else b
    else b
  | none => b

/-- OCC of engine `g` in the present tick takes a slot of `n` unsuppressed bundles (R206). -/
def countOcc (g n : Nat) (b : Blk) : Blk :=
  let r := engRt b g
  setEngRt g { r with occMin := min r.occMin n, occMax := max r.occMax n, occSum := r.occSum + n } b

/-- OCC of serving engine `g` and of the standbys that run its slots beside it (R23, R359, R361). -/
def countOccs (g n : Nat) (b : Blk) : Blk := (g :: copiers b g).foldl (fun b k => countOcc k n b) b

/-- The unsuppressed bundles of a slot with an open count `n`: the first bundle is never suppressed, so there are 1 to 13
(R166, R191, R200). (DESIGN CHOICE, log 16). -/
def openOcc (n : Nat) : Nat := 1 + n % 13

/-- What the comparator sees of a slot of program 3.2 (R360): the codes of OUT, the context words 0 to 42, and the state.
(DEDUCED, log 31). -/
def romRes (e : Nat) (m : Tbl Byte) (out : Option (Nat × Nat)) (st : LoopState) : SlotRes :=
  { codes := out.map fun c => (BitVec.ofNat 16 c.1, BitVec.ofNat 16 c.2)
    writes := (List.range 43).map fun w => (2 * w, cw m e w), state := some st }

/-- Element `e` has entered PARKED: a plan that found it PARKED before does not arm it any more (R215). -/
def dropParked (e : Nat) (b : Blk) : Blk :=
  if anyStage b .planning then
    { b with sched := { b.sched with queue := b.sched.queue.map fun f =>
      if f.stage = .planning then { f with wasParked := f.wasParked.filter fun k => k != e } else f } }
  else b

/-- What follows a slot of program 3.2 on engine `g` that took its element from `x0` to `x1`: counts, events and OUT. How
many of its bundles are not suppressed is open (R200). (DESIGN CHOICE, log 16). -/
def slotAfter (g s e : Nat) (x0 x1 : Elem) (r : Sl) (b : Blk) : Blk :=
  let b := countFreeze x0.lp.inFreeze x1.lp.inFreeze (countCmd e x0 x1 b)
  let b := r.ev.foldl (fun b i => raise (8 * g + i) (lclassFirst e i b)) b
  let b := if r.sats = 0 then b else diagAll Reg.ENG.DIAG.ACC_SAT g b
  let b := if r.unarm then dropParked e b else b
  slotOut g s e (romRes e b.live r.out x1.lp.st) (countOccs g (openOcc (Config.romBundles s)) b)

/-- A slot of program 3.2 for element `e` on engine `g` (R200 to R203). (DESIGN CHOICE, log 16). -/
def slotRom (g s e : Nat) (b : Blk) : Blk :=
  let x0 := b.elem e
  let cls := loopClass b.live e
  let q0 : SlIn := { b := b, e := e, st := (sbyteAt x0 b.q).toNat % 4, mr := x0.sns.prev, k := classW b cls }
  let c0 := readCx b.live e
  let m := pushRings q0 c0.hptr b.live
  let r := romSlot q0 (planMoves b e) m { x := x0, c := c0, ev := [], ent := .none, out := none, unarm := false, sats := 0 }
  let byMode := b.sys.mode == .safe || b.sys.mode == .shutdown
  let lp := { r.x.lp with seen := b.sys.entries.length, ffLast := r.c.ff, launched := false, moved := false
                          slotTick := b.tick + 1 }
  let x1 := { r.x with
    lp := lp
    drv := { r.x.drv with arm := r.x.drv.arm && !r.unarm, old := outsState b e lp.st x0 }
    trk := if byMode && lp.st == .parked && x0.lp.st == .transit then r.x.trk.map (abortTrack b) else r.x.trk }
  slotAfter g s e x0 x1 r (setElem e x1 { b with live := writeCx e r.c m })

/-- A slot of a program that the host committed: 13 bundles of it (R166). What the hardware does for the slot beside the
program stays the same; a state that such a program stores raises none of the sources 0 to 3 of R164.
(DESIGN CHOICE, log 127). -/
def slotHost (g s : Nat) (e : Fin 4608) (b : Blk) : Blk :=
  let x0 := b.elem e.val
  let r := runProgram b e
  let x := r.1.1.elem e.val
  let res : SlotRes :=
    { codes := if r.1.2.outDone && b.sys.mode != .calibrate then some (x.drv.htrTick, x.drv.trmTick) else none
      writes := r.1.2.wrote, state := r.1.2.stored }
  let entersFault := decide (x.lp.st = .fault ∧ x0.lp.st ≠ .fault)
  let entersPark := decide (x.lp.st = .parked ∧ x0.lp.st ≠ .parked)
  let byMode := b.sys.mode == .safe || b.sys.mode == .shutdown
  let x1 := { x with
    lp := { x.lp with seen := b.sys.entries.length, launched := false, moved := false, slotTick := b.tick + 1 }
    drv := if entersPark || (entersFault && !planMoves b e.val) then { x.drv with arm := false } else x.drv
    trk := if entersPark && byMode && x0.lp.st == .transit then x.trk.map (abortTrack b) else x.trk }
  let b := setElem e.val x1 r.1.1
  slotOut g s e.val res (countOccs g r.2 (countCmd e.val x0 x1 (if entersPark then dropParked e.val b else b)))

/-- Slot `s` of standby `g`, once a tick (R23, R359, R364): a standby that compares or votes runs it with the serving
engine's slot, every other runs self-test, and a FAILED engine runs none. (DESIGN CHOICE, log 16; DEDUCED, log 31). -/
def standbySlot (g s : Nat) (b : Blk) : Blk :=
  let r := engRt b g
  if failedEng b g || decide (72 * b.tick + s < r.nextSlot) then b
  else
    let b := setEngRt g { r with nextSlot := 72 * b.tick + s + 1 } b
    if (copiers b (getF b (Reg.ENG.CHK_STAT.OF g))).contains g then b
    else countOcc g (openOcc (Config.testBundles s)) b

/-- Slot `s` of engine `g` in the present tick (R23, R166): where the engine serves, the slot of its element, once a tick. No
program runs in the service cycles (R168). -/
def engineSlot (g s : Nat) (b : Blk) : Blk :=
  if slotCycles b = false then b
  else if serving b g then
    let e := 64 * s + logicalOf b g
    if h : e < 4608 then
      if (b.elem e).lp.slotTick ≤ b.tick then
        let b := eccSlot g e b
        acqSlot e (if isRom b.live then slotRom g s e b else slotHost g s ⟨e, h⟩ b)
      else b
    else b
  else standbySlot g s b

/-- ENGINE_SLOT: slot `s` begins in engine cycle 13 `s` of the tick (R166). -/
def execEngineSlot (e : Fin 68) (s : Fin 72) (st : State) : Host.Outcome State Fault Refusal :=
  .next { st with b := atQ (4000 * st.b.tick + 52 * s.val) (engineSlot e.val s.val) st.b }

end Sys2Proof.Machine
end

