-- ==== Sys2Proof/Machine/Plan.lean ====
section
/-!
DEFINITION. The planner (R207 to R222): feed-forward from the crosstalk table, trajectories, and what a plan writes.
-/
set_option autoImplicit false

namespace Sys2Proof.Machine

/-! ### Feed-forward (R210 to R213) -/

/-- The order of the stencil positions (R211). -/
def stencilLe (a c : Int × Int) : Bool :=
  let q := fun (x : Int × Int) => 36 * x.1 * x.1 + x.2 * x.2
  decide (q a < q c) || (decide (q a = q c) && (decide (a.1 < c.1) || (decide (a.1 = c.1) && decide (a.2 ≤ c.2))))

/-- The 112 stencil offsets in their order (R211). -/
def stencil : List (Int × Int) :=
  (((List.range 5).flatMap fun (s : Nat) => (List.range 25).map fun (r : Nat) => (Int.ofNat s - 2, Int.ofNat r - 12)).filter fun x =>
    x != (0, 0) && !(decide (x.1.natAbs = 2) && decide (10 ≤ x.2.natAbs))).mergeSort stencilLe

/-- The neighbour at an offset, where it lies inside the fabric (R211). -/
def neighbour (e : Nat) (o : Int × Int) : Option Nat :=
  let s : Int := (e / 256 : Nat) + o.1
  let r : Int := (e % 256 : Nat) + o.2
  if 0 ≤ s ∧ s < 18 ∧ 0 ≤ r ∧ r < 256 then some (256 * s.toNat + r.toNat) else none

/-- Crosstalk coefficient `n` (R210). -/
def xtCoeff (m : Tbl Byte) (n : Nat) : Int := sext 16 (rdH m (0x100000 + 2 * n))

/-- The coefficients of element `e` with the neighbours inside the fabric. -/
def xtTerms (m : Tbl Byte) (st : List (Int × Int)) (e : Nat) : List (Int × Nat) :=
  ((st.take (xtCount m e)).zipIdx).filterMap fun x =>
    (neighbour e x.1).map fun j => (xtCoeff m (xtBase m e + x.2), j)

/-- FF_new of element `e` for the model codes `hm` (R213). -/
def ffNew (m : Tbl Byte) (sh : Nat) (st : List (Int × Int)) (hm : Nat → Nat) (e : Nat) : Int :=
  let s : Int := (xtTerms m st e).foldl (fun (n : Int) x => n + x.1 * (hm x.2 : Int)) 0
  satS16 (-(rne s (2 ^ (15 + sh))))

/-- The model code of element `j` after a frame with state byte `w` (R212). -/
def modelCode (b : Blk) (w : Byte) (j : Nat) : Nat :=
  if (b.elem j).lp.st = .parked ∧ natBits w.toNat 4 1 = 0 then parkHtr b.live j
  else curveCode b.live j (phiOf b.live j (w.toNat % 4))

/-! ### Exponentials (R218) -/

/-- e^x in units of 2^-80 for x = n / d, by its series. -/
def expUp (n d : Nat) : Nat :=
  ((List.range 120).foldl (fun (s : Nat × Nat) k => (s.1 + s.2, s.2 * n / (d * (k + 1)))) (0, 2 ^ 80)).1

/-- e^-x in units of 2^-60 for x = n / d. -/
def expDown (n d : Nat) : Nat := 2 ^ 140 / expUp n d

/-- The ROM's U0.16 value of e^(-n / d), open within its error bound of 2^-16 (R218). (DESIGN CHOICE, log 13). -/
def expRom16 (n d : Nat) : Nat :=
  let x := expDown n d
  let lo := (x - 2 ^ 44 + (2 ^ 44 - 1)) / 2 ^ 44
  let hi := min 65535 ((x + 2 ^ 44) / 2 ^ 44)
  max lo (min hi (Config.expRom n d))

/-! ### A trajectory (R216 to R220) -/

/-- What the planner knows of a moved element: codes, limits, shape and thermal constant; `d1` is B1 - L in ns. -/
structure PlanIn where
  e : Nat
  h0 : Nat
  hT : Nat
  hmax : Nat
  tau : Nat
  shape : Nat
  d1 : Nat
  m : Tbl Byte

/-- Sample `n` of the shape (R217). -/
def PlanIn.s (p : PlanIn) (n : Nat) : Int := sext 16 (rdH p.m (0x248000 + 512 * p.shape + 2 * min n 255))

/-- The reference drive in units of 2^-32 codes during sample `n` (R218). -/
def PlanIn.r (p : PlanIn) (n : Nat) : Int :=
  clampI 0 (p.hmax * 2 ^ 32) ((p.h0 : Int) * 2 ^ 32 + ((p.hT : Int) - p.h0) * p.s n * 2 ^ 20)

/-- A first-order step towards `r` with the factor `f` of 2^-60. -/
def decay (x r : Int) (f : Nat) : Int := r + (x - r) * f / 2 ^ 60

/-- The reference path at the start of every sample (R218), in units of 2^-32 codes. (DEDUCED, log 36). -/
def PlanIn.path (p : PlanIn) : Array Int :=
  let f := expDown 125 (2 * p.tau)
  ((List.range 300).foldl (fun (a : Array Int × Int) n =>
    let x := decay a.2 (p.r n) f
    (a.1.push x, x)) (#[(p.h0 : Int) * 2 ^ 32], (p.h0 : Int) * 2 ^ 32)).1

/-- The reference path at `t2` half-nanoseconds after the launch, in units of 2^-16 codes; its last place is open.
(DESIGN CHOICE, log 14). -/
def PlanIn.xref (p : PlanIn) (path : Array Int) (i t2 : Nat) : Int :=
  let n := t2 / 125
  decay (path.getD n 0) (p.r n) (expDown (t2 % 125) (2 * p.tau)) / 2 ^ 16 + (Config.xrefLow p.e i % 2 : Nat)

/-- Length of interval `i` in ns (R216). -/
def PlanIn.len (p : PlanIn) (i : Nat) : Nat := if i = 0 then p.d1 + 1000 else 1000

/-- One interval's heater code: the code, whether it was clamped, and the modelled state before it in units of 2^-16. -/
structure Ival where
  code : Nat
  clamped : Bool
  xm : Int

/-- The heater codes of the 17 intervals (R218). (DEDUCED, log 36). -/
def PlanIn.codes (p : PlanIn) : List Ival :=
  let path := p.path
  let a0 := expRom16 (p.len 0) p.tau
  let a1 := expRom16 1000 p.tau
  ((List.range 17).foldl (fun (s : List Ival × Int) i =>
    let a : Nat := if i = 0 then a0 else a1
    let num : Int := p.xref path i (2 * (p.d1 + 1000 * (i + 1))) * 65536 - a * s.2
    let c := rne num (65536 * (65536 - a))
    let code := clampI 0 p.hmax c
    let xm := code * 65536 + (s.2 - code * 65536) * a / 65536
    (s.1 ++ [⟨code.toNat, decide (code ≠ c), s.2⟩], xm)) ([], (p.h0 : Int) * 65536)).1

/-- The trim code of an interval and whether it was clamped (R220); `off` is when its first sample frame begins, in ns
after the interval's start. -/
def PlanIn.trim (p : PlanIn) (b : Blk) (phi off : Nat) (v : Ival) : Nat × Bool :=
  let j := min (phi / 2048) 30
  let dy : Int := (knot p.m p.e (j + 1) : Int) - knot p.m p.e j
  let k1 := trimK1 b.live p.e
  let k2 := trimK2 b.live p.e
  let ctr := trmCentre b.live p.e
  if dy ≤ 0 ∨ k1 = 0 then (ctr, false)
  else
    let w : Rat := ((p.tau : Nat) : Rat) * (((expDown off p.tau : Int) - expDown (off + 375) p.tau : Int) : Rat) / (375 * 2 ^ 60 : Nat)
    let xbar : Rat := (v.code : Rat) + ((v.xm : Rat) / 65536 - v.code) * w
    let dphi : Rat := ((p.hT : Rat) - xbar) * 2048 / (dy : Rat)
    let c1 : Rat := (k1 : Rat) / 32768
    let c2 : Rat := (k2 : Rat) / 32768
    let t0 := dphi / (4096 * c1)
    let dv := c1 + 2 * c2 * t0
    let t := if k2 ≠ 0 ∧ dv ≠ 0 then t0 - (c1 * t0 + c2 * t0 * t0 - dphi / 4096) / dv else t0
    let x := (ctr : Int) + ratRne (65536 * t)
    ((clampI 0 65535 x).toNat, decide (clampI 0 65535 x ≠ x))

/-! ### What a plan writes (R214, R221, R222) -/

/-- A context half-word written by a master other than the host waits for its boundary (R198, R199). -/
def putHalf (host : Bool) (a v : Nat) (b : Blk) : Blk :=
  { b with pend := b.pend.put a { val := BitVec.ofNat 16 v, tick := if b.edge < 234 then b.tick else b.tick + 1, host := host } }

/-- A context word of element `e` written by the planner. -/
def putWord (e w v : Nat) (b : Blk) : Blk := putHalf false (ctxAddr e w + 2) (v / 65536) (putHalf false (ctxAddr e w) v b)

/-- The classes of R214. -/
inductive PlanClass where
  | moved | neighbour | resting | unchanged
deriving DecidableEq, Repr

/-- The class of element `e` (R214). -/
def planClass (b : Blk) (w : Byte) (ff : Int) (e : Nat) : PlanClass :=
  if natBits w.toNat 4 1 = 1 then .moved
  else if ff = sext 16 (rdH b.live (ctxAddr e 1)) then .unchanged
  else match (b.elem e).lp.st with
    | .hold | .track | .fallback | .dark => .neighbour
    | .parked | .fault => .resting
    | .transit => .unchanged

/-- The launch shadow of an element. -/
def setShadow (e h t : Nat) (b : Blk) : Blk :=
  updElem e (fun x => { x with drv := { x.drv with htrSh := BitVec.ofNat 16 h, trmSh := BitVec.ofNat 16 t } }) b

/-- What a plan counts: moved elements, neighbours, clamped launch codes, clamped trajectories; and the elements it arms. -/
structure PlanOut where
  moved : Nat
  nb : Nat
  kick : Nat
  late : Nat
  arm : List Nat

/-- The plan of a moved element (R214, R218, R220 to R222). -/
def planMoved (d1 : Nat) (seq : Word) (w : Byte) (ff : Int) (e : Nat) (x : Blk × PlanOut) : Blk × PlanOut :=
  let b := x.1
  let phi := phiOf b.live e (w.toNat % 4)
  let hmax := htrMax b.live e
  let hT := (clampI 0 hmax ((curveCode b.live e phi : Int) + ff)).toNat
  let h0 := rdH b.live (ctxAddr e 0)
  let p : PlanIn := { e := e, h0 := h0, hT := hT, hmax := hmax, tau := max (tauTh b.live e) 100
                      shape := 2 * thermClass b.live e + (if h0 ≤ hT then 0 else 1), d1 := d1, m := b.live }
  let cs := p.codes
  let ts := cs.zipIdx.map fun v => p.trim b phi (if v.2 = 0 then d1 % 125 else 0) v.1
  let h := fun (i : Nat) => ((cs.map Ival.code).getD i 0)
  let t := fun (i : Nat) => ((ts.map Prod.fst).getD i 0)
  let late := (cs.drop 1).any Ival.clamped || (ts.drop 1).any Prod.snd
  let idx := if 972 ≤ d1 + 13 * (e / 64) then 0xFF else 0
  let b := putWord e 40 (toBits 16 ff + 3 * 65536) b
  let b := putWord e 41 (h 0 + t 0 * 65536) b
  let b := putWord e 42 (idx + seq.toNat % 4096 * 256 + (if late then 1048576 else 0)) b
  let b := (List.range 8).foldl (fun b k =>
    putWord e (51 + k) (t (2 * k + 1) + t (2 * k + 2) * 65536)
      (putWord e (43 + k) (h (2 * k + 1) + h (2 * k + 2) * 65536) b)) b
  let b := putWord e 59 (hT + phi * 65536) b
  let o := x.2
  (setShadow e (h 0) (t 0) b,
   { o with moved := o.moved + 1, kick := o.kick + (if (cs.headD ⟨0, false, 0⟩).clamped then 1 else 0)
            late := o.late + (if late then 1 else 0), arm := e :: o.arm })

/-- The plan of a neighbour (R214). -/
def planNeighbour (ff : Int) (e : Nat) (x : Blk × PlanOut) : Blk × PlanOut :=
  let b := x.1
  let c := readCx b.live e
  let h := (clampI 0 (htrMax b.live e) ((c.hLast : Int) + ff - c.ff)).toNat
  (setShadow e h c.tLast (putWord e 40 (toBits 16 ff + 65536) b), { x.2 with nb := x.2.nb + 1, arm := e :: x.2.arm })

/-- One element of a plan. (DEDUCED, log 29). -/
def planElem (d1 : Nat) (seq : Word) (w : Byte) (ff : Int) (e : Nat) (x : Blk × PlanOut) : Blk × PlanOut :=
  match planClass x.1 w ff e with
  | .moved => planMoved d1 seq w ff e x
  | .neighbour => planNeighbour ff e x
  | .resting => (putHalf false (ctxAddr e 1) (toBits 16 ff) x.1, x.2)
  | .unchanged => x

/-- The whole plan of a frame with state bytes `ws`, `d1` = B1 - L in ns: everything but the ARM bitmaps.
(DEDUCED, log 35). -/
def planAll (d1 : Nat) (seq : Word) (ws : List Byte) (b : Blk) : Blk × PlanOut :=
  let wa := ws.toArray
  let st := stencil
  let sh := getF b Reg.PLAN.CFG.XT_SH
  let hm := ((List.range 4608).map fun j => modelCode b (wa.getD j 0) j).toArray
  (List.range 4608).foldl (fun x e =>
    let ff := if xtCount b.live e = 0 then 0 else ffNew b.live sh st (fun j => hm.getD j 0) e
    planElem d1 seq (wa.getD e 0) ff e x) (b, ⟨0, 0, 0, 0, []⟩)

/-- P_LAUNCH: heater power in mW with the launch shadows of the armed outputs and the live codes of the others (R232).
(DEDUCED, log 37). -/
def launchPower (arm : List Nat) (b : Blk) : Nat :=
  (ratRne (b.listed.foldl (fun p e =>
    let d := (b.elem e).drv
    let code := if e ∈ arm then d.htrSh.toNat else d.htrLive.toNat
    p + outPower (250 * code) (getF b (Reg.DRV.RAIL_STAT.V_MEAS (bankOf e))) (rHeater b.live e)) 0)).toNat

end Sys2Proof.Machine
end

