-- ==== Sys2Proof/Machine/Solver.lean ====
section
/-!
DEFINITION. The route solver (R36, R37, R49 to R53, R59, R60): completion of a permutation, the looping algorithm, light
and blanking, and the state bytes of every member's elements.
-/
set_option autoImplicit false

namespace Sys2Proof.Machine

/-! ### The looping algorithm (R52) on one sub-network of `2 h` lines, numbered from 0 -/

/-- Working arrays of a level: which first-stage and last-stage elements are bar, which first-stage elements are set, and
which inputs go to the upper half. -/
structure LoopSt where
  first : Array Bool
  done : Array Bool
  last : Array Bool
  upper : Array Bool

/-- One loop, from input `i` on side `up` until its first input `i0` comes round. `pi` and `inv` are the permutation and
its inverse. -/
def walkLoop (h : Nat) (pi inv : Array Nat) (i0 : Nat) (up : Bool) : Nat → Nat → LoopSt → LoopSt
  | 0, _, s => s
  | n + 1, i, s =>
    let j := i % h
    let o := pi.getD i 0
    let o' := (o + h) % (2 * h)
    let i' := inv.getD o' 0
    let s : LoopSt :=
      { first := s.first.setIfInBounds j (decide (i < h) == up), done := s.done.setIfInBounds j true
        last := s.last.setIfInBounds (o % h) (decide (o < h) == up)
        upper := (s.upper.setIfInBounds i up).setIfInBounds i' (!up) }
    let i2 := (i' + h) % (2 * h)
    if i2 = i0 then s else walkLoop h pi inv i0 up n i2 s

/-- A level: `keepBar j` says that the loop from element `j` starts on the upper side. -/
def loopLevel (h : Nat) (pi inv : Array Nat) (keepBar : Nat → Bool) : LoopSt :=
  (List.range h).foldl (fun s j =>
    if s.done.getD j false then s else walkLoop h pi inv j (keepBar j) (2 * h) j s)
    { first := (List.replicate h true).toArray, done := (List.replicate h false).toArray
      last := (List.replicate h true).toArray, upper := (List.replicate (2 * h) true).toArray }

/-- The inverse of a permutation. -/
def invPerm (pi : Array Nat) : Array Nat :=
  (List.range pi.size).foldl (fun a i => a.setIfInBounds (pi.getD i 0) i) pi

/-- The looping algorithm on the lines from `base` on, stages `d` to `last`; `cross` holds the elements set so far, at
stage × `rows` + row. -/
def solveBlock (rows : Nat) (up : Nat → Nat → Bool) : Nat → Nat → Nat → Nat → Array Nat → Array Bool → Array Bool
  | 0, _, _, _, _, cross => cross
  | m + 1, base, d, last, pi, cross =>
    let r0 := base / 2
    if m = 0 then cross.setIfInBounds (d * rows + r0) (pi.getD 0 0 != 0)
    else
      let h := 2 ^ m
      let s := loopLevel h pi (invPerm pi) (fun j => up d (r0 + j))
      let cross := (List.range h).foldl (fun (c : Array Bool) j =>
        (c.setIfInBounds (d * rows + r0 + j) (!s.first.getD j true)).setIfInBounds (last * rows + r0 + j)
          (!s.last.getD j true)) cross
      let half := fun (u : Bool) =>
        (List.range (2 * h)).foldl (fun (a : Array Nat) i =>
          if s.upper.getD i true = u then a.setIfInBounds (i % h) (pi.getD i 0 % h) else a) (List.replicate h 0).toArray
      solveBlock rows up m (base + h) (d + 1) (last - 1) (half false)
        (solveBlock rows up m base (d + 1) (last - 1) (half true) cross)

/-! ### The whole fabric -/

/-- Unassigned inputs, ascending, take the unassigned outputs, ascending (R51). -/
def completePerm (n : Nat) (es : List Nat) : Array Nat :=
  let used := es.foldl (fun (a : Array Bool) x => a.setIfInBounds x true) (List.replicate n false).toArray
  let free := (List.range n).filter fun o => !used.getD o false
  (es.foldl (fun (x : Array Nat × List Nat) v =>
    if v = 0xFFFF then (x.1.push (x.2.headD 0), x.2.tail) else (x.1.push v, x.2)) (#[], free)).1

/-- Line of port `p` of row `r` for stage bit `k`. -/
def rowLine (k r p : Nat) : Nat := r / 2 ^ k * 2 ^ (k + 1) + r % 2 ^ k + p * 2 ^ k

/-- Row of line `l` for stage bit `k`. -/
def lineRow (k l : Nat) : Nat := l / 2 ^ (k + 1) * 2 ^ k + l % 2 ^ k

/-- Stage bit of fabric stage `t` with `n` line bits: |n − 1 − t|. -/
def stageBit (n t : Nat) : Nat := if t < n then n - 1 - t else t - (n - 1)

/-- The lit lines after stage `t`, from those before it. -/
def litStep (n rows t : Nat) (cross : Array Bool) (lit : Array Bool) : Array Bool :=
  let k := stageBit n t
  ((List.range (2 * rows)).map fun l =>
    if cross.getD (t * rows + lineRow k l) false then lit.getD (l ^^^ 2 ^ k) false else lit.getD l false).toArray

/-- The lit lines before every stage and after the last one, by stage. -/
def litAll (n rows : Nat) (cross : Array Bool) (lit0 : Array Bool) : Array (Array Bool) :=
  ((List.range (2 * n - 1)).foldl (fun (x : Array (Array Bool) × Array Bool) t =>
    let y := litStep n rows t cross x.2
    (x.1.push y, y)) (#[lit0], lit0)).1

/-- A state byte without MOVE (R41). -/
def mkByte (st : Nat) (l0 l1 : Bool) : Nat := st + (if l0 then 4 else 0) + (if l1 then 8 else 0)

/-- MOVE set against the reference byte (R41, R50). -/
def withMove (ref : Byte) (w : Nat) : Byte :=
  BitVec.ofNat 8 (if w % 4 = ref.toNat % 4 then w else w + 16)

/-- A byte's STATE and LIT bits without MOVE. -/
def dropMove (w : Byte) : Byte := BitVec.ofNat 8 (w.toNat % 16)

/-- A solved permutation: the edge's state bytes (empty on a single controller), those of every middle (the controller
itself on a single one), and the counts of the ROUTE page. -/
structure Solved where
  edge : List Byte
  mids : List (List Byte)
  moved : Nat
  half : Nat
  blanked : Nat

/-- Fabric stage and row of an edge element (R59). -/
def edgePlace (n rows e : Nat) : Nat × Nat :=
  let q := e / rows
  let ell := n - 9
  (if q < ell then q else 2 * n - 1 - ell + (q - ell), e % rows)

/-- The edge element at fabric stage `t`, row `r`. -/
def edgeElem (n rows t r : Nat) : Nat :=
  let ell := n - 9
  rows * (if t < ell then t else ell + (t - (2 * n - 1 - ell))) + r

/-- Solving (R51 to R53, R59, R60): `refEdge` and `refMid` give the reference bytes. -/
def solve (size : Nat) (keep : Bool) (es : List Nat) (refEdge : Nat → Byte) (refMid : Nat → Nat → Byte) : Solved :=
  let n := 9 + size
  let rows := 256 * 2 ^ size
  let ell := size
  let isBar := fun (t r : Nat) =>
    (if ell ≤ t ∧ t < ell + 17 then refMid (r / 256) (256 * (t - ell) + r % 256) else refEdge (edgeElem n rows t r)).toNat % 4 == 0
  let cross := solveBlock rows (fun t r => !keep || isBar t r) n 0 0 (2 * n - 2) (completePerm (2 * rows) es)
    (List.replicate ((2 * n - 1) * rows) false).toArray
  let lit := litAll n rows cross ((es.map fun x => x != 0xFFFF).toArray)
  let litAt := fun (t l : Nat) => (lit.getD t #[]).getD l false
  let byteAt := fun (t r : Nat) =>
    let k := stageBit n t
    mkByte (if cross.getD (t * rows + r) false then 1 else 0) (litAt t (rowLine k r 0)) (litAt t (rowLine k r 1))
  let pair := fun (m r : Nat) => (litAt (ell + 17) (512 * m + 2 * r), litAt (ell + 17) (512 * m + 2 * r + 1))
  let mid := fun (m : Nat) => (List.range 4608).map fun e =>
    withMove (refMid m e) (if e < 4352 then byteAt (ell + e / 256) (256 * m + e % 256)
      else
        let p := pair m (e - 4352)
        mkByte (if p.1 || p.2 then 0 else 2) p.1 p.2)
  let edge := if size = 0 then [] else (List.range 4608).map fun e =>
    if e < 2 * ell * rows then
      let tr := edgePlace n rows e
      withMove (refEdge e) (byteAt tr.1 tr.2)
    else dropMove (refEdge e)
  let mids := (List.range (2 ^ size)).map mid
  let pairs := (List.range (2 ^ size)).flatMap fun m => (List.range 256).map fun r => pair m r
  { edge := edge, mids := mids
    moved := ((edge :: mids).map fun l => (l.filter fun w => decide (16 ≤ w.toNat)).length).foldl (· + ·) 0
    half := (pairs.filter fun p => p.1 != p.2).length
    blanked := (pairs.filter fun p => !p.1 && !p.2).length }

/-- T_SOLVE in CLK_ENG cycles (R53). (DEDUCED, log 24). -/
def tSolve (size : Nat) : Nat :=
  let n := 9 + size
  let p := 512 * 2 ^ size
  p / 4 + (n - 1) * p / 2 + p / 8

end Sys2Proof.Machine
end

