-- ==== Sys2Proof/Machine/Ledger.lean ====
section
/-!
DEFINITION. The model of heater power and the budgets (R244 to R249), for the controller itself and, on the master of a
chain, for each member from its ledger image (R306).
-/
set_option autoImplicit false

namespace Sys2Proof.Machine

/-! ### Conditions of R451 -/

/-- The transition condition: a launched frame awaits its completion record. -/
def transCond (b : Blk) : Bool := anyStage b .launched

/-- The degrade condition: DUPLEX, no engine that neither serves nor failed, or a source latched with class DEGRADE.
(DEDUCED, log 44). -/
def degradeCond (b : Blk) : Bool :=
  getF b Reg.SEQ.STAT.CONFIG == 1 || (List.range 68).all (fun e => serving b e || failedEng b e) || latchedClass b [2]

/-- The limit condition: THERMAL_LIMIT is requested. -/
def limitCond (b : Blk) : Bool := b.sys.limitReq

/-! ### What the model knows of a controller -/

/-- The power model of one controller: the elements that can draw power, HTR_MAX, R_HEATER, THERM_CLASS, model codes by
situation (0 bar, 1 cross, 2 blank, 3 parked), V_MEAS of a bank in mV, the extreme samples of a shape, and the live
situation of an element. -/
structure PowerModel where
  els : List Nat
  hmax : Nat → Nat
  rh : Nat → Nat
  cls : Nat → Nat
  code : Nat → Nat → Nat
  vm : Nat → Nat
  smax : Nat → Int
  smin : Nat → Int
  live : Nat → List Nat

/-- FF_UP (R244): the exact sum of the cooling coefficients against HTR_MAX, rounded up. -/
def ffUp (m : Tbl Byte) (sh : Nat) (st : List (Int × Int)) (e : Nat) : Nat :=
  let s := (xtTerms m st e).foldl (fun n x => if x.1 < 0 then n + x.1.natAbs * htrMax m x.2 else n) 0
  (s + 2 ^ (15 + sh) - 1) / 2 ^ (15 + sh)

/-- The model code of element `e` in a situation (R244). -/
def ownCode (b : Blk) (st : List (Int × Int)) (e x : Nat) : Nat :=
  if x = 3 then parkHtr b.live e
  else min (htrMax b.live e) (curveCode b.live e (phiOf b.live e x) + ffUp b.live (getF b Reg.PLAN.CFG.XT_SH) st e)

/-- The situation of element `e` now (R245). -/
def ownLive (b : Blk) (e : Nat) : List Nat :=
  let x := (b.elem e).lp
  if x.st = .parked then [3] else [x.sbyte.toNat % 4]

/-- The samples of shape `k`. -/
def shapeSamples (m : Tbl Byte) (k : Nat) : List Int := (List.range 256).map fun n => sext 16 (rdH m (0x248000 + 512 * k + 2 * n))

/-- The controller's own model. An element whose record and curve have their reset contents has HTR_MAX 0 and draws
nothing. -/
def ownModel (b : Blk) : PowerModel :=
  let st := stencil
  { els := touchedRecs b.live, hmax := htrMax b.live, rh := rHeater b.live, cls := thermClass b.live
    code := ownCode b st, vm := fun n => getF b (Reg.DRV.RAIL_STAT.V_MEAS n)
    smax := fun k => (shapeSamples b.live k).foldl max (-32768)
    smin := fun k => (shapeSamples b.live k).foldl min 32767
    live := ownLive b }

/-- Word `w` of member `k`'s ledger image (R306). (DEDUCED, log 43; PRESUMED, log 50). -/
def imgW (b : Blk) (k w : Nat) : Nat := (b.glew.image.get 0 (32768 * k + w)).toNat

/-- A half of a word. -/
def halfOf (w i : Nat) : Nat := natBits w (16 * i) 16

/-- The state byte of element `e` of member `k`, as the master knows it. (PRESUMED, log 50). -/
def memByte (b : Blk) (k e : Nat) : Byte := b.glew.mstates.get 0 (8192 * k + e)

/-- The model of member `k`: four words per element, then the extreme samples of the 64 shapes, the 18 values of V_MEAS and
the bitmap of PARKED elements (R306). -/
def memModel (b : Blk) (k : Nat) : PowerModel :=
  { els := List.range 4608
    hmax := fun e => halfOf (imgW b k (4 * e + 2)) 0
    rh := fun e => halfOf (imgW b k (4 * e + 2)) 1
    cls := fun e => imgW b k (4 * e + 3) % 32
    code := fun e x => halfOf (imgW b k (4 * e + x / 2)) (x % 2)
    vm := fun n => imgW b k (18496 + n)
    smax := fun s => sext 16 (halfOf (imgW b k (18432 + s)) 0)
    smin := fun s => sext 16 (halfOf (imgW b k (18432 + s)) 1)
    live := fun e => if natBits (imgW b k (18514 + e / 32)) (e % 32) 1 = 1 then [3] else [(memByte b k e).toNat % 4] }

/-! ### Power (R244, R246) -/

/-- The model power in µW of a code given in units of 1/4,096 (R244). -/
def PowerModel.p (l : PowerModel) (e h4096 : Nat) : Int :=
  let v := l.vm (bankOf e)
  rne (10 * v * v * h4096 : Nat) (268435456 * l.rh e)

/-- u(a, b) in µW (R246). -/
def PowerModel.u (l : PowerModel) (e a c : Nat) : Int :=
  let ha := l.code e a
  let hb := l.code e c
  if a = c then l.p e (4096 * ha)
  else
    let d : Int := (hb : Int) - ha
    let k := 2 * l.cls e + (if 0 ≤ d then 0 else 1)
    let up : Int := max 0 (max (d * l.smax k) (d * l.smin k))
    l.p e (min (4096 * l.hmax e) (4096 * ha + up.toNat))

/-- v(A) in µW (R246). -/
def PowerModel.v (l : PowerModel) (e : Nat) (a : List Nat) : Int := a.foldl (fun n x => max n (l.p e (4096 * l.code e x))) 0

/-! ### The ledger (R245) -/

/-- A frame's effect on A(E) of one controller. -/
abbrev Change := Nat → List Nat → List Nat

/-- P stays possible where it was. -/
def keepP (x : List Nat) (a : List Nat) : List Nat := if 3 ∈ a then x ++ [3] else x

/-- A solved frame: a moved element takes its STATE. -/
def solvedChange (ws : Array Byte) : Change := fun e a =>
  let w := (ws.getD e 0).toNat
  if natBits w 4 1 = 1 then [w % 4] else a

/-- An unsolved permutation: `used` elements, and the outputs it assigns. In a middle, the state of a blanking row is not
known until the frame is solved. (DEDUCED, log 38). -/
def permChange (used : Nat → Bool) (blanks : Bool) (assigned : Array Bool) : Change := fun e a =>
  if used e = false then a
  else if e < 4352 then keepP [0, 1] a
  else if blanks then
    keepP [if assigned.getD (2 * (e - 4352)) false || assigned.getD (2 * (e - 4352) + 1) false then 0 else 2] a
  else keepP [0, 2] a

/-- A direct element frame's entries for a member: element and state byte without MOVE. -/
def directFor (k : Nat) (ws : List Word) : List (Nat × Nat) :=
  ws.filterMap fun w => if w.bits 13 3 = k then some (w.bits 0 13, w.bits 16 4) else none

/-- A direct element frame. -/
def directChange (es : List (Nat × Nat)) : Change := fun e a =>
  match es.find? fun x => x.1 == e with
  | some x => keepP [x.2 % 4] a
  | none => a

/-- The outputs that entries assign, by output. -/
def assignedOf (n : Nat) (es : List Nat) : Array Bool :=
  es.foldl (fun (a : Array Bool) x => a.setIfInBounds x true) (List.replicate n false).toArray

/-- The entries of an inline permutation (R234). -/
def inlineEntries (ws : List Word) : List Nat := ws.flatMap fun w => [w.bits 0 16, w.bits 16 16]

/-- The entries of a permutation frame. -/
def permEntries (b : Blk) (kind slot : Nat) (payload : List Word) : List Nat :=
  if kind = 1 then inlineEntries payload else slotEntries b.live slot (portsOf (getF b Reg.FABRIC.CFG.SIZE))

/-- Controller `k` of the chain holds part of the fabric that the master's solver sets (R59, R295). -/
def inFabric (b : Blk) (k : Nat) : Bool :=
  let size := getF b Reg.FABRIC.CFG.SIZE
  if k = 0 then true else decide (0 < size ∧ k ≤ 2 ^ size)

/-- What a frame not yet solved does to controller `k` (R245). -/
def openChange (b : Blk) (k kind slot : Nat) (payload : List Word) : Change :=
  if kind = 3 then directChange (directFor k payload)
  else if inFabric b k then
    permChange (if k = 0 then usedIn b else fun _ => true) (k = 0 && getF b Reg.FABRIC.CFG.ROLE == 0)
      (assignedOf (portsOf (getF b Reg.FABRIC.CFG.SIZE)) (permEntries b kind slot payload))
  else fun _ a => a

/-- What a queued frame does to controller `k`: its states once solved. A stored permutation is the slot's content until its
solving begins, and the entries taken then from there on (R57). (DEDUCED, log 38). -/
def frameChange (b : Blk) (k : Nat) (f : Frame) : Change :=
  match f.stage with
  | .queued => openChange b k f.kind f.slot f.payload
  | .solving => openChange b k 1 f.slot f.payload
  | _ =>
    if k = 0 then solvedChange f.states.toArray
    else match f.members.find? fun x => x.1 == k with
      | some x => solvedChange x.2.toArray
      | none => fun _ a => a

/-- The model of controller `k`. -/
def modelOf (b : Blk) (k : Nat) : PowerModel := if k = 0 then ownModel b else memModel b k

/-- A(E) after the frames queued, for controller `k`. (DEDUCED, log 38). -/
def situation (b : Blk) (k : Nat) (l : PowerModel) : Nat → List Nat :=
  let cs := b.sched.queue.map (frameChange b k)
  fun e => cs.foldl (fun a c => c e a) (l.live e)

/-- S_before in µW (R246). -/
def sBefore (b : Blk) (k : Nat) : Int :=
  let l := modelOf b k
  let a := situation b k l
  l.els.foldl (fun n e => n + l.v e (a e)) 0

/-- The three sums in µW of a frame with change `c` (R246): before, after, peak. -/
def frameSums (b : Blk) (k : Nat) (c : Change) : Int × Int × Int :=
  let l := modelOf b k
  let a := situation b k l
  l.els.foldl (fun n e =>
    let x := a e
    let y := c e x
    (n.1 + l.v e x, n.2.1 + l.v e y,
     n.2.2 + x.foldl (fun m p => y.foldl (fun m q => max m (l.u e p q)) m) 0)) (0, 0, 0)

/-- The budget check of R248; `lim` is THERMAL_LIMIT of the controller whose sums these are. -/
def budgetOk (b : Blk) (lim : Bool) (s : Int × Int × Int) : Bool :=
  let ss : Int := 10000 * getF b Reg.SCHED.BUDGET.STEADY
  let pk : Int := 10000 * getF b Reg.SCHED.BUDGET.PEAK
  let mg : Int := 10000 * getF b Reg.SCHED.MARGIN.MARGIN
  (!lim && (!flag b Reg.SCHED.STAT.OVERDRAWN || decide (s.1 + mg ≤ ss)) && decide (s.2.1 + mg ≤ ss) && decide (s.2.2 + mg ≤ pk))
    || (decide (s.2.1 ≤ s.1) && decide (s.2.2 ≤ s.1))

/-- µW shown in mW (R246). -/
def mwOf (x : Int) : Nat := (rne x 1000).toNat

end Sys2Proof.Machine
end

