-- ==== Sys2Proof/Machine/Sched.lean ====
section
/-!
DEFINITION. Frames from arrival to arming (R233 to R264): admission, solving, planning, the sequencer's vote, and
cancelling.
-/
set_option autoImplicit false

namespace Sys2Proof.Machine

/-! ### Times of a frame (R234, R238, R239) -/

/-- The launch time of a descriptor as a count of whole nanoseconds of local time, in the format in force. -/
def launchTime (b : Blk) (ws : List Word) : Nat :=
  let w := fun (i : Nat) => (ws.getD i 0).toNat
  if flag b Reg.TIME.CFG.FMT then b.time.ns + (w 3 + 2 ^ 32 - b.time.ns % 2 ^ 32) % 2 ^ 32
  else (w 5 % 65536 * 2 ^ 32 + w 4) * 1000000000 + w 3

/-- The horizon check of step 4 (R11, R12): the launch time lies in [t_a, t_a + 2^31 ns). -/
def inHorizon (b : Blk) (l : Nat) : Bool := decide (b.time.ns ≤ l ∧ l < b.time.ns + 2 ^ 31)

/-- T_SETTLE of a descriptor in units of 31.25 ns (R233). -/
def settleOf (b : Blk) (ws : List Word) : Nat :=
  let s := (ws.getD 2 0).bits 0 10
  if s = 0 then getF b Reg.SCHED.CFG.SETTLE_DEF else s

/-- The predicted local time of the first tick boundary at or after an instant given in quarter-nanoseconds of local time,
rounded up to the whole ns (R238). -/
def boundaryAt (b : Blk) (x4 : Nat) : Nat :=
  let base := b.time.ns - (b.time.ns % 2 ^ 32 + 2 ^ 32 - getF b Reg.TIME.TICK32.COUNT) % 2 ^ 32
  let step := 250 * getF b Reg.TIME.INCR.INCR
  let k := ceilDiv ((x4 - 4 * base) * 2 ^ 26) step
  base + ceilDiv (k * step) (2 ^ 28)

/-- The instants S_FREE, P_END and REL of the latest accepted frame; REL is the tick boundary predicted now (R238). -/
def predictions (b : Blk) : Nat × Nat × Nat :=
  match b.sched.queue.getLast? with
  | some f => (f.sFree, f.pEnd, boundaryAt b f.rel)
  | none => (b.sched.sFree, b.sched.pEnd, boundaryAt b b.sched.rel)

/-- The distribution term of T_S on a master with `n` members (R308). -/
def tDist (n : Nat) : Nat := if n = 0 then 0 else let c := 145 * n; 10 * (c + ceilDiv c 99 + 9) + 120 * n

/-- The extension of T_PL on a master with `n` members (R308). -/
def ePl (n : Nat) : Nat := if n = 0 then 0 else 240 * n + 1040

/-- The largest number of a direct frame's entries for one member (R238). -/
def maxEntries (ws : List Word) : Nat :=
  (List.range 8).foldl (fun m k => max m (directFor k ws).length) 0

/-- s1 and p1 of R238 for a frame evaluated now. -/
def planTimes (b : Blk) (kind : Nat) (payload : List Word) : Nat × Nat :=
  let n := chainN b
  let p := predictions b
  let ts := (if kind = 3 then 0 else tSolve (getF b Reg.FABRIC.CFG.SIZE)) + tDist n
  let mb := if kind = 3 then maxEntries payload else 4608
  let s1 := max b.time.ns p.1 + ts
  (s1, max (max s1 p.2.1) p.2.2 + 8320 + 4 * ceilDiv mb 64 + ePl n)

/-! ### The checks of R241 -/

/-- COUNT of a descriptor. -/
def countOf (ws : List Word) : Nat := (ws.headD 0).bits 16 16

/-- Members of the chain, 1 without one (R233). -/
def memberCount (b : Blk) : Nat := chainN b + 1

/-- A reserved bit of the descriptor is 1, or KIND is 0 (step 1). -/
def descReserved (ws : List Word) : Bool :=
  let w := fun (i : Nat) => ws.getD i 0
  (w 0).bits 0 2 == 0 || (w 0).bits 2 6 != 0 || (w 0).bits 13 3 != 0 || (w 2).bits 10 22 != 0 || (w 5).bits 16 16 != 0
    || w 6 != 0 || w 7 != 0

/-- A field of the descriptor is out of range (step 1). -/
def descRange (b : Blk) (ws : List Word) : Bool :=
  let w := fun (i : Nat) => ws.getD i 0
  let kind := (w 0).bits 0 2
  let settle := (w 2).bits 0 10
  let fmt32 := flag b Reg.TIME.CFG.FMT
  (settle != 0 && (decide (settle < 32) || decide (512 < settle)))
    || (!fmt32 && decide (1000000000 ≤ (w 3).toNat))
    || (if kind = 3 then countOf ws == 0 || decide (4608 * memberCount b < countOf ws) else countOf ws != 0)
    || ((w 0).bits 8 5 != 0 && kind != 2)
    || (fmt32 && (w 4 != 0 || (w 5).bits 0 16 != 0))
    || b.sched.queue.any (fun f => f.seq == w 1)

/-- A bank that holds a used element is not released or is cleared. -/
def bankOut (b : Blk) : Bool :=
  (List.range 18).any fun n => usedIn b (256 * n) && (!(b.bank n).released || (b.bank n).cleared)

/-- The mode check of step 3; `settle` is T_SETTLE in units of 31.25 ns. -/
def modeFails (b : Blk) (settle : Nat) : Bool :=
  !b.sys.mode.working || b.sys.frozenLow || getF b Reg.SEQ.STAT.CONFIG == 2
    || (List.range 64).any (fun l => (serverOf b l).isNone) || bankOut b || (degradeCond b && decide (settle < 128))

/-- The used elements of controller `k` as the master knows them (R58, R59). -/
def usedOf (b : Blk) (k e : Nat) : Bool := if k = 0 then usedIn b e else true

/-- The entries of a direct frame are invalid (R58). -/
def directBad (b : Blk) (ws : List Word) : Bool :=
  let ids := (ws.map fun w => w.bits 0 16).mergeSort
  ws.any (fun w =>
    decide (4607 < w.bits 0 13) || w.bits 16 2 == 3 || (w.bits 16 2 == 2 && decide (w.bits 0 13 < 4352))
      || !usedOf b (w.bits 13 3) (w.bits 0 13) || decide (memberCount b ≤ w.bits 13 3) || w.bits 20 12 != 0)
    || decide (dedupAdj ids ≠ ids)

/-- The content check of step 5: 0, or the code. -/
def contentCode (b : Blk) (kind slot : Nat) (payload : List Word) : Nat :=
  let size := getF b Reg.FABRIC.CFG.SIZE
  match kind with
  | 1 => if 2 * payload.length ≠ portsOf size ∨ permValid (portsOf size) (inlineEntries payload) = false then 0x16 else 0
  | 2 => if slot ∉ b.permDone ∨ slotSize b.live slot ≠ size then 0x17 else 0
  | _ => if directBad b payload then 0x16 else 0

/-- The master holds member `k` ready: its DOWN port is in RUN, the member is not lost, its last STATUS came within 4 µs, and every
readiness bit is set (R305, R314). -/
def memberReady (b : Blk) (k : Nat) : Bool :=
  let m := b.glew.mems.get MemberSt.reset k
  portState b .dn == 5 && !m.lost && m.seen.any (fun t => decide (b.q ≤ t + 16000)) && m.bits % 512 == 511

/-- Step 9: a member is not ready, or reports DEGRADED where T_SETTLE is below 4.0 µs (R305). -/
def cascadeFails (b : Blk) (settle : Nat) : Bool :=
  (List.range (chainN b)).any fun i =>
    !memberReady b (i + 1)
      || (natBits (b.glew.mems.get MemberSt.reset (i + 1)).bits 9 1 == 1 && decide (settle < 128))

/-- A member reports THERMAL_LIMIT (R305); for the controller itself, the limit condition. (DEDUCED, log 43). -/
def limOf (b : Blk) (k : Nat) : Bool :=
  if k = 0 then limitCond b else natBits (b.glew.mems.get MemberSt.reset k).bits 10 1 == 1

/-- The sums of every controller of the chain for a frame. (DEDUCED, log 43). -/
def allSums (b : Blk) (kind slot : Nat) (payload : List Word) : List (Nat × Int × Int × Int) :=
  (List.range (memberCount b)).map fun k => (k, frameSums b k (openChange b k kind slot payload))

/-- The checks of R241 in their order: step, whether it fails, code. -/
def admissionChecks (b : Blk) (ws : List Word) : List (Nat × Bool × Nat) :=
  let w0 := ws.headD 0
  let kind := w0.bits 0 2
  let slot := w0.bits 8 5
  let payload := ws.drop 8
  let settle := settleOf b ws
  let l := launchTime b ws
  let c5 := contentCode b kind slot payload
  [(1, descReserved ws, 4), (1, descRange b ws, 1), (2, isMember b, 0x15), (3, modeFails b settle, 2),
   (4, flag b Reg.TIME.STAT.PAUSED || !inHorizon b l, 0x14), (5, c5 != 0, c5),
   (6, decide (64 ≤ b.sched.queue.length), 0x12),
   (7, decide (l < (planTimes b kind payload).2 + 352), 0x10),
   (8, (allSums b kind slot payload).any (fun x => !budgetOk b (limOf b x.1) x.2), 0x11),
   (9, cascadeFails b settle, 0x15)]

/-- The first check that fails: its step and code; (0, 0) where all pass. -/
def admissionResult (b : Blk) (ws : List Word) : Nat × Nat :=
  match (admissionChecks b ws).find? fun x => x.2.1 with
  | some x => (x.1, x.2.2)
  | none => (0, 0)

/-! ### Solved frames (R50, R58, R307) -/

/-- The reference bytes of member `k` for the frame at position `i`, as the master knows them. -/
def refMem (b : Blk) (i k e : Nat) : Byte :=
  match (b.sched.queue.take i).reverse.findSome? fun f => (f.members.find? fun x => x.1 == k).map Prod.snd with
  | some ws => dropMove (ws.getD e 0)
  | none => dropMove (memByte b k e)

/-- All reference bytes of the controller for position `i`. -/
def refBytes (b : Blk) (i : Nat) : List Byte :=
  match (if i = 0 then none else b.sched.queue[i - 1]?) with
  | some f => f.states.map dropMove
  | none =>
    let t := b.elems
    ((List.range 4608).foldl (fun (x : List Byte × Tbl Elem) e =>
      match x.2 with
      | (j, v) :: r => if j = e then (dropMove v.lp.sbyte :: x.1, r) else (0 :: x.1, x.2)
      | [] => (0 :: x.1, [])) ([], t)).1.reverse

/-- The state bytes of a direct frame over reference bytes (R58). -/
def directStates (es : List (Nat × Nat)) (refs : List Byte) : List Byte :=
  (es.foldl (fun (a : Array Byte) x => a.setIfInBounds x.1 (withMove (a.getD x.1 0) x.2)) refs.toArray).toList

/-- The launch time fields of a frame in the format in force: L_NS, L_SEC_LO, L_SEC_HI. -/
def launchWords (b : Blk) (l : Nat) : List Nat :=
  if flag b Reg.TIME.CFG.FMT then [l % 2 ^ 32, 0, 0] else [nsOf l, secOf l % 2 ^ 32, secOf l / 2 ^ 32 % 65536]

/-- 32 state bytes as the eight payload words of a STATES cell. -/
def cellWords (bs : List Byte) (k : Nat) : List Nat :=
  (bytesWords ((bs.drop (32 * k)).take 32)).map BitVec.toNat

/-- The cells of a frame for member `k` (R307): FRAME, then 144 STATES or one NOCHANGE. -/
def distributeTo (f : Frame) (k : Nat) (b : Blk) : Blk :=
  let lw := launchWords b f.launch
  let b := sendCell .dn 4 k false (f.seq.toNat % 65536)
    [f.seq.toNat, lw.getD 0 0, lw.getD 1 0, lw.getD 2 0 + f.settle * 65536 + f.kind * 67108864] b
  match f.members.find? fun x => x.1 == k with
  | none => sendCell .dn 6 k false (f.seq.toNat % 65536) [f.seq.toNat] b
  | some x =>
    let bs := if f.kind = 3 then
        let es := directFor k f.payload
        (x.2.zipIdx).map fun y => if es.any (fun z => z.1 == y.2) then dropMove y.1 else 0xFF
      else x.2
    (List.range 144).foldl (fun b i => sendCell .dn 5 k false i (cellWords bs i) b) b

/-- A frame's set goes to every member of the chain (R307). -/
def distribute (f : Frame) (b : Blk) : Blk :=
  (List.range (chainN b)).foldl (fun b i => distributeTo f (i + 1) b) b

/-- The frame at position `i` replaced. -/
def setFrame (i : Nat) (f : Frame) (b : Blk) : Blk :=
  showQueue { b with sched := { b.sched with queue := b.sched.queue.set i f } }

/-- A frame is still to be solved. -/
def Frame.unsolved (f : Frame) : Bool := f.stage == .queued || f.stage == .solving

/-- A direct element frame at position `i` is solved as soon as the frames before it are (R207, R307).
(DEDUCED, log 39). -/
def solveDirect (i : Nat) (b : Blk) : Blk :=
  match b.sched.queue[i]? with
  | none => b
  | some f =>
    if f.kind = 3 ∧ f.stage = .queued ∧ f.casc = false ∧ (b.sched.queue.take i).all (fun g => !g.unsolved) then
      let mem := (List.range (chainN b)).filterMap fun j =>
        let es := directFor (j + 1) f.payload
        if es = [] then none
        else some (j + 1, directStates es ((List.range 4608).map fun e => refMem b i (j + 1) e))
      let f := { f with stage := .solved, states := directStates (directFor 0 f.payload) (refBytes b i), members := mem }
      distribute f (setFrame i f b)
    else b

/-- Every direct element frame that can be solved is. (DEDUCED, log 39). -/
def solveDirects (b : Blk) : Blk := (List.range b.sched.queue.length).foldl (fun b i => solveDirect i b) b

/-! ### FRAME_ADMISSION (R236, R239, R241, R242) -/

/-- The arrival evaluated next: the earliest stamp, PCIe before UDP (R236). -/
def nextArrival (as : List Arrival) : Option (Nat × Arrival) :=
  (as.zipIdx).foldl (fun (m : Option (Nat × Arrival)) x =>
    match m with
    | none => some (x.2, x.1)
    | some y =>
      if x.1.stamp < y.2.stamp ∨ (x.1.stamp = y.2.stamp ∧ x.1.peer = none ∧ y.2.peer ≠ none) then some (x.2, x.1)
      else m) none

/-- The frame that an accepted descriptor makes (R233 to R239). -/
def frameOf (b : Blk) (a : Arrival) : Frame :=
  let ws := a.words
  let w0 := ws.headD 0
  let kind := w0.bits 0 2
  let payload := ws.drop 8
  let t := planTimes b kind payload
  let l := launchTime b ws
  let s := settleOf b ws
  { kind := kind, slot := w0.bits 8 5, seq := ws.getD 1 0, settle := s, launch := l, payload := payload, peer := a.peer
    ta := b.time.ns, tp := t.2 + 352 - b.time.ns, sFree := t.1, pEnd := t.2, rel := 4 * l + 125 * s
    stage := .queued, states := [], members := [], armSet := [], wasParked := [], planStart := 0, t0 := 0, ready := []
    refused := false, sums := [], keep := true, solveStart := 0, plan := [], commit := false, casc := false, cells := [] }

/-- The LAST registers of the SCHED page (R263). -/
def showLast (ws : List Word) (r : Nat × Nat) (b : Blk) : Blk :=
  let kind := (ws.headD 0).bits 0 2
  let b := setF Reg.SCHED.LAST_ADM.STEP r.1 (setF Reg.SCHED.LAST_ADM.CODE r.2 b)
  if r.1 = 0 ∨ 7 ≤ r.1 then
    let b := setF Reg.SCHED.LAST_TP.T_P ((planTimes b kind (ws.drop 8)).2 + 352 - b.time.ns) b
    if r.1 = 0 ∨ 8 ≤ r.1 then
      let s := frameSums b 0 (openChange b 0 kind ((ws.headD 0).bits 8 5) (ws.drop 8))
      setF Reg.SCHED.LAST_PK.S_PEAK (mwOf s.2.2) (setF Reg.SCHED.LAST_SS.S_AFTER (mwOf s.2.1) b)
    else b
  else b

/-- The 64-bit lifetime counter in words `w` and `w + 1` raised by 1 (R371). -/
def lifeAdd64 (w : Nat) (b : Blk) : Blk :=
  let n := b.nvm.life.get 0 w + 1
  if n < 2 ^ 32 then lifeAdd w 1 b
  else lifeAdd (w + 1) 1 { b with nvm := { b.nvm with life := b.nvm.life.set 0 w 0 } }

/-- One arrived frame is evaluated (R241, R242). -/
def admitFrame (a : Arrival) (b : Blk) : Blk :=
  let r := admissionResult b a.words
  let f := frameOf b a
  let b := showLast a.words r b
  if r.1 = 0 then
    let b := showQueue { b with sched := { b.sched with queue := b.sched.queue ++ [f] } }
    let b := lifeAdd64 5 (incF Reg.SCHED.CNT_ACC.COUNT b)
    let b := postRecord a.peer.isNone a.peer a.msg (recordWords b 1 f.seq f.tp 0 0 b.time.ns 0) b
    let b := solveDirects b
    flushLate (raiseIf (b.sched.queue.length == 56) 1029 b)
  else
    let b := incF Reg.SCHED.CNT_REJ.COUNT b
    let b := postRecord a.peer.isNone a.peer a.msg (recordWords b (1 + r.2 * 256) f.seq 0 0 0 b.time.ns 0) b
    raise 1024 b

/-- FRAME_ADMISSION: the next frame in the order of arrival stamps is evaluated. -/
def frameAdmission (b : Blk) : Blk :=
  match nextArrival b.sched.arrivals with
  | none => b
  | some (i, a) => admitFrame a { b with sched := { b.sched with arrivals := b.sched.arrivals.eraseIdx i } }

/-- FRAME_ADMISSION. -/
def execFrameAdmission (s : State) : Host.Outcome State Fault Refusal := .next { s with b := frameAdmission s.b }

/-! ### Route solving (R50 to R53, R62) -/

/-- The solver is idle. -/
def solverFree (b : Blk) : Bool := b.sched.trySlot.isNone && !anyStage b .solving

/-- ROUTE_SOLVE: the first permutation frame that is not solved begins, once every frame before it is (R236, R50). The
entries of a stored permutation are taken as they stand now (R57). -/
def routeSolve (b : Blk) : Blk :=
  let i := (b.sched.queue.takeWhile fun f => !f.unsolved).length
  match b.sched.queue[i]? with
  | none => b
  | some f =>
    if f.stage = .queued ∧ f.kind ≠ 3 ∧ f.casc = false ∧ solverFree b then
      let b := if f.kind = 2 then eccData (slotWords6 f.slot) b else b
      let es := permEntries b f.kind f.slot f.payload
      let ws := (List.range (es.length / 2)).map fun k =>
        BitVec.ofNat 32 (es.getD (2 * k) 0 + 65536 * es.getD (2 * k + 1) 0)
      setFrame i { f with stage := .solving, solveStart := b.q, keep := flag b Reg.ROUTE.CFG.KEEP, payload := ws } b
    else b

/-- ROUTE_SOLVE. -/
def execRouteSolve (s : State) : Host.Outcome State Fault Refusal := .next { s with b := routeSolve s.b }

/-- FABRIC.STATE_RD.NEXT takes a solve's bytes (R63). -/
def setNext (ws : List Byte) (b : Blk) : Blk :=
  let a := ws.toArray
  { b with elems := Tbl.mapRange Elem.reset (fun e x => { x with lp := { x.lp with next := a.getD e 0 } }) 4608 0 b.elems }

/-- The LAST registers of the ROUTE page (R63). -/
def showSolved (size : Nat) (r : Solved) (b : Blk) : Blk :=
  setF Reg.ROUTE.LAST_CYC.CYCLES (tSolve size) (setF Reg.ROUTE.LAST_BLANK.BLANKED r.blanked
    (setF Reg.ROUTE.LAST_BLANK.HALF r.half (setF Reg.ROUTE.LAST_MOVED.MOVED r.moved b)))

/-- The controller's own bytes of a solve. -/
def Solved.own (r : Solved) (size : Nat) : List Byte := if size = 0 then r.mids.headD [] else r.edge

/-- The middles' bytes of a solve (R59, R295). -/
def Solved.others (r : Solved) (size : Nat) : List (Nat × List Byte) :=
  if size = 0 then [] else (r.mids.zipIdx).map fun x => (x.2 + 1, x.1)

/-- Solving of the frame at position `i` ends. -/
def solveFrame (i : Nat) (f : Frame) (b : Blk) : Blk :=
  let size := getF b Reg.FABRIC.CFG.SIZE
  let own := (refBytes b i).toArray
  let mem := (List.range (if size = 0 then 0 else 2 ^ size)).map fun m =>
    ((List.range 4608).map fun e => refMem b i (m + 1) e).toArray
  let r := solve size f.keep (inlineEntries f.payload) (fun e => own.getD e 0)
    (fun m e => if size = 0 then own.getD e 0 else (mem.getD m #[]).getD e 0)
  let f := { f with stage := .solved, states := r.own size, members := r.others size, sFree := b.time.ns }
  solveDirects (distribute f (setFrame i f (setNext f.states (showSolved size r b))))

/-- A trial solve ends (R62): the slot's content and SIZE are those that the write accepted. -/
def trySolve (b : Blk) : Blk :=
  let size := b.sched.trySize
  let own := ((List.range 4608).map fun e => dropMove (b.elem e).lp.sbyte).toArray
  let r := solve size b.sched.tryKeep b.sched.tryEntries (fun e => own.getD e 0)
    (fun m e => if size = 0 then own.getD e 0 else dropMove (memByte b (m + 1) e))
  showQueue (setNext (r.own size) (showSolved size r { b with sched := { b.sched with trySlot := none } }))

/-- ROUTE_SOLVE_DONE: T_SOLVE cycles of CLK_ENG after the solve began (R53). (DEDUCED, log 24). -/
def routeSolveDone (b : Blk) : Blk :=
  let t := 4 * tSolve (getF b Reg.FABRIC.CFG.SIZE)
  match b.sched.trySlot with
  | some _ => atQ (b.sched.tryStart + 4 * tSolve b.sched.trySize) trySolve b
  | none =>
    let i := (b.sched.queue.takeWhile fun f => f.stage != .solving).length
    match b.sched.queue[i]? with
    | some f => atQ (f.solveStart + t) (solveFrame i f) b
    | none => b

/-- ROUTE_SOLVE_DONE. -/
def execRouteSolveDone (s : State) : Host.Outcome State Fault Refusal := .next { s with b := routeSolveDone s.b }

/-- A write of ROUTE.TRY is rejected (R62). -/
def routeTryErrs (v : Word) (b : Blk) : List Nat :=
  if v.bit 31 then
    (if quietMode b then [] else [2])
      ++ (if v.bits 0 5 ∉ b.permDone ∨ slotSize b.live (v.bits 0 5) ≠ getF b Reg.FABRIC.CFG.SIZE then [0x17] else [])
  else []

/-- An accepted write of ROUTE.TRY (R62): the committed slot is solved as it stands now. A second accepted GO while a trial
solve runs abandons the first. (DESIGN CHOICE, log 133). -/
def routeTryDo (v : Word) (b : Blk) : Blk :=
  let b := setF Reg.ROUTE.TRY.SLOT (v.bits 0 5) b
  let k := flag b Reg.ROUTE.CFG.KEEP
  let n := getF b Reg.FABRIC.CFG.SIZE
  if v.bit 31 then
    let b := eccData (slotWords6 (v.bits 0 5)) b
    showQueue { b with sched := { b.sched with
      trySlot := some (v.bits 0 5), tryStart := b.q, tryKeep := k, trySize := n
      tryEntries := slotEntries b.live (v.bits 0 5) (portsOf n) } }
  else b

/-! ### Planning (R207, R209, R214) -/

/-- The frame moves an element, as far as this controller knows: a member knows its own elements only (R261, R307). -/
def Frame.moves (f : Frame) : Bool :=
  f.casc || (f.states :: f.members.map Prod.snd).any fun ws => ws.any fun w => natBits w.toNat 4 1 == 1

/-- The planner reads the live contexts and writes shadows and contexts for the frame at position `i`; a frame that moves no
element changes nothing (R208, R214, R261). (DEDUCED, log 35). -/
def planRead (i : Nat) (f : Frame) (b : Blk) : Blk :=
  let d1 := boundaryAt b (4 * f.launch) - f.launch
  let b := eccData (fun w => w.live && decide (w.mem.val ∈ [1, 2, 3])) b
  let parked := (f.states.zipIdx.filter fun x =>
    natBits x.1.toNat 4 1 == 1 && (b.elem x.2).lp.st == .parked).map Prod.snd
  let r := if f.moves then planAll d1 f.seq f.states b else (b, ⟨0, 0, 0, 0, []⟩)
  let o := r.2
  setFrame i { f with armSet := o.arm, wasParked := parked, plan := [o.moved, o.nb, o.kick, o.late] } r.1

/-- The frame being planned that has not read the contexts yet is read. -/
def planLate (b : Blk) : Blk :=
  let i := (b.sched.queue.takeWhile fun f => f.stage != .planning).length
  match b.sched.queue[i]? with
  | some f => if f.plan = [] then planRead i f b else b
  | none => b

/-- Some element is in TRANSIT. -/
def anyTransit (b : Blk) : Bool := b.elems.any fun x => x.2.lp.st == .transit

/-- PLAN_START (R207): the first frame that has not launched is planned once it is solved and the release instant of the
frame before it has come. Where elements still wait for the slots in which they leave TRANSIT, the planner reads the
contexts at the end of the tick, when all have left it (R137, R208). (DEDUCED, log 35). -/
def planStart (b : Blk) : Blk :=
  let i := firstUnlaunched b
  match b.sched.queue[i]? with
  | none => b
  | some f =>
    if f.stage = .solved ∧ b.sched.relTick ≤ b.tick ∧ b.sys.mode ≠ .reset then
      let b := setFrame i { f with stage := .planning, planStart := b.q, plan := [] } b
      if anyTransit b then b else planLate b
    else b

/-- PLAN_START. -/
def execPlanStart (s : State) : Host.Outcome State Fault Refusal := .next { s with b := planStart s.b }

/-- An element planned is armed when the plan is complete, unless it has entered PARKED, or, not moved, FAULT since (R214,
R215). -/
def stillArmed (b : Blk) (f : Frame) (e : Nat) : Bool :=
  let st := (b.elem e).lp.st
  if natBits (f.states.getD e 0).toNat 4 1 = 1 then st != .parked || decide (e ∈ f.wasParked)
  else st != .parked && st != .fault

/-- PLAN_COMPLETE (R209, R214, R239): the ARM bitmaps are written and the plan's figures shown. (DEDUCED, log 35). -/
def planComplete (b : Blk) : Blk :=
  let b := planLate b
  let i := (b.sched.queue.takeWhile fun f => f.stage != .planning).length
  match b.sched.queue[i]? with
  | none => b
  | some f =>
    let arm := f.armSet.filter fun e => stillArmed b f e
    let b := updElems arm (fun _ x => { x with drv := { x.drv with arm := true } }) b
    let n := fun (k : Nat) => f.plan.getD k 0
    let b := setF Reg.PLAN.LAST_PEAK.P_LAUNCH (launchPower arm b) (setF Reg.PLAN.LAST_CLAMP.LATE (n 3)
      (setF Reg.PLAN.LAST_CLAMP.KICK_CLAMP (n 2) (setF Reg.PLAN.LAST_PLAN.ARMED_NB (n 1)
        (setF Reg.PLAN.LAST_PLAN.MOVED (n 0) (setF Reg.PLAN.LAST_TIME.T_PLAN ((b.q - f.planStart) / 4) b)))))
    setFrame i { f with stage := .planned, armSet := arm, pEnd := if chainN b = 0 then b.time.ns else f.pEnd } b

/-- PLAN_COMPLETE. -/
def execPlanComplete (s : State) : Host.Outcome State Fault Refusal := .next { s with b := planComplete s.b }

/-! ### The sequencer (R254 to R258) -/

/-- Channel `c` is in service: 0 Iris, 1 Lupin, 2 Phlox. -/
def inService (b : Blk) (c : Nat) : Bool :=
  match c with
  | 0 => flag b Reg.SEQ.STAT.IN_I
  | 1 => flag b Reg.SEQ.STAT.IN_L
  | _ => flag b Reg.SEQ.STAT.IN_P

/-- The IN field of a channel. -/
def inFld (c : Nat) : Fld :=
  match c with
  | 0 => Reg.SEQ.STAT.IN_I
  | 1 => Reg.SEQ.STAT.IN_L
  | _ => Reg.SEQ.STAT.IN_P

/-- The channel of a vote. -/
def chanOf (v : VoteIn) (c : Nat) : ChanIn :=
  match c with
  | 0 => v.i
  | 1 => v.l
  | _ => v.p

/-- What a channel presents as launch command and as element-state word `w`: its difference from the scheduler's value, and
nothing where it presents none in time (R255). An armed SEQ_FLIP inverts bit 0 of one word (R382). -/
def chanWord (b : Blk) (v : VoteIn) (c w : Nat) : Option Word :=
  let x := chanOf v c
  if x.present = false then none
  else
    let m := (x.words.filter fun y => y.1.val == w).foldl (fun m y => m ^^^ y.2) 0
    some (if flag b Reg.FTEST.SEQ_FLIP.GO ∧ getF b Reg.FTEST.SEQ_FLIP.CHANNEL = c ∧ getF b Reg.FTEST.SEQ_FLIP.WORD = w
      then m ^^^ 1 else m)

/-- The launch command of a channel, as a difference. -/
def chanCmd (v : VoteIn) (c : Nat) : Option CmdDiff := if (chanOf v c).present then some (chanOf v c).cmd else none

/-- The vote over one value in TRIPLEX: the outvoted channel (3 where none is), or nothing where no two agree.
(DEDUCED, log 48). -/
def voteOne {α : Type} [DecidableEq α] (x y z : Option α) : Option Nat :=
  if x = none ∧ y = none ∨ x = none ∧ z = none ∨ y = none ∧ z = none then none
  else if x = y then (if x = z then some 3 else some 2)
  else if x = z then some 1
  else if y = z then some 0
  else none

/-- The element-state words that any channel alters, ascending; every other word agrees where all channels present. -/
def votedWords (b : Blk) (v : VoteIn) : List Nat :=
  let ws := ([v.i, v.l, v.p].flatMap fun x => x.words.map fun y => y.1.val)
    ++ (if flag b Reg.FTEST.SEQ_FLIP.GO then [getF b Reg.FTEST.SEQ_FLIP.WORD] else [])
  dedupAdj ((0 :: ws).mergeSort)

/-- The outcome of a vote: the channels that disagree, whether the sequencer halts, whether the launch command differs, and
the lowest differing element-state word. -/
structure VoteOut where
  odd : List Nat
  halt : Bool
  cmd : Bool
  word : Nat
deriving DecidableEq, Repr

/-- The vote in TRIPLEX (R255). (DEDUCED, log 48). -/
def voteTriplex (b : Blk) (v : VoteIn) : VoteOut :=
  let c := voteOne (chanCmd v 0) (chanCmd v 1) (chanCmd v 2)
  let ws := (votedWords b v).map fun w => (w, voteOne (chanWord b v 0 w) (chanWord b v 1 w) (chanWord b v 2 w))
  let all := c :: ws.map Prod.snd
  let odd := (List.range 3).filter fun k => all.any fun x => x == some k
  { odd := if all.any Option.isNone then [0, 1, 2] else odd
    halt := all.any Option.isNone || decide (2 ≤ odd.length)
    cmd := c != some 3
    word := ((ws.find? fun x => x.2 != some 3).map Prod.fst).getD 0 }

/-- The vote in DUPLEX (R256): any difference halts. (DEDUCED, log 48). -/
def voteDuplex (b : Blk) (v : VoteIn) (p q : Nat) : VoteOut :=
  let dif := fun {α : Type} [DecidableEq α] (x y : Option α) => decide (x ≠ y ∨ x = none)
  let c := dif (chanCmd v p) (chanCmd v q)
  let w := (votedWords b v).find? fun w => dif (chanWord b v p w) (chanWord b v q w)
  { odd := if c || w.isSome then [p, q] else [], halt := c || w.isSome, cmd := c, word := w.getD 0 }

/-- SEQ.LAST_DIS (R264). -/
def showDis (o : VoteOut) (b : Blk) : Blk :=
  if o.odd = [] then b
  else
    setF Reg.SEQ.LAST_DIS.WORD o.word (setFlag Reg.SEQ.LAST_DIS.VALID true (setFlag Reg.SEQ.LAST_DIS.WHAT (!o.cmd)
      (setFlag Reg.SEQ.LAST_DIS.ODD_P (decide (2 ∈ o.odd)) (setFlag Reg.SEQ.LAST_DIS.ODD_L (decide (1 ∈ o.odd))
        (setFlag Reg.SEQ.LAST_DIS.ODD_I (decide (0 ∈ o.odd)) b)))))

/-- SEQ.STAT.CONFIG from the channels in service (R264). -/
def showConfig (b : Blk) : Blk :=
  let n := ((List.range 3).filter fun c => inService b c).length
  setF Reg.SEQ.STAT.CONFIG (if n = 3 then 0 else if n = 2 then 1 else 2) b

/-- The SEQMARK words that NVM holds once every queued write is done (R368). (DEDUCED, log 114). -/
def seqMarks (b : Blk) : List Nat :=
  match (b.nvm.queue.reverse.find? fun w => w.addr == 0x60) with
  | some w => (bytesWords w.bytes).map BitVec.toNat
  | none => (List.range 8).map fun i =>
      ((List.range 4).foldl (fun n j => n + (b.nvm.mem.get 0 (0x60 + 4 * i + j)).toNat * 256 ^ j) 0)

/-- The mark of channel `c` written to SEQMARK (R257, R368). -/
def writeMark (c v : Nat) (b : Blk) : Blk :=
  let ws := (seqMarks b).take 7 |>.set c v
  let bs := ws.flatMap fun w => wordBytes (BitVec.ofNat 32 w)
  let w : NvmWrite := { addr := 0x60, bytes := bs ++ wordBytes (BitVec.ofNat 32 (crc32 bs)), wearIx := 1000, log := false
                        retry := false }
  setFlag Reg.NVM.STAT.BUSY true { b with nvm := { b.nvm with queue := b.nvm.queue ++ [w] } }

/-- Channel `c` is retired (R257). -/
def retire (c : Nat) (b : Blk) : Blk :=
  let b := showConfig (setFlag (inFld c) false b)
  let b := lifeAdd 11 1 (nvmRecord 2 992 (evGet b 992).cls c b)
  raise 992 (writeMark c b.nvm.seqn b)

/-- The sequencer halts (R256): frames are withdrawn, SEQ_HALT is raised. -/
def seqHalt (b : Blk) : Blk :=
  let ss := withdrawn2 b
  let b := setF Reg.SEQ.STAT.CONFIG 2 b
  raiseAll (993 :: ss) (withdrawAll (disarm b))

/-- A frame's launch time with the voted difference of its fields. -/
def voteLaunch (b : Blk) (l : Nat) (d : BitVec 80) : Nat :=
  if flag b Reg.TIME.CFG.FMT then l - l % 2 ^ 32 + ((l % 2 ^ 32) ^^^ (d.toNat % 2 ^ 32))
  else ((secOf l) ^^^ (d.toNat / 2 ^ 32)) * 1000000000 + ((nsOf l) ^^^ (d.toNat % 2 ^ 32))

/-- State bytes with the voted differences of their words. -/
def voteStates (ws : List Byte) (ds : List (Nat × Word)) : List Byte :=
  (ds.foldl (fun (a : Array Byte) d => (List.range 4).foldl (fun (a : Array Byte) j =>
    a.setIfInBounds (4 * d.1 + j) (a.getD (4 * d.1 + j) 0 ^^^ BitVec.ofNat 8 (d.2.toNat / 256 ^ j))) a) ws.toArray).toList

/-- The master sends COMMIT once its comparator is armed and every member has sent READY (R310). -/
def tryCommit (b : Blk) : Blk :=
  let i := firstUnlaunched b
  match b.sched.queue[i]? with
  | none => b
  | some f =>
    if 0 < chainN b ∧ f.stage = .armed ∧ f.commit = false ∧ (List.range (chainN b)).all (fun k => decide (k + 1 ∈ f.ready))
    then show2pc f.seq 1 0 0 (sendDown3 8 f.seq [f.seq] (setFrame i { f with commit := true } b))
    else b

/-- The voted values arm the comparator (R240, R258, R272); a member answers READY (R309). -/
def armFrame (i : Nat) (f : Frame) (b : Blk) : Blk :=
  let b := setFrame i { f with stage := .armed } b
  let b := setF Reg.TIME.CMP.C32 ((f.launch - 40) % 2 ^ 32) (setF Reg.SEQ.ARM_SEQ.SEQ f.seq.toNat
    (setFlag Reg.SEQ.STAT.ARMED true b))
  let b := if f.casc then sendUp3 7 f.seq [f.seq, 0] b else b
  tryCommit b

/-- The values that agree: the frame with the voted launch command and state words. -/
def votedFrame (b : Blk) (v : VoteIn) (odd : List Nat) (f : Frame) : Frame :=
  let good := ((List.range 3).filter fun c => inService b c && decide (c ∉ odd)).headD 0
  let d := (chanOf v good).cmd
  { f with
    launch := voteLaunch b f.launch d.l, seq := f.seq ^^^ d.seq, settle := f.settle ^^^ d.settle.toNat
    states := voteStates f.states ((votedWords b v).map fun w => (w, (chanWord b v good w).getD 0)) }

/-- SEQUENCER_VOTE (R254 to R258): the first frame that has not launched, once its plan is complete. -/
def sequencerVote (v : VoteIn) (b : Blk) : Blk :=
  let i := firstUnlaunched b
  match b.sched.queue[i]? with
  | none => b
  | some f =>
    if f.stage = .planned ∧ getF b Reg.SEQ.STAT.CONFIG ≠ 2 then
      let cs := (List.range 3).filter fun c => inService b c
      let o := if cs.length = 3 then voteTriplex b v else voteDuplex b v (cs.getD 0 0) (cs.getD 1 0)
      let g := votedFrame b v o.odd f
      let b := setFlag Reg.FTEST.SEQ_FLIP.GO false (showDis o (incF Reg.SEQ.VOTES.COUNT b))
      if o.halt then seqHalt b
      else
        let b := match o.odd with
          | c :: _ => retire c b
          | [] => b
        if firstUnlaunched b < b.sched.queue.length then armFrame i g b else b
    else b

/-- SEQUENCER_VOTE. -/
def execSequencerVote (c : VoteIn) (s : State) : Host.Outcome State Fault Refusal :=
  .next { s with b := sequencerVote c s.b }

/-- A write of SEQ.RETIRE_CLR is rejected (R257). -/
def retireClrErrs (v : Word) (b : Blk) : List Nat := if v.bits 0 3 ≠ 0 ∧ b.sys.mode ≠ .idle then [2] else []

/-- An accepted write of SEQ.RETIRE_CLR erases the marks selected (R257, R369). -/
def retireClrDo (v : Word) (b : Blk) : Blk :=
  (List.range 3).foldl (fun b c => if v.bit c then writeMark c 0 (nvmRecord 3 0 0 c b) else b) b

/-! ### Cancelling and budgets (R243, R249, R251) -/

/-- The position of the queued frame with a sequence number. -/
def frameWith (b : Blk) (seq : Word) : Option Nat :=
  let i := (b.sched.queue.takeWhile fun f => f.seq != seq).length
  if i < b.sched.queue.length then some i else none

/-- The code that answers a CANCEL (R251). -/
def cancelCode (b : Blk) (seq : Word) : Nat :=
  match frameWith b seq with
  | none => 1
  | some i =>
    match b.sched.queue[i]? with
    | some f => if f.stage = .launched ∨ f.launch ≤ b.time.ns + 1000 then 0x14 else 0
    | none => 1

/-- A CANCEL of a frame: its CANCEL_ACK record, and the withdrawal where it is accepted (R237, R251, R259). -/
def cancelFrame (peer : Option Peer) (msg seq : Word) (b : Blk) : Blk :=
  let code := cancelCode b seq
  let b := postRecord false peer msg (recordWords b (4 + code * 256) seq 0 0 0 b.time.ns 0) b
  match code, frameWith b seq with
  | 0, some i => flushLate (withdrawFrom i 0 1 b)
  | _, _ => flushLate b

/-- BUDGET_OVERDRAWN follows the flag (R249). -/
def setOverdrawn (v : Bool) (b : Blk) : Blk :=
  let was := flag b Reg.SCHED.STAT.OVERDRAWN
  let b := setRaw 1027 v (setFlag Reg.SCHED.STAT.OVERDRAWN v b)
  raiseIf (v && !was) 1027 b

/-- A write of SCHED.BUDGET is rejected (R243). -/
def budgetErrs (v : Word) : List Nat :=
  if 8000 < v.bits 0 13 ∨ v.bits 16 13 < v.bits 0 13 ∨ 8000 < v.bits 16 13 then [1] else []

/-- An accepted write of SCHED.BUDGET (R243, R249). -/
def budgetDo (v : Word) (b : Blk) : Blk :=
  let b := setF Reg.SCHED.BUDGET.PEAK (v.bits 16 13) (setF Reg.SCHED.BUDGET.STEADY (v.bits 0 13) b)
  if 10 * v.bits 0 13 ≤ getF b Reg.SCHED.METER.P_MS then setOverdrawn true b else b

/-- METER_MILLISECOND: a millisecond of 1,000 ticks ends (R95, R249). -/
def meterMillisecond (b : Blk) : Blk :=
  if b.tick % 1000 = 0 ∧ b.tick ≠ b.sched.msTick ∧ b.sys.mode ≠ .reset then
    let r := (List.range 18).foldl (fun (x : Blk × Nat) n =>
      let k := x.1.bank n
      let w := (ratRne (k.msSum / ((max 1 k.msN : Nat) : Rat))).toNat
      (setBank n { k with msSum := 0, msN := 0 } (setF (Reg.DRV.MTR_AVG.P_AVG n) w x.1), x.2 + w)) (b, 0)
    let b := setF Reg.SCHED.METER.P_MS r.2 r.1
    let b := { b with sched := { b.sched with overMs := false, msTick := b.tick } }
    setOverdrawn (decide (10 * getF b Reg.SCHED.BUDGET.STEADY ≤ r.2)) b
  else b

/-- METER_MILLISECOND. -/
def execMeterMillisecond (s : State) : Host.Outcome State Fault Refusal := .next { s with b := meterMillisecond s.b }

/-- A write of DLOG_RP is rejected (R229). -/
def dlogRpErrs (v : Word) (b : Blk) : List Nat :=
  let rp := getF b Reg.PLAN.DLOG_RP.RP
  if (getF b Reg.PLAN.DLOG_WP.WP + 512 - rp) % 512 < (v.bits 0 9 + 512 - rp) % 512 then [1] else []

end Sys2Proof.Machine
end

