-- ==== Sys2Proof/Machine/Launch.lean ====
section
/-!
DEFINITION. Launches and their outcomes (R31, R34, R81 to R84, R115, R172, R224 to R229, R253, R258 to R261, R272, R311,
R313).
-/
set_option autoImplicit false

namespace Sys2Proof.Machine

/-! ### Windows and outcomes (R224, R226) -/

/-- A tracker at the end of its window (R224). -/
def Tracker.close (q : Nat) (k : Tracker) : Tracker :=
  if k.outcome = .tracking ∧ k.tEnd ≤ q then { k with outcome := if k.lit then .fail else .model } else k

/-- Every window that has ended is decided. -/
def closeWindows (b : Blk) : Blk := updElems b.listed (fun _ x => { x with trk := x.trk.map (Tracker.close b.q) }) b

/-- The ends of the windows not decided. -/
def openEnds (b : Blk) : List Nat :=
  b.elems.filterMap fun x => x.2.trk.bind fun t => if t.outcome = .tracking then some t.tEnd else none

/-- DELIVERY_WINDOW_CLOSE: the clock runs on to the next end of a window, if it lies in this tick, and the windows that
have ended are decided (R224, R226). -/
def deliveryWindowClose (b : Blk) : Blk :=
  match openEnds b with
  | [] => b
  | t :: ts => atQ (ts.foldl min t) closeWindows b

/-- DELIVERY_WINDOW_CLOSE. -/
def execDeliveryWindowClose (s : State) : Host.Outcome State Fault Refusal := .next { s with b := deliveryWindowClose s.b }

/-! ### The completion of a frame (R34, R228, R229, R260, R261) -/

/-- The trackers of a launched frame, by element. -/
def trackersOf (b : Blk) (f : Frame) : List (Nat × Tracker) :=
  b.elems.filterMap fun x => x.2.trk.bind fun t => if t.t0 = f.t0 then some (x.1, t) else none

/-- The code of an outcome (R226). -/
def Outcome.code : Outcome → Nat
  | .tracking => 0 | .delivered => 0 | .model => 1 | .fail => 2 | .notLaunched => 3 | .aborted => 4

/-- The closing instant in quarter-nanoseconds of elapsed time (R260, R261). (DEDUCED, log 40). -/
def closingInstant (f : Frame) (ts : List (Nat × Tracker)) : Nat :=
  if ts.all fun t => t.2.outcome == .delivered then ts.foldl (fun m t => max m (t.2.t0 + t.2.settle)) f.t0
  else f.t0 + 125 * f.settle

/-- The words of a delivery log record (R228). (DEDUCED, log 40). -/
def dlogWords (b : Blk) (f : Frame) (e : Nat) (t : Tracker) : Nat × Nat :=
  (e + getF b Reg.GLEW.ID.CASC_ID * 8192 + t.outcome.code * 65536 + (if t.lit && t.lastDark then 524288 else 0)
      + f.seq.toNat % 4096 * 1048576,
   t.last + t.npass * 65536 + t.ndark * 16777216)

/-- A record enters the delivery log, or is dropped where the ring is full (R229). -/
def dlogPut (w : Nat × Nat) (b : Blk) : Blk :=
  let wp := getF b Reg.PLAN.DLOG_WP.WP
  if (wp + 512 - getF b Reg.PLAN.DLOG_RP.RP) % 512 = 256 then incF Reg.PLAN.DLOG_LOST.LOST b
  else setF Reg.PLAN.DLOG_WP.WP ((wp + 1) % 512) (setF (Reg.PLAN.DLOG.W (2 * (wp % 256) + 1)) w.2
    (setF (Reg.PLAN.DLOG.W (2 * (wp % 256))) w.1 b))

/-- What a completion counts: DELIVERED, MODEL, FAIL, NOT_LAUNCHED and ABORTED, the largest settle time in
quarter-nanoseconds, and the closing instant in local time. -/
structure Tally where
  deliv : Nat
  model : Nat
  fail : Nat
  other : Nat
  settle : Nat
  close : Nat
deriving DecidableEq, Repr

/-- The tally of the controller's own elements. (DEDUCED, log 51). -/
def ownTally (b : Blk) (f : Frame) (ts : List (Nat × Tracker)) : Tally :=
  let n := fun (p : Outcome → Bool) => (ts.filter fun t => p t.2.outcome).length
  { deliv := n (· == .delivered), model := n (· == .model), fail := n (· == .fail)
    other := n fun o => o == .notLaunched || o == .aborted
    settle := ts.foldl (fun m t => if t.2.outcome = .delivered then max m t.2.settle else m) 0
    close := localAt b (closingInstant f ts) }

/-- Member `k` is silent (R314): its last STATUS is more than 4 µs old, or the DOWN port is not in RUN. -/
def memberSilent (b : Blk) (k : Nat) : Bool :=
  portState b .dn != 5 || !(b.glew.mems.get MemberSt.reset k).seen.any (fun t => decide (b.q ≤ t + 16000))

/-- The moved elements of member `k` in a frame. -/
def memMoved (f : Frame) (k : Nat) : Nat :=
  match f.members.find? fun x => x.1 == k with
  | some x => (x.2.filter fun w => natBits w.toNat 4 1 == 1).length
  | none => 0

/-- The tally with member `k`'s SUMMARY, or with its moved elements as NOT_LAUNCHED where it has sent none (R313, R314). -/
def addMember (b : Blk) (f : Frame) (t : Tally) (k : Nat) : Tally :=
  match f.sums.find? fun x => x.1 == k with
  | some x =>
    let w := fun (i : Nat) => x.2.getD i 0
    let c := b.time.ns - (b.time.ns % 2 ^ 32 + 2 ^ 32 - w 5 % 2 ^ 32) % 2 ^ 32
    { deliv := t.deliv + halfOf (w 2) 0, model := t.model + halfOf (w 2) 1, fail := t.fail + halfOf (w 3) 0
      other := t.other + halfOf (w 3) 1, settle := if 0 < halfOf (w 2) 0 then max t.settle (4 * w 4) else t.settle
      close := max t.close c }
  | none =>
    if memMoved f k = 0 then t
    else { t with other := t.other + memMoved f k, close := max t.close (localAt b (f.t0 + 125 * f.settle)) }

/-- The frame has ended on every controller: no own element is tracked any more, and every member that is not silent has
sent its SUMMARY (R34, R313, R314). -/
def frameEnded (b : Blk) (f : Frame) (ts : List (Nat × Tracker)) : Bool :=
  ts.all (fun t => t.2.outcome != .tracking)
    && (List.range (chainN b)).all fun k => f.sums.any (fun x => x.1 == k + 1) || memberSilent b (k + 1)

/-- The launched frame at the front of the queue completes (R34, R229, R260, R261, R313). -/
def completeFrame (f : Frame) (b : Blk) : Blk :=
  let ts := trackersOf b f
  let own := ownTally b f ts
  let t := (List.range (chainN b)).foldl (fun t k => addMember b f t (k + 1)) own
  let failed := decide (0 < t.fail + t.other)
  let dl := getF b Reg.PLAN.DLOG_WP.WP
  let b := (ts.filter fun x => x.2.outcome != .delivered).foldl (fun b x => dlogPut (dlogWords b f x.1 x.2) b) b
  let b := setF Reg.PLAN.DLV1.OTHER own.other (setF Reg.PLAN.DLV1.FAIL own.fail (setF Reg.PLAN.DLV0.MODEL own.model
    (setF Reg.PLAN.DLV0.DELIVERED own.deliv b)))
  let b := setF Reg.PLAN.DLV_SETTLE.SETTLE (if own.deliv = 0 then 0xFFFF else own.settle / 4) b
  let b := lifeAdd 9 (own.fail + own.other) b
  let b := showQueue { b with sched := { b.sched with
    queue := b.sched.queue.drop 1, sFree := f.sFree, pEnd := f.pEnd, rel := f.rel } }
  if f.casc then
    sendCell .up 10 0 false (f.seq.toNat % 65536)
      [f.seq.toNat, t.deliv + t.model * 65536, t.fail + t.other * 65536, if t.deliv = 0 then 2 ^ 32 - 1 else t.settle / 4,
       t.close % 2 ^ 32] b
  else
    let w0 := 2 + (if 0 < t.model then 65536 else 0) + (if failed then 131072 else 0)
    let tval := if t.deliv = 0 then 2 ^ 32 - 1 else t.settle / 4
    let b := postRecord f.peer.isNone f.peer 0
      (recordWords b w0 f.seq tval (t.deliv + t.model * 65536) (t.fail + t.other * 65536) t.close dl) b
    let b := trigOnce b.now 4 (if failed then 1 else 0) b
    let b := if 0 < t.deliv then monSettle t.settle b else b
    if failed then raise 1025 (incF Reg.SCHED.CNT_FAIL.COUNT b) else flushLate b

/-- COMPLETION_EVENT: the frame at the front of the queue, launched and ended, completes; the clock runs on to its closing
instant if that lies ahead in this tick. -/
def completionEvent (b : Blk) : Blk :=
  match b.sched.queue.head? with
  | some f =>
    let ts := trackersOf b f
    if f.stage = .launched ∧ frameEnded b f ts then atQ (closingInstant f ts) (completeFrame f) b else b
  | none => b

/-- COMPLETION_EVENT. -/
def execCompletionEvent (s : State) : Host.Outcome State Fault Refusal := .next { s with b := completionEvent s.b }

/-! ### The strobe (R81 to R84, R172) -/

/-- A bank discards strobes (R84): it is cleared or not released. (DEDUCED, log 49). -/
def bankShut (b : Blk) (n : Nat) : Bool := !(b.bank n).released || (b.bank n).cleared

/-- The drive part of an armed output takes its launch shadow (R65, R76, R81, R84). -/
def launchDrv (b : Blk) (f : Frame) (e : Nat) (d : ElemDrv) : ElemDrv :=
  let d := d.runTo b.edge
  { d with
    htrLive := limitHtr b e d.htrSh.toNat, arm := false, skipTo := ceilDiv (f.t0 / 16) 250
    trmLive := if d.seq.isSome then d.trmLive else d.trmSh
    seq := d.seq.map fun q => { q with kept := d.trmSh }
    md := { d.md with first := true } }

/-- A delivery tracker of a moved element (R224). -/
def newTracker (f : Frame) (o : Outcome) : Tracker :=
  { run := 0, lit := false, last := 0xFFFF, npass := 0, ndark := 0, lastDark := false, t0 := f.t0
    tEnd := f.t0 + 125 * f.settle, settle := 0, outcome := o, frame := f.seq }

/-- The strobe acts on an armed element of an open bank: moved elements enter TRANSIT and are tracked, with nothing left of an
earlier transit (R81, R136, R137, R172), and DELIV and SETTLE_END of an element that is armed only clear (R225).
(DEDUCED, log 49). -/
def launchElem (b : Blk) (f : Frame) (moved : Bool) (e : Nat) (x : Elem) : Elem :=
  { x with
    drv := { launchDrv b f e x.drv with old := outsTo b f.t0 e x }
    lp := { x.lp with st := if moved then .transit else x.lp.st, launched := true, moved := x.lp.moved || moved
                      launchQ := some f.t0, heldFl := if moved then 0 else x.lp.heldFl
                      exitTo := if moved then .track else x.lp.exitTo }
    trk := if moved then some (newTracker f .tracking) else none }

/-- The strobe acts at every bank (R81, R84, R226): moved elements whose strobe is discarded or whose ARM bit is 0 end as
NOT_LAUNCHED. (DEDUCED, log 23; DEDUCED, log 49). -/
def strobe (f : Frame) (b : Blk) : Blk :=
  let armed := b.listed.filter fun e => (b.elem e).drv.arm
  let moved := (f.states.zipIdx.filter fun x => natBits x.1.toNat 4 1 == 1).map Prod.snd
  let mv := (moved.foldl (fun (a : Array Bool) e => a.setIfInBounds e true) (List.replicate 4608 false).toArray)
  let go := armed.filter fun e => !bankShut b (bankOf e)
  let b := updElems go (fun e x => launchElem b f (mv.getD e false) e x) b
  let b := updElems (moved.filter fun e => decide (e ∉ go)) (fun _ x => { x with trk := some (newTracker f .notLaunched) }) b
  let b := clearArms { b with strobe := none }
  raiseAll (((List.range 18).filter fun n => bankShut b n).map fun n => 544 + 16 * n + 4) b

/-- The frame of the strobe that is on its way: the last launched one. -/
def strobeFrame (b : Blk) : Option Frame := (b.sched.queue.take (firstUnlaunched b)).getLast?

/-- A strobe that falls due in this tick acts. (DEDUCED, log 23). -/
def strobeDue (b : Blk) : Blk :=
  match b.strobe, strobeFrame b with
  | some x, some f => if x < 250 * b.tick + 250 then strobe f (toEdge (x - 250 * b.tick) b) else b
  | _, _ => b

/-! ### The match (R253, R258, R272, R311) -/

/-- Earlier frames complete before another launches: their windows have ended and their records are due (R34).
(DEDUCED, log 41). -/
def settleEarlier (b : Blk) : Blk :=
  (List.range 64).foldl (fun b _ =>
    match b.sched.queue.head? with
    | some f => if f.stage = .launched then completeFrame f b else b
    | none => b) (if transCond b then closeWindows b else b)

/-- Every demodulator takes the frame's state bytes at L (R115, R258). -/
def loadBytes (f : Frame) (b : Blk) : Blk :=
  let a := f.states.toArray
  { b with elems := Tbl.mapRange Elem.reset (fun e x =>
      { x with lp := { x.lp with sbyte := a.getD e 0 }
               sns := { x.sns with oldByte := x.lp.sbyte, oldLoad := x.sns.sinceLoad, sinceLoad := f.t0 } }) 4608 0 b.elems }

/-- The members' state bytes after a launch, as the master keeps them. -/
def loadMembers (f : Frame) (b : Blk) : Blk :=
  { b with glew := { b.glew with mstates := f.members.foldl (fun t x =>
      (x.2.zipIdx).foldl (fun t y => t.set 0 (8192 * x.1 + y.2) (dropMove y.1)) t) b.glew.mstates } }

/-- The voted strobe of the frame is issued at the present edge (R258, R271, R272): it acts three CLK_TICK edges later.
(DEDUCED, log 41). -/
def launch (f : Frame) (b : Blk) : Blk :=
  let b := settleEarlier b
  let i := firstUnlaunched b
  let x := 250 * b.tick + b.edge
  let f := { f with stage := .launched, t0 := 16 * x + 160 }
  let b := trigOnce (f.t0 / 16) 3 0 (lifeAdd64 7 (setFrame i f (setFlag Reg.SEQ.STAT.ARMED false b)))
  let b := { b with
    strobe := some (x + 3)
    sched := { b.sched with relTick := ceilDiv (f.t0 + 125 * f.settle) 4000
                            windows := (b.sched.windows.filter fun w => decide (b.q < w.2)) ++ [(f.t0, f.t0 + 125 * f.settle + 8000)] } }
  strobeDue (loadMembers f (loadBytes f b))

/-- A chain's frame without COMMIT at the match (R310, R311): a member discards its sets, the master withdraws. -/
def noCommit (f : Frame) (b : Blk) : Blk :=
  let i := firstUnlaunched b
  if f.casc then showQueue (disarm { b with sched := { b.sched with queue := b.sched.queue.take i } })
  else
    let ss := withdrawn2 b
    raiseAll (1092 :: ss) (withdrawFrom i 2 2 b)

/-- A member that holds COMMIT at its match with FREEZE_N low issues no strobe: the frame has launched elsewhere, its own moved
elements end as NOT_LAUNCHED and are reported in its outcomes, and its later frames are withdrawn (R253, R311, R313).
(DEDUCED, log 142). -/
def suppress (f : Frame) (b : Blk) : Blk :=
  let b := settleEarlier b
  let i := firstUnlaunched b
  let f := { f with stage := .launched, t0 := 16 * (250 * b.tick + b.edge) + 160 }
  let moved := (f.states.zipIdx.filter fun x => natBits x.1.toNat 4 1 == 1).map Prod.snd
  let b := updElems moved (fun _ x => { x with trk := some (newTracker f .notLaunched) }) (setFrame i f b)
  raise 994 (disarm (withdrawFrom (i + 1) 2 2 b))

/-- The frame's comparator matches at the present edge. -/
def matched (f : Frame) (b : Blk) : Blk :=
  if (f.casc || decide (0 < chainN b)) && !f.commit then noCommit f b
  else if f.casc && b.sys.frozenLow then suppress f b
  else if b.sys.frozenLow then
    let ss := withdrawn2 b
    raiseAll (994 :: ss) (withdrawAll b)
  else launch f b

/-- How many CLK_TICK edges away the first lies at which the local time has reached C = L - 40 ns, in the format in force:
S:N ≥ C, or (count - C) mod 2^32 < 2^31 (R272). -/
def matchEdges (b : Blk) (launch : Nat) : Nat :=
  let ahead : Int :=
    if flag b Reg.TIME.CFG.FMT then
      let d := ((b.time.ns : Int) - launch + 40) % 2 ^ 32
      if d < 2 ^ 31 then 0 else 2 ^ 32 - d
    else (launch : Int) - 40 - b.time.ns
  ceilDiv (ahead * 2 ^ 28 - b.time.frac).toNat (getF b Reg.TIME.INCR.INCR)

/-- COMPARATOR_MATCH (R272): the clock runs on to the first CLK_TICK edge at which the local time has reached L - 40 ns,
if that edge lies in this tick. (DEDUCED, log 23). -/
def comparatorMatch (b : Blk) : Blk :=
  match b.sched.queue[firstUnlaunched b]? with
  | none => b
  | some f =>
    if f.stage = .armed ∧ b.sys.mode ≠ .reset then
      let n := matchEdges b f.launch
      if b.edge + n < 250 then matched f (toEdge (b.edge + n) b) else b
    else b

/-- COMPARATOR_MATCH. -/
def execComparatorMatch (s : State) : Host.Outcome State Fault Refusal := .next { s with b := comparatorMatch s.b }

end Sys2Proof.Machine
end

