-- ==== Sys2Proof/Machine/Trig.lean ====
section
/-!
DEFINITION. The trigger engine (R333 to R340, R342, R345): conditions, transitions, arming, marked windows, the TRIG pin.
A step is a CLK_TICK edge of elapsed time; its instant in quarter-nanoseconds is 16 times its number.
-/
set_option autoImplicit false

namespace Sys2Proof.Machine

/-! ### Conditions (R333 to R335) -/

/-- A channel's sample as a condition compares it (R335). -/
def cmpView (b : Blk) (c : Nat) (v : Int) : Int :=
  let h := if flag b (Reg.ACQ.CH_CFG.W32 c) then toBits 32 v / 65536 else toBits 16 v
  if chanSigned b c then sext 16 h else (h : Nat)

/-- A CHANNEL condition at step `k` (R335). -/
def chanCond (b : Blk) (c op lo hi k : Nat) : Bool :=
  let lv := fun (n : Nat) => if chanSigned b c then sext 16 n else ((n % 65536 : Nat) : Int)
  match (chanSt b c).hist.dropWhile fun s => decide (k < s.dec) with
  | [] => false
  | s :: t =>
    let x := cmpView b c s.val
    let now := s.dec == k
    let inside := decide (lv lo ≤ x) && decide (x < lv hi)
    match op with
    | 0 => decide (x < lv lo)
    | 1 => decide (lv lo ≤ x)
    | 2 => inside
    | 3 => !inside
    | 4 => now && t.head?.any (fun p => decide (cmpView b c p.val < lv lo)) && decide (lv lo ≤ x)
    | 5 => now && t.head?.any (fun p => decide (lv lo ≤ cmpView b c p.val)) && decide (x < lv lo)
    | 6 => now && decide (x < lv lo)
    | _ => now && decide (lv lo ≤ x)

/-- Timer `i`'s window in steps; empty where it does not run. -/
def timerWin (b : Blk) (i : Nat) : Nat × Nat := b.trig.tmr.get (0, 0) i

/-- Condition unit `c` at step `k` (R334). -/
def condAt (b : Blk) (k c : Nat) : Bool :=
  let arg := getF b (Reg.TRIG.COND.ARG c)
  let at_ := fun (typ a : Nat) => decide ((k, typ, a) ∈ b.trig.once)
  match getF b (Reg.TRIG.COND.TYPE c) with
  | 1 => chanCond b (arg % 32) (getF b (Reg.TRIG.COND.OP c)) (getF b (Reg.TRIG.COND.LO c)) (getF b (Reg.TRIG.COND.HI c)) k
  | 2 => at_ 2 (arg % 2)
  | 3 => at_ 3 0
  | 4 => at_ 4 1 || (arg % 2 == 0 && at_ 4 0)
  | 5 => at_ 5 arg
  | 6 => decide (getF b (Reg.TRIG.CMP.CMP (arg % 4)) ≤ getF b (Reg.TRIG.CNT.COUNT (arg % 4)))
  | 7 => at_ 7 (arg % 4)
  | 8 => decide ((timerWin b (arg % 4)).1 ≤ k) && decide (k < (timerWin b (arg % 4)).2)
  | 9 => at_ 9 0
  | 10 => at_ 10 0
  | 11 => true
  | _ => false

/-- The condition vector of step `k` (R333). -/
def condVec (b : Blk) (k : Nat) : Nat :=
  (List.range 16).foldl (fun n c => n + (if condAt b k c then 2 ^ c else 0)) 0

/-- Entry `x` fires under condition vector `v` (R336). -/
def entryFires (b : Blk) (v x : Nat) : Bool :=
  let w := getF b (Reg.TRIG.TT.W0 x)
  let m := w % 65536
  natBits w 17 1 == 1 && m != 0 && (if natBits w 16 1 = 1 then (v &&& m) == m else (v &&& m) != 0)

/-! ### Marks (R326, R329) -/

/-- What a MARK record says beside its stamp and ARM_ID. -/
structure Mark where
  kind : Nat
  mask : Nat
  frm : Nat
  dest : Nat
  busy : Bool
  cut : Bool
  origin : Nat
  index : Nat
  endless : Bool
  wStart : Nat
  wEnd : Nat
  counts : Nat × Nat
deriving DecidableEq, Repr

/-- This controller's CASC_ID. -/
def ownId (b : Blk) : Nat := getF b Reg.GLEW.ID.CASC_ID

/-- A mark of step `k` with nothing else to say: the conditions and counters as they stand, made by this controller.
(DEDUCED, log 57). -/
def Mark.plain (kind k : Nat) (b : Blk) : Mark :=
  { kind := kind, mask := condVec b k, frm := 0, dest := 0, busy := false, cut := false, origin := ownId b, index := 0
    endless := false, wStart := 0, wEnd := 0, counts := (getF b (Reg.TRIG.CNT.COUNT 0), getF b (Reg.TRIG.CNT.COUNT 1)) }

/-- The TIME32W count of step `k`. -/
def stepStamp (b : Blk) (k : Nat) : Nat := localAt b (16 * k) % 2 ^ 32

/-- A MARK record of step `k` is due (R326), after the samples of output codes decided by then (R329). (DEDUCED, log 57). -/
def putMark (k stamp : Nat) (m : Mark) (b : Blk) : Blk :=
  dueRec 2 [stamp,
    m.mask % 65536 + m.frm * 65536 + m.dest * 1048576 + m.kind * 16777216 + (if m.busy then 134217728 else 0)
      + (if m.cut then 268435456 else 0) + m.origin * 536870912,
    m.index + getF b Reg.TRIG.STAT.ARM_ID * 64 + (if m.endless then 16384 else 0),
    m.wStart, m.wEnd, m.counts.1, m.counts.2] (acqOuts k b)

/-! ### Windows (R340) -/

/-- The open window closes at step `k`: END mark, TRIG_END, the spans end (R340, R343). -/
def closeWindow (k : Nat) (cut : Bool) (b : Blk) : Blk :=
  match b.trig.win with
  | none => b
  | some w =>
    let b := putMark k (stepStamp b k) { Mark.plain 2 k b with cut := cut, wEnd := w.wEnd } b
    raise 1124 (closeMeas (if cut then 16 * k else (w.stop.getD (16 * k))) (setFlag Reg.TRIG.STAT.WIN_OPEN false { b with trig := { b.trig with win := none } }))

/-- An endless window closes with CUT at step `k` (R339). (DEDUCED, log 56). -/
def closeEndless (k : Nat) (b : Blk) : Blk :=
  if b.trig.win.any fun w => w.stop.isNone then closeWindow k true b else b

/-- A finite window that ends at or before step `k` closes at its end (R12, R340). -/
def closeDue (k : Nat) (b : Blk) : Blk :=
  match b.trig.win with
  | some w =>
    match w.stop with
    | some z => if ceilDiv z 16 ≤ k then closeWindow (ceilDiv z 16) false b else b
    | none => b
  | none => b

/-- W_START and W_END of a window with T stamped `t` (R340). -/
def winStamps (b : Blk) (t : Nat) : Nat × Nat :=
  let post := getF b Reg.TRIG.POST.FRAMES
  (toBits 32 ((t : Int) - 125 * getF b Reg.TRIG.PRE.FRAMES), if post = 0 then 0 else (t + 125 * post) % 2 ^ 32)

/-- A window opens with T at elapsed instant `q` and stamp `t`, as controller `origin` made it (R340, R341). -/
def openWindow (q t origin : Nat) (b : Blk) : Blk :=
  let post := getF b Reg.TRIG.POST.FRAMES
  let w : Win := { t := q, stop := if post = 0 then none else some (q + 500 * post), wEnd := (winStamps b t).2 }
  startMeas q t origin w.stop (setFlag Reg.TRIG.STAT.WIN_OPEN true { b with trig := { b.trig with win := some w } })

/-- The TRIG pin (R338, R340). -/
def pinTrig : Nat := 0

/-- A TRIGGER transition at step `k` (R340): condition vector, entry and states are those of the transition. -/
def trigger (k v x frm dest : Nat) (b : Blk) : Blk :=
  let t := stepStamp b k
  let isOpen := flag b Reg.TRIG.STAT.WIN_OPEN
  let ws := winStamps b t
  let m : Mark := { Mark.plain 0 k b with mask := v, frm := frm, dest := dest, index := x, busy := isOpen }
  let b := incF Reg.TRIG.HITS.COUNT b
  if isOpen then putMark k t m b
  else
    let endless := getF b Reg.TRIG.POST.FRAMES == 0
    let b := putMark k t { m with endless := endless, wStart := ws.1, wEnd := ws.2 } b
    let b := openWindow (16 * k) t (ownId b) b
    let b := if flag b Reg.TRIG.CFG.PIN_OUT then
        send (.pin pinTrig false)
          { b with trig := { b.trig with pulse := some (k + 1, k + 1 + getF b Reg.TRIG.CFG.PULSE) } }
      else b
    if flag b Reg.TRIG.CFG.CASC then
      let ws := [t, v + frm * 65536 + dest * 1048576 + x * 16777216]
      let id := getF b Reg.TRIG.STAT.ARM_ID
      sendCell .dn 12 0 true id ws (sendCell .up 12 0 true id ws b)
    else b

/-! ### Arming (R339, R342) -/

/-- The engine is armed at step `k` under identity `id` (R339). -/
def armAct (k id : Nat) (b : Blk) : Blk :=
  let v := condVec b k
  let b := closeEndless k b
  let b := (List.range 4).foldl (fun b i => setF (Reg.TRIG.CNT.COUNT i) 0 b) b
  let b := setF Reg.TRIG.STAT.ARM_ID id (setF Reg.TRIG.STAT.STATE (getF b Reg.TRIG.CFG.START)
    (setFlag Reg.TRIG.STAT.ARMED true { b with trig := { b.trig with tmr := [], next := k + 1 } }))
  putMark k (stepStamp b k) { Mark.plain 4 k b with mask := v } b

/-- The engine is disarmed at step `k` with mark `m` (R337, R339). (DEDUCED, log 56). -/
def disarmAct (k : Nat) (m : Mark) (b : Blk) : Blk :=
  putMark k (stepStamp b k) m (setFlag Reg.TRIG.STAT.ARMED false b)

/-- A DISARM at step `k`: nothing while the engine is disarmed (R339). -/
def disarmCmd (k : Nat) (b : Blk) : Blk :=
  if flag b Reg.TRIG.STAT.ARMED then closeEndless k (disarmAct k (Mark.plain 5 k b) b) else b

/-- The clock moves to the next CLK_TICK edge, the first step after a write. -/
def nextStep (b : Blk) : Blk := toEdge (min 250 (b.edge + 1)) b

/-- A chain-wide arm or disarm: the master sets A_T 2,000 ns ahead and broadcasts TRIG_ARM (R342). -/
def chainArm (arm : Bool) (b : Blk) : Blk :=
  let at_ := (b.time.ns + 2000) % 2 ^ 32
  let id := if arm then (getF b Reg.TRIG.STAT.ARM_ID + 1) % 256 else getF b Reg.TRIG.STAT.ARM_ID
  sendCell .dn 11 0 true id [if arm then 1 else 0, at_] { b with trig := { b.trig with armAt := some (at_, arm, id) } }

/-- A write of TRIG.ACT is rejected (R339, R342). -/
def trigActErrs (v : Word) (b : Blk) : List Nat :=
  (if v.bit 0 ∧ flag b Reg.TRIG.STAT.ARMED then [3] else [])
    ++ (if v.bits 0 2 ≠ 0 ∧ flag b Reg.TRIG.CFG.CASC ∧ (isMember b ∨ portState b .dn ≠ 5) then [0x15] else [])

/-- An accepted write of TRIG.ACT (R339, R342). -/
def trigActDo (v : Word) (b : Blk) : Blk :=
  if v.bits 0 3 = 0 then b
  else
    let casc := flag b Reg.TRIG.CFG.CASC
    let force := v.bit 2 && flag b Reg.TRIG.STAT.ARMED
    let b := if casc && v.bit 0 then chainArm true b else b
    let b := nextStep (if casc && v.bit 1 then chainArm false b else b)
    let k := b.now
    let b := if force then trigOnce k 10 0 b else b
    let b := if v.bit 0 && !casc then armAct k ((getF b Reg.TRIG.STAT.ARM_ID + 1) % 256) b else b
    if v.bit 1 && !casc then disarmCmd k b else b

/-- Writes of the TRIG page that arming or a range forbids (R339, R345). -/
def trigErrs (off : Nat) (v : Word) (b : Blk) : List Nat :=
  let locked := off = 0x44 ∨ off = 0x48 ∨ off = 0x4C ∨ (0x70 ≤ off ∧ off < 0x90) ∨ (0x100 ≤ off ∧ off < 0x180)
    ∨ (0x200 ≤ off ∧ off < 0x400)
  (if locked ∧ flag b Reg.TRIG.STAT.ARMED then [3] else [])
    ++ (if off = 0x44 ∧ v.bits 8 8 < 2 then [1] else [])
    ++ (if 0x80 ≤ off ∧ off < 0x90 ∧ v.toNat = 0 then [1] else [])
    ++ (if 0x100 ≤ off ∧ off < 0x180 ∧ off % 8 = 0 ∧ 12 ≤ v.bits 0 4 then [4] else [])

/-- ARM_INSTANT: local time reaches A_T, at the first CLK_TICK edge that has it, if that lies in this tick (R342). -/
def armInstant (b : Blk) : Blk :=
  match b.trig.armAt with
  | none => b
  | some a =>
    let left := sext 32 (toBits 32 ((a.1 : Int) - (b.time.ns % 2 ^ 32 : Nat)))
    let n := if left ≤ 0 then 0 else ceilDiv (left.toNat * 2 ^ 28 - b.time.frac) (getF b Reg.TIME.INCR.INCR)
    if b.edge + n < 250 ∧ b.sys.mode ≠ .reset then
      let b := toEdge (b.edge + n) { b with trig := { b.trig with armAt := none } }
      if a.2.1 then armAct b.now a.2.2 b else disarmCmd b.now (setF Reg.TRIG.STAT.ARM_ID a.2.2 b)
    else b

/-- ARM_INSTANT. -/
def execArmInstant (s : State) : Host.Outcome State Fault Refusal := .next { s with b := armInstant s.b }

/-! ### Transitions (R336, R337) -/

/-- The entry of the present state taken at step `k`, if one fires: the lowest index (R336). -/
def firingAt (b : Blk) (k : Nat) : Option Nat :=
  let s := getF b Reg.TRIG.STAT.STATE
  let v := condVec b k
  [4 * s, 4 * s + 1, 4 * s + 2, 4 * s + 3].find? fun x => entryFires b v x

/-- The steps not evaluated at which some condition may change. (DEDUCED, log 62). -/
def trigSteps (b : Blk) : List Nat :=
  let n := max b.trig.next (250 * b.tick)
  let ts := b.trig.once.map Prod.fst ++ b.acq.chans.flatMap (fun c => c.2.hist.map Samp.dec)
    ++ b.trig.tmr.flatMap (fun t => [t.2.1, t.2.2])
  (n :: ts.filter fun k => decide (n ≤ k)).mergeSort

/-- The counters after a transition (R337). -/
def countActs (w : Nat) (b : Blk) : Blk :=
  (List.range 4).foldl (fun b i =>
    let f := Reg.TRIG.CNT.COUNT i
    let b := if natBits w (4 + i) 1 = 1 then setF f 0 b else b
    if natBits w i 1 = 1 then incF f b else b) b

/-- The timers after a transition at step `k` (R337). -/
def timerActs (k w : Nat) (b : Blk) : Blk :=
  (List.range 4).foldl (fun b i =>
    let t := b.trig.tmr
    let t := if natBits w (12 + i) 1 = 1 then t.set (0, 0) i (0, 0) else t
    let t := if natBits w (8 + i) 1 = 1 then t.set (0, 0) i (k + 1, k + 1 + getF b (Reg.TRIG.TMR.STEPS i)) else t
    { b with trig := { b.trig with tmr := t } }) b

/-- The state moves by entry `x` at step `k` (R337, R345). -/
def entryMove (k x : Nat) (b : Blk) : Blk :=
  let v := condVec b k
  setF Reg.TRIG.LAST.INDEX x (setF Reg.TRIG.LAST.MASK v
    (setF Reg.TRIG.STAT.STATE (natBits (getF b (Reg.TRIG.TT.W0 x)) 18 4) (closeDue k b)))

/-- TRIGGER or MARK of entry `x`, taken from state `frm` under conditions `v` (R337, R340). (DEDUCED, log 57). -/
def entryMark (k x v frm : Nat) (b : Blk) : Blk :=
  let w0 := getF b (Reg.TRIG.TT.W0 x)
  let dest := natBits w0 18 4
  if natBits w0 23 1 = 1 then trigger k v x frm dest b
  else if natBits w0 22 1 = 1 then
    putMark k (stepStamp b k) { Mark.plain 1 k b with mask := v, frm := frm, dest := dest, index := x } b
  else b

/-- EVENT, the counters and the timers of entry `x` (R337, R339). -/
def entryCounts (k x : Nat) (b : Blk) : Blk :=
  let b := if natBits (getF b (Reg.TRIG.TT.W0 x)) 25 1 = 1 then raise 1123 b else b
  timerActs k (getF b (Reg.TRIG.TT.W1 x)) (countActs (getF b (Reg.TRIG.TT.W1 x)) b)

/-- Entry `x` is taken at step `k` (R337, R340, R345); the mark of a STOP shows the conditions and counters of the step, before the
actions (R326). (DEDUCED, log 56). -/
def takeEntry (k x : Nat) (b : Blk) : Blk :=
  let m := Mark.plain 5 k b
  let b := entryCounts k x (entryMark k x m.mask (getF b Reg.TRIG.STAT.STATE) (entryMove k x b))
  let b := if natBits (getF b (Reg.TRIG.TT.W0 x)) 24 1 = 1 then disarmAct k m b else b
  { b with trig := { b.trig with next := k + 1, once := b.trig.once.filter fun o => decide (k < o.1) } }

/-- TRIGGER_TRANSITION: the clock runs on to the first step at which an entry of the present state fires, if it lies in this
tick (R336, R337). -/
def triggerTransition (b : Blk) : Blk :=
  let b := acqOuts b.now b
  if flag b Reg.TRIG.STAT.ARMED ∧ b.sys.mode ≠ .reset then
    match (trigSteps b).find? fun k => decide (k < 250 * b.tick + 250) && (firingAt b k).isSome with
    | some k =>
      match firingAt b k with
      | some x => takeEntry k x (toEdge (k - 250 * b.tick) b)
      | none => b
    | none => b
  else b

/-- TRIGGER_TRANSITION. -/
def execTriggerTransition (s : State) : Host.Outcome State Fault Refusal := .next { s with b := triggerTransition s.b }

/-- TIMER_DONE: timer `i`'s window ends (R334, R337). -/
def timerDone (i : Nat) (b : Blk) : Blk :=
  let z := (timerWin b i).2
  if z = 0 ∨ (z, 7, i) ∈ b.trig.once then b else atQ (16 * z) (fun b => trigOnce z 7 i b) b

/-- TIMER_DONE. -/
def execTimerDone (i : Fin 4) (s : State) : Host.Outcome State Fault Refusal := .next { s with b := timerDone i.val s.b }

/-- TRIG_PIN_EDGE: the samples of the present step and of the one before agree on a level, and the filtered TRIG input accepts the edge
where that is not the level last accepted (R338). (DESIGN CHOICE, log 147). -/
def trigPinEdge (rising : Bool) (b : Blk) : Blk :=
  if b.sys.mode = .reset ∨ rising = b.trig.level ∨ b.now < b.trig.levelAt + 2 then b
  else
    let own := b.trig.pulse.any fun p => decide (p.1 ≤ b.now) && decide (b.now < p.2 + 10)
    let b := { b with trig := { b.trig with level := rising, levelAt := b.now } }
    if own then b else trigOnce b.now 2 (if rising then 1 else 0) b

/-- TRIG_PIN_EDGE. -/
def execTrigPinEdge (rising : Bool) (s : State) : Host.Outcome State Fault Refusal :=
  .next { s with b := trigPinEdge rising s.b }

/-- TRIG_PULSE_END: the controller's pulse ends after PULSE × 4 ns (R340). -/
def trigPulseEnd (b : Blk) : Blk :=
  match b.trig.pulse with
  | some p =>
    if p.1 < p.2 then
      atQ (16 * p.2) (fun b => send (.pin pinTrig true) { b with trig := { b.trig with pulse := some (p.2, p.2) } }) b
    else b
  | none => b

/-- TRIG_PULSE_END. -/
def execTrigPulseEnd (s : State) : Host.Outcome State Fault Refusal := .next { s with b := trigPulseEnd s.b }

/-- WINDOW_END: a finite window closes at T + 125 POST ns (R340). -/
def windowEnd (b : Blk) : Blk :=
  match b.trig.win.bind Win.stop with
  | some z => atQ z (fun b => closeDue b.now b) b
  | none => b

/-- WINDOW_END. -/
def execWindowEnd (s : State) : Host.Outcome State Fault Refusal := .next { s with b := windowEnd s.b }

/-! ### Stops at a tick boundary (R330) -/

/-- Every partly filled DATA record is written, where the stream is not dropping. -/
def flushAll (b : Blk) : Blk := if flag b Reg.ACQ.STAT.DROPPING then b else (List.range 32).foldl flushData b

/-- Each channel, with whether its measurement is still in progress. -/
def measGoing (b : Blk) : List (Nat × Bool) := (List.range 32).map fun c => (c, !measOver b c)

/-- Every measurement ends, those in progress with SHORT. -/
def endAll (cs : List (Nat × Bool)) (b : Blk) : Blk := cs.foldl (fun b c => endMeas c.2 b c.1) b

/-- The stream stops: partly filled records, the window's END with CUT, the measurements with SHORT, and a MARK of KIND
STOP (R330). -/
def acqStop (b : Blk) : Blk :=
  if flag b Reg.ACQ.STAT.RUNNING then
    let k := b.now
    let b := flushAll (closeDue k b)
    let b := endAll (measGoing b) (closeWindow k true b)
    setFlag Reg.ACQ.STAT.RUNNING false (putMark k (stepStamp b k) (Mark.plain 6 k b) b)
  else b

/-- A RUN that was written takes effect at the tick boundary (R330). -/
def acqBoundary (b : Blk) : Blk :=
  match b.acq.runReq with
  | none => b
  | some r =>
    let b := { b with acq := { b.acq with runReq := none } }
    if r then acqStart b else acqStop b

/-! ### Cells (R342) -/

/-- A TRIG_ARM cell schedules arming or disarming at A_T (R342). -/
def trigArmCell (id w1 w2 : Nat) (b : Blk) : Blk :=
  if flag b Reg.TRIG.CFG.CASC then
    { b with trig := { b.trig with armAt := some (w2, w1 % 2 == 1, id % 256) } }
  else b

/-- The elapsed instant of a local time given as TIME32W, the nearest to now. -/
def elapsedOf (b : Blk) (t : Nat) : Nat :=
  let d := sext 32 (toBits 32 ((t : Int) - (b.time.ns % 2 ^ 32 : Nat)))
  ((b.q : Int) + d * 4294967296 / ((max 1 (getF b Reg.TIME.INCR.INCR) : Nat) : Int)).toNat

/-- The transition of the present step, of the conditions known by now, comes before what else the step does (R329). -/
def stepTransition (b : Blk) : Blk :=
  if b.trig.next ≤ b.now then
    match firingAt b b.now with
    | some x => takeEntry b.now x b
    | none => b
  else b

/-- A TRIG_FIRE cell from controller `src` arrives (R342): END, the transition of the step, then REMOTE (R329). (DEDUCED, log 148). -/
def trigFireCell (src id w1 w2 : Nat) (b : Blk) : Blk :=
  if flag b Reg.TRIG.STAT.ARMED ∧ id % 256 = getF b Reg.TRIG.STAT.ARM_ID then
    let b := closeDue b.now (trigOnce b.now 9 0 (acqOuts b.now b))
    let plain := Mark.plain 3 b.now b
    let b := stepTransition b
    let isOpen := flag b Reg.TRIG.STAT.WIN_OPEN
    let ws := winStamps b w1
    let m : Mark :=
      { plain with mask := w2 % 65536, origin := src, frm := natBits w2 16 4, dest := natBits w2 20 4, busy := isOpen }
    if isOpen then putMark b.now w1 m b
    else
      let endless := getF b Reg.TRIG.POST.FRAMES == 0
      openWindow (elapsedOf b w1) w1 src (putMark b.now w1 { m with endless := endless, wStart := ws.1, wEnd := ws.2 } b)
  else b

end Sys2Proof.Machine
end

