-- ==== Sys2Proof/Machine/Time.lean ====
section
/-!
DEFINITION. The time base (R265 to R292): steps, the servo, holdover, IEEE 1588, the pulse per second.
-/
set_option autoImplicit false

namespace Sys2Proof.Machine

/-! ### Steps (R273 to R277) -/

/-- Local time in units of 2^-28 ns. -/
def local28 (b : Blk) : Int := b.time.ns * 2 ^ 28 + b.time.frac

/-- Local time changed by `d` units of 2^-28 ns, modulo 2^48 seconds (R265). -/
def addLocal (d : Int) (b : Blk) : Blk :=
  let x := ((local28 b + d) % ((2 ^ 48 * 1000000000 * 2 ^ 28 : Nat) : Int)).toNat
  let b := anchor b
  { b with time := { b.time with ns := x / 2 ^ 28, frac := x % 2 ^ 28 } }

/-- The distance from now to C of the armed comparator, in units of 2^-28 ns (R272). -/
def toCompare (b : Blk) : Option Int :=
  match b.sched.queue[firstUnlaunched b]? with
  | some f => if f.stage = .armed then some (((f.launch : Int) - 40) * 2 ^ 28 - local28 b) else none
  | none => none

/-- A step of `d` units of 2^-28 ns is applied at the present edge (R273, R275, R281). -/
def applyStep (d : Int) (b : Blk) : Blk :=
  let big := decide (1000 * 2 ^ 28 < (d.natAbs : Int))
  let ss := if big then 929 :: withdrawn2 b else []
  let b := setF Reg.TIME.STEP_LAST.SIZE (toBits 32 (satS32 (rne d (2 ^ 28)))) (addLocal d b)
  let b := setFlag Reg.TIME.STAT.SYNCED false
    { b with time := { b.time with good := 0 }, glew := { b.glew with stepped := true } }
  let b := if big then withdrawAll (setFlag Reg.TIME.STAT.PAUSED true b) else b
  acqStepped (raiseAll ss b)

/-- A step falls due at the present edge: a small one waits while a launch is near (R274, R275). -/
def stepLocal (d : Int) (b : Blk) : Blk :=
  if d = 0 then b
  else if d.natAbs ≤ 1000 * 2 ^ 28 ∧ (toCompare b).any (fun c => decide (0 ≤ c) && decide (c < 2000 * 2 ^ 28)) then
    raise 932 (setFlag Reg.TIME.STAT.STEP_DEFER true { b with time := { b.time with defer := some d } })
  else applyStep d b

/-- The first edge at which a deferred step may be applied: after the drive edge of a launched frame (R274).
(DEDUCED, log 64). -/
def deferEdge (b : Blk) : Nat :=
  (b.sched.queue.take (firstUnlaunched b)).foldl (fun n f => max n (f.t0 / 16 + 1)) (b.now + 1)

/-- DEFERRED_STEP: the deferred step is applied once no comparator is armed (R274). (DEDUCED, log 64). -/
def deferredStep (b : Blk) : Blk :=
  match b.time.defer with
  | some d =>
    if (toCompare b).isSome then b
    else
      let x := deferEdge b - 250 * b.tick
      if x ≤ 250 ∧ b.sys.mode ≠ .reset then
        applyStep d (setFlag Reg.TIME.STAT.STEP_DEFER false (toEdge x { b with time := { b.time with defer := none } }))
      else b
  | none => b

/-- DEFERRED_STEP. -/
def execDeferredStep (s : State) : Host.Outcome State Fault Refusal := .next { s with b := deferredStep s.b }

/-- The host may not step the clock (R274, R277). -/
def hostStepErrs (b : Blk) : List Nat :=
  if (getF b Reg.TIME.CFG.SRC ≠ 0 ∧ flag b Reg.TIME.CFG.SERVO_HOST = false) ∨ b.time.defer.isSome then [3] else []

/-- An accepted SET_GO: S:N with fraction 0 on the next CLK_TICK edge (R277). -/
def setGoDo (v : Word) (b : Blk) : Blk :=
  if v.bit 0 then
    let b := nextStep b
    let s := getF b Reg.TIME.SET_SHI.SEC * 2 ^ 32 + getF b Reg.TIME.SET_SLO.SEC
    stepLocal (((s * 1000000000 + getF b Reg.TIME.SET_NS.NS : Nat) : Int) * 2 ^ 28 - local28 b) b
  else b

/-- An accepted ADJ: added on the next CLK_TICK edge (R277). -/
def adjDo (v : Word) (b : Blk) : Blk := if v.toNat = 0 then b else stepLocal (v.toInt * 2 ^ 28) (nextStep b)

/-- A write of PAUSE_CLR on a member is rejected (R304). -/
def pauseClrErrs (b : Blk) : List Nat := if isMember b then [0x15] else []

/-- An accepted PAUSE_CLR: the master of a chain tells its members (R276, R299, R304). -/
def pauseClrDo (v : Word) (b : Blk) : Blk :=
  if v.bit 0 then sendCell .dn 15 0 true 1 [] (setFlag Reg.TIME.STAT.PAUSED false b) else b

/-- TIME.INCR (R267). -/
def incrErrs (v : Word) (b : Blk) : List Nat :=
  (if getF b Reg.TIME.CFG.SRC ≠ 0 ∧ flag b Reg.TIME.CFG.SERVO_HOST = false then [3] else [])
    ++ (if v.toNat < 0x3FF7CED9 ∨ 0x40083127 < v.toNat then [1] else [])

/-- TIME.CFG (R269). -/
def timeCfgErrs (v : Word) (b : Blk) : List Nat :=
  let fmt := decide (v.bits 0 1 ≠ getF b Reg.TIME.CFG.FMT)
  let src := decide (v.bits 1 2 ≠ getF b Reg.TIME.CFG.SRC)
  (if (fmt || src) && !decide (b.sys.mode ∈ [Mode.idle, .calibrate, .openHold]) then [2] else [])
    ++ (if (fmt && flag b Reg.GLEW.CFG.EN) || (decide (v.bits 1 2 = 2) && !isMember b) then [0x15] else [])

/-! ### Holdover and the servo (R278 to R283) -/

/-- Holdover is entered, or its cause found to be a change while it lasts (R282). (DEDUCED, log 67). -/
def enterHoldover (change : Bool) (b : Blk) : Blk :=
  let was := flag b Reg.TIME.STAT.HOLDOVER
  let b := if was then b else
    setRaw 928 true <| setF Reg.TIME.HOLD_CNT.SEC 0 (setFlag Reg.TIME.STAT.SYNCED false (setFlag Reg.TIME.STAT.HOLDOVER true
      { b with time := { b.time with good := 0, holdStart := b.q } }))
  raiseAll ((if was then [] else [928]) ++ (if change then [930] else [])) b

/-- TIME.HOLD_CNT: whole seconds of the present holdover, or of the last one (R282). -/
def holdSeconds (b : Blk) : Nat :=
  if flag b Reg.TIME.STAT.HOLDOVER then (b.q - b.time.holdStart) / 4000000000 else getF b Reg.TIME.HOLD_CNT.SEC

/-- SYNCED after an offset update (R281). -/
def lockStep (o : Int) (b : Blk) : Blk :=
  if o.natAbs ≤ getF b Reg.TIME.LOCK_THR.THR then
    let n := min 8 (b.time.good + 1)
    setFlag Reg.TIME.STAT.SYNCED (flag b Reg.TIME.STAT.SYNCED || decide (8 ≤ n)) { b with time := { b.time with good := n } }
  else setFlag Reg.TIME.STAT.SYNCED false { b with time := { b.time with good := 0 } }

/-- The slewing branch of the servo (R279). (DEDUCED, log 64). -/
def slew (o : Int) (nom : Nat) (b : Blk) : Blk :=
  let i := clampI (-137438976) 137438976
    (sext 32 (getF b Reg.TIME.INTEG.I) + getF b Reg.TIME.SERVO.KI * o)
  let d := satS32 (rne (getF b Reg.TIME.SERVO.KP * o + i) 256)
  let n := (nom : Int) - d
  let m := clampI 0x3FF7CED9 0x40083127 n
  raiseIf (decide (m ≠ n)) 931 (setF Reg.TIME.INCR.INCR m.toNat (setF Reg.TIME.INTEG.I (toBits 32 i) (anchor b)))

/-- An offset update of `o` ns from the selected source, with its INCR_NOM; `force` makes it step (R278 to R283, R302). -/
def offsetUpdate (o : Int) (nom : Nat) (force : Bool) (b : Blk) : Blk :=
  let o := satS32 o
  let b := setRaw 928 false (setFlag Reg.TIME.STAT.HOLDOVER false (setF Reg.TIME.HOLD_CNT.SEC (holdSeconds b) b))
  let b := lockStep o (setF Reg.TIME.OFFSET.O (toBits 32 o) b)
  if flag b Reg.TIME.CFG.SERVO_HOST then b
  else if force ∨ getF b Reg.TIME.STEP_THR.THR < o.natAbs then stepLocal (-o * 2 ^ 28) b
  else slew o nom b

/-! ### IEEE 1588 (R284 to R287) -/

/-- PTP port `p`. -/
def ptpSt (b : Blk) (p : Nat) : PtpSt := b.ptp.get PtpSt.reset p

/-- PTP port `p` replaced. -/
def setPtp (p : Nat) (x : PtpSt) (b : Blk) : Blk := { b with ptp := b.ptp.set PtpSt.reset p x }

/-- The ingress stamp of a message that arrives now (R286), in 2^-16 ns. -/
def ingress (b : Blk) (p : Nat) : Int := ((b.time.ns : Int) - sext 16 (getF b (Reg.PTP.CORR.ING p))) * 65536

/-- The egress stamp of a message that leaves now (R286), in 2^-16 ns. -/
def egress (b : Blk) (p : Nat) : Int := ((b.time.ns : Int) + sext 16 (getF b (Reg.PTP.CORR.EGR p))) * 65536

/-- The asymmetry of the port, in 2^-16 ns. -/
def asym (b : Blk) (p : Nat) : Int := sext 32 (getF b (Reg.PTP.ASYM.NS p)) * 65536

/-- The port takes part: enabled and not FAULTY. -/
def ptpOn (b : Blk) (p : Nat) : Bool := flag b (Reg.PTP.CFG.EN p) && getF b (Reg.PTP.STATE.PORT_STATE p) != 2

/-- The port's best foreign master is the one followed. -/
def isSelected (b : Blk) (p : Nat) : Bool := flag b (Reg.PTP.STATE.SELECTED p)

/-- A message of the version and the transport the port takes: versionPTP 2 with minorVersionPTP 0 or 1, the configured
transport, and no VLAN tag or the one of PTPn.CFG (R284). (PRESUMED, log 65). -/
def ptpFormOk (b : Blk) (p : Nat) (x : PtpMsg) : Bool :=
  decide (x.version.val = 2) && decide (x.minor.val ≤ 1) && x.udp == flag b (Reg.PTP.CFG.TRANSPORT p)
    && match x.tags with
      | [] => true
      | [v] => flag b (Reg.PTP.CFG.VLAN_EN p) && v.toNat == getF b (Reg.PTP.CFG.VID p)
      | _ => false

/-- A message is taken by the port; every other one is discarded and counted (R284). (PRESUMED, log 65). -/
def ptpTake (p : Nat) (x : PtpMsg) (b : Blk) (f : Blk → Blk) : Blk :=
  if b.sys.mode = .reset ∨ ptpOn b p = false then b
  else if ptpFormOk b p x = false ∨ x.domain.val ≠ getF b (Reg.PTP.CFG.DOMAIN p) then incF (Reg.PTP.CNT_ERR.DISCARD p) b
  else f b

/-- What stands before the PTP header of a message sent (R284): the 802.1Q tag of the port, if it transmits one, then Ethertype and
group address over Layer 2, or Ethertype, group address and UDP port over IPv4. Kinds 2, 3 and 10 are peer delay; kind 10 is a
general message, the others are event messages. -/
def ptpHead (b : Blk) (p kind : Nat) : List Nat :=
  let peer := kind != 1
  (if flag b (Reg.PTP.CFG.VLAN_EN p) then [0x8100, getF b (Reg.PTP.CFG.PCP p) * 8192 + getF b (Reg.PTP.CFG.VID p)] else [])
    ++ (if flag b (Reg.PTP.CFG.TRANSPORT p) then
          [0x0800, if peer then 0xE000006B else 0xE0000181, if kind = 10 then 320 else 319]
        else [0x88F7, if peer then 0x0180C200000E else 0x011B19000000])

/-- The port sends a PTP message (R284). -/
def sendPtp (p kind : Nat) (ws : List Nat) (b : Blk) : Blk := send (.ptp p kind (ptpHead b p kind) ws) b

/-- The interval of a logMessageInterval, in quarter-nanoseconds. -/
def logInterval (n : Int) : Nat := if 0 ≤ n then 4000000000 * 2 ^ n.toNat else 4000000000 / 2 ^ (-n).toNat

/-- Foreign master `x` is better than `y` on ports `p` and `q`: the data set comparison of IEEE 1588-2019, which compares two
paths to one grandmaster by their steps, senders and ports only (R285). (PRESUMED, log 65). -/
def better (x : Foreign) (p : Nat) (y : Foreign) (q : Nat) : Bool :=
  let path := fun (f : Foreign) (n : Nat) => [f.steps, f.src.clock.toNat, f.src.num.toNat, n]
  let key := fun (f : Foreign) => [f.prio1, f.quality, f.prio2, f.gm.toNat]
  if x.gm = y.gm then decide (path x p < path y q) else decide (key x < key y)

/-- The foreign master is the parent followed on the port. -/
def isParent (b : Blk) (p : Nat) (f : Foreign) : Bool :=
  flag b (Reg.PTP.STATE.SELECTED p) && b.time.master.any fun m => m.1 == p && m.2.1 == f.src

/-- A foreign master is qualified: fewer than 255 steps away, and two Announces of it fall in the last four announce intervals;
the parent followed stays qualified until its announce receipt timeout (R282, R285). (PRESUMED, log 65). -/
def qualified (b : Blk) (p : Nat) (f : Foreign) : Bool :=
  decide (2 ≤ f.n) && decide (f.steps < 255) && (isParent b p f || decide (b.q ≤ f.prev + 4 * f.intv))

/-- The best qualified foreign master of the enabled ports, with its port (R285). (PRESUMED, log 65). -/
def bestMaster (b : Blk) : Option (Nat × Foreign) :=
  let all := [0, 1].flatMap fun p =>
    if ptpOn b p then ((ptpSt b p).foreign.filter (qualified b p)).map fun f => (p, f)
    else []
  all.foldl (fun m x =>
    match m with
    | some y => if better x.2 x.1 y.2 y.1 then some x else some y
    | none => some x) none

/-- The port of the best master becomes the selected one; the other enabled port is LISTENING (R285). -/
def showSelected (m : Option (Nat × Foreign)) (fresh : Bool) (b : Blk) : Blk :=
  [0, 1].foldl (fun b p =>
    let st := getF b (Reg.PTP.STATE.PORT_STATE p)
    match m with
    | some x =>
      if x.1 = p then
        let b := setFlag (Reg.PTP.STATE.SELECTED p) true
          (setF (Reg.PTP.STATE.PORT_STATE p) (if st = 9 ∧ fresh = false then 9 else 8) b)
        let b := setF (Reg.PTP.GM_HI.ID p) (x.2.gm.toNat / 2 ^ 32) (setF (Reg.PTP.GM_LO.ID p) (x.2.gm.toNat % 2 ^ 32) b)
        setF (Reg.PTP.PARENT.STEPS p) x.2.steps (setF (Reg.PTP.PARENT.PORT p) x.2.src.num.toNat b)
      else setFlag (Reg.PTP.STATE.SELECTED p) false (if ptpOn b p then setF (Reg.PTP.STATE.PORT_STATE p) 4 b else b)
    | none => setFlag (Reg.PTP.STATE.SELECTED p) false (if ptpOn b p then setF (Reg.PTP.STATE.PORT_STATE p) 4 b else b)) b

/-- What a port has measured against a former parent is dropped. -/
def PtpSt.fresh (keepDelay : Bool) (x : PtpSt) : PtpSt :=
  { x with sync := none, last := none, dreq := none, delayKnown := x.delayKnown && keepDelay }

/-- The choice of the master is made anew (R282, R285). -/
def ptpSelect (b : Blk) : Blk :=
  if getF b Reg.TIME.CFG.SRC ≠ 1 then b
  else
    let had := isSelected b 0 || isSelected b 1
    match bestMaster b with
    | some (p, f) =>
      let m := some (p, f.src, f.gm)
      let same := decide (b.time.master = m)
      let fresh := !same || !had
      let b' := showSelected (some (p, f)) fresh { b with time := { b.time with master := m } }
      let b' := if fresh then setPtp p ((ptpSt b' p).fresh (flag b' (Reg.PTP.CFG.MECH p))) b' else b'
      if b.time.master.isSome && !same then enterHoldover true b' else b'
    | none => if had then enterHoldover false (showSelected none true b) else b

/-- A port enters FAULTY (R287). (DEDUCED, log 67). -/
def ptpFault (p : Nat) (b : Blk) : Blk :=
  if getF b (Reg.PTP.STATE.PORT_STATE p) = 2 ∨ flag b (Reg.PTP.CFG.EN p) = false then b
  else
    let b := setF (Reg.PTP.STATE.PORT_STATE p) 2 (setPtp p { PtpSt.reset with seq := (ptpSt b p).seq } b)
    ptpSelect (raise (934 + p) b)

/-- The foreign master of an Announce that arrives now, with what was known of it (R285). -/
def heard (b : Blk) (s : PtpSt) (x : PtpMsg) : Foreign :=
  let old := s.foreign.find? fun f => f.src == x.src
  { prio1 := x.prio1.toNat, quality := x.quality.toNat, prio2 := x.prio2.toNat, gm := x.gm, steps := x.steps.toNat
    src := x.src, intv := logInterval x.logIntv, n := min 2 ((old.map Foreign.n).getD 0 + 1), last := b.q
    prev := (old.map Foreign.last).getD b.q }

/-- ANNOUNCE (R285). -/
def announceDo (p : Nat) (x : PtpMsg) (b : Blk) : Blk :=
  ptpTake p x b fun b =>
    let s := ptpSt b p
    ptpSelect (setPtp p { s with foreign := (s.foreign.filter fun g => g.src != x.src) ++ [heard b s x] }
      (incF (Reg.PTP.CNT_RX.ANNOUNCE p) b))

/-- ANNOUNCE. -/
def execAnnounce (p : Fin 2) (x : PtpMsg) (s : State) : Host.Outcome State Fault Refusal :=
  .next { s with b := announceDo p.val x s.b }

/-- The instant of the announce receipt timeout of the parent on port `p`: PTPn.INTV.ANN_TO announce intervals after its last
Announce (R282, R292). (PRESUMED, log 65). -/
def announceDue (b : Blk) (p : Nat) : Option Nat :=
  ((ptpSt b p).foreign.find? (isParent b p)).map fun f => f.last + getF b (Reg.PTP.INTV.ANN_TO p) * f.intv

/-- The parent on port `p` is forgotten, and the choice made anew (R282). -/
def forgetParent (p : Nat) (b : Blk) : Blk :=
  let s := ptpSt b p
  ptpSelect (setPtp p { s with foreign := s.foreign.filter fun g => !isParent b p g } b)

/-- ANNOUNCE_RECEIPT_TIMEOUT: the parent is no longer heard on the SLAVE port (R282). -/
def announceTimeout (p : Nat) (b : Blk) : Blk :=
  match announceDue b p with
  | some t => atQ t (forgetParent p) b
  | none => b

/-- ANNOUNCE_RECEIPT_TIMEOUT. -/
def execAnnounceReceiptTimeout (p : Fin 2) (s : State) : Host.Outcome State Fault Refusal :=
  .next { s with b := announceTimeout p.val s.b }

/-- The message comes from the parent on the selected port. -/
def fromParent (b : Blk) (p : Nat) (x : PtpMsg) : Bool :=
  getF b Reg.TIME.CFG.SRC == 1 && isSelected b p && b.time.master.any fun m => m.1 == p && m.2.1 == x.src

/-- A Sync is complete: origin `t1` and ingress stamp `t2` with the corrections taken off, in 2^-16 ns. Once the path delay
is known it gives an offset update (R278, R286). -/
def syncDone (p : Nat) (t1 t2 : Int) (b : Blk) : Blk :=
  let s := ptpSt b p
  let b := setPtp p { s with sync := none, last := some (t1, t2) } b
  if s.delayKnown then
    let o := satS32 (rne (t2 - t1 - sext 32 (getF b (Reg.PTP.DELAY.MEAN p)) * 65536) 65536)
    let n := getF b (Reg.PTP.UPD.COUNT p)
    let b := setF (Reg.PTP.UPD.COUNT p) (n + 1) (setF (Reg.PTP.OFFSET.O p) (toBits 32 o) b)
    offsetUpdate o 0x40000000 false (setF (Reg.PTP.STATE.PORT_STATE p) 9 b)
  else b

/-- SYNC (R278, R284, R286): one whose interval lies outside [2^-7, 2] s is discarded. (PRESUMED, log 65). -/
def syncDo (p : Nat) (x : PtpMsg) (b : Blk) : Blk :=
  ptpTake p x b fun b =>
    if x.logIntv < -7 ∨ 1 < x.logIntv then incF (Reg.PTP.CNT_ERR.DISCARD p) b
    else if fromParent b p x then
      let s := ptpSt b p
      let b := incF (Reg.PTP.CNT_RX.SYNC p) (if s.sync.isSome then incF (Reg.PTP.CNT_ERR.TS_MISS p) b else b)
      let t2 := ingress b p - x.corr - asym b p
      if x.twoStep then setPtp p { s with sync := some (x.seqId.toNat, t2, 0) } b
      else syncDone p (x.origin * 65536) t2 b
    else b

/-- SYNC. -/
def execSync (p : Fin 2) (x : PtpMsg) (s : State) : Host.Outcome State Fault Refusal := .next { s with b := syncDo p.val x s.b }

/-- FOLLOW_UP: the origin of a two-step Sync (R278, R286). -/
def followUpDo (p : Nat) (x : PtpMsg) (b : Blk) : Blk :=
  ptpTake p x b fun b =>
    match (ptpSt b p).sync with
    | some y => if fromParent b p x ∧ y.1 = x.seqId.toNat then syncDone p (x.origin * 65536 + x.corr) y.2.1 b else b
    | none => b

/-- FOLLOW_UP. -/
def execFollowUp (p : Fin 2) (x : PtpMsg) (s : State) : Host.Outcome State Fault Refusal :=
  .next { s with b := followUpDo p.val x s.b }

/-- The path delay becomes known, from twice its value in 2^-16 ns (R286, R292). -/
def setDelay (p : Nat) (d2 : Int) (s : PtpSt) (b : Blk) : Blk :=
  setPtp p { s with delayKnown := true } (setF (Reg.PTP.DELAY.MEAN p) (toBits 32 (satS32 (rne d2 131072))) b)

/-- A transmission's egress stamp: obtained, or missing and counted, the third in a row making the port FAULTY (R287). -/
def stampOf (p : Nat) (x : EgressIn) (s : PtpSt) (b : Blk) (f : PtpSt → Blk → Blk) : Blk :=
  if x.stamped then f { s with missed := 0 } b
  else
    let b := incF (Reg.PTP.CNT_ERR.TS_MISS p) (setPtp p { s with missed := s.missed + 1 } b)
    if 3 ≤ s.missed + 1 then ptpFault p b else b

/-- The stamp of a message with the port's own sequence number. -/
def transmit (p : Nat) (x : EgressIn) (b : Blk) (f : PtpSt → Blk → Blk) : Blk :=
  let s := ptpSt b p
  stampOf p x { s with seq := (s.seq + 1) % 65536 } b f

/-- A stamp obtained on a FAULTY port whose link is up: it recovers a second later (R287). -/
def faultyStamp (p : Nat) (x : EgressIn) (b : Blk) : Blk :=
  let s := ptpSt b p
  if x.stamped ∧ s.recoverAt = none ∧ flag b (Reg.ETH.STAT.LINK p) then
    setPtp p { s with recoverAt := some (b.q + 4000000000) } b
  else b

/-- DELAY_REQ: the port sends a Delay_Req (R284, R286). -/
def delayReqDo (p : Nat) (x : EgressIn) (b : Blk) : Blk :=
  if b.sys.mode = .reset ∨ flag b (Reg.PTP.CFG.EN p) = false ∨ flag b (Reg.PTP.CFG.MECH p) then b
  else if getF b (Reg.PTP.STATE.PORT_STATE p) = 2 then faultyStamp p x b
  else if isSelected b p then
    transmit p x (sendPtp p 1 [(ptpSt b p).seq, toBits 64 (-asym b p)] b) fun s b =>
      setPtp p { s with dreq := some ((s.seq + 65535) % 65536, egress b p) } b
  else b

/-- DELAY_REQ. -/
def execDelayReq (p : Fin 2) (x : EgressIn) (s : State) : Host.Outcome State Fault Refusal :=
  .next { s with b := delayReqDo p.val x s.b }

/-- DELAY_RESP: the mean path delay (R286). The correction of a response carries the asymmetry that the request took off.
(DESIGN CHOICE, log 66). -/
def delayRespDo (p : Nat) (x : PtpMsg) (b : Blk) : Blk :=
  ptpTake p x b fun b =>
    let s := ptpSt b p
    match s.dreq, s.last with
    | some d, some l =>
      if x.forUs ∧ d.1 = x.seqId.toNat ∧ fromParent b p x then
        setDelay p ((l.2 - l.1) + (x.origin * 65536 - x.corr - d.2)) { s with dreq := none } b
      else b
    | _, _ => b

/-- DELAY_RESP. -/
def execDelayResp (p : Fin 2) (x : PtpMsg) (s : State) : Host.Outcome State Fault Refusal :=
  .next { s with b := delayRespDo p.val x s.b }

/-- PDELAY_REQ: a request of the neighbour is answered with Pdelay_Resp, and with Pdelay_Resp_Follow_Up once the response has its
egress stamp (R284, R287). -/
def pdelayReqDo (p : Nat) (x : PtpMsg) (g : EgressIn) (b : Blk) : Blk :=
  ptpTake p x b fun b =>
    if flag b (Reg.PTP.CFG.MECH p) then
      stampOf p g (ptpSt b p) (sendPtp p 3 [x.seqId.toNat, toBits 96 (ingress b p)] b) fun s b =>
        sendPtp p 10 [x.seqId.toNat, toBits 96 (egress b p), toBits 64 x.corr] (setPtp p s b)
    else b

/-- PDELAY_REQ. -/
def execPdelayReq (p : Fin 2) (x : PdelayReqIn) (s : State) : Host.Outcome State Fault Refusal :=
  .next { s with b := pdelayReqDo p.val x.msg x.out s.b }

/-- PDELAY_REQ_INTERVAL: the port sends a Pdelay_Req (R284, R286). -/
def pdelayIntervalDo (p : Nat) (x : EgressIn) (b : Blk) : Blk :=
  if b.sys.mode = .reset ∨ flag b (Reg.PTP.CFG.EN p) = false ∨ flag b (Reg.PTP.CFG.MECH p) = false then b
  else if getF b (Reg.PTP.STATE.PORT_STATE p) = 2 then faultyStamp p x b
  else
    transmit p x (sendPtp p 2 [(ptpSt b p).seq, toBits 64 (-asym b p)] b) fun s b =>
      let b := if s.presp.isSome then incF (Reg.PTP.CNT_ERR.TS_MISS p) b else b
      setPtp p { s with preq := some ((s.seq + 65535) % 65536, egress b p), presp := none } b

/-- PDELAY_REQ_INTERVAL. -/
def execPdelayReqInterval (p : Fin 2) (x : EgressIn) (s : State) : Host.Outcome State Fault Refusal :=
  .next { s with b := pdelayIntervalDo p.val x s.b }

/-- PDELAY_RESP (R284, R286). (DESIGN CHOICE, log 66). -/
def pdelayRespDo (p : Nat) (x : PtpMsg) (b : Blk) : Blk :=
  ptpTake p x b fun b =>
    let s := ptpSt b p
    match s.preq with
    | some q =>
      if x.forUs ∧ q.1 = x.seqId.toNat ∧ flag b (Reg.PTP.CFG.MECH p) then
        let t4 := ingress b p - x.corr - asym b p
        if x.twoStep then setPtp p { s with presp := some (q.1, x.origin * 65536, t4, 0) } b
        else setDelay p (t4 - q.2) { s with preq := none } b
      else b
    | none => b

/-- PDELAY_RESP. -/
def execPdelayResp (p : Fin 2) (x : PtpMsg) (s : State) : Host.Outcome State Fault Refusal :=
  .next { s with b := pdelayRespDo p.val x s.b }

/-- PDELAY_RESP_FOLLOW_UP: the mean link delay (R286). -/
def pdelayFollowDo (p : Nat) (x : PtpMsg) (b : Blk) : Blk :=
  ptpTake p x b fun b =>
    let s := ptpSt b p
    match s.preq, s.presp with
    | some q, some r =>
      if x.forUs ∧ r.1 = x.seqId.toNat then
        setDelay p ((r.2.2.1 - q.2) - (x.origin * 65536 + x.corr - r.2.1)) { s with preq := none, presp := none } b
      else b
    | _, _ => b

/-- PDELAY_RESP_FOLLOW_UP. -/
def execPdelayRespFollowUp (p : Fin 2) (x : PtpMsg) (s : State) : Host.Outcome State Fault Refusal :=
  .next { s with b := pdelayFollowDo p.val x s.b }

/-- PTP_PORT_RECOVER: the port returns to LISTENING (R287). -/
def ptpRecover (p : Nat) (b : Blk) : Blk :=
  match (ptpSt b p).recoverAt with
  | some t =>
    if getF b (Reg.PTP.STATE.PORT_STATE p) = 2 ∧ flag b (Reg.ETH.STAT.LINK p) then
      atQ t (fun b => setF (Reg.PTP.STATE.PORT_STATE p) 4 (setPtp p { ptpSt b p with recoverAt := none, missed := 0 } b)) b
    else b
  | none => b

/-- PTP_PORT_RECOVER. -/
def execPtpPortRecover (p : Fin 2) (s : State) : Host.Outcome State Fault Refusal := .next { s with b := ptpRecover p.val s.b }

/-- A write of PTPn.CFG (R282, R287, R292): a change on the SLAVE port passes through LISTENING. (DEDUCED, log 67). -/
def ptpCfgDo (p : Nat) (v : Word) (b : Blk) : Blk :=
  let old := getF b (Reg.PTP.CFG.EN p) + 2 * getF b (Reg.PTP.CFG.MECH p) + 4 * getF b (Reg.PTP.CFG.TRANSPORT p)
    + 8 * getF b (Reg.PTP.CFG.DOMAIN p) + 1024 * getF b (Reg.PTP.CFG.VLAN_EN p) + 2048 * getF b (Reg.PTP.CFG.VID p)
    + 8388608 * getF b (Reg.PTP.CFG.PCP p)
  let sel := isSelected b p && getF b Reg.TIME.CFG.SRC == 1
  let b := setF (Reg.PTP.CFG.PCP p) (v.bits 23 3) (setF (Reg.PTP.CFG.VID p) (v.bits 11 12)
    (setF (Reg.PTP.CFG.VLAN_EN p) (v.bits 10 1) (setF (Reg.PTP.CFG.DOMAIN p) (v.bits 3 7)
      (setF (Reg.PTP.CFG.TRANSPORT p) (v.bits 2 1) (setF (Reg.PTP.CFG.MECH p) (v.bits 1 1)
        (setF (Reg.PTP.CFG.EN p) (v.bits 0 1) b))))))
  if old = v.bits 0 26 then b
  else
    let b := setPtp p { PtpSt.reset with seq := (ptpSt b p).seq } b
    let b := setF (Reg.PTP.STATE.PORT_STATE p)
      (if v.bit 0 = false then 3 else if flag b (Reg.ETH.STAT.LINK p) then 4 else 2) (setFlag (Reg.PTP.STATE.SELECTED p) false b)
    let b := raiseIf (v.bit 0 && !flag b (Reg.ETH.STAT.LINK p)) (934 + p) b
    if sel then ptpSelect (enterHoldover false b) else b

/-- PTPn.CFG and PTPn.INTV (R292). -/
def ptpErrs (off : Nat) (v : Word) : List Nat :=
  if off = 0x40 then (if 127 < v.bits 3 7 then [1] else [])
  else if off = 0x44 then (if 5 < v.bits 0 4 ∨ v.bits 4 4 < 2 ∨ 10 < v.bits 4 4 then [1] else [])
  else []

/-- An accepted TIME.CFG (R269, R278, R285): ports leave SLAVE where PTP is no longer the source. (DEDUCED, log 68). -/
def timeCfgDo (v : Word) (b : Blk) : Blk :=
  let old := getF b Reg.TIME.CFG.SRC
  let b := setF Reg.TIME.CFG.SERVO_HOST (v.bits 3 1) (setF Reg.TIME.CFG.SRC (v.bits 1 2) (setF Reg.TIME.CFG.FMT (v.bits 0 1) b))
  let b := if old = 1 ∧ v.bits 1 2 ≠ 1 then showSelected none true { b with time := { b.time with master := none } } else b
  let b := if old ≠ 2 ∧ v.bits 1 2 = 2 then { b with glew := { b.glew with oSum := 0, oN := 0 } } else b
  if old ≠ 3 ∧ v.bits 1 2 = 3 then { b with time := { b.time with ppsSeen := some b.q } } else b

/-! ### Reads of the clock (R268) -/

/-- NOW_NS_READ: ⌊N⌋ is returned and the snapshot filled. -/
def nowNsRead (m : Master) (b : Blk) : Blk :=
  let t := b.time
  let b := setF Reg.TIME.SNAP32.COUNT (t.ns % 2 ^ 32) (setF Reg.TIME.SNAP_FRAC.FRAC t.frac
    (setF Reg.TIME.SNAP_SHI.SEC (secOf t.ns / 2 ^ 32) (setF Reg.TIME.SNAP_SLO.SEC (secOf t.ns % 2 ^ 32)
      (setF Reg.TIME.NOW_NS.NS (nsOf t.ns) b))))
  send (.answer m 0x4048 0 (BitVec.ofNat 32 (nsOf t.ns))) b

/-! ### Pulse per second (R288, R289) -/

/-- PPS_IN_EDGE: a rising edge sampled at the present CLK_TICK edge (R288). -/
def ppsInEdge (b : Blk) : Blk :=
  if b.sys.mode = .reset then b
  else
    let st := (b.time.ns + (2 ^ 48 * 1000000000 - 12)) % (2 ^ 48 * 1000000000)
    let n := nsOf st
    let near := if n < 100000000 then some (secOf st) else if 900000000 ≤ n then some ((secOf st + 1) % 2 ^ 48) else none
    if near.isSome ∧ near ≠ b.time.ppsSec then
      let o : Int := if n < 500000000 then n else (n : Int) - 1000000000
      let b := setF Reg.TIME.PPS_IN.O (toBits 32 o) (incF Reg.TIME.PPS_CNT.ACCEPTED
        { b with time := { b.time with ppsSec := near, ppsSeen := some b.q } })
      if getF b Reg.TIME.CFG.SRC = 3 then offsetUpdate o 0x40000000 false b else b
    else raise 933 (incF Reg.TIME.PPS_CNT.DISCARDED b)

/-- PPS_IN_EDGE. -/
def execPpsInEdge (s : State) : Host.Outcome State Fault Refusal := .next { s with b := ppsInEdge s.b }

/-- PPS_TIMEOUT: with SRC = PPS, no edge has been accepted for 3 s (R282). (DEDUCED, log 68). -/
def ppsTimeout (b : Blk) : Blk :=
  match b.time.ppsSeen with
  | some t =>
    if getF b Reg.TIME.CFG.SRC = 3 ∧ flag b Reg.TIME.STAT.HOLDOVER = false then
      atQ (t + 12000000000) (enterHoldover false) b
    else b
  | none => b

/-- PPS_TIMEOUT. -/
def execPpsTimeout (s : State) : Host.Outcome State Fault Refusal := .next { s with b := ppsTimeout s.b }

/-- The PPS_OUT pin. -/
def pinPps : Nat := 1

/-- PPS_OUT_RISE: S increments by counting, in this tick or on the edge of its end, with PPS_OUT enabled (R289). -/
def ppsOutRise (b : Blk) : Blk :=
  let goal := (secOf b.time.ns + 1) * 1000000000
  let n := ceilDiv (goal * 2 ^ 28 - (b.time.ns * 2 ^ 28 + b.time.frac)) (getF b Reg.TIME.INCR.INCR)
  if flag b Reg.TIME.PPS_OUT.EN ∧ b.time.ppsOut = false ∧ b.sys.mode ≠ .reset ∧ b.edge + n ≤ 250 then
    let b := toEdge (b.edge + n) b
    send (.pin pinPps true)
      { b with time := { b.time with ppsOut := true, ppsEnd := b.q + 4000 * getF b Reg.TIME.PPS_OUT.WIDTH } }
  else b

/-- PPS_OUT_RISE. -/
def execPpsOutRise (s : State) : Host.Outcome State Fault Refusal := .next { s with b := ppsOutRise s.b }

/-- PPS_OUT is low. -/
def ppsLow (b : Blk) : Blk :=
  if b.time.ppsOut then send (.pin pinPps false) { b with time := { b.time with ppsOut := false } } else b

/-- PPS_OUT_FALL: WIDTH µs of elapsed time after the rise (R289). -/
def ppsOutFall (b : Blk) : Blk := if b.time.ppsOut then atQ b.time.ppsEnd ppsLow b else b

/-- PPS_OUT_FALL. -/
def execPpsOutFall (s : State) : Host.Outcome State Fault Refusal := .next { s with b := ppsOutFall s.b }

/-- An accepted TIME.PPS_OUT (R289). -/
def ppsOutDo (v : Word) (b : Blk) : Blk :=
  let b := setF Reg.TIME.PPS_OUT.WIDTH (v.bits 0 20) (setFlag Reg.TIME.PPS_OUT.EN (v.bit 31) b)
  if v.bit 31 then b else ppsLow b

/-- SET_NS, STEP_THR, LOCK_THR and PPS_OUT (R277, R291). -/
def timeErrs (off : Nat) (v : Word) : List Nat :=
  if off = 0x60 then (if 1000000000 ≤ v.toNat then [1] else [])
  else if off = 0x80 then (if v.bits 0 20 < 1000 ∨ 1000000 < v.bits 0 20 then [1] else [])
  else if off = 0x84 then (if v.bits 0 16 = 0 then [1] else [])
  else if off = 0xA0 then (if v.bits 0 20 < 1 ∨ 900000 < v.bits 0 20 then [1] else [])
  else []

end Sys2Proof.Machine
end

