-- ==== Sys2Proof/Machine/Chain.lean ====
section
/-!
DEFINITION. Cascading over Glewlink (R293 to R319): port training, time transfer, cells, members.
-/
set_option autoImplicit false

namespace Sys2Proof

/-- TYPE of a cell (R298). -/
def Cell.typ (x : Cell) : Nat := (x.ws.headD 0).bits 0 4

/-- SRC of a cell (R298). -/
def Cell.src (x : Cell) : Fin 8 := Fin.ofNat 8 ((x.ws.headD 0).bits 4 3)

/-- DEST of a cell (R298). -/
def Cell.dest (x : Cell) : Fin 8 := Fin.ofNat 8 ((x.ws.headD 0).bits 7 3)

/-- BCAST of a cell (R298). -/
def Cell.bcast (x : Cell) : Bool := (x.ws.headD 0).bit 10

/-- ARG of a cell (R298). -/
def Cell.arg (x : Cell) : Half := BitVec.ofNat 16 ((x.ws.headD 0).bits 16 16)

/-- The payload words w1 to w8 of a cell (R297). -/
def Cell.w (x : Cell) : List Word := (x.ws.drop 1).take 8

/-- The CRC of a cell is right: over words 0 to 8, over words 1 to 8 in a TIME cell (R297). -/
def Cell.crcOk (x : Cell) (isTime : Bool) : Bool :=
  Machine.crc32 (((x.ws.take 9).drop (if isTime then 1 else 0)).flatMap Machine.wordBytes) == (x.ws.getD 9 0).toNat

/-- The CRC of a TIME cell is right (R297). -/
def TimeCell.crcOk (x : TimeCell) : Bool := Machine.crc32 (x.w.flatMap Machine.wordBytes) == x.crc.toNat

end Sys2Proof

namespace Sys2Proof.Machine

/-! ### Ports and cells (R293, R297, R298, R300) -/

/-- LINK.UP_STATE or DN_STATE set. -/
def setPortState (d : Port) (v : Nat) (b : Blk) : Blk :=
  match d with
  | .up => setF Reg.GLEW.LINK.UP_STATE v b
  | .dn => setF Reg.GLEW.LINK.DN_STATE v b

/-- The other port. -/
def otherPort (d : Port) : Port :=
  match d with
  | .up => .dn
  | .dn => .up

/-- The port is connected: the master has no UP link, the last controller no DOWN link (R293). -/
def connected (b : Blk) (d : Port) : Bool :=
  match d with
  | .up => isMember b
  | .dn => decide (ownId b < getF b Reg.GLEW.CFG.CHAIN)

/-- A cell is taken: its DEST is this controller or its BCAST is 1 (R298). -/
def cellTaken (b : Blk) (x : Cell) : Bool := x.bcast || decide (x.dest.val = ownId b)

/-- A cell with a right CRC in RUN: forwarded unless it is addressed to this controller alone, and taken where it is addressed
to it (R298, R300). -/
def passCell (x : Cell) (take : Blk → Blk) (b : Blk) : Blk :=
  let o := otherPort x.d
  let b := if (x.bcast || x.dest.val != ownId b) && portState b o == 5 then queueCell o x.typ ((x.ws.take 9).map BitVec.toNat) b
    else b
  if cellTaken b x then take b else b

/-- Payload word `i` of a cell, from 1. -/
def pw (x : Cell) (i : Nat) : Word := x.w.getD (i - 1) 0

/-! ### Readiness and the ledger image of a member (R305, R306) -/

/-- Word `w` of the member's ledger image (R306). (PRESUMED, log 50). -/
def imageWord (b : Blk) (m : PowerModel) (w : Nat) : Nat :=
  if w < 18432 then
    let e := w / 4
    match w % 4 with
    | 0 => m.code e 0 + 65536 * m.code e 1
    | 1 => m.code e 2 + 65536 * m.code e 3
    | 2 => m.hmax e + 65536 * m.rh e
    | _ => m.cls e
  else if w < 18496 then toBits 16 (m.smax (w - 18432)) + 65536 * toBits 16 (m.smin (w - 18432))
  else if w < 18514 then m.vm (w - 18496)
  else if w < 18658 then
    (List.range 32).foldl (fun n i => n + (if (b.elem (32 * (w - 18514) + i)).lp.st = .parked then 2 ^ i else 0)) 0
  else 0

/-- The elements that are PARKED; only those not PARKED differ from reset, so these are listed. -/
def notParked (b : Blk) : List Nat := b.listed.filter fun e => (b.elem e).lp.st != .parked

/-- The readiness bits of a STATUS cell (R305). -/
def statusBits (b : Blk) : Nat :=
  let bit := fun (p : Bool) (i : Nat) => if p then 2 ^ i else 0
  bit b.sys.mode.working 0 + bit (getF b Reg.SEQ.STAT.CONFIG != 2) 1
    + bit ((List.range 64).all fun l => (serverOf b l).isSome) 2
    + bit ((List.range 18).all fun n => ((b.bank n).released && !(b.bank n).cleared) || (bankElems n).all fun e => !usedIn b e) 3
    + bit (!b.sys.frozenLow) 4 + bit (!flag b Reg.TIME.STAT.PAUSED) 5 + bit (flag b Reg.TIME.STAT.SYNCED) 6
    + bit b.glew.imgQ.isEmpty 7 + bit (decide ((b.sched.queue.filter fun f => f.casc).length < 64)) 8
    + bit (b.sys.mode == .degraded) 9 + bit (b.sys.mode == .thermalLimit) 10

/-- The frames of the chain whose state sets are incomplete and for which `late` holds are refused (R309). (DEDUCED, log 71). -/
def refuseBroken (late : Frame → Bool) (b : Blk) : Blk :=
  (List.range b.sched.queue.length).foldl (fun b i =>
    match b.sched.queue[i]? with
    | some f =>
      if f.casc && f.stage == .queued && !f.refused && late f then
        sendUp3 7 f.seq [f.seq, 0x15] (setFrame i { f with refused := true } b)
      else b
    | none => b) b

/-- What a member sends at a tick: STATUS, and LEDGER cells in the slots that remain (R299, R305, R306).
A state set that has not arrived whole T_DIST after its FRAME cell is refused (R308, R309). (DEDUCED, log 69; DEDUCED, log 71). -/
def memberTick (b : Blk) : Blk :=
  let b := refuseBroken (fun f => decide (f.ta + tDist (getF b Reg.GLEW.CFG.CHAIN) < b.time.ns)) b
  let now := notParked b
  let b := if now = b.glew.imgParked then b else
    resendImage { b with glew := { b.glew with imgParked := now } }
  let b := sendCell .up 3 0 false b.tick [statusBits b, b.glew.imgSeq % 65536] b
  match b.glew.imgQ with
  | [] => b
  | q =>
    if portState b .up = 5 then
      let m := ownModel b
      let b := (q.take 98).foldl (fun b i => sendCell .up 14 0 false i ((List.range 8).map fun j => imageWord b m (8 * i + j)) b) b
      let rest := q.drop 98
      { b with glew := { b.glew with imgQ := rest, imgSeq := if rest = [] then b.glew.imgSeq + 1 else b.glew.imgSeq } }
    else b

/-- V_MEAS goes out again after a housekeeping round (R306). (DEDUCED, log 69). -/
def resendVmeas (b : Blk) : Blk :=
  if isMember b then
    { b with glew := { b.glew with imgQ := b.glew.imgQ ++ [2312, 2313, 2314].filter fun i => decide (i ∉ b.glew.imgQ) } }
  else b

/-! ### Link frames (R296, R299, R301) -/

/-- The device serial of NVM IDENT (R368). -/
def deviceSerial : List Nat :=
  [0, 1].map fun i => (List.range 4).foldl (fun n j => n + (Config.identByte (4 * i + j)).toNat * 256 ^ j) 0

/-- FABRIC.CFG as a word. -/
def fabricCfg (b : Blk) : Nat :=
  getF b Reg.FABRIC.CFG.ROLE + 4 * getF b Reg.FABRIC.CFG.MID_IDX + 16 * getF b Reg.FABRIC.CFG.SIZE

/-- A correction of the GLEW page, in units of 2^-28 ns (R301, R319). -/
def corr28 (v : Nat) : Int := rne (sext 16 v * 2 ^ 28) 10

/-- The precedence of a cell's type in a slot (R299). (DESIGN CHOICE, log 138). -/
def cellClass (typ : Nat) : Nat := if typ ∈ [7, 8, 9, 10, 11, 12, 15] then 0 else if typ = 3 then 1 else 2

/-- The cell that takes slot `s` of the link frame that began at edge `start`: of those that came before the slot began, 10 `s` ns
into the frame, the oldest of the highest precedence (R296, R299). -/
def nextCell (start s : Nat) (q : List TxCell) : Option Nat :=
  [0, 1, 2].findSome? fun k =>
    let i := (q.takeWhile fun c => !decide (cellClass c.typ = k ∧ 2 * (c.at_ - start) ≤ 5 * s)).length
    if i < q.length then some i else none

/-- The cells of `n` slots from slot `s` on, IDLE where none waits, and the cells left (R299). -/
def linkSlots (start : Nat) : Nat → Nat → List TxCell → List (List Nat) × List TxCell
  | 0, _, q => ([], q)
  | n + 1, s, q =>
    match (nextCell start s q).bind fun i => q[i]?.map fun c => (i, c) with
    | some (i, c) =>
      let r := linkSlots start n (s + 1) (q.eraseIdx i)
      (c.ws :: r.1, r.2)
    | none =>
      let r := linkSlots start n (s + 1) q
      (List.replicate 9 0 :: r.1, r.2)

/-- The CRC of a cell's words (R297). -/
def wordsCrc (ws : List Nat) : Nat := crc32 (ws.flatMap fun w => wordBytes (BitVec.ofNat 32 w))

/-- The bytes of words on the four lanes: byte i of a cell travels on lane i mod 4 (R296). (PRESUMED, log 139). -/
def lanesOf (ws : List Nat) : List (List Byte) := (List.range 4).map fun i => ws.map fun w => byteOf w i

/-- The cells 1 to 99 of the link frame that ends at this boundary leave (R296, R297, R299). -/
def closeLink (b : Blk) (d : Port) : Blk :=
  if 1 ≤ portState b d then
    let p := portSt b d
    let r := linkSlots (250 * (b.tick - 1)) 99 1 p.tx
    send (.link d (lanesOf (r.1.flatMap fun c => c ++ [wordsCrc c]))) (setPort d { p with tx := r.2 } b)
  else b

/-- A port's TIME cell of the link frame that begins at this boundary (R301), and in ID the neighbour's ID cell, which the
broadcast bit lets it take whatever its CASC_ID is (R298, R300). (DEDUCED, log 140). -/
def sendTime (b : Blk) (d : Port) : Blk :=
  if 1 ≤ portState b d then
    let p := portSt b d
    let n := b.tick % 65536
    let dep := (local28 b + corr28 (getF b Reg.GLEW.CORR.EGR)).toNat
    let ns := dep / 2 ^ 28
    let fr := dep % 2 ^ 28
    let bit := fun (q : Bool) (i : Nat) => if q then 2 ^ i else 0
    let w := [secOf ns % 2 ^ 32, secOf ns / 2 ^ 32 % 65536 + n * 65536, nsOf ns, fr, getF b Reg.TIME.INCR.INCR,
      p.rxNs % 2 ^ 32, p.rxFrac,
      p.rxFrame + bit (if isMember b then b.glew.upHold else flag b Reg.TIME.STAT.HOLDOVER) 16 + bit b.glew.stepped 17 + bit (flag b Reg.TIME.STAT.PAUSED) 18]
    let b := send (.time d (w ++ [wordsCrc w])) (setPort d { p with dep := ((n, ns, fr) :: p.dep).take 512 } b)
    if portState b d = 3 then
      queueCell d 2 (cellHeader 2 (ownId b) 0 true 0 :: deviceSerial
        ++ [ownId b + 8 * getF b Reg.GLEW.CFG.CHAIN, fabricCfg b, getF b (Reg.ENG.PROG.PROG_ID 0), getF b Reg.TIME.CFG.FMT]) b
    else b
  else b

/-- What leaves on Glewlink at a tick boundary. -/
def glewTick (b : Blk) : Blk :=
  let b := sendTime (sendTime (closeLink (closeLink b .up) .dn) .up) .dn
  let b := { b with glew := { b.glew with stepped := false } }
  if isMember b then memberTick b else b

/-! ### Losing a link (R304, R311, R314, R315) -/

/-- The first frame not launched whose COMMIT has not been sent. -/
def firstUncommitted (b : Blk) : Nat :=
  (b.sched.queue.takeWhile fun f => f.stage == .launched || f.commit).length

/-- Members are lost: the frames without COMMIT are withdrawn with cause 2 (R314). -/
def membersLost (ks : List Nat) (b : Blk) : Blk :=
  if ks = [] then b
  else
    let i := firstUncommitted b
    let ss := if i < b.sched.queue.length then [1026] else []
    let b := { b with glew := { b.glew with mems := ks.foldl (fun t k =>
      t.set MemberSt.reset k { t.get MemberSt.reset k with lost := true }) b.glew.mems } }
    raiseAll (List.replicate ks.length 1090 ++ ss) (withdrawFrom i 2 2 b)

/-- CASC_SPLIT with member `k` the first beyond the break (R311). -/
def cascSplit (k : Nat) (b : Blk) : Blk := raise 1093 (setF Reg.GLEW.LAST_RES.MEMBER k (setF Reg.GLEW.LAST_RES.RESULT 3 b))

/-- The master's DOWN port leaves RUN (R311, R314). (DEDUCED, log 70). -/
def masterCut (b : Blk) : Blk :=
  let n := chainN b
  let split := b.glew.cmdAt.any fun t => decide (b.q ≤ t + 480 * n)
  let b := if split then cascSplit 1 b else b
  membersLost ((List.range n).map (· + 1)) b

/-- A member's UP port leaves RUN (R304, R315): state sets without COMMIT are discarded. -/
def memberCut (b : Blk) : Blk :=
  let keep := b.sched.queue.filter fun f => f.stage == .launched || !f.casc || f.commit
  let b := if b.sched.queue.any fun f => f.casc && !f.commit && f.stage != .launched && f.stage != .queued && f.stage != .solved
    then disarm b else b
  let b := raise 1091 (showQueue { b with sched := { b.sched with queue := keep } })
  if getF b Reg.TIME.CFG.SRC = 2 then enterHoldover false b else b

/-- A connected port begins to train (R300). -/
def startPort (b : Blk) (d : Port) : Blk :=
  if flag b Reg.GLEW.CFG.EN && connected b d && portState b d == 0 then setPortState d 1 b else b

/-- A port goes to DOWN, and from there to LOCK while EN is 1 (R300, R318). (DEDUCED, log 70). -/
def dropPort (d : Port) (b : Blk) : Blk :=
  if portState b d = 0 then b
  else
    let run := portState b d == 5
    let b := startPort (setPortState d 0 (setPort d { PortSt.reset with serial := (portSt b d).serial } b)) d
    if run then
      match d with
      | .up => (if isMember b then memberCut else id) (raise 1088 b)
      | .dn => (if isMember b then id else masterCut) (raise 1089 b)
    else b

/-- A port goes to DOWN; a member that loses its UP port out of RUN takes its DOWN port down with it, so that every member beyond
the break loses its UP port (R300, R315). (DEDUCED, log 70). -/
def portDown (d : Port) (b : Blk) : Blk :=
  if d = .up ∧ portState b .up = 5 ∧ isMember b = true then dropPort .dn (dropPort .up b) else dropPort d b

/-- A port leaves RUN or its training: M5 is reset where it was in RUN (R300, R409). -/
def leaveRun (d : Port) (y : MstReset) (b : Blk) : Blk :=
  portDown d (if portState b d = 5 then masterReset 5 y b else b)

/-- A cell whose CRC fails is discarded and counted; sixteen bad TIME cells in a row end RUN (R297, R300, R318, R409). -/
def badCell (d : Port) (isTime : Bool) (y : MstReset) (b : Blk) : Blk :=
  let b := raise 1095 (incF (if d = .up then Reg.GLEW.CNT_CRC.UP else Reg.GLEW.CNT_CRC.DN) b)
  if isTime then
    let p := portSt b d
    let b := setPort d { p with bad := p.bad + 1 } b
    if 16 ≤ p.bad + 1 ∧ portState b d = 5 then leaveRun d y b else b
  else b

/-- A cell of type `typ` that arrives: discarded where its CRC fails, else forwarded and taken (R297, R298, R300). -/
def onCell (typ : Nat) (x : Cell) (take : Blk → Blk) (b : Blk) : Blk :=
  if portState b x.d ≠ 5 ∨ b.sys.mode = .reset then b
  else if x.crcOk false = false then badCell x.d false ⟨0, []⟩ b
  else if x.typ = typ then passCell x take b
  else b

/-! ### Training (R300) -/

/-- GLEW.CFG (R319). -/
def glewCfgErrs (v : Word) (b : Blk) : List Nat :=
  (if b.sys.mode ≠ .idle then [2] else []) ++ (if v.bit 0 ∧ v.bits 1 3 < ownId b then [1] else [])

/-- An accepted GLEW.CFG (R300). -/
def glewCfgDo (v : Word) (b : Blk) : Blk :=
  let b := setF Reg.GLEW.CFG.CHAIN (v.bits 1 3) (setF Reg.GLEW.CFG.EN (v.bits 0 1) b)
  if v.bit 0 then startPort (startPort b .up) .dn else portDown .dn (portDown .up b)

/-- LINK_LOCK_RETRY: a connected port in DOWN goes to LOCK while EN is 1; a port in LOCK goes on trying (R300).
(DEDUCED, log 70). -/
def execLinkLockRetry (d : Port) (s : State) : Host.Outcome State Fault Refusal :=
  .next { s with b := if s.b.sys.mode = .reset then s.b else startPort s.b d }

/-- LANE_ALIGN: all four lanes are aligned (R300). -/
def execLaneAlign (d : Port) (s : State) : Host.Outcome State Fault Refusal :=
  .next { s with b := if portState s.b d = 1 then setPortState d 2 s.b else s.b }

/-- DESKEW_DONE: the lanes are aligned to each other (R300). -/
def execDeskewDone (d : Port) (s : State) : Host.Outcome State Fault Refusal :=
  .next { s with b := if portState s.b d = 2 then setPortState d 3 s.b else s.b }

/-- A controller's FABRIC.CFG fits its CASC_ID, with the next controller's (R295). -/
def rolesFit (h cfg cfg' : Nat) : Bool :=
  let role := cfg % 4
  let size := natBits cfg 4 2
  let role' := cfg' % 4
  let size' := natBits cfg' 4 2
  let own := if h = 0 then (role == 1 && decide (1 ≤ size ∧ size ≤ 2)) || (role == 0 && size == 0)
    else (role == 2 && natBits cfg 2 2 == h - 1 && decide (1 ≤ size ∧ size ≤ 2 ∧ h ≤ 2 ^ size)) || (role == 0 && size == 0)
  let next := if role ≠ 0 ∧ h + 1 ≤ 2 ^ size then role' == 2 && size' == size && natBits cfg' 2 2 == h
    else role' == 0 && size' == 0
  own && next

/-- The neighbour's ID fits this controller's (R293, R295, R300). -/
def idFits (b : Blk) (x : Cell) : Bool :=
  let h := ownId b
  let h' := (pw x 3).bits 0 3
  let cfg' := (pw x 4).bits 0 6
  decide ((pw x 3).bits 3 3 = getF b Reg.GLEW.CFG.CHAIN) && ((pw x 6).bits 0 1 == getF b Reg.TIME.CFG.FMT)
    && (match x.d with
      | .up => decide (h' + 1 = h) && rolesFit h' cfg' (fabricCfg b)
      | .dn => decide (h' = h + 1) && rolesFit h (fabricCfg b) cfg')

/-- ID_CELL (R300, R304). -/
def idCell (x : Cell) (b : Blk) : Blk :=
  if portState b x.d = 3 ∧ x.crcOk false = false then badCell x.d false ⟨0, []⟩ b
  else if portState b x.d = 3 ∧ x.typ = 2 ∧ cellTaken b x = true then
    let p := portSt b x.d
    let sn : BitVec 64 := BitVec.ofNat 64 ((pw x 1).toNat + 2 ^ 32 * (pw x 2).toNat)
    let change := decide (x.d = .up) && p.serial.any fun o => o != sn
    let b := setPort x.d { p with serial := some sn, n := 0, flight := 0 } b
    let b := raiseIf change 930 b
    if idFits b x then setPortState x.d 4 b else raise 1094 b
  else b

/-- ID_CELL. -/
def execIdCell (x : Cell) (s : State) : Host.Outcome State Fault Refusal := .next { s with b := idCell x s.b }

/-- A port enters RUN (R300, R302, R306, R315). -/
def portRun (d : Port) (b : Blk) : Blk :=
  let b := setPortState d 5 b
  match d with
  | .up => resendImage { b with glew := { b.glew with stepNext := true, oSum := 0, oN := 0 } }
  | .dn => b

/-- MEASURE_DONE: 256 link frames of two-way stamps give the flight time (R300). -/
def measureDone (d : Port) (b : Blk) : Blk :=
  let p := portSt b d
  if portState b d = 4 ∧ 256 ≤ p.n then
    let fl := p.flight / (p.n : Rat)
    let t := (clampI 0 1023 (ratRne (10 * fl))).toNat
    let b := setPort d { p with n := 0, flight := 0 } b
    let b := match d with
      | .up => setF Reg.GLEW.FLIGHT.UP t b
      | .dn => setF Reg.GLEW.FLIGHT.DN t b
    if fl ≤ 48 then portRun d b else raise 1094 b
  else b

/-- MEASURE_DONE. -/
def execMeasureDone (d : Port) (s : State) : Host.Outcome State Fault Refusal := .next { s with b := measureDone d s.b }

/-- BIT_LOCK_LOSS (R300): the port leaves RUN, which resets M5 (R409). -/
def execBitLockLoss (d : Port) (x : MstReset) (s : State) : Host.Outcome State Fault Refusal :=
  .next { s with b := leaveRun d x s.b }

/-- CELL_CRC: a cell whose CRC fails is discarded and counted (R297, R300). -/
def cellCrc (x : Cell) (isTime : Bool) (y : MstReset) (b : Blk) : Blk :=
  if portState b x.d = 0 ∨ x.crcOk isTime = true then b else badCell x.d isTime y b

/-- CELL_CRC. -/
def execCellCrc (x : CrcCell) (isTime : Bool) (s : State) : Host.Outcome State Fault Refusal :=
  .next { s with b := cellCrc x.cell isTime x.reset s.b }

/-! ### Time transfer (R301, R302) -/

/-- The pair of differences of a TIME cell in units of 2^-28 ns: t2 − t1 and t4 − t3, where the cell echoes a link frame
whose departure is still known. -/
def timeDiffs (p : PortSt) (arr : Int) (x : TimeCell) : Option (Int × Int) :=
  let w := fun (i : Nat) => (x.w.getD (i - 1) 0).toNat
  let t1 : Int := (((w 2 % 65536 * 2 ^ 32 + w 1) * 1000000000 + w 3 : Nat) : Int) * 2 ^ 28 + (w 4 % 2 ^ 28 : Nat)
  (p.dep.find? fun e => e.1 == w 8 % 65536).map fun e =>
    let t3 : Int := ((e.2.1 % 2 ^ 32 : Nat) : Int) * 2 ^ 28 + e.2.2
    let t4 : Int := (w 6 : Int) * 2 ^ 28 + (w 7 % 2 ^ 28 : Nat)
    (arr - t1, sext 60 (toBits 60 (t4 - t3)))

/-- TIME_CELL (R301, R302): with SRC = GLEW a member sums the offsets of 64 link frames. (DEDUCED, log 141). -/
def timeCell (x : TimeCell) (b : Blk) : Blk :=
  let st := portState b x.d
  if st = 0 ∨ b.sys.mode = .reset then b
  else if x.crcOk = false then badCell x.d true ⟨0, []⟩ b
  else
    let w := fun (i : Nat) => (x.w.getD (i - 1) 0).toNat
    let arr := local28 b + rne ((x.tenths.val : Int) * 2 ^ 28) 10 - corr28 (getF b Reg.GLEW.CORR.ING)
    let p := portSt b x.d
    let df := timeDiffs p arr x
    let half : Rat := 536870912
    let p := { p with rxFrame := w 2 / 65536, rxNs := arr.toNat / 2 ^ 28, rxFrac := arr.toNat % 2 ^ 28, bad := 0 }
    let p := match df with
      | some e => if st = 4 then { p with n := p.n + 1, flight := p.flight + ((e.1 + e.2 : Int) : Rat) / half } else p
      | none => p
    let b := setPort x.d p b
    if x.d = .up ∧ isMember b ∧ st = 5 then
      let g := { b.glew with upIncr := w 5, upHold := natBits (w 8) 16 1 == 1, stepNext := b.glew.stepNext || natBits (w 8) 17 1 == 1 }
      { b with glew := match (if getF b Reg.TIME.CFG.SRC = 2 ∧ g.oN < 64 then df else none) with
        | some e => { g with oSum := g.oSum + ((e.1 - e.2 : Int) : Rat) / half, oN := g.oN + 1 }
        | none => g }
    else b

/-- TIME_CELL. -/
def execTimeCell (x : TimeCell) (s : State) : Host.Outcome State Fault Refusal := .next { s with b := timeCell x s.b }

/-- GLEW_OFFSET_UPDATE: the mean offset of 64 link frames (R302). -/
def glewOffsetUpdate (b : Blk) : Blk :=
  let g := b.glew
  if isMember b ∧ getF b Reg.TIME.CFG.SRC = 2 ∧ portState b .up = 5 ∧ 64 ≤ g.oN then
    let m := g.oSum / (g.oN : Rat)
    let b := setF Reg.GLEW.OFFSET.O (toBits 32 (satS32 (ratRne (100 * m))))
      { b with glew := { g with oSum := 0, oN := 0, stepNext := false } }
    offsetUpdate (ratRne m) g.upIncr g.stepNext b
  else b

/-- GLEW_OFFSET_UPDATE. -/
def execGlewOffsetUpdate (s : State) : Host.Outcome State Fault Refusal := .next { s with b := glewOffsetUpdate s.b }

/-! ### Cells at the master (R305, R306, R309, R310, R313, R314, R317) -/

/-- STATUS_CELL (R305). -/
def statusCell (x : Cell) (b : Blk) : Blk :=
  onCell 3 x (fun b =>
    if isMember b then b
    else
      let m : MemberSt := { seen := some b.q, bits := (pw x 1).bits 0 11, imgSeq := (pw x 2).bits 0 16, lost := false }
      { b with glew := { b.glew with mems := b.glew.mems.set MemberSt.reset x.src.val m } }) b

/-- STATUS_CELL. -/
def execStatusCell (x : Cell) (s : State) : Host.Outcome State Fault Refusal := .next { s with b := statusCell x s.b }

/-- A COMMIT or ABORT may have been crossing a link beyond the master's own when it left RUN: the link was in RUN at `t`, when the
lost member's last STATUS came, and had left it a tick later (R311). (DEDUCED, log 70). -/
def splitBeyond (b : Blk) (t : Nat) : Bool := b.glew.cmdAt.any fun c => decide (t ≤ c + 480 * chainN b ∧ c ≤ t + 4000)

/-- MEMBER_LOST: the STATUS of member `k` is more than 4 µs old (R311, R314). -/
def memberLost (k : Nat) (b : Blk) : Blk :=
  let m := b.glew.mems.get MemberSt.reset k
  match m.seen with
  | some t =>
    if 1 ≤ k ∧ k ≤ chainN b ∧ m.lost = false then
      atQ (t + 16016) (fun b => membersLost [k] (if splitBeyond b t then cascSplit k b else b)) b
    else b
  | none => b

/-- MEMBER_LOST. -/
def execMemberLost (k : Fin 8) (s : State) : Host.Outcome State Fault Refusal := .next { s with b := memberLost k.val s.b }

/-- LEDGER (R306). -/
def ledgerCell (x : Cell) (b : Blk) : Blk :=
  onCell 14 x (fun b =>
    if isMember b then b
    else { b with glew := { b.glew with image := (List.range 8).foldl (fun t j =>
      t.set 0 (32768 * x.src.val + 8 * x.arg.toNat + j) (pw x (j + 1))) b.glew.image } }) b

/-- LEDGER. -/
def execLedger (x : Cell) (s : State) : Host.Outcome State Fault Refusal := .next { s with b := ledgerCell x s.b }

/-- The master aborts the frame at position `i`: it and every later one are withdrawn with cause 2 (R310).
(DEDUCED, log 47). -/
def abortFrame (i member code : Nat) (b : Blk) : Blk :=
  match b.sched.queue[i]? with
  | some f => raiseAll [1026, 1092] (show2pc f.seq 2 member code (withdrawFrom i 2 2 b))
  | none => b

/-- READY, of which the first good copy acts (R299, R308, R309, R310). (DEDUCED, log 71). -/
def readyCell (x : Cell) (b : Blk) : Blk :=
  onCell 7 x (fun b =>
    match (if isMember b then none else frameWith b (pw x 1)) with
    | some i =>
      match b.sched.queue[i]? with
      | some f =>
        if f.stage = .launched ∨ f.commit ∨ x.src.val ∈ f.ready then b
        else if (pw x 2).bits 0 8 ≠ 0 then abortFrame i x.src.val ((pw x 2).bits 0 8) b
        else
          let r := x.src.val :: f.ready
          let full := (List.range (chainN b)).all fun k => decide (k + 1 ∈ r)
          tryCommit (setFrame i { f with ready := r, pEnd := if full then b.time.ns else f.pEnd } b)
      | none => b
    | none => b) b

/-- READY. -/
def execReady (x : Cell) (s : State) : Host.Outcome State Fault Refusal := .next { s with b := readyCell x s.b }

/-- READY_TIMEOUT: a READY has not arrived by L − 40 ns − 240 ns × n_m (R310). -/
def readyTimeout (b : Blk) : Blk :=
  let i := firstUnlaunched b
  let n := chainN b
  match b.sched.queue[i]? with
  | some f =>
    match (List.range n).find? fun k => decide (k + 1 ∉ f.ready) with
    | some k =>
      let left : Int := ((f.launch : Int) - 40 - 240 * n) * 2 ^ 28 - local28 b
      let x := if left ≤ 0 then 0 else ceilDiv left.toNat (getF b Reg.TIME.INCR.INCR)
      if f.commit = false ∧ b.edge + x < 250 ∧ b.sys.mode ≠ .reset then abortFrame i (k + 1) 0 (toEdge (b.edge + x) b) else b
    | none => b
  | none => b

/-- READY_TIMEOUT. -/
def execReadyTimeout (s : State) : Host.Outcome State Fault Refusal := .next { s with b := readyTimeout s.b }

/-- SUMMARY (R313). (DEDUCED, log 51). -/
def summaryCell (x : Cell) (b : Blk) : Blk :=
  onCell 10 x (fun b =>
    match (if isMember b then none else frameWith b (pw x 1)) with
    | some i =>
      match b.sched.queue[i]? with
      | some f =>
        if f.stage = .launched ∧ f.sums.all (fun y => y.1 != x.src.val) then
          setFrame i { f with sums := f.sums ++ [(x.src.val, 0 :: x.w.map BitVec.toNat)] } b
        else b
      | none => b
    | none => b) b

/-- SUMMARY. -/
def execSummary (x : Cell) (s : State) : Host.Outcome State Fault Refusal := .next { s with b := summaryCell x s.b }

/-- EVENT_CELL (R317). -/
def eventCell (x : Cell) (b : Blk) : Blk :=
  onCell 13 x (fun b =>
    if isMember b then b
    else
      let b := if b.glew.mevt.length < 16 then
          { b with glew := { b.glew with mevt := b.glew.mevt ++ [((pw x 1).bits 0 11, (pw x 1).bits 11 3, x.src.val)] } }
        else incF Reg.GLEW.MEVT_STAT.LOST b
      raise 1096 (setF Reg.GLEW.MEVT_STAT.COUNT b.glew.mevt.length b)) b

/-- EVENT_CELL. -/
def execEventCell (x : Cell) (s : State) : Host.Outcome State Fault Refusal := .next { s with b := eventCell x s.b }

/-- MEVT_READ: the oldest member event is returned and removed (R317). -/
def mevtRead (m : Master) (b : Blk) : Blk :=
  match b.glew.mevt with
  | [] => send (.answer m 0x1C06C 0 0) b
  | e :: t =>
    let v := e.1 + 2048 * e.2.1 + 16384 * e.2.2 + 2147483648
    let b := setF Reg.GLEW.MEVT_STAT.COUNT t.length { b with glew := { b.glew with mevt := t } }
    send (.answer m 0x1C06C 0 (BitVec.ofNat 32 v)) b

/-! ### Cells at a member (R304, R307, R309, R311, R312) -/

/-- The launch time of a FRAME cell (R300). -/
def cellLaunch (b : Blk) (x : Cell) : Nat := launchTime b [0, 0, 0, pw x 2, pw x 3, (pw x 4) &&& 0xFFFF#32]

/-- FRAME_CELL (R307, R309). -/
def frameCell (x : Cell) (b : Blk) : Blk :=
  onCell 4 x (fun b =>
    if isMember b = false ∨ 64 ≤ b.sched.queue.length then b
    else
      let b := refuseBroken (fun _ => true) b
      let l := cellLaunch b x
      let s := (pw x 4).bits 16 10
      let bad := !b.sys.mode.working || getF b Reg.SEQ.STAT.CONFIG == 2
      let f : Frame :=
        { kind := (pw x 4).bits 26 2, slot := 0, seq := pw x 1, settle := s, launch := l, payload := [], peer := none
          ta := b.time.ns, tp := 0, sFree := b.time.ns, pEnd := b.time.ns, rel := boundaryAt b (4 * l + 125 * s)
          stage := .queued, states := [], members := [], armSet := [], wasParked := [], planStart := 0, t0 := 0
          ready := [], refused := bad, sums := [], keep := true, solveStart := 0, plan := [], commit := false
          casc := true, cells := [] }
      let b := showQueue { b with sched := { b.sched with queue := b.sched.queue ++ [f] } }
      if bad then sendUp3 7 f.seq [f.seq, 2] b else b) b

/-- FRAME_CELL. -/
def execFrameCell (x : Cell) (s : State) : Host.Outcome State Fault Refusal := .next { s with b := frameCell x s.b }

/-- A member's frame whose state set is whole: MOVE is set against its own reference, KEEP is the reference (R307).
(DEDUCED, log 71). -/
def fillStates (i : Nat) (ws : Option (Tbl (List Word))) (f : Frame) (b : Blk) : Blk :=
  let refs := refBytes b i
  let st := match ws with
    | none => refs
    | some t =>
      let bs := ((List.range 144).flatMap fun k => (t.get [] k).flatMap wordBytes)
      (refs.zip bs).map fun y => if y.2 = 0xFF then y.1 else withMove y.1 (y.2.toNat % 16)
  setFrame i { f with states := st, stage := .solved, cells := [], sFree := b.time.ns } b

/-- The position of the member's frame whose set is arriving. -/
def filling (b : Blk) : Option Nat :=
  let i := (b.sched.queue.takeWhile fun f => !(f.casc && f.stage == .queued && !f.refused)).length
  if i < b.sched.queue.length then some i else none

/-- STATES (R307). -/
def statesCell (x : Cell) (b : Blk) : Blk :=
  onCell 5 x (fun b =>
    match (if isMember b then filling b else none) with
    | some i =>
      match b.sched.queue[i]? with
      | some f =>
        let t := if x.arg.toNat < 144 then f.cells.set [] x.arg.toNat x.w else f.cells
        if t.length = 144 then fillStates i (some t) f b else setFrame i { f with cells := t } b
      | none => b
    | none => b) b

/-- STATES. -/
def execStates (x : Cell) (s : State) : Host.Outcome State Fault Refusal := .next { s with b := statesCell x s.b }

/-- NOCHANGE (R307). -/
def nochangeCell (x : Cell) (b : Blk) : Blk :=
  onCell 6 x (fun b =>
    match (if isMember b then filling b else none) with
    | some i =>
      match b.sched.queue[i]? with
      | some f => if f.seq = pw x 1 then fillStates i none f b else b
      | none => b
    | none => b) b

/-- NOCHANGE. -/
def execNochange (x : Cell) (s : State) : Host.Outcome State Fault Refusal := .next { s with b := nochangeCell x s.b }

/-- COMMIT (R311). -/
def commitCell (x : Cell) (b : Blk) : Blk :=
  onCell 8 x (fun b =>
    match (if isMember b then frameWith b (pw x 1) else none) with
    | some i =>
      match b.sched.queue[i]? with
      | some f =>
        if f.stage = .launched then b
        else show2pc f.seq 1 0 0 (setFrame i { f with commit := true } b)
      | none => b
    | none => b) b

/-- COMMIT. -/
def execCommitCell (x : Cell) (s : State) : Host.Outcome State Fault Refusal := .next { s with b := commitCell x s.b }

/-- ABORT: the frame and every later one are discarded (R311, R312). -/
def abortCell (x : Cell) (b : Blk) : Blk :=
  onCell 9 x (fun b =>
    match (if isMember b then frameWith b (pw x 1) else none) with
    | some i =>
      match b.sched.queue[i]? with
      | some f =>
        if f.stage = .launched then b
        else
          let b := if f.stage = .queued ∨ f.stage = .solved then b else disarm b
          show2pc f.seq 2 0 0 (showQueue { b with sched := { b.sched with queue := b.sched.queue.take i } })
      | none => b
    | none => b) b

/-- ABORT. -/
def execAbortCell (x : Cell) (s : State) : Host.Outcome State Fault Refusal := .next { s with b := abortCell x s.b }

/-- CTRL_PAUSE_CLR (R299, R304). -/
def ctrlPauseClr (x : Cell) (b : Blk) : Blk :=
  onCell 15 x (fun b => if isMember b ∧ x.arg = 1 then setFlag Reg.TIME.STAT.PAUSED false b else b) b

/-- CTRL_PAUSE_CLR. -/
def execCtrlPauseClr (x : Cell) (s : State) : Host.Outcome State Fault Refusal := .next { s with b := ctrlPauseClr x s.b }

/-! ### Trigger cells (R316, R342) -/

/-- TRIG_ARM. -/
def execTrigArm (x : Cell) (s : State) : Host.Outcome State Fault Refusal :=
  .next { s with b := onCell 11 x (fun b =>
    if isMember b then trigArmCell x.arg.toNat (pw x 1).toNat (pw x 2).toNat b else b) s.b }

/-- TRIG_FIRE. -/
def execTrigFire (x : Cell) (s : State) : Host.Outcome State Fault Refusal :=
  .next { s with b := onCell 12 x (trigFireCell x.src.val x.arg.toNat (pw x 1).toNat (pw x 2).toNat) s.b }

end Sys2Proof.Machine
end

