-- ==== Sys2Proof/Machine/Events.lean ====
section
/-!
DEFINITION. Events, first-error capture, ALIVE, the NVM (R346 to R357, R368 to R373, R376 to R380).
-/
set_option autoImplicit false

namespace Sys2Proof.Machine

/-! ### Latch, mask and raw windows (R348, R349) -/

/-- The groups whose messages go to vector `v` (R349). -/
def groupsOf (v : Nat) : List Nat := (List.range 36).filter fun g => vecOfGroup g == v

/-- A source is latched and not masked. -/
def unmasked (b : Blk) (s : Nat) : Bool := (evGet b s).latch && !(evGet b s).mask

/-- Some group of vector `v` has an unmasked latched source. (DESIGN CHOICE, log 54). -/
def vecPending (b : Blk) (v : Nat) : Bool :=
  (groupsOf v).any fun g => (List.range 32).any fun i => unmasked b (32 * g + i)

/-- INT_N is driven low (R349). -/
def intN (b : Blk) : Bool :=
  flag b Reg.EVT.CFG.INTN_EN && b.ev.tab.any fun e => e.2.latch && !e.2.mask

/-- A W1C write on the latch bits of sources `base + i` for the bits `i < n` of `v`: a latch whose raw bit is 0 clears with
its class, and the vectors that still have an unmasked latch signal again (R348, R349). An event of the same cycle is a later command
(R17). (DESIGN CHOICE, log 149). -/
def clearLatches (base n : Nat) (v : Word) (b : Blk) : Blk :=
  let ss := ((List.range n).filter fun i => v.bit i).map fun i => base + i
  let b := ss.foldl (fun b s =>
    let r := evGet b s
    if r.raw then b else evSet s { r with latch := false, lcls := 0 } b) b
  let vs := ((List.range n).map fun i => vecOfGroup ((base + i) / 32)).eraseDups
  vs.foldl (fun b x => if vecPending b x then signalVec x b else b) b

/-- A write of mask bits of sources `base + i`, `i < n`. A vector signals when a latch bit sets, not when
its mask clears (R349). -/
def writeMasks (base n : Nat) (v : Word) (b : Blk) : Blk :=
  (List.range n).foldl (fun b i =>
    let r := evGet b (base + i)
    evSet (base + i) { r with mask := v.bit i } b) b

/-- Bits of sources `base + i`, `i < n`, as a word. -/
def evBits (b : Blk) (base n : Nat) (f : EvRec → Bool) : Nat :=
  (List.range n).foldl (fun x i => x + (if f (evGet b (base + i)) then 2 ^ i else 0)) 0

/-- EVT.CNT_CLR (R376). -/
def cntClrDo (v : Word) (b : Blk) : Blk :=
  if v.bit 0 then
    { b with ev := { b.ev with tab := (b.ev.tab.map Prod.fst).foldl (fun t s =>
        t.set (EvRec.reset s) s { t.get (EvRec.reset s) s with count := 0 }) b.ev.tab } }
  else b

/-- An accepted EVT_FORCE of a page whose sources begin at `base`: the sources written 1 are raised (R374), those among them that
nothing else raises (R96, R126). (DESIGN CHOICE, log 134). -/
def forceDo (base n : Nat) (v : Word) (b : Blk) : Blk :=
  raiseAll (((List.range n).filter fun i => v.bit i).map fun i => base + i) b

/-- MSIX_HOLDOFF_END: the spacing of vector `v` ends and the message that is due leaves (R349). -/
def msixHoldoffEnd (v : Nat) (b : Blk) : Blk :=
  if v ∈ b.ev.due then
    atQ ((b.ev.lastMsg.find v).getD 0 + getF b Reg.EVT.CFG.HOLDOFF * 4000) (fun b =>
      signalMsix v { b with ev := { b.ev with due := b.ev.due.filter fun x => x != v, lastMsg := b.ev.lastMsg.put v b.q } }) b
  else b

/-- MSIX_HOLDOFF_END. -/
def execMsixHoldoffEnd (vec : Fin 32) (s : State) : Host.Outcome State Fault Refusal :=
  .next { s with b := msixHoldoffEnd vec.val s.b }

/-! ### The reaction table (R352) -/

/-- A write of a word of the reaction table is rejected (R352). -/
def reactErrs (v : Word) (b : Blk) : List Nat :=
  (if (List.range 4).any fun i => decide (5 ≤ v.bits (8 * i) 3) then [4] else [])
    ++ (if flag b Reg.REACT.CTL.LOCK then [3] else [])

/-- An accepted write of word `w` of the reaction table (R352). (DEDUCED, log 99). -/
def reactDo (w : Nat) (v : Word) (b : Blk) : Blk :=
  (List.range 4).foldl (fun b i =>
    evSet (4 * w + i) { evGet b (4 * w + i) with cls := v.bits (8 * i) 3, log := v.bit (8 * i + 3) } b) b

/-- Word `w` of the reaction table. (DEDUCED, log 99). -/
def reactWord (b : Blk) (w : Nat) : Nat :=
  (List.range 4).foldl (fun n i =>
    let r := evGet b (4 * w + i)
    n + (r.cls + (if r.log then 8 else 0)) * 256 ^ i) 0

/-! ### First-error capture (R353, R378) -/

/-- FCAP.CTL.CLEAR (R353). -/
def fcapClearDo (v : Word) (b : Blk) : Blk :=
  if v.bit 0 then
    [Reg.FCAP.STAT.VALID, Reg.FCAP.STAT.MERGED, Reg.FCAP.STAT.MERGE_CNT, Reg.FCAP.SRC.SOURCE, Reg.FCAP.SRC.CLASS,
     Reg.FCAP.SRC.MASTER, Reg.FCAP.SRC.ACCESS, Reg.FCAP.ADDR.ADDR, Reg.FCAP.T_NS.NS, Reg.FCAP.T_SLO.SEC,
     Reg.FCAP.T_SHI.SEC, Reg.FCAP.MERGED_GRP0.GROUPS, Reg.FCAP.MERGED_GRP1.GROUPS].foldl (fun b f => setF f 0 b) b
  else b

/-! ### ALIVE (R356, R357, R379) -/

/-- The mode stops ALIVE (R356). -/
def stopMode (b : Blk) : Bool := decide (b.sys.mode ∈ [Mode.reset, .boot, .safe, .shutdown])
/-- A source latched with class SAFE or SHUTDOWN stops ALIVE. -/
def stopEvt (b : Blk) : Bool := latchedClass b [3, 4]
/-- The watchdog stops ALIVE. -/
def stopWd (b : Blk) : Bool := flag b Reg.ALIVE.CFG.WD_EN && b.ev.wdOver
/-- ALIVE may toggle (R356). (DEDUCED, log 73). -/
def aliveOk (b : Blk) : Bool := !stopMode b && !stopEvt b && !stopWd b

/-- The ALIVE pin. -/
def pinAlive : Nat := 2

/-- What a tick boundary counts for ALIVE: boundaries while it may toggle. (DEDUCED, log 73). -/
def aliveTick (b : Blk) : Blk := { b with ev := { b.ev with aliveN := if aliveOk b then b.ev.aliveN + 1 else 0 } }

/-- ALIVE_TOGGLE: at every 100th tick boundary the level changes, where it may (R356). -/
def aliveToggle (b : Blk) : Blk :=
  if 100 ≤ b.ev.aliveN ∧ aliveOk b then
    let l := !flag b Reg.ALIVE.STAT.LEVEL
    send (.pin pinAlive l) (setFlag Reg.ALIVE.STAT.LEVEL l { b with ev := { b.ev with aliveN := b.ev.aliveN - 100 } })
  else b

/-- ALIVE_TOGGLE. -/
def execAliveToggle (s : State) : Host.Outcome State Fault Refusal := .next { s with b := aliveToggle s.b }

/-- WATCHDOG: WD_MS ms of elapsed time pass without a restart (R357). -/
def watchdog (b : Blk) : Blk :=
  if flag b Reg.ALIVE.CFG.WD_EN ∧ b.ev.wdDone = false then
    atQ (b.ev.wdStart + getF b Reg.ALIVE.CFG.WD_MS * 4000000) (fun b =>
      raise 1132 { b with ev := { b.ev with wdOver := true, wdDone := true, aliveN := 0 } }) b
  else b

/-- WATCHDOG. -/
def execWatchdog (s : State) : Host.Outcome State Fault Refusal := .next { s with b := watchdog s.b }

/-- ALIVE.KICK (R357). -/
def kickDo (v : Word) (b : Blk) : Blk :=
  if v.bit 0 ∧ flag b Reg.ALIVE.CFG.WD_EN then { b with ev := { b.ev with wdStart := b.q, wdOver := false, wdDone := false } } else b

/-- ALIVE.CFG (R379). -/
def aliveCfgErrs (v : Word) : List Nat := if v.bits 1 16 < 1 ∨ 60000 < v.bits 1 16 then [1] else []

/-- An accepted ALIVE.CFG (R357). -/
def aliveCfgDo (v : Word) (b : Blk) : Blk :=
  let was := flag b Reg.ALIVE.CFG.WD_EN
  let ms := getF b Reg.ALIVE.CFG.WD_MS
  let b := setF Reg.ALIVE.CFG.WD_MS (v.bits 1 16) (setF Reg.ALIVE.CFG.WD_EN (v.bits 0 1) b)
  if v.bit 0 = false then { b with ev := { b.ev with wdOver := false, wdDone := false } }
  else if was = false ∨ ms ≠ v.bits 1 16 then { b with ev := { b.ev with wdStart := b.q, wdDone := false } }
  else b

/-! ### The NVM (R368 to R373, R380) -/

/-- A byte of the NVM: IDENT is factory data (R368). (DESIGN CHOICE, log 6). -/
def nvmByte (b : Blk) (a : Nat) : Byte :=
  if a = 8 then 1 else if a = 9 then 0 else if a < 0x40 then Config.identByte a else b.nvm.mem.get 0 a

/-- A word of the NVM. -/
def nvmWord (b : Blk) (a : Nat) : Nat :=
  (List.range 4).foldl (fun n j => n + (nvmByte b (a + j)).toNat * 256 ^ j) 0

/-- A region of `n` words whose last is the CRC of those before it. -/
def nvmValid (b : Blk) (a n : Nat) : Bool :=
  nvmWord b (a + 4 * (n - 1)) == crc32 ((List.range (4 * (n - 1))).map fun i => nvmByte b (a + i))

/-- The write at the front of the queue ends: its bytes stand, it counts as wear (R370, R371, R373).
(DEDUCED, log 72). -/
def nvmStore (w : NvmWrite) (b : Blk) : Blk :=
  let n := b.nvm.wear.get 0 w.wearIx + 1
  let b := { b with nvm := { b.nvm with
    wear := b.nvm.wear.set 0 w.wearIx n
    mem := (w.bytes.zipIdx).foldl (fun m x => m.set 0 (w.addr + x.2) x.1) b.nvm.mem } }
  let b := if w.wearIx < 488 then setF Reg.NVM.WEAR.WRITES (max n (getF b Reg.NVM.WEAR.WRITES)) b else b
  if w.wearIx < 488 ∧ 90000 ≤ n ∧ b.nvm.wearSaid = false then
    raise 1131 { b with nvm := { b.nvm with wearSaid := true } }
  else b

/-- What follows a write that will not be tried again: the queue goes on (R370). -/
def nvmNext (b : Blk) : Blk :=
  let b := { b with nvm := { b.nvm with queue := b.nvm.queue.drop 1 } }
  setFlag Reg.NVM.STAT.BUSY (!b.nvm.queue.isEmpty) b

/-- A log record moved on by one: the next SEQN, and so the next slot (R368, R370). -/
def NvmWrite.later (w : NvmWrite) : NvmWrite :=
  if w.log then
    let ws := ((bytesWords w.bytes).take 7).map BitVec.toNat
    { recordWrite (ws.set 1 ((ws.getD 1 0 + 1) % 2 ^ 32)) with retry := w.retry }
  else w

/-- The write at the front of the queue is tried again (R370): a record in the next slot, the records behind it one slot further on, a
counter copy in its place. (DEDUCED, log 107). -/
def nvmRetry (w : NvmWrite) (t : List NvmWrite) (b : Blk) : Blk :=
  let t := if w.log then t.map NvmWrite.later else t
  { b with nvm := { b.nvm with
    queue := { w.later with retry := true } :: t, seqn := if w.log then (b.nvm.seqn + 1) % 2 ^ 32 else b.nvm.seqn } }

/-- NVM_WRITE_DONE: the write at the front of the queue is verified, or is retried, or has failed twice (R370). A write into
which FTEST.ECC puts an error for T7 does not verify (R382). (DEDUCED, log 107). -/
def nvmWriteDone (ok : Bool) (b : Blk) : Blk :=
  match b.nvm.queue with
  | [] => b
  | w :: t =>
    let flawed := flag b Reg.FTEST.ECC.GO && getF b Reg.FTEST.ECC.TARGET == 7
    let b := if flawed then setFlag Reg.FTEST.ECC.GO false b else b
    if ok && !flawed then
      let b := nvmStore w b
      let b := if w.log then
          let n := ((bytesWords w.bytes).getD 1 0).toNat
          setF Reg.NVM.LOG_COUNT.COUNT (min 480 (getF b Reg.NVM.LOG_COUNT.COUNT + 1))
            (setF Reg.NVM.LOG_SEQ.SEQN n (lifeAdd 15 1 b))
        else b
      nvmNext b
    else if w.retry then nvmNext (raise 1130 (setFlag Reg.NVM.STAT.FAIL true b))
    else nvmRetry w t b

/-- NVM_WRITE_DONE. -/
def execNvmWriteDone (ok : Bool) (s : State) : Host.Outcome State Fault Refusal := .next { s with b := nvmWriteDone ok s.b }

/-- NVM_COUNTER_WRITE: 3,600 s of powered time have passed and IDLE has been left (R371). (DEDUCED, log 72). -/
def nvmCounterWrite (b : Blk) : Blk :=
  if b.sys.leftIdle ∧ 3600000000 ≤ b.nvm.powered ∧ b.sys.mode ≠ .reset then
    nvmCounters { b with nvm := { b.nvm with powered := b.nvm.powered - 3600000000 } }
  else b

/-- NVM_COUNTER_WRITE. -/
def execNvmCounterWrite (s : State) : Host.Outcome State Fault Refusal := .next { s with b := nvmCounterWrite s.b }

/-- A tick of powered time, with the metered energy of `mw` mW over 1 µs; an hour is counted as it has passed (R371). -/
def nvmTick (mw : Nat) (b : Blk) : Blk :=
  let e := b.nvm.energy + mw
  let b := { b with nvm := { b.nvm with powered := b.nvm.powered + 1, energy := e % 3600000000000 } }
  let b := if b.tick % 3600000000 = 0 then lifeAdd 1 1 b else b
  if 3600000000000 ≤ e then lifeAdd 14 1 b else b

/-- NVM.KEY_CTL (R372). -/
def keyErrs (v : Word) (b : Blk) : List Nat :=
  if v.bit 0 then (if b.sys.mode ≠ .idle then [2] else []) ++ (if flag b Reg.NVM.STAT.KEY_SET then [3] else []) else []

/-- An accepted NVM.KEY_CTL.PROG (R372): the staged key goes to the NVM and the staging words read 0.
(DEDUCED, log 72). -/
def keyDo (v : Word) (b : Blk) : Blk :=
  if v.bit 0 then
    let bs := (List.range 8).flatMap fun i => wordBytes (BitVec.ofNat 32 (getF b (Reg.NVM.KEY.KEY i)))
    let w : NvmWrite := { addr := 0x40, bytes := bs, wearIx := 1001, log := false, retry := false }
    let b := (List.range 8).foldl (fun b i => setF (Reg.NVM.KEY.KEY i) 0 b) b
    setFlag Reg.NVM.STAT.BUSY true (setFlag Reg.NVM.STAT.KEY_SET true
      { b with nvm := { b.nvm with queue := b.nvm.queue ++ [w], keySet := true } })
  else b

/-- What the scan of the NVM found is shown: the number of records and the newest, the counters, and the channels that carry no
retirement mark (R264, R370, R371). -/
def scanShow (n newest : Nat) (life : Tbl Nat) (inn : Nat → Bool) (b : Blk) : Blk :=
  let b := { b with nvm := { b.nvm with seqn := newest, life := life } }
  let b := setF Reg.NVM.LOG_COUNT.COUNT n (setF Reg.NVM.LOG_SEQ.SEQN newest b)
  let b := setFlag Reg.NVM.STAT.KEY_SET b.nvm.keySet b
  let b := setF Reg.NVM.WEAR.WRITES (b.nvm.wear.foldl (fun m x => if x.1 < 488 then max m x.2 else m) 0) b
  let k := ((List.range 3).filter inn).length
  let b := setFlag Reg.SEQ.STAT.IN_P (inn 2) (setFlag Reg.SEQ.STAT.IN_L (inn 1) (setFlag Reg.SEQ.STAT.IN_I (inn 0) b))
  lifeAdd 2 1 (setF Reg.SEQ.STAT.CONFIG (if k = 3 then 0 else if k = 2 then 1 else 2) b)

/-- The scan of the NVM in BOOT (R264, R368, R370, R371): the newest record, the retirement marks, the counters.
(DEDUCED, log 108). -/
def nvmScan (b : Blk) : Blk :=
  let recs := (List.range 480).filterMap fun i =>
    if nvmWord b (0x400 + 32 * i) ≠ 0 ∧ nvmValid b (0x400 + 32 * i) 8 then some (nvmWord b (0x404 + 32 * i)) else none
  let newest := recs.foldl max 0
  let copies := (List.range 8).filter fun i => nvmValid b (0x80 + 112 * i) 28
  let best := copies.foldl (fun m i => match m with
    | none => some i
    | some j => if nvmWord b (0x80 + 112 * j) < nvmWord b (0x80 + 112 * i) then some i else some j) (none : Option Nat)
  let life := match best with
    | some i => (List.range 27).foldl (fun t w => t.set 0 w (nvmWord b (0x80 + 112 * i + 4 * w))) []
    | none => []
  let mark := fun (c : Nat) => nvmValid b 0x60 8 && nvmWord b (0x60 + 4 * c) != 0
  scanShow recs.length newest life (fun c => !mark c) b

/-- A word of the NVM window; the key reads as 0 (R368, R380). -/
def nvmWindow (b : Blk) (i : Nat) : Nat :=
  let a := 2048 * getF b Reg.NVM.WIN.BLOCK + 4 * i
  if 0x40 ≤ a ∧ a < 0x60 then 0 else nvmWord b a

/-! ### Fault injection (R374, R382) -/

/-- A write of the FTEST page or of an EVT_FORCE register (R374). -/
def ftestErrs (b : Blk) : List Nat := if b.sys.mode = .factoryTest then [] else [2]

end Sys2Proof.Machine
end

