-- ==== Sys2Proof/Machine/Therm.lean ====
section
/-!
DEFINITION. Thermal supervision and supplies (R383 to R397, R475), RTD conversion (R122 to R124), the rail checks of the
housekeeping round (R70, R72).
-/
set_option autoImplicit false

namespace Sys2Proof.Machine

/-! ### Readings (R122 to R124, R384) -/

/-- A controller diode's reading in 0.01 °C. -/
def diodeT (x : Int) : Int := if x < -5500 ∨ 18000 < x then 32767 else x

/-- Four times R_REF × (β T² + α T) - x of R123 in integer units, for T - T_REF of `y` half hundredths of a degree. -/
def rtdPoly (rref r alpha : Nat) (beta y : Int) : Int :=
  rref * (beta * y * y + 20000 * alpha * y) - 4000000000000 * ((r : Int) - rref)

/-- T - T_REF is at least `y` half hundredths of a degree: `y` is compared with the root of R123, the one at or after the
vertex for positive β and at or before it for negative β. -/
def rtdGe (rref r alpha : Nat) (beta y : Int) : Bool :=
  if 0 ≤ beta * y + 10000 * alpha then decide (rtdPoly rref r alpha beta y ≤ 0) else decide (0 < beta)

/-- The greatest `y` from `lo` on, below `lo + 2^n`, at which `p` holds, for a `p` that holds up to some point.
(DEDUCED, log 75). -/
def bisect (p : Int → Bool) : Nat → Int → Int
  | 0, lo => lo
  | n + 1, lo => bisect p n (if p (lo + (2 ^ n : Nat)) then lo + (2 ^ n : Nat) else lo)

/-- T - T_REF of R123 rounded to 0.01 °C, ties to even (R4). (DEDUCED, log 75). -/
def rtdDelta (rref r alpha : Nat) (beta : Int) : Int :=
  let m := bisect (rtdGe rref r alpha beta) 18 (-131072)
  let n := m / 2
  if m % 2 = 0 then n
  else if rtdPoly rref r alpha beta m = 0 ∧ n % 2 = 0 then n else n + 1

/-- The reading of RTD `i` at a resistance of `r` tenths of an ohm (R122 to R124). With R_REF = 0 the reading is open.
(DESIGN CHOICE, log 74; DEDUCED, log 75). -/
def rtdT (i r : Nat) (b : Blk) : Int × Blk :=
  let w0 := (b.rtdLive.get 0 (2 * i)).toNat
  let w1 := (b.rtdLive.get 0 (2 * i + 1)).toNat
  let rref := natBits w0 0 16
  let alpha := natBits w1 0 16
  let beta := sext 16 (w1 / 65536)
  if r < 200 ∨ 60000 < r ∨ alpha = 0 then (32767, b)
  else if rref = 0 then
    let f := takeFree b
    (sext 16 f.1.toNat, f.2)
  else if (alpha : Int) * alpha * rref + 40000 * beta * ((r : Int) - rref) < 0 then (32767, b)
  else (satS16 (sext 16 (w0 / 65536) + rtdDelta rref r alpha beta), b)

/-- The 88 readings of a round (R384). -/
def readings (x : HkIn) (b : Blk) : List Int × Blk :=
  let r := (x.rtds.take 64).zipIdx.foldl (fun (s : List Int × Blk) y =>
    let t := rtdT y.2 y.1 s.2
    (s.1 ++ [t.1], t.2)) ([], b)
  ((x.diodes.take 24).map diodeT ++ r.1, r.2)

/-! ### Settings of the round (R386, R393, R396) -/

/-- A setting is about to be written: the round in progress keeps its value. (DESIGN CHOICE, log 150). -/
def holdF (f : Fld) (b : Blk) : Blk :=
  let r := b.tick / 1000
  if b.hk.held.any fun h => h.1 == r && h.2.1 == f then b
  else { b with hk := { b.hk with held := b.hk.held ++ [(r, f, getF b f)] } }

/-- The block as the rules of the round that has ended see it: a setting written during it or since has the value it had in it. -/
def roundView (b : Blk) : Blk :=
  (b.hk.held.filter fun h => decide (b.hk.rounds ≤ h.1)).reverse.foldl (fun b h => setF h.2.1 h.2.2 b) b

/-- A round is over: what was held for it is dropped. -/
def roundOver (b : Blk) : Blk :=
  { b with hk := { b.hk with rounds := b.hk.rounds + 1, held := b.hk.held.filter fun h => decide (b.hk.rounds < h.1) } }

/-- The fields of a register of THERM, each held for the round in progress. -/
def holdWord (off : Nat) (fs : List FD) (b : Blk) : Blk :=
  fs.foldl (fun b f => holdF (Fld.mk' 0x14 off f.lsb f.wid f.rst) b) b

/-! ### Sensors (R385, R386) -/

/-- Out of range: outside [-50, 175] °C. -/
def outOfRange (t : Int) : Bool := decide (t < -5000 ∨ 17500 < t)

/-- The sensor is excluded. -/
def excludedS (b : Blk) (k : Nat) : Bool := flag b (Reg.THERM.SENSOR.EXCLUDED k)

/-- The listed neighbours of sensor `k`, as sensor indices. -/
def neighboursOf (b : Blk) (k : Nat) : List Nat :=
  if k < 24 then ((List.range 4).map fun j => 4 * (k / 4) + j).filter fun j => decide (j ≠ k)
  else
    let i := k - 24
    let nbr := fun (j : Nat) => match j with
      | 0 => getF b (Reg.THERM.RTD_MAP.NBR0 i)
      | 1 => getF b (Reg.THERM.RTD_MAP.NBR1 i)
      | 2 => getF b (Reg.THERM.RTD_MAP.NBR2 i)
      | _ => getF b (Reg.THERM.RTD_MAP.NBR3 i)
    (((List.range 4).filter fun j => natBits (getF b (Reg.THERM.RTD_MAP.VALID i)) j 1 == 1).map fun j => 24 + nbr j).eraseDups

/-- Twice the median of a list. -/
def median2 (ts : List Int) : Int :=
  let s := ts.mergeSort fun x y => decide (x ≤ y)
  let n := s.length
  if n % 2 = 1 then 2 * s.getD (n / 2) 0 else s.getD (n / 2 - 1) 0 + s.getD (n / 2) 0

/-- Sensor `k` deviates: more than 10 °C from the median of at least two valid neighbours. -/
def deviates (b : Blk) (ts : List Int) (k : Nat) : Bool :=
  let vs := ((neighboursOf b k).filter fun j => !excludedS b j && !outOfRange (ts.getD j 32767)).map fun j => ts.getD j 32767
  decide (2 ≤ vs.length) && decide (2000 < (2 * ts.getD k 32767 - median2 vs).natAbs)

/-- The registers of sensor `k` after a round; in the 8th bad round in a row it is excluded and SENSOR_EXCLUDED is due. The
rules read the block `b0` before the round. -/
def showSensor (b0 : Blk) (ts : List Int) (k : Nat) (s : List Nat × Blk) : List Nat × Blk :=
  let t := ts.getD k 32767
  let o := outOfRange t
  let d := deviates b0 ts k
  let bad := if excludedS b0 k then 0 else if o || d then getF b0 (Reg.THERM.SENSOR.BAD k) + 1 else 0
  let b := setF (Reg.THERM.SENSOR.T k) (toBits 16 t) (setFlag (Reg.THERM.SENSOR.OUT k) o
    (setFlag (Reg.THERM.SENSOR.DEV k) d s.2))
  if bad = 8 then
    (s.1 ++ [902], setF (Reg.THERM.SENSOR.BAD k) 0 (setFlag (Reg.THERM.SENSOR.EXCLUDED k) true b))
  else (s.1, setF (Reg.THERM.SENSOR.BAD k) bad b)

/-! ### Regions (R387) -/

/-- A die: whether photonic. -/
abbrev Die := Bool

/-- The regions of a die. -/
def regionsOf (ph : Die) : List Nat := List.range (if ph then 16 else 6)

/-- The sensors assigned to a region. -/
def sensorsOf (b : Blk) (ph : Die) (r : Nat) : List Nat :=
  if ph then ((List.range 64).filter fun i => getF b (Reg.THERM.RTD_MAP.REGION i) == r).map fun i => 24 + i
  else (List.range 4).map fun j => 4 * r + j

/-- The neighbour regions of a region. -/
def regionNbrs (b : Blk) (ph : Die) (r : Nat) : List Nat :=
  if ph then (List.range 16).filter fun q => natBits (getF b (Reg.THERM.REGION_NBR.NBR r)) q 1 == 1
  else (List.range 6).filter fun q => q == r + 3 || q + 3 == r || (q / 3 == r / 3 && (q == r + 1 || q + 1 == r))

/-- The hottest usable sensor of a region, the lowest among equals: temperature and sensor index. -/
def ownTemp (b : Blk) (ts : List Int) (ph : Die) (r : Nat) : Option (Int × Nat) :=
  ((sensorsOf b ph r).filter fun k => !excludedS b k && !outOfRange (ts.getD k 32767)).foldl (fun m k =>
    let t := ts.getD k 32767
    match m with
    | none => some (t, k)
    | some x => if x.1 < t then some (t, k) else m) none

/-- The highest temperature of some regions that have one of their own. (DEDUCED, log 76). -/
def topTemp (b : Blk) (ts : List Int) (ph : Die) (rs : List Nat) : Option Int :=
  (rs.filterMap fun r => (ownTemp b ts ph r).map Prod.fst).foldl (fun m t =>
    match m with
    | none => some t
    | some x => some (max x t)) none

/-- The temperature of a region with sensors: temperature, hottest sensor or 0xFF, substituted; none on a blind die.
(DEDUCED, log 76). -/
def regionTemp (b : Blk) (ts : List Int) (ph : Die) (r : Nat) : Option (Int × Nat × Bool) :=
  match ownTemp b ts ph r with
  | some x => some (x.1, x.2, false)
  | none =>
    match topTemp b ts ph (regionNbrs b ph r) with
    | some t => some (t + 500, 0xFF, true)
    | none => (topTemp b ts ph (regionsOf ph)).map fun t => (t + 500, 0xFF, true)

/-! ### Levels (R388, R391) -/

/-- The threshold of level `l` in 0.01 °C. -/
def threshold (b : Blk) (ph : Die) (l : Nat) : Int :=
  match ph, l with
  | false, 0 => 9500
  | false, 1 => 10500
  | false, _ => 11500
  | true, 0 => sext 16 (getF b Reg.THERM.PD_THR0.WARN)
  | true, 1 => sext 16 (getF b Reg.THERM.PD_THR0.LIMIT)
  | true, _ => sext 16 (getF b Reg.THERM.PD_THR1.SHUT)

/-- The key of level `l` of a region. -/
def lvlKey (ph : Die) (r l : Nat) : Nat := 3 * (if ph then 6 + r else r) + l

/-- Counts and level of a region. -/
def lvlOf (b : Blk) (ph : Die) (r l : Nat) : Nat × Nat × Bool := b.hk.lvl.get (0, 0, false) (lvlKey ph r l)

/-- The die holds level `l`. -/
def dieHolds (b : Blk) (ph : Die) (l : Nat) : Bool := (regionsOf ph).any fun r => (lvlOf b ph r l).2.2

/-- One round of one level of one region at temperature `t`. -/
def lvlStep (thr t : Int) (x : Nat × Nat × Bool) : Nat × Nat × Bool :=
  let en := if thr ≤ t then min 4 (x.1 + 1) else 0
  let ex := if t < thr - 300 then min 16 (x.2.1 + 1) else 0
  (en, ex, if x.2.2 then decide (ex < 16) else decide (en = 4))

/-- The event of level `l` of a die (R395). -/
def lvlSrc (ph : Die) (l : Nat) : Nat := 896 + (if ph then 3 else 0) + l

/-- The levels of a region after a round, by the thresholds in `b0`; a SHUT that begins leaves its DETAIL. (DEDUCED, log 76). -/
def lvlRound (b0 : Blk) (ph : Die) (r : Nat) (t : Int) (k : Nat) (b : Blk) : Blk :=
  (List.range 3).foldl (fun b l =>
    let x := lvlOf b ph r l
    let y := lvlStep (threshold b0 ph l) t x
    let b := if l = 2 ∧ y.2.2 ∧ dieHolds b ph 2 = false then
        let d := toBits 16 t + k * 65536
        { b with hk := if ph then { b.hk with detP := d } else { b.hk with detC := d } }
      else b
    { b with hk := { b.hk with lvl := b.hk.lvl.set (0, 0, false) (lvlKey ph r l) y } }) b

/-! ### The registers of regions and dies (R396) -/

/-- REGION_T or CREGION_T of a region. -/
def showRegion (ph : Die) (r : Nat) (t : Option (Int × Nat × Bool)) (empty : Bool) (b : Blk) : Blk :=
  let p := fun (x y : Fld) => if ph then x else y
  let b := setFlag (p (Reg.THERM.REGION_T.EMPTY r) (Reg.THERM.CREGION_T.EMPTY r)) empty b
  let sb := !empty && (match t with | some x => x.2.2 | none => true)
  let bits := if ph then Reg.THERM.SUBST.PD else Reg.THERM.SUBST.CTRL
  let m := getF b bits
  let b := setF bits (m - (if natBits m r 1 = 1 then 2 ^ r else 0) + (if sb then 2 ^ r else 0)) b
  let b := setFlag (p (Reg.THERM.REGION_T.SUBST r) (Reg.THERM.CREGION_T.SUBST r)) sb b
  let b := setF (p (Reg.THERM.REGION_T.SENSOR r) (Reg.THERM.CREGION_T.SENSOR r))
    (if empty then 0xFF else match t with | some x => x.2.1 | none => 0xFF) b
  match empty, t with
  | false, some x => setF (p (Reg.THERM.REGION_T.T r) (Reg.THERM.CREGION_T.T r)) (toBits 16 x.1) b
  | _, _ => b

/-- HOT, PEAK and word 13 of the NVM counters (R371, R396) from the regions of a die that is not blind. -/
def showHot (ph : Die) (rs : List (Nat × Int)) (b : Blk) : Blk :=
  match rs.foldl (fun (m : Option (Nat × Int)) x => match m with
    | none => some x
    | some y => if y.2 < x.2 then some x else m) none with
  | none => b
  | some h =>
    let w := toBits 16 h.2
    let pk := if ph then Reg.THERM.PEAK.PD else Reg.THERM.PEAK.CTRL
    let b := if ph then setF Reg.THERM.HOT_PD.REGION h.1 (setF Reg.THERM.HOT_PD.T w b)
      else setF Reg.THERM.HOT_CTRL.REGION h.1 (setF Reg.THERM.HOT_CTRL.T w b)
    let b := if sext 16 (getF b pk) < h.2 then setF pk w b else b
    let n := b.nvm.life.get 0 13
    let lo := natBits n 0 16
    let hi := natBits n 16 16
    let n := if ph then lo + (if sext 16 hi < h.2 then w else hi) * 65536 else (if sext 16 lo < h.2 then w else lo) + hi * 65536
    { b with nvm := { b.nvm with life := b.nvm.life.set 0 13 n } }

/-- The levels of a region take its temperature of the round, where it has one. -/
def lvlTake (b0 : Blk) (ts : List Int) (ph : Die) (b : Blk) (r : Nat) : Blk :=
  match regionTemp b0 ts ph r with
  | some x => lvlRound b0 ph r x.1 x.2.1 b
  | none => b

/-- One die in a round: its regions, levels and registers, with the sources that become due (R387 to R389). The rules read
the block `b0` before the round. -/
def dieRound (b0 : Blk) (ts : List Int) (ph : Die) (s : List Nat × Blk) : List Nat × Blk :=
  let rs := (regionsOf ph).filter fun r => sensorsOf b0 ph r != []
  let blind := rs != [] && rs.all fun r => (ownTemp b0 ts ph r).isNone
  let bf := if ph then Reg.THERM.LEVEL.BLIND_P else Reg.THERM.LEVEL.BLIND_C
  let wasSub := fun (r : Nat) => natBits (getF b0 (if ph then Reg.THERM.SUBST.PD else Reg.THERM.SUBST.CTRL)) r 1 == 1
  let new := (rs.filter fun r => (ownTemp b0 ts ph r).isNone && !wasSub r).map fun _ => 903
  let b := (regionsOf ph).foldl (fun b r => showRegion ph r (regionTemp b0 ts ph r) (decide (r ∉ rs)) b) s.2
  let b := if blind then b else rs.foldl (lvlTake b0 ts ph) b
  let b := if blind then b else showHot ph (rs.filterMap fun r => (regionTemp b0 ts ph r).map fun x => (r, x.1)) b
  let dark := if blind && !flag b0 bf then [904] else []
  let up := ((List.range 3).filter fun l => dieHolds b ph l && !dieHolds b0 ph l).map (lvlSrc ph)
  let b := (List.range 3).foldl (fun b l => setRaw (lvlSrc ph l) (dieHolds b ph l) b) (setFlag bf blind b)
  let top := ((List.range 3).filter fun l => dieHolds b ph l).foldl (fun m l => max m (l + 1)) 0
  (s.1 ++ new ++ dark ++ up, setF (if ph then Reg.THERM.LEVEL.PD else Reg.THERM.LEVEL.CTRL) top b)

/-- THERMAL_LIMIT is requested while either die holds LIMIT or SHUT (R389). -/
def limitRequest (b : Blk) : Blk :=
  let l := dieHolds b false 1 || dieHolds b false 2 || dieHolds b true 1 || dieHolds b true 2
  { setFlag Reg.THERM.LEVEL.LIMIT_REQ l b with sys := { b.sys with limitReq := l } }

/-! ### Supplies (R70, R72, R394, R475) -/

/-- The window of a supply channel, where R394 gives one. -/
def supplyWindow (c : Nat) : Option (Nat × Nat) :=
  if 88 ≤ c ∧ c ≤ 91 then some (776, 824)
  else if 96 ≤ c ∧ c ≤ 97 then some (1746, 1854)
  else if 100 ≤ c ∧ c ≤ 101 then some (873, 927)
  else if 103 ≤ c ∧ c ≤ 104 then some (4365, 4635)
  else if 126 ≤ c ∧ c ≤ 127 then some (1700, 3600)
  else none

/-- One supply channel in a round. (DEDUCED, log 79). -/
def supplyRound (c v : Nat) (s : List Nat × Blk) : List Nat × Blk :=
  let b := setF (Reg.HK.SUP.VALUE (c - 88)) (min 65535 v) s.2
  match supplyWindow c with
  | none => (s.1, b)
  | some w =>
    let x := b.hk.sup.get (0, 0) c
    let inW := decide (w.1 ≤ v ∧ v ≤ w.2)
    let o := if inW then 0 else min 4 (x.1 + 1)
    let i := if inW then min 16 (x.2 + 1) else 0
    let was := flag b (Reg.HK.SUP.OUT (c - 88))
    let now := if was then decide (i < 16) else decide (o = 4)
    (if now && !was then s.1 ++ [905] else s.1,
     setFlag (Reg.HK.SUP.OUT (c - 88)) now { b with hk := { b.hk with sup := b.hk.sup.set (0, 0) c (o, i) } })

/-- HK.STAT after a round. -/
def showSupply (b : Blk) : Blk :=
  let bad := (List.range 40).filter fun i => flag b (Reg.HK.SUP.OUT i)
  setF Reg.HK.STAT.CHAN (match bad with | i :: _ => 88 + i | [] => 0) (setFlag Reg.HK.STAT.SUPPLY_BAD (bad != []) b)

/-- The rail of bank `n` in a round: V_MEAS, RAIL_RANGE (R72) and ILIM_CFG (R70). (DEDUCED, log 78). -/
def railRound (n v : Nat) (s : List Nat × Blk) : List Nat × Blk :=
  let b := setF (Reg.DRV.RAIL_STAT.V_MEAS n) (min 8191 v) s.2
  let k := b.bank n
  let o := if 2500 ≤ v ∧ v ≤ 6000 then 0 else min 4 (k.outN + 1)
  let i := if 2600 ≤ v ∧ v ≤ 5900 then min 16 (k.inN + 1) else 0
  let now := if k.railCond then decide (i < 16) else decide (o = 4)
  let up := k.released && now && !k.railCond
  let b := if k.released then setRaw (drvSrc n 2) now (setBank n { k with outN := o, inN := i, railCond := now } b) else b
  let cfg := (bankElems n).any fun e => decide (5 * rHeater b.live e < 2 * v)
  (s.1 ++ (if up then [drvSrc n 2] else []) ++ (if cfg then [drvSrc n 3] else []), b)

/-- PWR from the readings of a round (R475). How P_CTRL and P_RAIL combine several readings of one supply is not stated:
they are open values. (DESIGN CHOICE, log 77). -/
def showPower (vs : List Nat) (b : Blk) : Blk :=
  let v := fun (c : Nat) => vs.getD (c - 88) 0
  let b := setFlag Reg.PWR.STAT.VTRIM_OK ([103, 104].all fun c => decide (4365 ≤ v c ∧ v c ≤ 4635)) b
  let b := setF Reg.PWR.STAT.BANK_OK ((List.range 18).foldl (fun m n =>
    m + (if 2500 ≤ v (106 + n) ∧ v (106 + n) ≤ 6000 then 2 ^ n else 0)) 0) b
  let f := takeFree b
  let g := takeFree f.2
  setF Reg.PWR.P_RAIL.VHB (g.1.toNat / 65536) (setF Reg.PWR.P_RAIL.VHA g.1.toNat (setF Reg.PWR.P_CTRL.MW f.1.toNat g.2))

/-- The gate of PWR.STAT.GATE (R456, R475): VTRIM_OK, and BANK_OK of every bank with EN = 1. (DEDUCED, log 78). -/
def pwrGate (b : Blk) : Bool :=
  flag b Reg.PWR.STAT.VTRIM_OK && (List.range 18).all fun n =>
    !flag b (Reg.HDR.en n) || natBits (getF b Reg.PWR.STAT.BANK_OK) n 1 == 1

/-! ### The round (R383) -/

/-- HOUSEKEEPING_ROUND: the round that has ended replaces every value together, and its sources are raised (R383).
(DEDUCED, log 79; DEDUCED, log 118). -/
def housekeepingRound (x : HkIn) (b : Blk) : Blk :=
  if b.sys.mode = .reset ∨ b.tick < 1000 * (b.hk.rounds + 1) then b
  else
    let r := readings x b
    let b0 := roundView r.2
    let s := (List.range 88).foldl (fun s k => showSensor b0 r.1 k s) (([], r.2) : List Nat × Blk)
    let s := dieRound b0 r.1 true (dieRound b0 r.1 false s)
    let s := (List.range 40).foldl (fun s i => supplyRound (88 + i) (x.supplies.getD i 0) s) s
    let s := (List.range 18).foldl (fun s n => railRound n (x.supplies.getD (18 + n) 0) s) s
    let b := showPower x.supplies (showSupply (limitRequest s.2))
    let b := (List.range 64).foldl (fun b i => setF (Reg.SNS.RTD_RD.R i) (x.rtds.getD i 0)
      (setF (Reg.SNS.RTD_RD.T i) (toBits 16 (r.1.getD (24 + i) 0)) b)) b
    let b := setF Reg.HK.ROUND.COUNT (getF b Reg.HK.ROUND.COUNT + 1) (roundOver b)
    raiseAll s.1 (resendVmeas b)

/-- HOUSEKEEPING_ROUND. -/
def execHousekeepingRound (x : HkIn) (s : State) : Host.Outcome State Fault Refusal :=
  .next { s with b := housekeepingRound x s.b }

/-! ### Writes of the THERM page -/

/-- THERM.PD_THR0 and PD_THR1 (R393): WARN, LIMIT and SHUT as they would be. -/
def thrErrs (w l s : Nat) : List Nat :=
  if 2000 ≤ sext 16 w ∧ sext 16 w < sext 16 l ∧ sext 16 l < sext 16 s ∧ sext 16 s ≤ 15000 then [] else [1]

/-- THERM.SHUT_CLR (R392). (DEDUCED, log 80). -/
def shutClrErrs (v : Word) (b : Blk) : List Nat :=
  if v.bit 0 then
    (if b.sys.mode = .shutdown then [] else [2])
      ++ (if dieHolds b false 2 ∨ dieHolds b true 2 ∨ flag b Reg.THERM.LEVEL.BLIND_C ∨ flag b Reg.THERM.LEVEL.BLIND_P
            ∨ ([false, true].any fun ph => (regionsOf ph).any fun r => decide (0 < (lvlOf b ph r 2).1)) then [3] else [])
  else []

/-- An accepted SHUT_CLR clears the thermal latches; SHUTDOWN is left at the next boundary where no other source is latched
with class SHUTDOWN (R392, R453). -/
def shutClrDo (v : Word) (b : Blk) : Blk :=
  if v.bit 0 then
    let b := [898, 901].foldl (fun b s => evSet s { evGet b s with latch := false, lcls := 0 } b) b
    { b with sys := { b.sys with shutClr := !latchedClass b [4] } }
  else b

/-- THERM.EXCL0 to EXCL2 (R386): a 1 re-includes an excluded sensor from the next round, its count at 0. -/
def reincludeDo (i : Nat) (v : Word) (b : Blk) : Blk :=
  (List.range 32).foldl (fun b j =>
    let k := if i = 0 then j else 24 + 32 * (i - 1) + j
    if v.bit j ∧ (i ≠ 0 ∨ j < 24) ∧ excludedS b k = true then
      setF (Reg.THERM.SENSOR.BAD k) 0 (setFlag (Reg.THERM.SENSOR.EXCLUDED k) false (holdF (Reg.THERM.SENSOR.EXCLUDED k) b))
    else b) b

end Sys2Proof.Machine
end

