-- ==== Sys2Proof/Machine/Modes.lean ====
section
/-!
DEFINITION. Modes, FREEZE_N, resets, clocks and the boot self-test (R451 to R466, R473, R474, R366, R436).
-/
set_option autoImplicit false

namespace Sys2Proof.Machine

/-! ### Modes (R451 to R456) -/

/-- The working mode that MSTAT.MODE shows (R451). (DEDUCED, log 44). -/
def shownWorking (b : Blk) : Mode :=
  if limitCond b then .thermalLimit else if degradeCond b then .degraded else if transCond b then .transition else .track

/-- The mode of a request code that R453 lets be requested. -/
def requestable (c : Nat) : Option Mode :=
  match c with
  | 2 => some .idle | 3 => some .calibrate | 4 => some .openHold | 5 => some .track | 9 => some .safe | _ => none

/-- A request that is accepted and changes nothing: for the present mode, or for a working mode in one (R455). -/
def sameRequest (b : Blk) (c : Nat) : Bool :=
  (b.sys.mode != .reset && b.sys.mode != .boot && b.sys.mode != .shutdown) &&
    (b.sys.mode.code == c || (b.sys.mode.working && decide (5 ≤ c ∧ c ≤ 8)))

/-- R453 lists a request for mode `m` in the present mode. -/
def listedRequest (b : Blk) (m : Mode) : Bool :=
  match m with
  | .safe => b.sys.mode != .reset && b.sys.mode != .boot && b.sys.mode != .shutdown
  | .idle => b.sys.mode == .calibrate || b.sys.mode == .openHold || b.sys.mode.working || b.sys.mode == .safe
  | .calibrate => b.sys.mode == .idle || b.sys.mode == .openHold
  | .openHold => b.sys.mode == .idle || b.sys.mode == .calibrate || b.sys.mode.working
  | .track => b.sys.mode == .idle || b.sys.mode == .openHold
  | _ => false

/-- The gates of R456 for mode `m`: code 0x17 for tables, 0x02 for supplies. -/
def gateErrs (b : Blk) (m : Mode) : List Nat :=
  (if (m = .openHold ∨ m = .track) ∧ !(b.sys.tblElem && b.sys.tblXt) then [0x17] else [])
    ++ (if (m = .calibrate ∨ m = .openHold ∨ m = .track) ∧ !pwrGate b then [2] else [])

/-- SYS.MODE_REQ (R455). -/
def modeReqErrs (v : Word) (b : Blk) : List Nat :=
  let c := v.bits 0 4
  if sameRequest b c then []
  else
    (if 12 ≤ c then [4] else [])
      ++ (if b.sys.req.isSome ∨ b.sys.shutClr then [3] else [])
      ++ (match requestable c with
        | none => [2]
        | some m =>
          if listedRequest b m then
            (if b.sys.mode = .safe ∧ m = .idle ∧ latchedClass b [3, 4] then [3] else []) ++ gateErrs b m
          else [2])

/-- An accepted MODE_REQ waits for its tick boundary (R454). -/
def modeReqDo (v : Word) (b : Blk) : Blk :=
  if sameRequest b (v.bits 0 4) then b else { b with sys := { b.sys with req := requestable (v.bits 0 4) } }

/-- SYS.RST (R462). -/
def rstErrs (v : Word) (b : Blk) : List Nat :=
  (if b.sys.mode = .shutdown then [2] else []) ++ (if v.toNat = 0xA5C3 then [] else [1])

/-- An accepted SYS.RST waits for its tick boundary (R462). -/
def rstDo (b : Blk) : Blk := { b with sys := { b.sys with softReq := true } }

/-- A requested transition at its boundary (R453, R454): SAFE has the SAFE actions; leaving the working modes withdraws
unlaunched frames. -/
def requestBoundary (b : Blk) : Blk :=
  match b.sys.req with
  | none => b
  | some m =>
    let b := { b with sys := { b.sys with req := none } }
    match m with
    | .safe =>
      let more := safeSources b
      raiseAll more (safeActions b)
    | .track => enterMode (shownWorking b) b
    | _ =>
      let more := if b.sys.mode.working then withdrawn2 b else []
      raiseAll more (enterMode m b)

/-- The exit from SHUTDOWN at its boundary (R453, R454). (DEDUCED, log 80). -/
def shutExit (b : Blk) : Blk :=
  if b.sys.shutClr then
    let b := { b with sys := { b.sys with shutClr := false } }
    if latchedClass b [4] then b else setMode (if latchedClass b [3] then .safe else .idle) b
  else b

/-- The mode changes of a tick boundary (R454): requests, the exit from SHUTDOWN, and the working mode shown.
(DEDUCED, log 44; DEDUCED, log 88). -/
def modeBoundary (b : Blk) : Blk :=
  let b := shutExit (requestBoundary b)
  let b := { b with sys := { b.sys with frozenTick := b.sys.frozenLow } }
  if b.sys.mode.working then setMode (shownWorking b) b else b

/-! ### FREEZE_N (R457 to R460) -/

/-- FREEZE_N_FALL: the filtered level falls (R457, R473). -/
def freezeFall (b : Blk) : Blk :=
  if b.sys.mode = .reset ∨ b.sys.frozenLow then b
  else raise 1127 (incF Reg.SYS.FREEZE.ASSERTS { b with sys := { b.sys with frozenLow := true } })

/-- FREEZE_N_FALL. -/
def execFreezeNFall (s : State) : Host.Outcome State Fault Refusal := .next { s with b := freezeFall s.b }

/-- FREEZE_N_RISE: the filtered level rises; the loops follow from the next boundary (R460). -/
def freezeRise (b : Blk) : Blk := { b with sys := { b.sys with frozenLow := false } }

/-- FREEZE_N_RISE. -/
def execFreezeNRise (s : State) : Host.Outcome State Fault Refusal := .next { s with b := freezeRise s.b }

/-! ### Resets (R461 to R463) -/

/-- A register that a soft reset keeps: the PCIe link, the MSI-X table and its pending bits, and the PLLs' lock bits
(R461, R474). (DEDUCED, log 83). -/
def softKeeps (key : Nat) : Bool :=
  let a := key / 32
  decide (a = 0x1D040 ∨ (0x1D800 ≤ a ∧ a < 0x1DC08) ∨ a = 0x2040)

/-- The pins that a controller reset takes to their reset level: TRIG released, PPS_OUT and ALIVE low (R461, R465).
(DEDUCED, log 82). -/
def resetPins (b : Blk) : Blk :=
  let b := if b.trig.pulse.isSome then send (.pin pinTrig false) b else b
  let b := if b.time.ppsOut then send (.pin pinPps false) b else b
  if flag b Reg.ALIVE.STAT.LEVEL then send (.pin pinAlive false) b else b

/-- A controller reset begins (R461): every register and table at its reset contents; the NVM and the flash stay, the TAP is
reset (R509), and after a soft reset the PCIe link and configuration and the PLLs stay.
(DEDUCED, log 81; DEDUCED, log 83). -/
def controllerReset (cause : Nat) (b : Blk) : Blk :=
  let b := resetPins b
  let z := Blk.reset
  let soft := cause == 4
  let r : Blk := { z with
    regs := if soft then b.regs.filter fun x => softKeeps x.1 else []
    nvm := { NvmSt.reset with mem := b.nvm.mem, wear := b.nvm.wear, wearSaid := b.nvm.wearSaid, keySet := b.nvm.keySet }
    host := { HostSt.reset with busMaster := soft && b.host.busMaster, boundary := b.host.boundary }
    sys := { SysSt.reset with resetPor := b.sys.resetPor, resetPin := b.sys.resetPin, refOk := b.sys.refOk, draws := b.sys.draws
                              softRun := soft }
    flash := b.flash, free := b.free, sent := b.sent }
  setFlag Reg.CLK.STAT.REFCLK_OK b.sys.refOk
    (setF Reg.SYS.RST_CAUSE.CAUSE cause (setF Reg.SYS.RST_CAUSE.FROM_MODE (if cause = 1 then 0 else b.sys.mode.code)
      (setF Reg.SYS.RST_CAUSE.TMODE (if cause = 1 then 0 else getF b Reg.SYS.RST_CAUSE.TMODE) r)))

/-- A reset other than power-on is asserted; under a power-on reset it adds nothing (R461, R463). (DEDUCED, log 81). -/
def assertReset (cause : Nat) (b : Blk) : Blk := if b.sys.resetPor then b else controllerReset cause b

/-- POWER_ON_RESET (R461). -/
def execPowerOnReset (s : State) : Host.Outcome State Fault Refusal :=
  .next { s with b := controllerReset 1 { s.b with sys := { s.b.sys with resetPor := true } } }

/-- POWER_ON_RESET_RELEASE (R499). -/
def execPowerOnResetRelease (s : State) : Host.Outcome State Fault Refusal :=
  .next { s with b := { s.b with sys := { s.b.sys with resetPor := false } } }

/-- RESET_N_ASSERT (R461). -/
def execResetNAssert (s : State) : Host.Outcome State Fault Refusal :=
  .next { s with b := assertReset 2 { s.b with sys := { s.b.sys with resetPin := true } } }

/-- RESET_N_RELEASE (R461). -/
def execResetNRelease (s : State) : Host.Outcome State Fault Refusal :=
  .next { s with b := { s.b with sys := { s.b.sys with resetPin := false } } }

/-- REFCLK_LOSS (R461, R474). -/
def execRefclkLoss (s : State) : Host.Outcome State Fault Refusal :=
  .next { s with b := setFlag Reg.CLK.STAT.REFCLK_OK false (assertReset 3 { s.b with sys := { s.b.sys with refOk := false } }) }

/-- REFCLK_PRESENT (R461, R474). -/
def execRefclkPresent (s : State) : Host.Outcome State Fault Refusal :=
  .next { s with b := setFlag Reg.CLK.STAT.REFCLK_OK true { s.b with sys := { s.b.sys with refOk := true } } }

/-- CORE_PLL_LOCK_LOSS (R461). -/
def execCorePllLockLoss (s : State) : Host.Outcome State Fault Refusal := .next { s with b := assertReset 3 s.b }

/-- The NVM scan of BOOT (R264, R370, R371, R493): with fewer than two sequencer channels in service SEQ_HALT is raised.
(DEDUCED, log 108; DEDUCED, log 114). -/
def bootScan (b : Blk) : Blk :=
  let b := (List.range 2).foldl (fun b p =>
    setF (Reg.ETH.MAC_HI.MAC p) ((Config.macAddress p).toNat / 2 ^ 32) (setF (Reg.ETH.MAC_LO.MAC p) (Config.macAddress p).toNat b))
    (nvmScan b)
  raiseIf (getF b Reg.SEQ.STAT.CONFIG == 2) 993 b

/-- The controller leaves RESET for BOOT (R453, R463, R466): pins are sampled, the clock and the ticks start at 0 (R267,
R270), and a BOOT_ID that is not 0 is drawn (R436). The NVM scan belongs to this step.
(DESIGN CHOICE, log 10; DEDUCED, log 82). -/
def leaveReset (x : StrapIn) (b : Blk) : Blk :=
  let b := { b with sys := { b.sys with tmode := x.tmode, softRun := false, draws := b.sys.draws + 1 } }
  let b := setFlag Reg.SYS.RST_CAUSE.TMODE x.tmode b
  let b := setFlag Reg.SYS.BOOT_STAT.SEL_RES (x.bootsel == 2) (setF Reg.SYS.BOOT_STAT.BOOTSEL x.bootsel.toNat b)
  let b := setFlag Reg.GLEW.ID.MASTER (x.cascId == 0) (setF Reg.GLEW.ID.CASC_ID x.cascId.toNat b)
  bootScan (setMode .boot (setF Reg.ETH.BOOT_ID.ID ((Config.bootId b.sys.draws).toNat % 4294967295 + 1) b))

/-- CORE_PLL_LOCK: with every reset ended, the core PLL locks and RESET passes to BOOT (R461, R474).
(DEDUCED, log 81). -/
def corePllLock (x : StrapIn) (b : Blk) : Blk :=
  if b.sys.mode ≠ .reset ∨ b.sys.resetPor ∨ b.sys.resetPin ∨ b.sys.softRun then b
  else
    let b := { b with sys := { b.sys with refOk := true } }
    leaveReset x (setF Reg.CLK.LOCK_TIME.US x.us.toNat (setFlag Reg.CLK.STAT.CORE_LOCK true
      (setFlag Reg.CLK.STAT.REFCLK_OK true b)))

/-- CORE_PLL_LOCK. -/
def execCorePllLock (x : StrapIn) (s : State) : Host.Outcome State Fault Refusal := .next { s with b := corePllLock x s.b }

/-- SOFT_RESET_END: 250 CLK_TICK periods after a soft reset began (R462). (DEDUCED, log 82). -/
def softResetEnd (x : StrapIn) (b : Blk) : Blk := if b.sys.mode = .reset ∧ b.sys.softRun then leaveReset x b else b

/-- SOFT_RESET_END. -/
def execSoftResetEnd (x : StrapIn) (s : State) : Host.Outcome State Fault Refusal := .next { s with b := softResetEnd x s.b }

/-- The lock bit of a SerDes PLL (R474). -/
def lockBit (k : Serdes) : Fld :=
  match k with
  | .pcie => Reg.CLK.STAT.PCIE_LOCK
  | .eth => Reg.CLK.STAT.ETH_LOCK
  | .glew => Reg.CLK.STAT.GLEW_LOCK

/-- The count of a SerDes PLL's losses of lock (R474). -/
def lossCount (k : Serdes) : Fld :=
  match k with
  | .pcie => Reg.CLK.SER_LOSS.PCIE
  | .eth => Reg.CLK.SER_LOSS.ETH
  | .glew => Reg.CLK.SER_LOSS.GLEW

/-- SERDES_PLL_LOCK (R474). -/
def execSerdesPllLock (k : Serdes) (s : State) : Host.Outcome State Fault Refusal :=
  .next { s with b := if s.b.sys.resetPor ∨ s.b.sys.resetPin then s.b else setFlag (lockBit k) true s.b }

/-- SERDES_PLL_LOCK_LOSS (R474): a PLL that was locked loses lock. -/
def execSerdesPllLockLoss (k : Serdes) (s : State) : Host.Outcome State Fault Refusal :=
  .next { s with b := if flag s.b (lockBit k) then incF (lossCount k) (setFlag (lockBit k) false s.b) else s.b }

/-! ### The boot self-test (R366) -/

/-- Engine `e` at the end of its boot self-test pass. Which segment failed is not said: an open value.
(DESIGN CHOICE, log 32). -/
def bootTest (failed : List (Fin 68)) (e : Nat) (b : Blk) : Blk :=
  if failed.any fun x => x.val == e then
    let f := takeFree b
    failEngine e 3 (setF (Reg.ENG.HEALTH.SEGMENT e) f.1.toNat f.2)
  else incF (Reg.ENG.HEALTH.PASSES e) b

/-- A logical engine whose engine failed goes to the lowest standby that passed; with none, it has no server (R366).
(DEDUCED, log 84). -/
def bootMigrate (l : Nat) (b : Blk) : Blk :=
  match serverOf b l with
  | none => b
  | some e =>
    if failedEng b e then
      match (standbys b).head? with
      | some n => showPool (queueMigration l n b.tick 3 b)
      | none => setF (Fld.mk' (0x20 + e) 0x44 6 1 (if e < 64 then 1 else 0)) 0 b
    else b

/-- BOOT_SELFTEST_DONE: the pass of all 68 engines has ended (R366, R473). (DEDUCED, log 84). -/
def bootSelftest (failed : List (Fin 68)) (b : Blk) : Blk :=
  if b.sys.mode ≠ .boot ∨ b.sys.tested then b
  else
    let b := { b with sys := { b.sys with tested := true } }
    let b := (List.range 68).foldl (fun b e => bootTest failed e b) b
    let b := if failed = [] then b else setFlag Reg.SYS.BOOT_STAT.ENG_FAIL true b
    let b := (List.range 64).foldl (fun b l => bootMigrate l b) b
    showPool (raiseIf (failed != [] && (standbys b).isEmpty) 1128 b)

/-- BOOT_SELFTEST_DONE. -/
def execBootSelftestDone (failed : List (Fin 68)) (s : State) : Host.Outcome State Fault Refusal :=
  .next { s with b := bootSelftest failed s.b }

end Sys2Proof.Machine
end

