-- ==== Sys2Proof/Machine/Page.lean ====
section
/-!
DEFINITION. The page map (R490), the header of every page (R479) and the fields of a register (R476, R477, R485).
-/
set_option autoImplicit false

namespace Sys2Proof.Machine

/-- The blocks of the page map (R490). -/
inductive Pg where
  | sys | clk | pwr | time | ptp | sched | seq | plan | route | fabric | evt | react | fcap | alive | therm | hk | nvm
  | xbar | mon | acq | trig | glew | pcie | eth | eng | drv | sns | lclass | ftest
deriving DecidableEq, Repr

/-- The first page and the number of pages of a block (R480, R490). -/
def Pg.span : Pg → Nat × Nat
  | .sys => (0x00, 1) | .clk => (0x02, 1) | .pwr => (0x03, 1) | .time => (0x04, 1) | .ptp => (0x05, 2)
  | .sched => (0x08, 1) | .seq => (0x09, 1) | .plan => (0x0A, 1) | .route => (0x0B, 1) | .fabric => (0x0C, 1)
  | .evt => (0x10, 1) | .react => (0x11, 1) | .fcap => (0x12, 1) | .alive => (0x13, 1) | .therm => (0x14, 1)
  | .hk => (0x15, 1) | .nvm => (0x16, 1) | .xbar => (0x18, 1) | .mon => (0x19, 1) | .acq => (0x1A, 1)
  | .trig => (0x1B, 1) | .glew => (0x1C, 1) | .pcie => (0x1D, 1) | .eth => (0x1E, 2) | .eng => (0x20, 68)
  | .drv => (0x80, 18) | .sns => (0xA0, 9) | .lclass => (0xC0, 1) | .ftest => (0xF0, 1)

/-- Every block, in the order of the map. -/
def Pg.all : List Pg :=
  [.sys, .clk, .pwr, .time, .ptp, .sched, .seq, .plan, .route, .fabric, .evt, .react, .fcap, .alive, .therm, .hk, .nvm,
   .xbar, .mon, .acq, .trig, .glew, .pcie, .eth, .eng, .drv, .sns, .lclass, .ftest]

/-- The block and the instance of a page; none where the map does not list the page (R476, R490). -/
def pgOf (page : Nat) : Option (Pg × Nat) :=
  (Pg.all.find? fun g => decide (g.span.1 ≤ page ∧ page < g.span.1 + g.span.2)).map fun g => (g, page - g.span.1)

/-- The rows of a block's field table. -/
def Pg.rows : Pg → List RegRow
  | .sys => Reg.SYS.rows | .clk => Reg.CLK.rows | .pwr => Reg.PWR.rows | .time => Reg.TIME.rows | .ptp => Reg.PTP.rows
  | .sched => Reg.SCHED.rows | .seq => Reg.SEQ.rows | .plan => Reg.PLAN.rows | .route => Reg.ROUTE.rows
  | .fabric => Reg.FABRIC.rows | .evt => Reg.EVT.rows | .react => Reg.REACT.rows | .fcap => Reg.FCAP.rows
  | .alive => Reg.ALIVE.rows | .therm => Reg.THERM.rows | .hk => Reg.HK.rows | .nvm => Reg.NVM.rows
  | .xbar => Reg.XBAR.rows | .mon => Reg.MON.rows | .acq => Reg.ACQ.rows | .trig => Reg.TRIG.rows
  | .glew => Reg.GLEW.rows | .pcie => Reg.PCIE.rows | .eth => Reg.ETH.rows | .eng => Reg.ENG.rows
  | .drv => Reg.DRV.rows | .sns => Reg.SNS.rows | .lclass => Reg.LCLASS.rows | .ftest => Reg.FTEST.rows

/-- The source of bit 0 of the page view and EVT_N of a page (R490). -/
def Pg.events (g : Pg) (i : Nat) : Nat × Nat :=
  match g with
  | .time => (928, 8) | .sched => (1024, 6) | .seq => (992, 3) | .evt => (1126, 7) | .therm => (896, 10)
  | .xbar => (960, 5) | .acq => (1120, 6) | .glew => (1088, 9) | .pcie => (1056, 11) | .eth => (1068 + 8 * i, 6)
  | .eng => (8 * i, 8) | .drv => (544 + 16 * i, 16) | .sns => (832 + 7 * i, 7)
  | _ => (0, 0)

/-- COMMIT_N of a page (R490). -/
def Pg.commitN (g : Pg) (i : Nat) : Nat :=
  match g with
  | .plan => 2 | .route => 32 | .fabric => 1 | .lclass => 16
  | .eng => if i = 0 then 1 else 0
  | .sns => if i = 0 then 2 else 1
  | _ => 0

/-- CTRL.EN is writable on the DRV pages only (R481). -/
def Pg.enRw (g : Pg) : Bool := g == .drv

/-- The index of the register at `off` in a row of like registers of instance `inst`, and which word of it `off` is. -/
def RegRow.index (r : RegRow) (inst off : Nat) : Option (Nat × Nat) :=
  if r.off ≤ off ∧ off < r.off + r.count * r.stride ∧ (r.only0 = false ∨ inst = 0) then
    some ((off - r.off) / r.stride, (off - r.off) % r.stride / 4)
  else none

/-- The fields of the block's own register at an aligned offset; none where the field table lists no register there. -/
def Pg.fields (g : Pg) (inst off : Nat) : Option (List FD) :=
  g.rows.findSome? fun r => (r.index inst off).map fun x =>
    ((r.fields inst x.1).filter fun f => f.lsb / 32 == x.2).map fun f => { f with lsb := f.lsb % 32 }

/-- A mask of the bits from `n` up. -/
def maskFrom (n : Nat) : Nat := (2 ^ (32 - n) - 1) * 2 ^ n

/-- The mask of the reserved fields among some. (DEDUCED, log 100; DEDUCED, log 115). -/
def resvMask (fs : List FD) : Nat := fs.foldl (fun n f => if f.resv then n + (2 ^ f.wid - 1) * 2 ^ f.lsb else n) 0

/-- The bits of a register that are reserved: of the header (R479, R485), of the block (R14), and every bit of a register
that neither lists (R477). (DEDUCED, log 100). -/
def Pg.reserved (g : Pg) (inst off : Nat) : Nat :=
  match off with
  | 0x00 => 0
  | 0x04 => maskFrom 14 + 128
  | 0x08 => maskFrom 1
  | 0x0C => maskFrom 4
  | 0x10 | 0x14 | 0x18 | 0x1C => maskFrom (g.events inst).2
  | 0x20 => maskFrom 23
  | 0x24 => maskFrom 16
  | 0x28 => maskFrom (g.commitN inst)
  | 0x2C => 0
  | _ => match g.fields inst off with
    | some fs => resvMask fs
    | none => 0xFFFFFFFF

/-- What the field file holds of a register: its fields that can be read (R16). -/
def storedWord (b : Blk) (page off : Nat) (fs : List FD) : Nat :=
  fs.foldl (fun n f => if f.acc = .wo ∨ f.resv then n else n + b.regs.get f.rst ((page * 4096 + off) * 32 + f.lsb) * 2 ^ f.lsb) 0

/-- A register's fields as a write sets them: RW fields take their bits, W1C bits written 1 clear, every other field stays
(R16). -/
def storeFields (page off : Nat) (v : Word) (fs : List FD) (b : Blk) : Blk :=
  fs.foldl (fun b f =>
    let d : Fld := Fld.mk' page off f.lsb f.wid f.rst
    match f.acc with
    | .rw | .rw1 => setF d (v.bits f.lsb f.wid) b
    | .w1c => setF d (getF b d &&& ((2 ^ f.wid - 1) ^^^ v.bits f.lsb f.wid)) b
    | .ro | .wo => b) b

end Sys2Proof.Machine
end

