-- ==== Sys2Proof/Machine/Check.lean ====
section
/-!
DEFINITION. The registered check of an element and the samples of its frame (R106, R114, R117, R224), with what the probe
channels take of them (R321).
-/
set_option autoImplicit false

namespace Sys2Proof.Machine

/-- Check `j` of the present tick, on the frame that ended before it, and the samples of frame `j` (R106, R114, R117,
R224). An input latch that takes new values at this instant gives them to this check.
(DEDUCED, log 118; DESIGN CHOICE, log 119). -/
def extinctionCheck (e j : Nat) (ca cb : BitVec 14) (b : Blk) : Blk :=
  let t := checkInstant b j
  let g := 8 * b.tick + j
  let x0 := b.elem e
  let byte := sbyteAt x0 t
  let x1 := if g = 0 then x0 else latchStep b e (g - 1) t byte x0
  let c := if g = 0 then (2, none) else checkFrame b e (g - 1) byte x1
  let d := if g = 0 then none else frameD b e (g - 1) byte x1
  let sa := sampleIn b e 0 g ca x1.sns.a
  let sb := sampleIn b e 1 g cb x1.sns.b
  let r := addSums b e j sa.corr sb.corr (addD (if j = 0 then none else d) (addCheck c x1.sns.cur))
  let x2 := { x1 with sns := { x1.sns with a := sa, b := sb, cur := r }, trk := x1.trk.map (Tracker.check t c) }
  acqFrame e j c d
    (unfreeze x0.sns.a.frozen sa.frozen (snsPage e) (unfreeze x0.sns.b.frozen sb.frozen (snsPage e) (setElem e x2 b)))

/-- EXTINCTION_CHECK: the checks of a tick come in order, each once; the clock runs on to the check's instant. -/
def execExtinctionCheck (e : Fin 4608) (j : Fin 8) (rawA rawB : BitVec 14) (s : State) :
    Host.Outcome State Fault Refusal :=
  .next (if (s.b.elem e).sns.cur.chk.length = j.val then
    { s with b := atQ (checkInstant s.b j.val) (extinctionCheck e j rawA rawB) s.b } else s)

end Sys2Proof.Machine
end

