-- ==== Sys2Proof/Machine/Tick.lean ====
section
/-!
DEFINITION. The loop tick boundary (R30): what ends with a tick, what becomes live, and what begins with the next; and the
loop commands that take effect there (R156 to R159).
-/
set_option autoImplicit false

namespace Sys2Proof.Machine

/-! ### What the ended tick leaves -/

/-- Monitor sources that the ended tick makes due: TOPSAT of its first such tick and LIGHT_LOSS (R120, R126). -/
def senseSources (b : Blk) : List Nat :=
  b.listed.flatMap fun e =>
    let x := b.elem e
    (topsatNew x).map fun _ => 832 + 7 * snsPage e + 1

/-- SNS.FIRST takes the inputs that begin TOPSAT (R128). -/
def topsatFirst (b : Blk) : Blk :=
  b.listed.foldl (fun b e => (topsatNew (b.elem e)).foldl (fun b a => snsFirst (snsPage e) (2 * (e % 512) + a) 2 b) b) b

/-- LIGHT_LOSS of elements whose record has LIGHT = 0 after one with LIGHT = 1 (R126). -/
def lightLoss (b : Blk) : List Nat :=
  (b.listed.filter fun e => (b.elem e).sns.lightPrev && !(b.elem e).sns.prev.light).map fun e => 832 + 7 * snsPage e + 3

/-- The tick that began at `q` began inside a peak allowance window (R250). -/
def inPeakWindow (b : Blk) (q : Nat) : Bool := b.sched.windows.any fun w => decide (w.1 ≤ q ∧ q < w.2)

/-- METER_OVER is due for a draw of `p` mW in the tick that began at `q`, once in a millisecond (R250). -/
def meterOver (b : Blk) (q : Nat) (p : Rat) : Bool :=
  !b.sched.overMs &&
    decide (((10 * (if inPeakWindow b q then getF b Reg.SCHED.BUDGET.PEAK else getF b Reg.SCHED.BUDGET.STEADY) : Nat) : Rat) < p)

/-- The bundle counts of every engine in the ended tick, numbered `n`: OCC, and the OCC histogram (R206, R416).
(DEDUCED, log 87). -/
def occBoundary (n : Nat) (b : Blk) : Blk :=
  (List.range 68).foldl (fun b e =>
    let r := engRt b e
    let sampled := serving b e && decide (n % 2 ^ getF b Reg.MON.OCC_CFG.DIV = 0)
      && (flag b Reg.MON.OCC_CFG.ALL || logicalOf b e == getF b Reg.MON.OCC_CFG.LOGICAL)
    let b := if sampled then monOcc r.occSum b else b
    setF (Reg.ENG.OCC.MAX e) r.occMax (setF (Reg.ENG.OCC.MIN e) (if r.occMax < r.occMin then 0 else r.occMin)
      (setEngRt e { r with occMin := 15, occMax := 0, occSum := 0 } b))) b

/-- The EPS histogram takes the ended tick's records of elements in TRACK (R416). (DEDUCED, log 87). -/
def epsBoundary (n : Nat) (b : Blk) : Blk :=
  if n % 2 ^ getF b Reg.MON.EPS_CFG.DIV = 0 then
    (b.listed.filter fun e => (b.elem e).lp.st == .track).foldl (fun b e => monEps (b.elem e).sns.prev.epsMax b) b
  else b

/-- The elements in a state. -/
def countState (b : Blk) (st : LoopState) : Nat := (b.elems.filter fun x => x.2.lp.st == st).length

/-- COUNT0 to COUNT3 (R165). -/
def countBoundary (b : Blk) : Blk :=
  let c := countState b
  setF Reg.LCLASS.COUNT3.TRANSIT (c .transit)
    (setF Reg.LCLASS.COUNT2.PARKED (c .parked + (4608 - b.elems.length)) (setF Reg.LCLASS.COUNT2.HOLD (c .hold)
      (setF Reg.LCLASS.COUNT1.FAULT (c .fault) (setF Reg.LCLASS.COUNT1.DARK (c .dark)
        (setF Reg.LCLASS.COUNT0.FALLBACK (c .fallback) (setF Reg.LCLASS.COUNT0.TRACK (c .track) b))))))

/-! ### What becomes live -/

/-- A pending context half reaches its boundary (R133, R198): a host's half for an element whose loop is closed is
discarded; a host's held heater code in HOLD also sets FF_H. -/
def halfLive (b : Blk) (x : Nat × PendHalf) : Blk :=
  let a := x.1
  let e := (a - 0x310000) / 256
  let b := { b with pend := b.pend.del a }
  if x.2.host ∧ closed b e then reject (0x20 + e % 64) 0xFFF 0x13 .m0 b
  else
    let m := wrH b.live a x.2.val.toNat
    let m := if x.2.host ∧ a = ctxAddr e 2 ∧ (b.elem e).lp.st = .hold then wrH m (ctxAddr e 1 + 2) (rdH m (ctxAddr e 1)) else m
    let goes := fun (w : EccWord) => if w.live = false ∧ w.mem.val = 4 ∧ eccOff w = a / 8 * 8 then { w with live := true } else w
    { b with live := m, xb := { b.xb with single := b.xb.single.map goes, double := b.xb.double.map goes } }

/-- The pending halves whose boundary this is become live (R198, R199). -/
def pendBoundary (b : Blk) : Blk := (b.pend.filter fun x => decide (x.2.tick < b.tick)).foldl halfLive b

/-- The migrations whose boundary this is take effect (R363). -/
def migrateBoundary (b : Blk) : Blk := (b.red.migr.filter fun m => decide (m.tick < b.tick)).foldl (fun b m => migrate m b) b

/-- A written ε_LOCK takes effect at a boundary at which no launched frame awaits completion (R227). -/
def epsLockBoundary (b : Blk) : Blk :=
  if b.epsPend ∧ anyStage b .launched = false then { b with epsLock := getF b Reg.PLAN.EPS.EPS_LOCK, epsPend := false } else b

/-- A PARK in CALIBRATE writes the park codes into the elements' rows of the host code window (R134).
(DEDUCED, log 18). -/
def parkRows (b : Blk) (c : LoopCmd) : Blk :=
  (List.range 4608).foldl (fun b e =>
    if inScope b c e ∧ (b.elem e).lp.st ≠ .transit then
      hostCodeDo (bankOf e) (e % 256) (BitVec.ofNat 32 (parkHtr b.live e + parkTrm b.live e * 65536)) b
    else b) b

/-- The loop command at a boundary: it begins to act, or its tick is over and BUSY clears (R134, R156).
(DEDUCED, log 18; DEDUCED, log 30; DEDUCED, log 89). -/
def cmdBoundary (b : Blk) : Blk :=
  match b.cmd with
  | none => b
  | some c =>
    if c.tick < b.tick then setFlag Reg.LCLASS.CMD_STAT.BUSY false { b with cmd := none }
    else if c.op = 3 ∧ b.sys.mode = .calibrate then parkRows b c
    else b

/-- Which elements' trim outputs carry the dither term as the tick begins (R79, R121). -/
def dithBoundary (b : Blk) : Blk :=
  updElems b.listed (fun e x => { x with sns := { x.sns with dithNow := dithOn b e x } }) b

/-- Trigger conditions of past steps are gone. -/
def purgeOnce (b : Blk) : Blk :=
  { b with trig := { b.trig with once := b.trig.once.filter fun o => decide (250 * b.tick ≤ o.1) } }

/-! ### The boundary -/

/-- The first part of a boundary: everything that concerns the ended tick. The second result is the energy of the tick. -/
def tickClose (t : TickIn) (b : Blk) : Blk × Rat :=
  let n := b.tick
  let m := endModulators b
  let p := meterBanks m.2
  let past := meterOver p.1 (4000 * n) p.2
  let b := topsatFirst p.1
  let top := senseSources b
  let b := updElems b.listed (senseBoundary b) b
  let b := { b with tick := n + 1, edge := 0, dpS := []
                    sched := { b.sched with overMs := b.sched.overMs || past } }
  let b := raiseAll (m.1 ++ top ++ lightLoss b ++ (if past then [1028] else [])) b
  let b := limitEpisodes (t.limiting.map Fin.val) b
  (occBoundary n (epsBoundary n (countBoundary b)), p.2)

/-- What takes effect at a boundary once tables and contexts are live: modes, migrations, loop commands, banks and codes. -/
def tickTurn (b : Blk) : Blk :=
  let b := migrateBoundary (modeBoundary (planLate b))
  let b := epsLockBoundary (cmdBoundary b)
  let b := dithBoundary (driveBoundary b.tick b)
  setF Reg.TIME.TICK32.COUNT b.time.ns b

/-- The boundary while the clock runs. Everything that concerns the ended tick comes first, then what becomes live, modes,
banks and codes, and last what begins with the new tick. (DEDUCED, log 87). -/
def tickBoundary (t : TickIn) (b : Blk) : Blk :=
  let r := tickClose t (acqOuts b.now b)
  let c := tickTurn (pendBoundary (commitBoundary (acqTick b.tick r.1)))
  nvmTick (ratRne r.2).toNat (aliveTick (strobeDue (glewTick (acqBoundary (purgeOnce c)))))

/-- LOOP_TICK: the 250th CLK_TICK edge of the tick (R30, R270). In RESET no clock runs; a soft reset that was accepted begins
here (R462). -/
def loopTick (t : TickIn) (b : Blk) : Blk :=
  if b.sys.mode = .reset then b
  else
    let b := toEdge 250 b
    if b.sys.softReq ∧ b.sys.mode ≠ .shutdown then controllerReset 4 b
    else tickBoundary t { b with sys := { b.sys with softReq := false } }

/-- LOOP_TICK. -/
def execLoopTick (t : TickIn) (s : State) : Host.Outcome State Fault Refusal := .next { s with b := loopTick t s.b }

/-! ### LCLASS.CMD (R156, R158) -/

/-- The target lies in the range of its scope. -/
def targetOk (scope target : Nat) : Bool :=
  match scope with
  | 0 => decide (target < 4608)
  | 1 => decide (target < 18)
  | 2 => decide (target < 16)
  | _ => decide (target = 0)

/-- The cases of R158 and R459 for an element-scope command. -/
def elementErrs (b : Blk) (op e : Nat) : List Nat :=
  let x := b.elem e
  let k := b.bank (bankOf e)
  (if x.lp.st = .transit then [3] else [])
    ++ (if op = 2 then
        (if x.lp.st = .fault ∧ (x.sns.prev.freeze ∨ x.sns.prev.topsat ∨ x.sns.prev.dithLow) then [3] else [])
          ++ (if k.released = false ∨ k.cleared then [2] else []) ++ (if usedIn b e then [] else [1])
          ++ (if b.sys.frozenLow then [3] else [])
      else [])

/-- A write of LCLASS.CMD (R156, R158, R459). -/
def loopCmdErrs (v : Word) (b : Blk) : List Nat :=
  let op := v.bits 16 2
  (if flag b Reg.LCLASS.CMD_STAT.BUSY then [3] else [])
    ++ (if op = 0 ∨ targetOk (v.bits 13 2) (v.bits 0 13) = false then [1] else [])
    ++ (if op = 2 ∧ b.sys.mode.working = false then [2] else [])
    ++ (if (op = 1 ∨ op = 3) ∧ b.sys.mode ∈ [Mode.reset, .boot, .safe, .shutdown, .factoryTest] then [2] else [])
    ++ (if v.bits 13 2 = 0 ∧ v.bits 0 13 < 4608 then elementErrs b op (v.bits 0 13) else [])

/-- An accepted command waits for the next tick with BUSY set (R156). (DEDUCED, log 30). -/
def loopCmdDo (v : Word) (b : Blk) : Blk :=
  setF Reg.LCLASS.CMD_STAT.AFFECTED 0 (setF Reg.LCLASS.CMD_STAT.SKIPPED 0 (setFlag Reg.LCLASS.CMD_STAT.BUSY true
    { b with cmd := some { op := v.bits 16 2, scope := v.bits 13 2, target := v.bits 0 13, tick := b.tick + 1 } }))

/-- LCLASS.FIRST.CLEAR (R165). -/
def lclassFirstDo (v : Word) (b : Blk) : Blk :=
  if v.bit 31 then zeroF [Reg.LCLASS.FIRST.E_CLAMP, Reg.LCLASS.FIRST.E_FAULT, Reg.LCLASS.FIRST.V_CLAMP,
    Reg.LCLASS.FIRST.V_FAULT] b else b

/-- ENGe.DIAG.CLEAR (R206). -/
def diagClearDo (e : Nat) (v : Word) (b : Blk) : Blk :=
  if v.bit 31 then zeroF [Reg.ENG.DIAG.ADDR_ERR e, Reg.ENG.DIAG.ACC_SAT e] b else b

end Sys2Proof.Machine
end

