-- ==== Sys2Proof/Machine/View.lean ====
section
/-!
DEFINITION. What a read of a register returns (R16, R476 to R485): stored fields, and the fields that show another part of
the state.
-/
set_option autoImplicit false

namespace Sys2Proof.Machine

/-- A truth value as bit `i`. -/
def bitAt (p : Bool) (i : Nat) : Nat := if p then 2 ^ i else 0

/-- EVT.CLASS_ACT (R376). -/
def classAct (b : Blk) : Nat :=
  (List.range 5).foldl (fun n c => n + bitAt (latchedClass b [c]) c) 0

/-- Bit g of EVT.PEND: group g has an unmasked latched source (R376). -/
def pendGroups (b : Blk) (lo n : Nat) : Nat :=
  (List.range n).foldl (fun w i => w + bitAt ((List.range 32).any fun j => unmasked b (32 * (lo + i) + j)) i) 0

/-- The counts of the four sources of a word of EVT.CNT. -/
def cntWord (b : Blk) (w : Nat) : Nat :=
  (List.range 4).foldl (fun n i => n + (evGet b (4 * w + i)).count * 256 ^ i) 0

/-- The header's words (R479 to R481). -/
def headerView (b : Blk) (g : Pg) (inst page off : Nat) : Nat :=
  let ev := g.events inst
  match off with
  | 0x00 => g.span.1 * 65536 + inst * 256 + 1
  | 0x04 => bitAt g.enRw 0 + ev.2 * 2 + g.commitN inst * 256
  | 0x08 => if g.enRw then getF b (Reg.HDR.en inst) else 1
  | 0x0C =>
    bitAt (!g.enRw || (b.bank inst).released) 0 + bitAt ((List.range ev.2).any fun i => (evGet b (ev.1 + i)).latch) 1
      + bitAt ((List.range 32).any fun j => flag b (Reg.HDR.pend page j)) 2 + bitAt (getF b (Reg.HDR.errCount page) != 0) 3
  | 0x10 => evBits b ev.1 ev.2 EvRec.raw
  | 0x14 => evBits b ev.1 ev.2 EvRec.latch
  | 0x18 => evBits b ev.1 ev.2 EvRec.mask
  | 0x20 => getF b (Reg.HDR.errCode page) + getF b (Reg.HDR.errOff page) * 256 + getF b (Reg.HDR.errMaster page) * 1048576
  | 0x24 => getF b (Reg.HDR.errCount page)
  | 0x2C => (List.range 32).foldl (fun n j => n + bitAt (flag b (Reg.HDR.pend page j)) j) 0
  | _ => 0

/-- SYS.MSTAT (R473). -/
def mstatView (b : Blk) : Nat :=
  b.sys.mode.code + bitAt (transCond b) 4 + bitAt (degradeCond b) 5 + bitAt (limitCond b) 6 + bitAt b.sys.frozenLow 7
    + bitAt (b.sys.req.isSome || b.sys.shutClr) 8 + getF b Reg.SYS.MSTAT.REQ_DROP * 512
    + bitAt (b.sys.tblElem && b.sys.tblXt) 10 + getF b Reg.SYS.MSTAT.PREV * 4096

/-- FABRIC.TBL_STAT (R63). -/
def tblStatView (b : Blk) : Nat :=
  match badRecs b.shadow with
  | [] => 0
  | e :: t => e + 8192 + (t.length + 1) * 65536 + recCause b.shadow e * 536870912

/-- PLAN.STEP_CHK (R232). -/
def stepChkView (b : Blk) : Nat :=
  match (List.range 64).find? fun k => shapeBad b.shadow k || damaged b (0x248000 + 512 * k) (0x248200 + 512 * k) with
  | some k => k + 64
  | none => 0

/-- LCLASS.CHK (R165). -/
def classChkView (b : Blk) : Nat :=
  let bad := (List.range 16).filter fun c => classBad b c
  match bad with
  | [] => 0
  | c :: _ =>
    c + ((List.range 8).find? fun w => classWordBad (shClass b c) w).getD 0 * 16 + 256
      + bad.foldl (fun n c => n + 2 ^ (16 + c)) 0

/-- LCLASS.ST_RD and ST_RD2 of the selected element (R165, R203). -/
def stRdView (b : Blk) (second : Bool) : Nat :=
  let e := getF b Reg.LCLASS.ST_SEL.E
  let w := rdH b.live (ctxAddr e 12)
  if second then rdH b.live (ctxAddr e 0) + rdH b.live (ctxAddr e 10) * 65536
  else (b.elem e).lp.st.code + w % 8 * 8 + w / 8 % 8 * 256 + rdH b.live (ctxAddr e 5 + 2) * 65536

/-- Registers of a DRV page (R97). (DEDUCED, log 20). -/
def drvView (b : Blk) (n off : Nat) : Option Nat :=
  let k := b.bank n
  let x := (b.elem (256 * n + getF b (Reg.DRV.OUT_SEL.ROW n))).drv
  if off = 0x44 then
    some (bitAt k.released 0 + bitAt k.cleared 1 + bitAt ((bankElems n).any fun e => (b.elem e).drv.seq.any fun q => decide (q.start ≤ b.tick)) 2
      + bitAt ((bankElems n).any fun e => (b.elem e).drv.arm) 3 + getF b (Reg.DRV.STAT.CHATTER n) * 16
      + getF b (Reg.DRV.STAT.ILIM_ROW n) * 4096 + getF b (Reg.DRV.STAT.ILIM_TRM n) * 1048576)
  else if off = 0x60 then some (x.htrLive.toNat + x.trmAt (k.released && k.cleared) b.tick b.edge * 65536)
  else if off = 0x64 then some (min 65535 x.pOut + bitAt x.span 16)
  else if off = 0x68 then some (min 127 x.transLast)
  else if 0x800 ≤ off ∧ off < 0xC00 then
    let y := (b.elem (256 * n + (off - 0x800) / 4)).drv
    some (y.htrSh.toNat + y.trmSh.toNat * 65536)
  else if 0xC00 ≤ off ∧ off < 0xC20 then
    some ((List.range 32).foldl (fun w j => w + bitAt (b.elem (256 * n + 8 * (off - 0xC00) + j)).drv.arm j) 0)
  else none

/-- Registers of an SNS page (R128). (DEDUCED, log 21). -/
def snsView (b : Blk) (n off : Nat) : Option Nat :=
  if off = 0x58 then
    let es := (List.range 512).map fun r => b.elem (512 * n + r)
    some (getF b (Reg.SNS.STAT.FROZEN n)
      + (es.foldl (fun c x => c + (if x.sns.a.topsat then 1 else 0) + (if x.sns.b.topsat then 1 else 0)) 0) * 2048)
  else if off = 0x64 then
    let g := 1024 * n + getF b (Reg.SNS.RAW_SEL.INPUT n)
    let s := (b.elem (g / 2)).sns
    let i := if g % 2 = 0 then s.a else s.b
    some (i.raw + i.rng * 16384)
  else none

/-- ENG0.PROG_CHK's cause and bundle: an image that passes but holds a damaged word fails with cause 8 (R194, R206, R412).
(DEDUCED, log 132). -/
def progShown (b : Blk) : Nat × Nat :=
  let r := progCheck b.shadow
  if r.1 = 0 ∧ damaged b 0x300000 0x304210 = true then (8, 0) else r

/-- Registers of an ENG page (R206, R381). -/
def engView (b : Blk) (e off : Nat) : Option Nat :=
  if off = 0x40 then some (e + bitAt (decide (64 ≤ e)) 7)
  else if off = 0x44 then some (logicalOf b e + bitAt (serving b e) 6)
  else if off = 0x64 ∧ e = 0 then
    let r := progShown b
    some (r.2 + r.1 * 1024 + bitAt (r.1 != 0) 14)
  else if off = 0x68 ∧ e = 0 then some (if isRom b.shadow then romCrc else progCrc b.shadow)
  else none

/-- Registers of the GLEW page (R319). -/
def glewView (b : Blk) (off : Nat) : Option Nat :=
  let near := fun (k : Nat) => (b.glew.mems.get MemberSt.reset k).seen.any fun t => decide (b.q ≤ t + 16000)
  let ks := (List.range (chainN b)).map fun i => i + 1
  if off = 0x44 then
    some (ownId b + bitAt (!isMember b) 3 + bitAt (isMember b && getF b Reg.FABRIC.CFG.ROLE == 0) 4)
  else if off = 0x58 then
    some (ks.foldl (fun n k => n + bitAt (memberReady b k) k + bitAt (near k) (8 + k)) 0)
  else if off = 0x5C then
    some (match ks.find? fun k => !memberReady b k with
      | some k => k + (b.glew.mems.get MemberSt.reset k).bits % 2048 * 256
      | none => 0)
  else if off = 0x6C then
    some (match b.glew.mevt with
      | e :: _ => e.1 + 2048 * e.2.1 + 16384 * e.2.2 + 2147483648
      | [] => 0)
  else none

/-- Registers that show state kept outside the field file. -/
def pageView (b : Blk) (g : Pg) (inst off : Nat) : Option Nat :=
  match g with
  | .sys => if off = 0x44 then some (mstatView b) else none
  | .pwr => none
  | .time => if off = 0x5C then some (b.time.ns % 2 ^ 32) else if off = 0x90 then some (holdSeconds b % 2 ^ 32) else none
  | .fabric =>
    if off = 0x44 then some (tblStatView b)
    else if off = 0x4C then
      let l := (b.elem (getF b Reg.FABRIC.STATE_SEL.E)).lp
      some (l.sbyte.toNat + l.next.toNat * 256)
    else none
  | .plan => if off = 0x70 then some (stepChkView b) else none
  | .evt =>
    if off = 0x44 then some (pendGroups b 0 32)
    else if off = 0x48 then some (pendGroups b 32 4)
    else if off = 0x4C then some (classAct b)
    else if 0x100 ≤ off ∧ off < 0x190 then some (evBits b (8 * (off - 0x100)) 32 EvRec.latch)
    else if 0x200 ≤ off ∧ off < 0x290 then some (evBits b (8 * (off - 0x200)) 32 EvRec.mask)
    else if 0x300 ≤ off ∧ off < 0x390 then some (evBits b (8 * (off - 0x300)) 32 EvRec.raw)
    else if 0x400 ≤ off ∧ off < 0x880 then some (cntWord b ((off - 0x400) / 4))
    else none
  | .react => if 0x400 ≤ off ∧ off < 0x880 then some (reactWord b ((off - 0x400) / 4)) else none
  | .alive =>
    if off = 0x48 then
      some (getF b Reg.ALIVE.STAT.LEVEL + bitAt (aliveOk b) 1 + bitAt (stopEvt b) 2 + bitAt (stopMode b) 3
        + bitAt (stopWd b) 4)
    else none
  | .nvm => if 0x800 ≤ off then some (nvmWindow b ((off - 0x800) / 4)) else none
  | .glew => glewView b off
  | .pcie => none
  | .eth => if inst = 1 ∧ off = 0x54 then some (getF b Reg.ETH.BOOT_ID.ID)
    else if inst = 1 ∧ off = 0x58 then some (getF b Reg.ETH.WIN_HIGH.H) else none
  | .eng => engView b inst off
  | .drv => drvView b inst off
  | .sns => snsView b inst off
  | .lclass =>
    if off = 0x4C then some (stRdView b false)
    else if off = 0x50 then some (stRdView b true)
    else if off = 0x68 then some (classChkView b)
    else if 0x300 ≤ off ∧ off < 0x500 then some (classW b ((off - 0x300) / 32) ((off - 0x300) / 4 % 8))
    else none
  | _ => none

/-- Bits that a page adds to its stored word. -/
def pageBits (b : Blk) (g : Pg) (off : Nat) : Nat :=
  match g with
  | .pwr => if off = 0x40 then bitAt (pwrGate b) 19 else 0
  | .sched => if off = 0x4C then bitAt b.sys.frozenLow 8 else if off = 0x50 then mwOf (sBefore b 0) else 0
  | .plan => if off = 0x6C then
      bitAt (!flag b Reg.PLAN.XT_STAT.CRC_BUSY && b.xtCrc == getF b Reg.PLAN.XT_CRC.CRC) 1 else 0
  | .therm =>
    let ex := fun (lo n : Nat) => (List.range n).foldl (fun w i => w + bitAt (excludedS b (lo + i)) i) 0
    if off = 0x58 then ex 0 24 else if off = 0x5C then ex 24 32 else if off = 0x60 then ex 56 32 else 0
  | .pcie => if off = 0x78 then b.sched.recs.length else 0
  | _ => 0

/-- The word that a read of BAR0 offset `a` returns; none where the page map lists no such page (R476, R477, R479).
(DEDUCED, log 102). -/
def readReg (b : Blk) (a : Nat) : Option Nat :=
  let page := a / 4096
  let off := a % 4096 / 4 * 4
  (pgOf page).map fun x =>
    if off < 0x40 then headerView b x.1 x.2 page off
    else match pageView b x.1 x.2 off with
      | some w => w
      | none => match x.1.fields x.2 off with
        | some fs => storedWord b page off fs + pageBits b x.1 off
        | none => 0

end Sys2Proof.Machine
end

