-- ==== Sys2Proof/Machine/Board.lean ====
section
/-!
DEFINITION. Board management and board test: the I2C target (R444, R445) and the TAP (R446, R509, R522).
-/
set_option autoImplicit false

namespace Sys2Proof.Machine

/-! ### I2C (R444, R445) -/

/-- The bytes of the status map at pointer `p`, from the field of `n` bytes that begins at `at_` with value `v`. -/
def mapField (p at_ n v : Nat) : Nat := if at_ ≤ p ∧ p < at_ + n then v / 256 ^ (p - at_) % 256 else 0

/-- Byte `p` of the status map (R445). (DEDUCED, log 97). -/
def i2cByte (b : Blk) (p : Nat) : Byte :=
  let r := fun (a : Nat) => (readReg b a).getD 0
  let sup := fun (c : Nat) => getF b (Reg.HK.SUP.VALUE (c - 88))
  let serial := (List.range 8).foldl (fun n i => n + (Config.identByte i).toNat * 256 ^ i) 0
  let fields : List (Nat × Nat × Nat) :=
    [(0x00, 2, 0x4608), (0x02, 1, Config.siliconRev.val), (0x03, 1, getF b Reg.GLEW.ID.CASC_ID), (0x04, 1, b.sys.mode.code),
     (0x05, 1, r 0x13048 % 32), (0x06, 1, classAct b), (0x07, 1, r 0x1404C % 128), (0x08, 2, getF b Reg.THERM.HOT_CTRL.T),
     (0x0A, 2, getF b Reg.THERM.HOT_PD.T), (0x0C, 2, getF b Reg.THERM.PEAK.CTRL), (0x0E, 2, getF b Reg.THERM.PEAK.PD),
     (0x10, 1, r 0x15044 % 256), (0x11, 1, r 0x9040 % 32),
     (0x12, 2, min 65535 (ratRne ((getF b Reg.SCHED.METER.P_MS : Rat) / 10)).toNat), (0x14, 4, getF b Reg.HK.ROUND.COUNT),
     (0x18, 8, serial), (0x20, 2, sup 88), (0x22, 2, sup 96), (0x24, 2, sup 100), (0x26, 2, sup 103), (0x28, 2, sup 126),
     (0x2A, 2, sup 124), (0x2C, 2, sup 125)]
  BitVec.ofNat 8 (fields.foldl (fun n f => n + mapField p f.1 f.2.1 f.2.2) 0)

/-- I2C_WRITE: the first data byte sets the byte pointer, the others are ignored (R444). (DEDUCED, log 97). -/
def i2cWrite (bs : List Byte) (b : Blk) : Blk :=
  match bs with
  | [] => b
  | x :: _ => if b.sys.resetPin then b else { b with host := { b.host with i2cPtr := x.toNat % 64 } }

/-- I2C_WRITE. -/
def execI2cWrite (bytes : List Byte) (s : State) : Host.Outcome State Fault Refusal := .next { s with b := i2cWrite bytes s.b }

/-- I2C_READ: `n` bytes of the map as it stands now, from the pointer on, which wraps (R444, R445).
(DEDUCED, log 97). -/
def i2cRead (n : Nat) (b : Blk) : Blk :=
  if b.sys.resetPin then b
  else
    send (.i2c ((List.range n).map fun i => i2cByte b ((b.host.i2cPtr + i) % 64)))
      { b with host := { b.host with i2cPtr := (b.host.i2cPtr + n) % 64 } }

/-- I2C_READ. -/
def execI2cRead (n : Nat) (s : State) : Host.Outcome State Fault Refusal := .next { s with b := i2cRead n s.b }

/-- I2C_TIMEOUT (R444, R448). -/
def execI2cTimeout (s : State) : Host.Outcome State Fault Refusal :=
  .next { s with b := if s.b.sys.resetPin then s.b else raise 1065 s.b }

/-! ### The TAP (R446, R509, R522) -/

/-- The covered pins follow the boundary register under EXTEST, HIGHZ and CLAMP.
(DEDUCED, log 98; DESIGN CHOICE, log 117). -/
def tapDrives (ir : Nat) : Bool := ir == 0 || ir == 8 || ir == 9

/-- An instruction is selected: JTAG_EXTEST is raised as the pins begin to follow the boundary register, and its raw bit
stands while they do (R446, R448). What the TAP shows is `v`. (DEDUCED, log 98). -/
def selectIr (ir v : Nat) (b : Blk) : Blk :=
  let was := tapDrives b.host.tapIr
  let b := setRaw 1066 (tapDrives ir) (send (.tap ir v) { b with host := { b.host with tapIr := ir } })
  raiseIf (tapDrives ir && !was) 1066 b

/-- The identification code (R446). -/
def idcodeWord : Nat := 0x04608B4B + 0x10000000 * Config.siliconRev.val

/-- EXTEST: the covered pins follow the boundary register. (DEDUCED, log 98). -/
def execExtest (s : State) : Host.Outcome State Fault Refusal :=
  .next { s with b := selectIr 0 s.b.host.boundary.toNat s.b }

/-- IDCODE: the identification register is selected. -/
def execIdcode (s : State) : Host.Outcome State Fault Refusal := .next { s with b := selectIr 1 idcodeWord s.b }

/-- SAMPLE_PRELOAD: the pins are sampled, and the boundary register is loaded. -/
def execSamplePreload (pins load : BitVec 35) (s : State) : Host.Outcome State Fault Refusal :=
  let b := selectIr 2 pins.toNat s.b
  .next { s with b := { b with host := { b.host with boundary := load } } }

/-- HIGHZ: the covered pins are released. -/
def execHighz (s : State) : Host.Outcome State Fault Refusal := .next { s with b := selectIr 8 0 s.b }

/-- JTAG_CLAMP: the covered pins are held from the boundary register, with the bypass register selected. -/
def execJtagClamp (s : State) : Host.Outcome State Fault Refusal :=
  .next { s with b := selectIr 9 s.b.host.boundary.toNat s.b }

/-- BYPASS. -/
def execBypass (s : State) : Host.Outcome State Fault Refusal := .next { s with b := selectIr 0x3F 0 s.b }

/-- TAP_RESET: IDCODE is selected (R446, R509). -/
def execTapReset (s : State) : Host.Outcome State Fault Refusal := .next { s with b := selectIr 1 idcodeWord s.b }

end Sys2Proof.Machine
end

