-- ==== Sys2Proof/Machine/Pcie.lean ====
section
/-!
DEFINITION. The PCIe function and the boot flash behind it: rings, the acquisition stream, resets of the function, and QSPI
operations (R420 to R431, R442, R443, R448, R449).
-/
set_option autoImplicit false

namespace Sys2Proof.Machine

/-! ### The rings (R424 to R429) -/

/-- Ring counts run modulo twice the number of entries (R424, R429). (DEDUCED, log 92). -/
def ringMod (b : Blk) (log : Fld) : Nat := 2 ^ (getF b log + 1)

/-- The link is up (R449). -/
def linkUp (b : Blk) : Bool := getF b Reg.PCIE.LINK.SPEED != 0

/-- A DMA engine with this enable may run: bus mastering is on and the function is in D0 (R425, R429 to R431). -/
def dmaOn (b : Blk) (en : Fld) : Bool := flag b en && b.host.busMaster && !b.host.d3 && b.sys.mode != .reset

/-- A host address from its two registers. -/
def hostAddr (b : Blk) (lo hi : Fld) : Nat := getF b lo + getF b hi * 2 ^ 32

/-- Entries wait in the command ring and the engine may take one (R425, R426). -/
def cmdWaits (b : Blk) : Bool :=
  dmaOn b Reg.PCIE.CMD_CFG.EN && !flag b Reg.PCIE.CMD_HEAD.STOPPED
    && getF b Reg.PCIE.CMD_HEAD.HEAD != getF b Reg.PCIE.CMD_TAIL.TAIL

/-- The command ring stops at the entry at HEAD, and vector 23 is signalled (R423, R426, R449). (DESIGN CHOICE, log 137). -/
def cmdStop (cause : Nat) (b : Blk) : Blk :=
  raise 1059 (signalMsix 23 (setFlag Reg.PCIE.DMA_ERR.VALID true (setF Reg.PCIE.DMA_ERR.CAUSE cause (setF Reg.PCIE.DMA_ERR.ENGINE 0
    (setFlag Reg.PCIE.CMD_HEAD.STOPPED true b)))))

/-- HEAD advances, and vector 23 is signalled (R423, R425). (DESIGN CHOICE, log 137). -/
def cmdAdvance (b : Blk) : Blk :=
  signalMsix 23 (setF Reg.PCIE.CMD_HEAD.HEAD ((getF b Reg.PCIE.CMD_HEAD.HEAD + 1) % ringMod b Reg.PCIE.CMD_CFG.LOG2SIZE) b)

/-- The bytes of the payload that a descriptor's KIND, COUNT and FABRIC.CFG.SIZE give (R234). (DEDUCED, log 91). -/
def payloadBytes (b : Blk) (ws : List Word) : Nat :=
  match (ws.headD 0).bits 0 2 with
  | 1 => 2 * portsOf (getF b Reg.FABRIC.CFG.SIZE)
  | 3 => 4 * countOf ws
  | _ => 0

/-- A frame whose length is wrong is not evaluated further (R427). (DEDUCED, log 91). -/
def wrongLength (ws : List Word) (b : Blk) : Blk :=
  raise 1024 (postRecord true none 0 (recordWords b (1 + 1 * 256) (ws.getD 1 0) 0 0 0 b.time.ns 0)
    (incF Reg.SCHED.CNT_REJ.COUNT b))

/-- An entry breaks R424 or R426: a reserved bit, LEN, or the frame's address. (DEDUCED, log 91). -/
def entryFault (x : RingEntry) : Bool :=
  let w := fun (i : Nat) => x.entry.getD i 0
  (w 0).bits 18 14 != 0 || w 1 != 0 || decide ((w 0).bits 0 18 < 32 ∨ 147488 < (w 0).bits 0 18) || (w 2).bits 0 2 != 0

/-- The code with which a DMA read fails (R426, R449): 1 Unsupported Request, 2 Completer Abort, 3 no answer in time, 4
poisoned data. -/
def dmaCause (e : Fin 5) : Nat := e.val

/-- CMD_ENTRY_FETCH: the engine reads an entry and its frame (R425 to R427). -/
def cmdFetch (x : RingEntry) (b : Blk) : Blk :=
  if cmdWaits b ∧ 2 ≤ cplFree b then
    if x.err ≠ 0 then cmdStop (dmaCause x.err) b
    else if entryFault x then cmdStop 5 b
    else
      let b := cmdAdvance b
      if descReserved x.frame = false ∧ (x.entry.headD 0).bits 0 18 ≠ 32 + payloadBytes b x.frame then wrongLength x.frame b
      else
        { b with sched := { b.sched with
            arrivals := b.sched.arrivals ++ [{ stamp := b.time.ns, peer := none, msg := 0, words := x.frame }] } }
  else b

/-- CMD_ENTRY_FETCH. -/
def execCmdEntryFetch (x : RingEntry) (s : State) : Host.Outcome State Fault Refusal := .next { s with b := cmdFetch x s.b }

/-- COMPLETION_TIMEOUT: a DMA read of the command engine is not answered in time (R426). -/
def cmdTimeout (b : Blk) : Blk := if cmdWaits b then cmdStop 3 b else b

/-- COMPLETION_TIMEOUT. -/
def execCompletionTimeout (s : State) : Host.Outcome State Fault Refusal := .next { s with b := cmdTimeout s.b }

/-- The spacing of vector 24 (R429). -/
def cplGap (b : Blk) : Nat := getF b Reg.PCIE.CPL_CFG.MOD * 4000

/-- Vector 24 is signalled, or falls due at the end of its spacing (R429). (DESIGN CHOICE, log 54). -/
def cplSignal (b : Blk) : Blk :=
  if b.host.cplSig.all fun t => decide (t + cplGap b ≤ b.q) then
    signalMsix 24 { b with host := { b.host with cplSig := some b.q, cplDue := false } }
  else { b with host := { b.host with cplDue := true } }

/-- COMPLETION_RECORD_WRITE: the oldest queued record is written to the completion ring, then the count is mirrored and
vector 24 signalled (R429). -/
def cplWrite (b : Blk) : Blk :=
  let m := ringMod b Reg.PCIE.CPL_CFG.LOG2SIZE
  let wp := getF b Reg.PCIE.CPL_WP.WP
  match b.sched.recs with
  | [] => b
  | r :: rs =>
    if dmaOn b Reg.PCIE.CPL_CFG.EN ∧ (wp + m - getF b Reg.PCIE.CPL_RP.RP) % m ≠ m / 2 then
      let base := hostAddr b Reg.PCIE.CPL_BASE_LO.W Reg.PCIE.CPL_BASE_HI.W
      let mir := hostAddr b Reg.PCIE.CPL_MIRROR_LO.W Reg.PCIE.CPL_MIRROR_HI.W
      let b := send (.dma (base + 32 * (wp % (m / 2))) r) { b with sched := { b.sched with recs := rs } }
      let b := setF Reg.PCIE.CPL_WP.WP ((wp + 1) % m) b
      let b := if mir = 0 then b else send (.dma mir [BitVec.ofNat 32 ((wp + 1) % m)]) b
      cplSignal b
    else b

/-- COMPLETION_RECORD_WRITE. -/
def execCompletionRecordWrite (s : State) : Host.Outcome State Fault Refusal := .next { s with b := cplWrite s.b }

/-- CPL_SIGNAL_HOLDOFF_END: the spacing ends and a due signal of vector 24 is sent (R429). -/
def cplHoldoff (b : Blk) : Blk :=
  if b.host.cplDue then
    atQ (b.host.cplSig.getD 0 + cplGap b) (fun b =>
      signalMsix 24 { b with host := { b.host with cplSig := some b.q, cplDue := false } }) b
  else b

/-- CPL_SIGNAL_HOLDOFF_END. -/
def execCplSignalHoldoffEnd (s : State) : Host.Outcome State Fault Refusal := .next { s with b := cplHoldoff s.b }

/-! ### The acquisition stream (R430) -/

/-- The size of the host ring of the acquisition stream, in bytes. -/
def acqRing (b : Blk) : Nat := 2 ^ (16 + getF b Reg.PCIE.ACQ_CFG.LOG2SIZE)

/-- ACQ_STREAM_COPY: the oldest record of the buffer is written to the host ring where 32 bytes are free there. Where an
uncorrectable link error keeps the write from being issued the record stays and ACQ_DMA_ERR is raised; the cause that
DMA_ERR then shows has no code in R449. (DEDUCED, log 93). -/
def acqCopy (ok : Bool) (b : Blk) : Blk :=
  let s := acqRing b
  let wp := getF b Reg.PCIE.ACQ_WP.WP
  if dmaOn b Reg.PCIE.ACQ_CFG.EN ∧ flag b Reg.ACQ.CFG.DRAIN ∧ 0 < acqUsed b
      ∧ (wp + 2 * s - getF b Reg.PCIE.ACQ_RP.RP % (2 * s)) % (2 * s) + 32 ≤ s then
    if ok then
      let rp := getF b Reg.ACQ.RP.RP
      let at_ := 0x1000000 + 32 * (rp % 131072)
      let b := eccData (fun w => decide (w.mem.val = 5 ∧ at_ ≤ eccOff w ∧ eccOff w < at_ + 32)) b
      let ws := (List.range 8).map fun i => BitVec.ofNat 32 (rdW b.live (0x1000000 + 32 * (rp % 131072) + 4 * i))
      let b := send (.dma (hostAddr b Reg.PCIE.ACQ_BASE_LO.W Reg.PCIE.ACQ_BASE_HI.W + wp % s) ws) b
      let b := setF Reg.PCIE.ACQ_WP.WP ((wp + 32) % (2 * s)) (setF Reg.ACQ.RP.RP ((rp + 1) % 262144) b)
      if getF b Reg.PCIE.ACQ_CFG.THRESH ≤ b.host.acqSig + 1 then
        signalMsix 25 { b with host := { b.host with acqSig := 0 } }
      else { b with host := { b.host with acqSig := b.host.acqSig + 1 } }
    else
      let f := takeFree b
      raise 1061 (setFlag Reg.PCIE.DMA_ERR.VALID true (setF Reg.PCIE.DMA_ERR.CAUSE f.1.toNat
        (setF Reg.PCIE.DMA_ERR.ENGINE 2 f.2)))
  else b

/-- ACQ_STREAM_COPY. -/
def execAcqStreamCopy (ok : Bool) (s : State) : Host.Outcome State Fault Refusal := .next { s with b := acqCopy ok s.b }

/-! ### The link and resets of the function (R420, R431, R448, R536) -/

/-- The link can train: no reset that takes the endpoint down is asserted, and REFCLK is there (R536). -/
def canTrain (b : Blk) : Bool := !b.sys.resetPor && !b.sys.resetPin && b.sys.refOk

/-- PCIE_LINK_UP: training completes (R449, R448). -/
def pcieUp (speed width : Nat) (b : Blk) : Blk :=
  if canTrain b then
    raiseIf (decide (speed < 4 ∨ width < 4)) 1057 (setF Reg.PCIE.LINK.WIDTH width (setF Reg.PCIE.LINK.SPEED speed b))
  else b

/-- PCIE_LINK_UP. -/
def execPcieLinkUp (speed width : BitVec 3) (s : State) : Host.Outcome State Fault Refusal :=
  .next { s with b := pcieUp speed.toNat width.toNat s.b }

/-- The ring registers of the PCIE page (R431, R449). (PRESUMED, log 94). -/
def ringFields : List Fld :=
  [Reg.PCIE.CMD_BASE_LO.W, Reg.PCIE.CMD_BASE_HI.W, Reg.PCIE.CMD_CFG.EN, Reg.PCIE.CMD_CFG.LOG2SIZE, Reg.PCIE.CMD_TAIL.TAIL,
   Reg.PCIE.CMD_HEAD.HEAD, Reg.PCIE.CMD_HEAD.STOPPED, Reg.PCIE.CPL_BASE_LO.W, Reg.PCIE.CPL_BASE_HI.W, Reg.PCIE.CPL_CFG.EN,
   Reg.PCIE.CPL_CFG.LOG2SIZE, Reg.PCIE.CPL_CFG.MOD, Reg.PCIE.CPL_WP.WP, Reg.PCIE.CPL_RP.RP, Reg.PCIE.CPL_MIRROR_LO.W,
   Reg.PCIE.CPL_MIRROR_HI.W, Reg.PCIE.ACQ_BASE_LO.W, Reg.PCIE.ACQ_BASE_HI.W, Reg.PCIE.ACQ_CFG.EN,
   Reg.PCIE.ACQ_CFG.LOG2SIZE, Reg.PCIE.ACQ_CFG.THRESH, Reg.PCIE.ACQ_WP.WP, Reg.PCIE.ACQ_RP.RP]

/-- The function is reset: M0 is reset, the DMA engines stop and the ring registers return to their reset values (R431).
(PRESUMED, log 94). -/
def functionReset (x : MstReset) (b : Blk) : Blk :=
  masterReset 0 x (ringFields.foldl (fun b f => setF f f.rst b)
    { b with host := { b.host with busMaster := false, d3 := false, mps := 0, mrrs := 2, cmdOff := false, cplSig := none
                                   cplDue := false, acqSig := 0 } })

/-- PCIE_LINK_DOWN (R431, R448). (PRESUMED, log 94). -/
def pcieDown (x : MstReset) (b : Blk) : Blk :=
  if linkUp b then
    raise 1056 (functionReset x (setF Reg.PCIE.LINK.WIDTH 0 (setF Reg.PCIE.LINK.SPEED 0 b)))
  else b

/-- PCIE_LINK_DOWN. -/
def execPcieLinkDown (x : MstReset) (s : State) : Host.Outcome State Fault Refusal := .next { s with b := pcieDown x s.b }

/-- A hot reset or a function-level reset (R431, R448). -/
def pcieReset (x : MstReset) (b : Blk) : Blk := if linkUp b then raise 1058 (functionReset x b) else b

/-- PCIE_HOT_RESET. -/
def execPcieHotReset (x : MstReset) (s : State) : Host.Outcome State Fault Refusal := .next { s with b := pcieReset x s.b }

/-- FUNCTION_LEVEL_RESET. -/
def execFunctionLevelReset (x : MstReset) (s : State) : Host.Outcome State Fault Refusal :=
  .next { s with b := pcieReset x s.b }

/-- What a write of word `x` to a register of configuration space leaves: the power state, D0 or D3hot, or the transfer sizes, of
which one above what is supported reads back as the largest that is; a byte whose strobe is off is not written (R420, R431).
(PRESUMED, log 136). -/
def configSet (r : FnReg) (x : WrWord) (h : HostSt) : HostSt :=
  match r with
  | .pmControl =>
    if x.be.getLsbD 0 = false then h
    else if x.v.bits 0 2 = 0 then { h with d3 := false } else if x.v.bits 0 2 = 3 then { h with d3 := true } else h
  | .deviceControl =>
    { h with mps := if x.be.getLsbD 0 then min 1 (x.v.bits 5 3) else h.mps
             mrrs := if x.be.getLsbD 1 then min 2 (x.v.bits 12 3) else h.mrrs }

/-- A configuration write takes effect over a link that is up (R420, R431). (PRESUMED, log 136). -/
def configWrite (r : FnReg) (ws : List WrWord) (b : Blk) : Blk :=
  if linkUp b then { b with host := ws.foldl (fun h x => configSet r x h) b.host } else b

/-- A write of Bus Master Enable, over a link that is up (R431). (PRESUMED, log 136). -/
def busMasterWrite (on : Bool) (b : Blk) : Blk := if linkUp b then { b with host := { b.host with busMaster := on } } else b

/-- BUS_MASTER_DISABLE: the engines stall (R431). -/
def execBusMasterDisable (s : State) : Host.Outcome State Fault Refusal := .next { s with b := busMasterWrite false s.b }

/-- BUS_MASTER_ENABLE: the engines go on where they stopped, unless the function is in D3hot (R431). -/
def execBusMasterEnable (s : State) : Host.Outcome State Fault Refusal := .next { s with b := busMasterWrite true s.b }

/-- A field of the function's configuration space that a read returns (R420): which field, not at what offset, which the spec leaves to
the PCIe standard. -/
inductive FnField where
  | vendor | device | classCode | interruptPin | maxPayload | maxReadRequest | powerState | busMaster | msixVectors
  | bar0Size | bar2Size | serial | linkSpeed | linkWidth
deriving DecidableEq, Repr

/-- The value of a field of the configuration space (R420). (PRESUMED, log 136). -/
def configRead (b : Blk) : FnField → Nat
  | .vendor => 0x1F6B
  | .device => 0x4608
  | .classCode => 0x118000
  | .interruptPin => 0
  | .maxPayload => b.host.mps
  | .maxReadRequest => b.host.mrrs
  | .powerState => if b.host.d3 then 3 else 0
  | .busMaster => if b.host.busMaster then 1 else 0
  | .msixVectors => 64
  | .bar0Size => 0x1000000
  | .bar2Size => 0x4000000
  | .serial => (List.range 8).foldl (fun n i => n + (Config.identByte i).toNat * 256 ^ i) 0
  | .linkSpeed => getF b Reg.PCIE.LINK.SPEED
  | .linkWidth => getF b Reg.PCIE.LINK.WIDTH

/-- AER_ERROR (R448). -/
def execAerError (correctable : Bool) (s : State) : Host.Outcome State Fault Refusal :=
  .next { s with b := if linkUp s.b then raise (if correctable then 1062 else 1063) s.b else s.b }

/-! ### The boot flash (R442, R443) -/

/-- A byte of the flash; what was never programmed reads as erased. (PRESUMED, log 7). -/
def flashByte (b : Blk) (a : Nat) : Byte := b.flash.get 255 a

/-- The bytes of `[a, a + n)` of the flash, `f i` for byte `a + i`. -/
def flashPut (a n : Nat) (f : Nat → Byte) (b : Blk) : Blk :=
  { b with flash := (List.range n).foldl (fun m i => m.set 255 (a + i) (f i)) b.flash }

/-- Byte `i` of QSPI_BUF. (PRESUMED, log 90). -/
def bufByte (b : Blk) (i : Nat) : Byte := BitVec.ofNat 8 (getF b (Reg.PCIE.QSPI_BUF.DATA (i / 4)) / 256 ^ (i % 4))

/-- Bytes that the spec does not give, from free value `k` on. (PRESUMED, log 90). -/
def freeByte (k i : Nat) : Byte := (Config.freeValue (k + i / 4)).extractLsb' (8 * (i % 4)) 8

/-- QSPI_OP_DONE: the operation ends; a program or an erase that took too long has failed, and what it leaves in the flash is
open, as are the flash's other status bits (R443). (PRESUMED, log 90). -/
def qspiDone (ok : Bool) (b : Blk) : Blk :=
  match b.host.qspi with
  | none => b
  | some (op, a) =>
    let good := ok || op == 1
    let n := if op = 2 then 256 else if op = 3 then 4096 else 65536
    let k := b.free
    let b := { b with host := { b.host with qspi := none } }
    let b :=
      if op = 1 then (List.range 64).foldl (fun b i =>
        setF (Reg.PCIE.QSPI_BUF.DATA i)
          ((List.range 4).foldl (fun w j => w + (flashByte b (a + 4 * i + j)).toNat * 256 ^ j) 0) b) b
      else if good then (if op = 2 then flashPut a n (bufByte b) b else flashPut a n (fun _ => 255) b)
      else flashPut a n (freeByte k) { b with free := k + n / 4 }
    let f := takeFree b
    let b := setF Reg.PCIE.QSPI_STAT.SR (f.1.toNat % 256 / 2 * 2 + (if good then 0 else 1)) f.2
    raiseIf (!good) 1064 (setFlag Reg.PCIE.QSPI_STAT.FAIL (!good) (setFlag Reg.PCIE.QSPI_STAT.BUSY false b))

/-- QSPI_OP_DONE. -/
def execQspiOpDone (ok : Bool) (s : State) : Host.Outcome State Fault Refusal := .next { s with b := qspiDone ok s.b }

/-- A write of QSPI_CMD (R443). -/
def qspiErrs (v : Word) (b : Blk) : List Nat :=
  if v.bit 31 then
    let op := v.bits 0 3
    let unit := if op = 3 then 4096 else if op = 4 then 65536 else 256
    (if getF b Reg.PCIE.QSPI_ADDR.ADDR % unit ≠ 0 then [5] else []) ++ (if b.sys.mode ∈ [Mode.reset, .boot] then [2] else [])
      ++ (if flag b Reg.PCIE.QSPI_STAT.BUSY then [3] else []) ++ (if op = 0 ∨ 4 < op then [1] else [])
  else []

/-- An accepted GO starts the operation (R443). -/
def qspiDo (v : Word) (b : Blk) : Blk :=
  if v.bit 31 then
    setFlag Reg.PCIE.QSPI_STAT.BUSY true
      { b with host := { b.host with qspi := some (v.bits 0 3, getF b Reg.PCIE.QSPI_ADDR.ADDR) } }
  else b

/-! ### Writes of the PCIE page (R424, R426, R429, R449) -/

/-- The codes with which a write of a PCIE register is rejected, beyond those of every page. -/
def pcieErrs (off : Nat) (v : Word) (b : Blk) : List Nat :=
  let m := ringMod b Reg.PCIE.CMD_CFG.LOG2SIZE
  let mc := ringMod b Reg.PCIE.CPL_CFG.LOG2SIZE
  let on := flag b Reg.PCIE.CMD_CFG.EN
  match off with
  | 0x48 => (if v.bits 0 12 ≠ 0 then [5] else []) ++ (if on then [3] else [])
  | 0x4C => if on then [3] else []
  | 0x50 => (if on ∧ v.bits 1 4 ≠ getF b Reg.PCIE.CMD_CFG.LOG2SIZE then [3] else [])
      ++ (if v.bits 1 4 < 4 ∨ 12 < v.bits 1 4 then [1] else [])
  | 0x54 => if m / 2 < (v.bits 0 13 % m + m - getF b Reg.PCIE.CMD_HEAD.HEAD % m) % m then [1] else []
  | 0x5C => if v.bits 0 12 ≠ 0 then [5] else []
  | 0x64 => if v.bits 1 4 < 4 ∨ 12 < v.bits 1 4 then [1] else []
  | 0x6C =>
    let rp := getF b Reg.PCIE.CPL_RP.RP % mc
    if (getF b Reg.PCIE.CPL_WP.WP % mc + mc - rp) % mc < (v.bits 0 13 % mc + mc - rp) % mc then [1] else []
  | 0x70 => if v.bits 0 3 ≠ 0 then [5] else []
  | 0x80 => if v.bits 0 16 ≠ 0 then [5] else []
  | 0x88 => if 14 < v.bits 1 4 ∨ v.bits 16 16 = 0 then [1] else []
  | 0xA4 => qspiErrs v b
  | _ => []

/-- An accepted CMD_CFG: EN written 0 and then 1 starts the ring anew (R426). (DEDUCED, log 92). -/
def cmdCfgDo (v : Word) (b : Blk) : Blk :=
  let b := setF Reg.PCIE.CMD_CFG.LOG2SIZE (v.bits 1 4) (setF Reg.PCIE.CMD_CFG.EN (v.bits 0 1) b)
  if v.bit 0 = false then { b with host := { b.host with cmdOff := true } }
  else if b.host.cmdOff then
    setFlag Reg.PCIE.CMD_HEAD.STOPPED false (setF Reg.PCIE.CMD_HEAD.HEAD 0 (setF Reg.PCIE.CMD_TAIL.TAIL 0
      { b with host := { b.host with cmdOff := false } }))
  else b

/-- A write of the control word of MSI-X vector `n`: a pending vector that is unmasked is signalled (R423). (PRESUMED, log 136). -/
def msixCtlDo (n : Nat) (v : Word) (b : Blk) : Blk :=
  let f := Reg.PCIE.MSIX_PBA.W (n / 32)
  let b := setF (Reg.PCIE.MSIX_TABLE.W (4 * n + 3)) v.toNat b
  if v.bit 0 = false ∧ natBits (getF b f) (n % 32) 1 = 1 then send (.msix n) (setF f (getF b f - 2 ^ (n % 32)) b) else b

/-- What an accepted write of a PCIE register does where it is more than storing its fields. (DEDUCED, log 92). -/
def pcieDo (off : Nat) (v : Word) (b : Blk) : Option Blk :=
  match off with
  | 0x50 => some (cmdCfgDo v b)
  | 0x54 => some (setF Reg.PCIE.CMD_TAIL.TAIL (v.bits 0 13 % ringMod b Reg.PCIE.CMD_CFG.LOG2SIZE) b)
  | 0x6C => some (setF Reg.PCIE.CPL_RP.RP (v.bits 0 13 % ringMod b Reg.PCIE.CPL_CFG.LOG2SIZE) b)
  | 0xA4 => some (qspiDo v b)
  | _ => if 0x800 ≤ off ∧ off < 0xC00 ∧ off % 16 = 12 then some (msixCtlDo ((off - 0x800) / 16) v b) else none

end Sys2Proof.Machine
end

