-- ==== Sys2Proof/Machine/Eth.lean ====
section
/-!
DEFINITION. The Ethernet ports and the UDP command protocol (R432 to R441, R448, R450).
-/
set_option autoImplicit false

namespace Sys2Proof

/-- A word of the payload, least significant byte first; 0 where the payload ends before it (R18, R435). -/
def UdpMsg.word (x : UdpMsg) (i : Nat) : Word := (Machine.bytesWords ((x.payload.drop (4 * i)).take 4)).headD 0

/-- TYPE of a message (R435). -/
def UdpMsg.typ (x : UdpMsg) : Byte := (x.word 0).extractLsb' 8 8

/-- LEN of a message (R435). -/
def UdpMsg.len (x : UdpMsg) : Nat := (x.word 0).bits 16 16

/-- The BOOT_ID that a message carries (R435). -/
def UdpMsg.epoch (x : UdpMsg) : Word := x.word 1

/-- SEQ of a message (R435). -/
def UdpMsg.msgSeq (x : UdpMsg) : Word := x.word 2

/-- LEN is no whole number of words. -/
def UdpMsg.odd (x : UdpMsg) : Bool := x.len % 4 != 0

/-- The words of the body (R435). -/
def UdpMsg.body (x : UdpMsg) : List Word := Machine.bytesWords ((x.payload.drop 12).take x.len)

/-- The tag of a message (R435). -/
def UdpMsg.tag (x : UdpMsg) : List Byte := x.payload.drop (12 + x.len)

/-- Check 1: the payload has at least 28 bytes, header, body and tag fill it exactly, and VERSION is 1 (R435, R437). -/
def UdpMsg.formOk (x : UdpMsg) : Bool :=
  decide (28 ≤ x.payload.length ∧ 12 + x.len + 16 = x.payload.length ∧ (x.word 0).bits 0 8 = 1)

/-- Check 3: the tag is the HMAC of header and body under the key (R435, R437). -/
def UdpMsg.tagOk (x : UdpMsg) (key : List Byte) : Bool := x.tag == Machine.hmacTag key (x.payload.take (12 + x.len))

end Sys2Proof

namespace Sys2Proof.Machine

/-! ### Ports (R432 to R434) -/

/-- The port takes frames: enabled, with its link up, outside RESET. -/
def ethOn (b : Blk) (p : Nat) : Bool :=
  flag b (Reg.ETH.CFG.EN p) && flag b (Reg.ETH.STAT.LINK p) && b.sys.mode != .reset

/-- ETHn.STAT.SUBS follows the subscriptions (R450). -/
def showSubs (b : Blk) : Blk :=
  [0, 1].foldl (fun b p => setF (Reg.ETH.STAT.SUBS p) (b.eth.subs.filter fun s => s.peer.port.val == p).length b) b

/-- The subscriptions that keep a property. -/
def keepSubs (p : Sub → Bool) (b : Blk) : Blk := showSubs { b with eth := { b.eth with subs := b.eth.subs.filter p } }

/-- The port's transactions of M1 end: a master reset, and the port's subscriptions with it (R434). -/
def portReset (p : Nat) (x : MstReset) (b : Blk) : Blk := masterReset 1 x (keepSubs (fun s => s.peer.port.val != p) b)

/-- ETH_LINK_UP: auto-negotiation, where it is on, has completed (R432, R450). -/
def ethUp (p : Nat) (b : Blk) : Blk :=
  if b.sys.mode = .reset then b
  else setFlag (Reg.ETH.STAT.AN_DONE p) (flag b (Reg.ETH.CFG.AN_EN p)) (setFlag (Reg.ETH.STAT.LINK p) true b)

/-- ETH_LINK_UP. -/
def execEthLinkUp (p : Fin 2) (s : State) : Host.Outcome State Fault Refusal := .next { s with b := ethUp p.val s.b }

/-- ETH_LINK_LOSS (R287, R434, R448). -/
def ethLoss (p : Nat) (x : MstReset) (b : Blk) : Blk :=
  if flag b (Reg.ETH.STAT.LINK p) then
    let b := setFlag (Reg.ETH.STAT.AN_DONE p) false (setFlag (Reg.ETH.STAT.LINK p) false b)
    let b := raise (1068 + 8 * p) (portReset p x b)
    let b := setPtp p { ptpSt b p with recoverAt := none } b
    if flag b (Reg.PTP.CFG.EN p) ∧ getF b (Reg.PTP.STATE.PORT_STATE p) ≠ 2 then ptpFault p b else b
  else b

/-- ETH_LINK_LOSS. -/
def execEthLinkLoss (p : Fin 2) (x : MstReset) (s : State) : Host.Outcome State Fault Refusal :=
  .next { s with b := ethLoss p.val x s.b }

/-- The port's MAC address: bytes 0 and 1, and bytes 2 to 5 (R450). -/
def macWords (b : Blk) (p : Nat) : List Word :=
  [BitVec.ofNat 32 (getF b (Reg.ETH.MAC_HI.MAC p)), BitVec.ofNat 32 (getF b (Reg.ETH.MAC_LO.MAC p))]

/-- A frame is discarded and counted (R432, R450). -/
def dropFrameRx (p : Nat) (b : Blk) : Blk := incF (Reg.ETH.CNT_DROP.RX p) b

/-- ARP_REQUEST: the port answers for its own address (R432). (DEDUCED, log 95). -/
def arp (p : Nat) (ip : Word) (b : Blk) : Blk :=
  if ethOn b p ∧ ip.toNat = getF b (Reg.ETH.IP.ADDR p) then send (.eth p 1 (ip :: macWords b p)) b else b

/-- ARP_REQUEST. -/
def execArpRequest (p : Fin 2) (ip : Word) (s : State) : Host.Outcome State Fault Refusal := .next { s with b := arp p.val ip s.b }

/-- ICMP_ECHO: up to 64 bytes of data are answered; any other echo request is discarded (R432). (DEDUCED, log 95). -/
def icmp (p : Nat) (ip : Word) (data : List Byte) (b : Blk) : Blk :=
  if ethOn b p = false then b
  else if ip.toNat = getF b (Reg.ETH.IP.ADDR p) ∧ data.length ≤ 64 then
    send (.eth p 2 (ip :: data.map fun x => x.setWidth 32)) b
  else dropFrameRx p b

/-- ICMP_ECHO. -/
def execIcmpEcho (p : Fin 2) (ip : Word) (data : List Byte) (s : State) : Host.Outcome State Fault Refusal :=
  .next { s with b := icmp p.val ip data s.b }

/-- Two bytes of a frame, most significant first. -/
def be16 (f : List Byte) (i : Nat) : Nat := (f.getD i 0).toNat * 256 + (f.getD (i + 1) 0).toNat

/-- The sum of the 16-bit words of an IPv4 header of 20 bytes, with its carries added in. -/
def ipSum (f : List Byte) (at_ : Nat) : Nat :=
  let s := (List.range 10).foldl (fun n i => n + be16 f (at_ + 2 * i)) 0
  (s % 65536 + s / 65536) % 65536 + (s % 65536 + s / 65536) / 65536

/-- What is wrong with a received frame, Ethernet header to FCS (R284, R432): it is longer than 9,216 bytes, its FCS fails, it has
stacked VLAN tags, or it is IPv4 with options, a wrong header checksum, fragments, or a protocol that the port does not take: not
PTP, not UDP port 47810, not ICMP. (PRESUMED, log 143). -/
def frameBad (f : List Byte) : Bool :=
  let n := f.length
  let at_ := if be16 f 12 = 0x8100 then 18 else 14
  let typ := be16 f (at_ - 2)
  let up := at_ + 20
  let proto := (f.getD (at_ + 9) 0).toNat
  let dst := be16 f (up + 2)
  decide (n < 18 ∨ 9216 < n) || bytesWords (f.drop (n - 4)) != [BitVec.ofNat 32 (crc32 (f.take (n - 4)))] || typ == 0x8100
    || (typ == 0x0800 && (f.getD at_ 0 != 0x45 || ipSum f at_ != 65535 || be16 f (at_ + 6) % 16384 != 0
          || !(proto == 1 || (proto == 17 && (dst == udpPort || dst == 319 || dst == 320)))))

/-- DISCARDED_FRAME (R432, R448): a frame that finds no room, or that R432 does not let the port accept. -/
def discarded (p : Nat) (overflow : Bool) (frame : List Byte) (b : Blk) : Blk :=
  if ethOn b p = false then b
  else if overflow then raise (1071 + 8 * p) (dropFrameRx p b)
  else if frameBad frame then dropFrameRx p b
  else b

/-- DISCARDED_FRAME. -/
def execDiscardedFrame (p : Fin 2) (x : RxFrame) (s : State) : Host.Outcome State Fault Refusal :=
  .next { s with b := discarded p.val x.overflow x.bytes s.b }

/-! ### The checks of a message (R437, R438) -/

/-- The sender of a message, to which answers go (R433). -/
def peerOf (x : UdpMsg) : Peer := { port := x.port, mac := x.mac, ip := x.ip, udp := x.udp.toNat }

/-- A SEQ that the window accepts (R438). -/
def seqFresh (b : Blk) (q : Word) : Bool :=
  let h := getF b Reg.ETH.WIN_HIGH.H
  decide (h < q.toNat) || (decide (h - q.toNat < 64) && !b.eth.win.testBit (h - q.toNat))

/-- The window after a SEQ that it accepts (R438). -/
def takeSeq (q : Word) (b : Blk) : Blk :=
  let h := getF b Reg.ETH.WIN_HIGH.H
  if h < q.toNat then
    let d := q.toNat - h
    setF Reg.ETH.WIN_HIGH.H q.toNat
      { b with eth := { b.eth with win := (if d < 64 then b.eth.win * 2 ^ d % 2 ^ 64 else 0) ||| 1 } }
  else { b with eth := { b.eth with win := b.eth.win ||| 2 ^ (h - q.toNat) } }

/-- The body has the length that TYPE and content require (check 7, R439). -/
def bodyFits (b : Blk) (x : UdpMsg) : Bool :=
  let n := 4 * x.body.length
  !x.odd && match x.typ.toNat with
    | 1 => decide (n = 32 + payloadBytes b x.body ∧ n ≤ 9134)
    | 2 => n == 4
    | 3 => n == (if (x.body.headD 0).bits 0 8 = 1 then 8 else 4)
    | 4 => n == 12
    | _ => false

/-- The first check of R437 that fails; 0 where none does. (DEDUCED, log 96). -/
def failedCheck (b : Blk) (x : UdpMsg) : Nat :=
  if x.formOk = false then 1
  else if flag b Reg.NVM.STAT.KEY_SET = false then 2
  else if x.tagOk (keyBytes b) = false then 3
  else if x.epoch.toNat ≠ getF b Reg.ETH.BOOT_ID.ID then 4
  else if seqFresh b x.msgSeq = false then 5
  else if x.typ.toNat < 1 ∨ 4 < x.typ.toNat then 6
  else if bodyFits b x = false then 7
  else 0

/-- An ERROR answer, at most one per port in any millisecond (R440). -/
def sendError (x : UdpMsg) (code detail : Nat) (seq : Word) (b : Blk) : Blk :=
  let p := x.port.val
  if (b.eth.errAt.find p).all fun t => decide (t + 4000000 ≤ b.q) then
    sendUdp (peerOf x) 0x84 [BitVec.ofNat 32 (code + detail * 256), seq]
      { b with eth := { b.eth with errAt := b.eth.errAt.put p b.q } }
  else raise (1073 + 8 * p) (incF (Reg.ETH.CNT_DEC.SUPPRESSED p) b)

/-- Two peers are one by port, source address and source UDP port (R441). -/
def Peer.same (x y : Peer) : Bool := x.port == y.port && x.ip == y.ip && x.udp == y.udp

/-- The port's command protocol runs (R434). (DEDUCED, log 95). -/
def udpOn (b : Blk) (x : UdpMsg) : Bool := ethOn b x.port.val && flag b (Reg.ETH.CFG.CMD_EN x.port.val)

/-- A message that passes the checks and carries TYPE `typ` is acted on (R437, R438). -/
def onUdp (typ : Nat) (x : UdpMsg) (act : Blk → Blk) (b : Blk) : Blk :=
  if udpOn b x ∧ failedCheck b x = 0 ∧ x.typ.toNat = typ then
    act (takeSeq x.msgSeq (incF (Reg.ETH.CNT_OK.COUNT x.port.val) b))
  else b

/-- REJECTED_MESSAGE: the first failing check decides (R437, R448). -/
def rejectedMsg (x : UdpMsg) (b : Blk) : Blk :=
  let p := x.port.val
  let c := failedCheck b x
  if udpOn b x = false ∨ c = 0 then b
  else
    let b := if 6 ≤ c then takeSeq x.msgSeq b else b
    if c = 2 then incF (Reg.ETH.CNT_DEC.DECODE p) b
    else if c = 3 ∨ c = 4 ∨ c = 5 then
      let b := incF (if c = 5 then Reg.ETH.CNT_AUTH.REPLAY p else Reg.ETH.CNT_AUTH.AUTH p) b
      sendError x 0x21 (c - 2) x.msgSeq (raise (1069 + 8 * p) b)
    else
      sendError x 0x20 0 (if c = 1 then 0 else x.msgSeq) (raise (1070 + 8 * p) (incF (Reg.ETH.CNT_DEC.DECODE p) b))

/-- REJECTED_MESSAGE. -/
def execRejectedMessage (x : UdpMsg) (s : State) : Host.Outcome State Fault Refusal := .next { s with b := rejectedMsg x s.b }

/-! ### Requests (R439 to R441) -/

/-- SCHEDULE: the frame goes to admission with its arrival stamp (R437, R439). -/
def execSchedule (x : UdpMsg) (s : State) : Host.Outcome State Fault Refusal :=
  .next { s with b := onUdp 1 x (fun b => { b with sched := { b.sched with
    arrivals := b.sched.arrivals ++ [{ stamp := b.time.ns, peer := some (peerOf x), msg := x.msgSeq, words := x.body }] } }) s.b }

/-- CANCEL (R251, R439). -/
def execCancel (x : UdpMsg) (s : State) : Host.Outcome State Fault Refusal :=
  .next { s with b := onUdp 2 x (fun b => cancelFrame (some (peerOf x)) x.msgSeq (x.body.headD 0) b) s.b }

/-- The summary of R440. -/
def summaryWords (b : Blk) : List Word :=
  let w := fun (a : Nat) => (readReg b a).getD 0
  let t := b.time.ns
  ([natBits (w 0x44) 0 4 + getF b Reg.SEQ.STAT.CONFIG * 16 + min 127 b.sched.queue.length * 64
      + getF b Reg.SCHED.STAT.OVERDRAWN * 8192 + getF b Reg.TIME.STAT.SYNCED * 16384 + getF b Reg.TIME.STAT.HOLDOVER * 32768
      + getF b Reg.TIME.STAT.PAUSED * 65536 + classAct b * 131072,
    t % 2 ^ 32, nsOf t, secOf t % 2 ^ 32, secOf t / 2 ^ 32 % 2 ^ 16, w 0x8050, w 0x8054,
    getF b Reg.THERM.HOT_CTRL.T + getF b Reg.THERM.HOT_PD.T * 65536,
    getF b Reg.SCHED.CNT_ACC.COUNT, getF b Reg.SCHED.CNT_REJ.COUNT, getF b Reg.SCHED.CNT_FAIL.COUNT] : List Nat).map
      (BitVec.ofNat 32)

/-- A QUERY whose reserved bits or WHAT are illegal is answered with RESERVED_VALUE; otherwise its answer is sent (R439). -/
def query (what : Nat) (x : UdpMsg) (answer : Blk → List Word) (b : Blk) : Blk :=
  onUdp 3 x (fun b =>
    let w := x.body.headD 0
    if w.bits 8 24 ≠ 0 ∨ 1 < w.bits 0 8 then sendError x 4 0 x.msgSeq b
    else if w.bits 0 8 = what then sendUdp (peerOf x) 0x82 (answer b) b else b) b

/-- QUERY_SUMMARY: a QUERY with WHAT 0 (R439, R440). -/
def execQuerySummary (x : UdpMsg) (s : State) : Host.Outcome State Fault Refusal :=
  .next { s with b := if (x.body.headD 0).bits 0 8 = 1 then s.b else query 0 x summaryWords s.b }

/-- What a QUERY of one frame answers (R440). -/
def frameWords (seq : Word) (b : Blk) : List Word :=
  [seq, match b.sched.queue.find? fun f => f.seq == seq with
    | some f => if f.stage = .launched then 2 else 1
    | none => 0]

/-- QUERY_FRAME: a QUERY with WHAT 1 (R439, R440). -/
def execQueryFrame (x : UdpMsg) (s : State) : Host.Outcome State Fault Refusal :=
  .next { s with b := if (x.body.headD 0).bits 0 8 = 1 then query 1 x (frameWords (x.body.getD 1 0)) s.b else s.b }

/-- The code with which a SUBSCRIBE is refused; 0 where it is not (R439, R441). (DEDUCED, log 96). -/
def subCode (x : UdpMsg) (b : Blk) : Nat :=
  let w := fun (i : Nat) => x.body.getD i 0
  if (w 0).bits 4 28 ≠ 0 ∨ (w 1).bits 16 16 ≠ 0 ∨ (w 2).bits 12 20 ≠ 0 then 4
  else if (w 1).bits 0 16 < 10 ∨ 60000 < (w 1).bits 0 16 ∨ (w 2).bits 0 12 < 1 ∨ 3600 < (w 2).bits 0 12 then 1
  else if (w 0).bit 0 ∧ 4 ≤ (b.eth.subs.filter fun s => !s.peer.same (peerOf x)).length then 3
  else 0

/-- A SUBSCRIBE with EN as asked for: refused, or acted on with `f` and answered (R439 to R441). -/
def subscription (en : Bool) (x : UdpMsg) (f : Blk → Blk) (b : Blk) : Blk :=
  if (x.body.headD 0).bit 0 ≠ en then b
  else onUdp 4 x (fun b =>
    if subCode x b ≠ 0 then sendError x (subCode x b) 0 x.msgSeq b
    else sendUdp (peerOf x) 0x81 (x.msgSeq :: List.replicate 9 0) (f b)) b

/-- The subscription that a SUBSCRIBE makes (R441). -/
def newSub (x : UdpMsg) (b : Blk) : Sub :=
  let w := fun (i : Nat) => x.body.getD i 0
  { peer := peerOf x, records := (w 0).bit 1, events := (w 0).bit 2, summary := (w 0).bit 3, period := (w 1).bits 0 16
    lease := b.q + (w 2).bits 0 12 * 4000000000, next := b.q + (w 1).bits 0 16 * 4000000, evStart := b.q, evN := 0 }

/-- SUBSCRIBE (R441). -/
def execSubscribe (x : UdpMsg) (s : State) : Host.Outcome State Fault Refusal :=
  .next { s with b := subscription true x (fun b =>
    let b := keepSubs (fun s => !s.peer.same (peerOf x)) b
    showSubs { b with eth := { b.eth with subs := b.eth.subs ++ [newSub x b] } }) s.b }

/-- UNSUBSCRIBE (R441). -/
def execUnsubscribe (x : UdpMsg) (s : State) : Host.Outcome State Fault Refusal :=
  .next { s with b := subscription false x (keepSubs (fun s => !s.peer.same (peerOf x))) s.b }

/-- SUB_EXPIRED: the lease of subscription `i` ends (R441, R448). (DEDUCED, log 96). -/
def subExpired (i : Nat) (b : Blk) : Blk :=
  match b.eth.subs[i]? with
  | none => b
  | some u =>
    atQ u.lease (fun b => raise (1072 + 8 * u.peer.port.val)
      (showSubs { b with eth := { b.eth with subs := b.eth.subs.eraseIdx i } })) b

/-- SUB_EXPIRED. -/
def execSubExpired (i : Fin 4) (s : State) : Host.Outcome State Fault Refusal := .next { s with b := subExpired i.val s.b }

/-- TELEMETRY_SUMMARY: the period of subscription `i` ends (R440, R441). (DEDUCED, log 47). -/
def telemetry (i : Nat) (b : Blk) : Blk :=
  match b.eth.subs[i]? with
  | none => b
  | some u =>
    if u.summary then
      atQ u.next (fun b => sendUdp u.peer 0x83 (0 :: summaryWords b)
        { b with eth := { b.eth with subs := b.eth.subs.set i { u with next := u.next + u.period * 4000000 } } }) b
    else b

/-- TELEMETRY_SUMMARY. -/
def execTelemetrySummary (i : Fin 4) (s : State) : Host.Outcome State Fault Refusal := .next { s with b := telemetry i.val s.b }

end Sys2Proof.Machine
end

