-- ==== Sys2Proof/Machine/Write.lean ====
section
/-!
DEFINITION. A write of a register (R13 to R16, R476 to R485, R494, R495): the codes of a rejection in their order (R484), the
checks of every page, and the effects of an accepted write.
-/
set_option autoImplicit false

namespace Sys2Proof.Machine

/-- The order in which the code of a rejection is chosen (R484). -/
def codeOrder : List Nat := [5, 4, 2, 3, 1, 0x13, 0x17, 0x15, 0x14]

/-- The code that comes first among those that apply; 0 where none does (R484). -/
def firstCode (cs : List Nat) : Nat := (codeOrder.find? fun c => cs.contains c).getD 0

/-! ### Checks -/

/-- A code where a condition holds. -/
def codeIf (p : Bool) (c : Nat) : List Nat := if p then [c] else []

/-- The commit of a page (R486). -/
def commitErrs (g : Pg) (i : Nat) (v : Word) (b : Blk) : List Nat :=
  match g with
  | .fabric => fabricCommitErrs v b
  | .route => routeCommitErrs v b
  | .plan => planCommitErrs v b
  | .lclass => lclassCommitErrs v b
  | .sns => snsCommitErrs i v b
  | .eng => progCommitErrs v b
  | _ => []

/-- The checks of the page header's registers (R86, R374, R486). -/
def headErrs (g : Pg) (i off : Nat) (v : Word) (b : Blk) : List Nat :=
  if off = 0x08 then (if g.enRw then drvEnErrs i v b else [])
  else if off = 0x1C then ftestErrs b
  else if off = 0x28 then commitErrs g i v b
  else []

/-- A write of FABRIC.CFG (R61, R63). -/
def fabricCfgErrs (v : Word) (b : Blk) : List Nat :=
  let role := v.bits 0 2
  let size := v.bits 4 2
  codeIf (decide (b.sys.mode ≠ .idle)) 2 ++ codeIf (decide (role = 3 ∨ size = 3)) 4
    ++ codeIf (decide ((role = 0 ∧ size ≠ 0) ∨ (role ≠ 0 ∧ size = 0) ∨ (role = 2 ∧ 2 ^ size ≤ v.bits 2 2))) 1

/-- The hidden mark that REACT.CTL has been written since reset: an RW1 field takes one write (R16, R352).
(DEDUCED, log 99). -/
def reactWritten : Fld := Fld.mk' 0x11 0x40 31 1 0

/-- A write of word `w` of the reaction table: reserved bits, classes, the lock, and the fixed class of source 898 (R352,
R390). -/
def reactWordErrs (w : Nat) (v : Word) (b : Blk) : List Nat :=
  codeIf ((List.range 4).any fun i => v.bits (8 * i + 4) 4 != 0) 4
    ++ codeIf (decide (w = 224 ∧ v.bits 16 3 ≠ 4)) 3 ++ reactErrs v b

/-- The checks of the system, time and scheduling pages (R10, R62, R227, R229, R232, R235, R243, R251, R267 to R277, R292,
R455, R462). -/
def planeErrs (g : Pg) (off : Nat) (v : Word) (b : Blk) : List Nat :=
  match g with
  | .sys => if off = 0x40 then modeReqErrs v b else if off = 0x4C then rstErrs v b else []
  | .time =>
    if off = 0x40 then timeCfgErrs v b
    else if off = 0x44 then incrErrs v b
    else if off = 0x6C then (if v.bit 0 then hostStepErrs b else [])
    else if off = 0x70 then hostStepErrs b
    else if off = 0x78 then pauseClrErrs b
    else timeErrs off v
  | .ptp => ptpErrs off v
  | .sched =>
    if off = 0x40 then codeIf (decide (v.bits 0 10 < 32 ∨ 512 < v.bits 0 10)) 1
    else if off = 0x44 then budgetErrs v
    else if off = 0x48 then codeIf (decide (1000 < v.bits 0 10)) 1
    else if off = 0x74 then codeIf (cancelCode b v != 0) (cancelCode b v)
    else []
  | .seq => if off = 0x50 then retireClrErrs v b else []
  | .plan =>
    if off = 0x40 then codeIf (decide (4 < v.bits 0 3)) 1
    else if off = 0x44 then codeIf (decide (v.bits 0 16 < 1 ∨ 65534 < v.bits 0 16)) 1
    else if off = 0x78 then dlogRpErrs v b
    else []
  | .route => if off = 0x54 then routeTryErrs v b else []
  | .fabric => if off = 0x40 then fabricCfgErrs v b else if off = 0x48 then codeIf (decide (4607 < v.bits 0 13)) 1 else []
  | _ => []

/-- The checks of the event, thermal, NVM, crossbar, monitor, acquisition, trigger and link pages (R344, R345, R349, R352,
R379, R380, R392, R393, R402, R405, R417, R418). -/
def serviceErrs (g : Pg) (off : Nat) (v : Word) (b : Blk) : List Nat :=
  match g with
  | .evt => if off = 0x40 then codeIf (decide (v.bits 1 8 = 0)) 1 else []
  | .react =>
    if off = 0x40 then codeIf (flag b reactWritten) 3
    else if 0x400 ≤ off ∧ off < 0x880 then reactWordErrs ((off - 0x400) / 4) v b
    else []
  | .alive => if off = 0x40 then aliveCfgErrs v else []
  | .therm =>
    if off = 0x40 then thrErrs (v.bits 0 16) (v.bits 16 16) (getF b Reg.THERM.PD_THR1.SHUT)
    else if off = 0x44 then thrErrs (getF b Reg.THERM.PD_THR0.WARN) (getF b Reg.THERM.PD_THR0.LIMIT) (v.bits 0 16)
    else if off = 0x68 then shutClrErrs v b
    else []
  | .nvm => if off = 0x80 then keyErrs v b else if 0x800 ≤ off then [3] else []
  | .xbar => if off = 0x40 then qosErrs v else if off = 0x44 then sliceErrs b else if off = 0x68 then scrubErrs v else []
  | .mon => if off = 0x44 then codeIf (decide (512 < v.bits 0 10)) 1 else []
  | .acq => if off = 0x40 then acqRunErrs v b else if off = 0x54 then acqRpErrs v b else acqErrs off v b
  | .trig =>
    if off = 0x40 then trigActErrs v b
    else
      codeIf (decide (0x200 ≤ off ∧ off < 0x400 ∧ v.bits (if off % 8 = 0 then 26 else 16) (if off % 8 = 0 then 6 else 16) ≠ 0)) 4
        ++ trigErrs off v b
  | .glew => if off = 0x40 then glewCfgErrs v b else []
  | .pcie => pcieErrs off v b
  | _ => []

/-- The checks of the pages of the data hierarchy (R71, R75, R82, R89, R93, R99, R119, R128, R156, R165, R365, R374, R381,
R408). -/
def arrayErrs (m : Master) (g : Pg) (i off : Nat) (v : Word) (b : Blk) : List Nat :=
  match g with
  | .eng =>
    if off = 0xA0 then codeIf (decide (v.bits 1 12 < 100 ∨ 4000 < v.bits 1 12)) 1
    else if off = 0xA8 then chkMigrateErrs v b
    else []
  | .drv =>
    if off = 0x40 then drvCfgErrs i v b
    else if off = 0x48 then rearmErrs v b
    else if 0x80 ≤ off ∧ off < 0xA0 then spanErrs i ((off - 0x80) / 4) v b
    else if 0x400 ≤ off ∧ off < 0x800 then hostCodeErrs b
    else if 0x800 ≤ off ∧ off < 0xC20 then launchShadowErrs m
    else []
  | .sns =>
    if off = 0x40 then snsCfgErrs i v b
    else if off = 0x50 then codeIf (decide (v.bits 0 10 < 16)) 1
    else if off = 0x70 then codeIf (decide (v.bits 0 2 = 3)) 4
    else if 0x400 ≤ off ∧ off < 0x600 then codeIf (flag b (Reg.HDR.pend 0xA0 1)) 3
    else []
  | .lclass =>
    if off = 0x40 then loopCmdErrs v b
    else if off = 0x48 then codeIf (decide (4607 < v.bits 0 13)) 1
    else if 0x100 ≤ off ∧ off < 0x300 then codeIf (flag b (Reg.HDR.pend 0xC0 ((off - 0x100) / 32))) 3
    else []
  | .ftest => ftestErrs b
  | _ => []

/-- In BOOT the host writes XBAR.SLICE and the PCIE page only (R495). -/
def bootErrs (m : Master) (a : Nat) (b : Blk) : List Nat :=
  codeIf (decide (b.sys.mode = .boot ∧ m = .m0 ∧ a / 4096 ≠ 0x1D ∧ a ≠ 0x18044)) 2

/-- Every code that applies to a write of `v` by master `m` to register `off` of page `page`. (DEDUCED, log 115). -/
def regErrs (m : Master) (g : Pg) (i page off : Nat) (v : Word) (b : Blk) : List Nat :=
  codeIf (decide (off % 4 ≠ 0)) 5 ++ codeIf (v.toNat &&& g.reserved i (off / 4 * 4) != 0) 4 ++ bootErrs m (page * 4096 + off) b
    ++ (if off < 0x40 then headErrs g i off v b
        else planeErrs g off v b ++ serviceErrs g off v b ++ arrayErrs m g i off v b)

/-! ### Effects -/

/-- An accepted write of a header register (R479 to R481, R488). -/
def headDo (g : Pg) (i page off : Nat) (v : Word) (b : Blk) : Blk :=
  let ev := g.events i
  match off with
  | 0x08 => if g.enRw then drvEnDo i v b else b
  | 0x14 => clearLatches ev.1 ev.2 v b
  | 0x18 => writeMasks ev.1 ev.2 v b
  | 0x1C => forceDo ev.1 ev.2 v b
  | 0x24 => setF (Reg.HDR.errCount page) (getF b (Reg.HDR.errCount page) &&& (65535 ^^^ v.bits 0 16)) b
  | 0x28 => commitDo page v b
  | _ => b

/-- A histogram whose configuration changes is cleared (R417). -/
def monCfgDo (h : Nat) (change : Bool) (b : Blk) : Blk := if change then histClear h b else b

/-- An accepted write of an ETH page's CFG: a port that is disabled ends its transactions (R434). -/
def ethCfgDo (p : Nat) (v : Word) (fs : List FD) (b : Blk) : Blk :=
  let b := storeFields (0x1E + p) 0x40 v fs b
  if v.bit 0 then b else portReset p ⟨0, []⟩ b

/-- An accepted write of the system, time and scheduling pages, where it is more than storing its fields. -/
def planeDo (g : Pg) (i off : Nat) (v : Word) (b : Blk) : Option Blk :=
  match g with
  | .sys => if off = 0x40 then some (modeReqDo v b) else if off = 0x4C then some (rstDo b) else none
  | .time =>
    if off = 0x40 then some (timeCfgDo v b)
    else if off = 0x44 then some (setF Reg.TIME.INCR.INCR v.toNat (anchor b))
    else if off = 0x6C then some (setGoDo v b)
    else if off = 0x70 then some (adjDo v b)
    else if off = 0x78 then some (pauseClrDo v b)
    else if off = 0xA0 then some (ppsOutDo v b)
    else none
  | .ptp => if off = 0x40 then some (ptpCfgDo i v b) else none
  | .sched => if off = 0x44 then some (budgetDo v b) else if off = 0x74 then some (cancelFrame none 0 v b) else none
  | .seq => if off = 0x50 then some (retireClrDo v b) else none
  | .plan =>
    if off = 0x44 then some { setF Reg.PLAN.EPS.EPS_LOCK (v.bits 0 16) b with epsPend := true }
    else if off = 0x7C then some (if v.bit 31 then setF Reg.PLAN.DLOG_LOST.LOST 0 b else b)
    else none
  | .route => if off = 0x54 then some (routeTryDo v b) else none
  | _ => none

/-- An accepted write of the event, thermal, NVM, crossbar, monitor, acquisition, trigger and link pages, where it is more
than storing its fields. -/
def serviceDo (g : Pg) (i off : Nat) (v : Word) (fs : List FD) (b : Blk) : Option Blk :=
  match g with
  | .evt =>
    if off = 0x50 then some (cntClrDo v b)
    else if 0x100 ≤ off ∧ off < 0x190 then some (clearLatches (8 * (off - 0x100)) 32 v b)
    else if 0x200 ≤ off ∧ off < 0x290 then some (writeMasks (8 * (off - 0x200)) 32 v b)
    else none
  | .react =>
    if off = 0x40 then some (setFlag reactWritten true (setF Reg.REACT.CTL.LOCK (v.bits 0 1) b))
    else if 0x400 ≤ off ∧ off < 0x880 then some (reactDo ((off - 0x400) / 4) v b)
    else none
  | .fcap => if off = 0x40 then some (fcapClearDo v b) else none
  | .alive => if off = 0x40 then some (aliveCfgDo v b) else if off = 0x44 then some (kickDo v b) else none
  | .therm =>
    if off < 0x48 ∨ (0x300 ≤ off ∧ off < 0x440) then some (storeFields 0x14 off v fs (holdWord off fs b))
    else if off = 0x58 then some (reincludeDo 0 v b)
    else if off = 0x5C then some (reincludeDo 1 v b)
    else if off = 0x60 then some (reincludeDo 2 v b)
    else if off = 0x68 then some (shutClrDo v b)
    else none
  | .nvm =>
    if 0x60 ≤ off ∧ off < 0x80 then some (setF (Reg.NVM.KEY.KEY ((off - 0x60) / 4)) v.toNat b)
    else if off = 0x80 then some (keyDo v b)
    else none
  | .xbar => if off = 0x70 then some (xbarClearDo v b) else none
  | .mon =>
    if off = 0x40 then some (monCtlDo v b)
    else if off = 0x44 ∨ off = 0x54 ∨ off = 0x5C then
      some (monCfgDo (if off = 0x44 then 0 else if off = 0x54 then 1 else 2) (storedWord b 0x19 off fs != v.toNat)
        (storeFields 0x19 off v fs b))
    else none
  | .acq =>
    if off = 0x40 then some (acqRunDo v b)
    else if 0x100 ≤ off ∧ off < 0x180 then some (storeFields 0x1A off v fs (chanEnable ((off - 0x100) / 4) v b))
    else none
  | .trig => if off = 0x40 then some (trigActDo v b) else none
  | .glew => if off = 0x40 then some (glewCfgDo v b) else none
  | .pcie => pcieDo off v b
  | .eth => if off = 0x40 then some (ethCfgDo i v fs b) else none
  | _ => none

/-- An accepted write of the pages of the data hierarchy, where it is more than storing its fields. -/
def arrayDo (g : Pg) (i off : Nat) (v : Word) (b : Blk) : Option Blk :=
  match g with
  | .eng => if off = 0x4C then some (diagClearDo i v b) else if off = 0xA8 then some (chkMigrateDo v b) else none
  | .drv =>
    if off = 0x40 then some (drvCfgDo i v b)
    else if off = 0x48 then some (rearmDo i v b)
    else if off = 0x58 then some (mtrPeakDo i v b)
    else if 0x80 ≤ off ∧ off < 0xA0 then some (spanDo i ((off - 0x80) / 4) v b)
    else if 0x400 ≤ off ∧ off < 0x800 then some (hostCodeDo i ((off - 0x400) / 4) v b)
    else if 0x800 ≤ off ∧ off < 0xC00 then some (launchShadowDo i ((off - 0x800) / 4) v b)
    else if 0xC00 ≤ off ∧ off < 0xC20 then some (armDo i ((off - 0xC00) / 4) v b)
    else none
  | .sns => if off = 0x5C then some (snsFirstDo i v b) else none
  | .lclass => if off = 0x40 then some (loopCmdDo v b) else if off = 0x64 then some (lclassFirstDo v b) else none
  | _ => none

/-- The effect of an accepted write. -/
def regDo (g : Pg) (i page off : Nat) (v : Word) (b : Blk) : Blk :=
  if off < 0x40 then headDo g i page off v b
  else
    let fs := (g.fields i off).getD []
    match planeDo g i off v b with
    | some c => c
    | none => match serviceDo g i off v fs b with
      | some c => c
      | none => (arrayDo g i off v b).getD (storeFields page off v fs b)

/-- A rejected SCHED.CANCEL still leaves its CANCEL_ACK record (R251, R259). (DEDUCED, log 101). -/
def cancelAck (g : Pg) (off : Nat) (v : Word) (b : Blk) : Blk :=
  if g = .sched ∧ off = 0x74 ∧ b.sys.mode ≠ .boot then cancelFrame none 0 v b else b

/-- A write of `v` by master `m` to BAR0 offset `a` (R15, R400, R476, R482, R494).
(DESIGN CHOICE, log 2; DEDUCED, log 102; DEDUCED, log 103). -/
def hostWrite (m : Master) (a : Nat) (v : Word) (b : Blk) : Blk :=
  if b.sys.mode = .reset then b
  else
    match (if m = .m4 then none else pgOf (a / 4096)) with
    | none => decodeErr m true a b
    | some x =>
      let code := firstCode (regErrs m x.1 x.2 (a / 4096) (a % 4096) v b)
      if code = 0 then regDo x.1 x.2 (a / 4096) (a % 4096) v b
      else cancelAck x.1 (a % 4096) v (reject (a / 4096) (a % 4096) code m b)

/-- A write is accepted: no condition rejects it. -/
def accepted (m : Master) (a : Nat) (v : Word) (b : Blk) : Bool :=
  b.sys.mode != .reset && m != .m4 && (pgOf (a / 4096)).any fun x => firstCode (regErrs m x.1 x.2 (a / 4096) (a % 4096) v b) == 0

end Sys2Proof.Machine
end

