-- ==== Sys2Proof/Machine/Window.lean ====
section
/-!
DEFINITION. Writes through BAR2 (R197 to R199, R398 to R401, R407, R408, R482, R491): the tables' shadows, the element
contexts and the monitor offset window.
-/
set_option autoImplicit false

namespace Sys2Proof.Machine

/-- The ranges of BAR2 with their targets, each range of a row counting on its own (R399, R401, R491). -/
def bar2Ranges : List (Nat × Nat × Nat) :=
  [(0, 0x90000, 1), (0x100000, 0x200000, 2), (0x200000, 0x250000, 3), (0x440000, 0x449000, 3), (0x280000, 0x2A0200, 6),
   (0x300000, 0x304120, 4), (0x304200, 0x304210, 4), (0x310000, 0x430000, 4), (0x1000000, 0x1400000, 5)]

/-- The target that an access of `n` bytes at BAR2 offset `a` reaches as a whole (R399, R401). -/
def bar2Target (a n : Nat) : Option Nat :=
  (bar2Ranges.find? fun r => decide (r.1 ≤ a ∧ a + n ≤ r.2.1)).map fun r => r.2.2

/-- A master may write a target (R400); the host's write of T5 reaches it and is rejected there. (DEDUCED, log 103). -/
def mayWrite (m : Master) (t : Nat) : Bool :=
  match m with
  | .m0 | .m6 => true
  | .m1 => false
  | .m2 | .m3 => t == 4
  | .m4 => t == 5
  | .m5 => t == 4 || t == 6

/-- The page that owns a BAR2 offset (R408, R491). (DEDUCED, log 104). -/
def ownerPage (a : Nat) : Nat :=
  if a < 0x90000 then 0xC
  else if a < 0x200000 then 0xA
  else if a < 0x248000 then 0xC
  else if a < 0x250000 then 0xA
  else if a < 0x300000 then 0xB
  else if a < 0x310000 then 0x20
  else if a < 0x430000 then 0x20 + (a - 0x310000) / 256 % 64
  else if a < 0x1000000 then 0xA0 + (a - 0x440000) / 4096
  else 0x1A

/-- The unit of a commit that a BAR2 offset belongs to: page and COMMIT bit (R486). -/
def ownerUnit (a : Nat) : Option Fld :=
  if a < 0x90000 then some (Reg.HDR.pend 0xC 0)
  else if a < 0x200000 then some (Reg.HDR.pend 0xA 0)
  else if a < 0x248000 then some (Reg.HDR.pend 0xC 0)
  else if a < 0x250000 then some (Reg.HDR.pend 0xA 1)
  else if a < 0x2A0000 then some (Reg.HDR.pend 0xB ((a - 0x280000) / 4096))
  else if a < 0x300000 then some (Reg.HDR.pend 0xB ((a - 0x2A0000) / 16))
  else if a < 0x310000 then some (Reg.HDR.pend 0x20 0)
  else if a < 0x430000 then none
  else if a < 0x1000000 then some (Reg.HDR.pend (0xA0 + (a - 0x440000) / 4096) 0)
  else none

/-- The bytes of a burst whose strobes are on, with their addresses (R398). -/
def strobed : Nat → List (Option Byte) → List (Nat × Byte)
  | _, [] => []
  | a, some v :: t => (a, v) :: strobed (a + 1) t
  | a, none :: t => strobed (a + 1) t

/-- The whole halves of 32-bit words that the bytes of a burst make, with their addresses; none where they make no such halves
(R197). -/
def halvesOf : List (Nat × Byte) → Option (List (Nat × Nat))
  | [] => some []
  | x :: y :: t => if x.1 % 2 = 0 ∧ y.1 = x.1 + 1 then (halvesOf t).map fun r => (x.1, x.2.toNat + 256 * y.2.toNat) :: r else none
  | _ => none

/-- Bytes written one by one. -/
def wrPairs (m : Tbl Byte) (ps : List (Nat × Byte)) : Tbl Byte := ps.foldl (fun m p => wrB m p.1 p.2) m

/-- The bytes touch a unit whose commit is pending (R408). -/
def unitPending (ps : List (Nat × Byte)) (b : Blk) : Bool := ps.any fun p => (ownerUnit p.1).any fun f => flag b f

/-- A byte of the monitor offset window sets reserved bits: [15:14] and [31:30] (R129). -/
def ofsReserved (ps : List (Nat × Byte)) : Bool :=
  ps.any fun p => decide (0x440000 ≤ p.1 ∧ p.1 < 0x449000 ∧ p.1 % 2 = 1 ∧ 64 ≤ p.2.toNat)

/-- The element contexts. -/
def isContext (a : Nat) : Bool := decide (0x310000 ≤ a ∧ a < 0x430000)

/-- The elements whose contexts the bytes of a burst touch. -/
def ctxElems (ps : List (Nat × Byte)) : List Nat := dedupAdj (ps.map fun p => (p.1 - 0x310000) / 256)

/-- The first element among some whose loop is closed. (DEDUCED, log 104). -/
def firstClosed (b : Blk) (es : List Nat) : Option Nat := es.find? fun e => closed b e

/-- Every code that applies to a burst by master `m` whose strobed bytes are `ps`, at BAR2 offset `a` (R129, R133, R197, R331, R408,
R495). (DEDUCED, log 104). -/
def windowErrs (m : Master) (a : Nat) (ps : List (Nat × Byte)) (b : Blk) : List Nat :=
  codeIf (isContext a && (halvesOf ps).isNone) 5 ++ codeIf (ofsReserved ps) 4 ++ codeIf (decide (b.sys.mode = .boot ∧ m = .m0)) 2
    ++ codeIf (unitPending ps b || decide (0x1000000 ≤ a ∧ m = .m0)) 3
    ++ codeIf (isContext a && decide (m = .m0) && (firstClosed b (ctxElems ps)).isSome) 0x13

/-- The page on which a rejected write is recorded: for a context, that of the first element that bars it (R133, R482). -/
def rejectPage (a : Nat) (ps : List (Nat × Byte)) (code : Nat) (b : Blk) : Nat :=
  if code = 0x13 then 0x20 + ((firstClosed b (ctxElems ps)).getD 0) % 64 else ownerPage a

/-- The halves of an accepted context write, each pending for its boundary (R198, R199). -/
def ctxHalves (host : Bool) (hs : List (Nat × Nat)) (b : Blk) : Blk := hs.foldl (fun b h => putHalf host h.1 h.2 b) b

/-- A double-bit error injected into a context word: what the word holds is then open (R382, R412). -/
def spoilPending (host : Bool) (a : Nat) (b : Blk) : Blk :=
  let f := takeFree b
  putHalf host (a / 4 * 4 + 2) (f.1.toNat / 65536) (putHalf host (a / 4 * 4) f.1.toNat f.2)

/-- An accepted write of a context (R197 to R199, R382). (DEDUCED, log 105). -/
def contextDo (m : Master) (a : Nat) (ps : List (Nat × Byte)) (b : Blk) : Blk :=
  let b := ctxHalves (decide (m = .m0)) ((halvesOf ps).getD []) b
  let r := injectEcc 4 true a b
  if r.1 then spoilPending (decide (m = .m0)) a r.2 else r.2

/-- The words of a burst of `n` bytes at `a` that its bytes rewrite have no error any more (R412). -/
def healedBytes (ps : List (Nat × Byte)) (b : Blk) : Blk := ps.foldl (fun b p => healed false p.1 (p.1 + 1) b) b

/-- An accepted write of a table's shadow, or of the acquisition buffer, which has one copy (R231, R324, R382, R412). What
reserved bits of a permutation slot's header hold is not checked. (DEDUCED, log 105; DEDUCED, log 106). -/
def tableDo (t a : Nat) (ps : List (Nat × Byte)) (b : Blk) : Blk :=
  let b := healedBytes ps b
  let b := if t = 5 then { b with live := wrPairs b.live ps } else { b with shadow := wrPairs b.shadow ps }
  let b := if t = 2 then setFlag Reg.PLAN.XT_STAT.CRC_BUSY true b else b
  (injectEcc t false a b).2

/-- A write burst at BAR2 offset `a` by master `m`, each byte with its strobe (R398, R421). (DEDUCED, log 102). -/
def windowWrite (m : Master) (a : Nat) (bytes : List (Option Byte)) (b : Blk) : Blk :=
  if b.sys.mode = .reset ∨ bytes = [] then b
  else
    match (bar2Target a bytes.length).filter (mayWrite m) with
    | none => decodeErr m true (0x10000000 + a) b
    | some t =>
      let ps := strobed a bytes
      let code := firstCode (windowErrs m a ps b)
      if code ≠ 0 then reject (rejectPage a ps code b) 0xFFF code m b
      else if isContext a then contextDo m a ps b
      else tableDo t a ps b

/-- TABLE_WRITE. (DEDUCED, log 106). -/
def execTableWrite (m : Master) (a : Nat) (bytes : List (Option Byte)) (s : State) : Host.Outcome State Fault Refusal :=
  .next { s with b := windowWrite m a bytes s.b }

/-- CONTEXT_WRITE: `a` is an offset of BAR2. -/
def execContextWrite (m : Master) (a : Nat) (bytes : List (Option Byte)) (s : State) : Host.Outcome State Fault Refusal :=
  .next { s with b := windowWrite m a bytes s.b }

/-! ### The crossbar's other targets (R13, R398 to R400) -/

/-- A word of a request to T0 that is not written whole (R13, R398): an access of another width is rejected with ALIGN, a word with
no strobe is none. -/
def partialWrite (m : Master) (a : Nat) (b : Blk) : Blk :=
  if b.sys.mode = .reset then b
  else match (if m = .m4 then none else pgOf (a / 4096)) with
    | none => decodeErr m true a b
    | some _ => reject (a / 4096) (a % 4096) 5 m b

/-- A request to T0 split into accesses of single words in ascending order, each checked on its own (R398). -/
def splitWrite (m : Master) : Nat → List WrWord → Blk → Blk
  | _, [], b => b
  | a, w :: t, b =>
    splitWrite m (a + 4) t (if w.be = 15 then hostWrite m a w.v b else if w.be = 0 then b else partialWrite m a b)

/-- The bytes of words with their enables, each byte with its strobe. -/
def strobesOf (ws : List WrWord) : List (Option Byte) :=
  ws.flatMap fun w => (wordBytes w.v).zipIdx.map fun x => if natBits w.be.toNat x.2 1 = 1 then some x.1 else none

/-- A write burst of the boot loader to the NVM or the flash window (R399, R400). (DEDUCED, log 135). -/
def storeWrite (a : Nat) (ps : List (Nat × Byte)) (b : Blk) : Blk :=
  if a < 0x20004000 then { b with nvm := { b.nvm with mem := ps.foldl (fun m p => m.set 0 (p.1 - 0x20000000) p.2) b.nvm.mem } }
  else { b with flash := ps.foldl (fun m p => m.set 255 (p.1 - 0x40000000) p.2) b.flash }

/-- The transaction lies as a whole in the NVM, target T7, or in the flash window, target T8 (R399, R401). -/
def inStore (a n : Nat) : Bool :=
  decide (0x20000000 ≤ a ∧ a + n ≤ 0x20004000) || decide (0x40000000 ≤ a ∧ a + n ≤ 0x50000000)

/-- A write request of words at crossbar address `a` (R398 to R401, R421). -/
def busWrite (m : Master) (a : Nat) (ws : List WrWord) (b : Blk) : Blk :=
  if a < 0x1000000 then splitWrite m a ws b
  else if 0x10000000 ≤ a ∧ a < 0x20000000 then windowWrite m (a - 0x10000000) (strobesOf ws) b
  else if b.sys.mode = .reset ∨ ws = [] then b
  else if m = .m6 ∧ inStore a (4 * ws.length) = true then storeWrite a (strobed a (strobesOf ws)) b
  else decodeErr m true a b

end Sys2Proof.Machine
end

