-- ==== Sys2Proof/Machine/Boot.lean ====
section
/-!
DEFINITION. Loading a boot image and the end of BOOT (R466 to R472, R453).
-/
set_option autoImplicit false

namespace Sys2Proof.Machine

/-! ### The image (R468, R469) -/

/-- `n` bytes of the flash from `a` on; a byte that nothing has written reads 0xFF. -/
def flashBytes (b : Blk) (a n : Nat) : List Byte := (List.range n).map fun i => b.flash.get 255 (a + i)

/-- A word of the flash. -/
def flashWord (b : Blk) (a : Nat) : Nat :=
  (List.range 4).foldl (fun n j => n + (b.flash.get 255 (a + j)).toNat * 256 ^ j) 0

/-- The header of the image at `base` is out of form: cause 1 (R468, R470). -/
def headerBad (b : Blk) (base : Nat) : Bool :=
  let w := fun (i : Nat) => flashWord b (base + 4 * i)
  decide (w 0 ≠ 0x7B1D4608 ∨ w 1 ≠ 1 ∨ w 2 < 32 ∨ 0x800000 < w 2 ∨ w 3 < 1 ∨ 1024 < w 3 ∨ 32 ≤ w 4 ∨ w 6 ≠ 0)

/-- An address of T0 that no section may write: the pages SYS, NVM and FTEST, and every COMMIT register (R469). -/
def barred (a : Nat) : Bool := decide (a / 4096 ∈ [0x00, 0x16, 0xF0] ∨ a % 4096 / 4 * 4 = 0x28)

/-- A DATA section may write its words: they lie in T0 to T6 and not where R469 forbids. -/
def dataFits (dest n : Nat) : Bool :=
  decide (dest % 4 = 0 ∧ n % 4 = 0) && (List.range (n / 4)).all fun i =>
    let a := dest + 4 * i
    if a < 0x1000000 then !barred a else decide (0x10000000 ≤ a) && (bar2Target (a - 0x10000000) 4).isSome

/-- A DATA section's bytes written to BAR2 as bursts of at most 512 bytes, each inside one range (R398, R401).
(DEDUCED, log 112). -/
def dataWindow : Nat → Nat → List Byte → Blk → Blk
  | 0, _, _, b => b
  | n + 1, a, bs, b =>
    if bs = [] then b
    else
      let hi := ((bar2Ranges.find? fun r => decide (r.1 ≤ a ∧ a < r.2.1)).map fun r => r.2.1).getD (a + 512)
      let k := min 512 (hi - a)
      dataWindow n (a + k) (bs.drop k) (windowWrite .m6 a ((bs.take k).map some) b)

/-- Words written one by one to T0 by the boot loader (R398). -/
def dataRegs : Nat → List Word → Blk → Blk
  | _, [], b => b
  | a, v :: t, b => dataRegs (a + 4) t (hostWrite .m6 a v b)

/-- A DATA section copied to its place. (DEDUCED, log 112). -/
def dataSection (dest : Nat) (bs : List Byte) (b : Blk) : Blk :=
  if dest < 0x1000000 then dataRegs dest (bytesWords bs) b else dataWindow bs.length (dest - 0x10000000) bs b

/-- The address and value pairs of a REGS section, written in order; none where one is rejected (R469, R470).
(DEDUCED, log 111). -/
def regsSection : List Word → Blk → Option Blk
  | a :: v :: t, b => if accepted .m6 a.toNat v b then regsSection t (hostWrite .m6 a.toNat v b) else none
  | _, b => some b

/-- Every address of a REGS section is one that R469 allows. -/
def regsFit : List Word → Bool
  | a :: _ :: t => decide (a.toNat < 0x1000000) && !barred a.toNat && regsFit t
  | _ => true

/-- What loading has done: the places that DATA sections wrote, and the block. -/
structure Loading where
  wrote : List (Nat × Nat)
  b : Blk

/-- One section of `typ` (R469): a cause of R470, or the section done. (DEDUCED, log 111). -/
def loadSection (typ dest : Nat) (bs : List Byte) (l : Loading) : Except Nat Loading :=
  match typ with
  | 1 => if dataFits dest bs.length then .ok { wrote := l.wrote ++ [(dest, dest + bs.length)], b := dataSection dest bs l.b }
    else .error 4
  | 2 =>
    if dest ≠ 0 ∨ bs.length % 8 ≠ 0 ∨ regsFit (bytesWords bs) = false then .error 4
    else match regsSection (bytesWords bs) l.b with
      | some b => .ok { l with b := b }
      | none => .error 5
  | 3 =>
    if dest ≠ 0 ∨ bs.length % 4 ≠ 0 then .error 4
    else if ((bytesWords bs).headD 0).bits 16 16 = (Config.plannerRom 0).bits 16 16 then
      .ok { l with b := { l.b with planFw := bytesWords bs } }
    else .error 8
  | _ => .error 4

/-- The result of section `k`, its cause with its number. (DEDUCED, log 111). -/
def atSection (k : Nat) : Except Nat Loading → Except (Nat × Nat) Loading
  | .error c => .error (c, k)
  | .ok l => .ok l

/-- The sections from offset `pos` of the image on: `n` are left, the next is number `k`. A failure carries its cause and
its section (R469, R470). -/
def loadSections (base len : Nat) : Nat → Nat → Nat → Loading → Except (Nat × Nat) Loading
  | 0, k, pos, l => if pos = len then .ok l else .error (3, k - 1)
  | n + 1, k, pos, l =>
    let h := base + pos
    let size := flashWord l.b (h + 8)
    if len < pos + 16 then .error (3, k)
    else if len < pos + 16 + ceilDiv size 4 * 4 then .error (3, k)
    else
      let bs := flashBytes l.b (h + 16) size
      if crc32 bs ≠ flashWord l.b (h + 12) then .error (3, k)
      else (atSection k (loadSection (flashWord l.b h) (flashWord l.b (h + 4)) bs l)).bind
        (loadSections base len n (k + 1) (pos + 16 + ceilDiv size 4 * 4))

/-! ### The commits of an image (R471) -/

/-- A DATA section wrote into `[lo, hi)` of the crossbar's addresses. -/
def Loading.into (l : Loading) (lo hi : Nat) : Bool := l.wrote.any fun r => decide (r.1 < hi ∧ lo < r.2)

/-- A table that was written is checked as its COMMIT would check it, and becomes live; none where the check fails. The
modes in which a host may commit do not bind the boot loader. -/
def bootCommit (wrote : Bool) (errs : List Nat) (f : Blk → Blk) (b : Blk) : Option Blk :=
  if wrote = false then some b else if errs.any fun c => c != 2 then none else some (f b)

/-- The indices below `n` that hold, committed one after the other. (DEDUCED, log 112). -/
def bootCommits (wrote : Nat → Bool) (errs : Nat → Blk → List Nat) (f : Nat → Blk → Blk) (n : Nat) (b : Blk) : Option Blk :=
  (List.range n).foldl (fun o i => o.bind fun b => bootCommit (wrote i) (errs i b) (f i) b) (some b)

/-- The commits after the last section, in the order of R471. -/
def bootTables (l : Loading) : Option Blk :=
  let one : Nat → Word := fun i => BitVec.ofNat 32 (2 ^ i)
  let t : Nat := 0x10000000
  (bootCommit (l.into t (t + 0x90000) || l.into (t + 0x200000) (t + 0x248000)) (fabricCommitErrs 1 l.b) takeElements l.b).bind fun b =>
  let b := xtCrcDone b
  (bootCommit (l.into (t + 0x100000) (t + 0x200000)) (planCommitErrs 1 b) takeCrosstalk b).bind fun b =>
  (bootCommit (l.into (t + 0x248000) (t + 0x250000)) (planCommitErrs 2 b) takeShapes b).bind fun b =>
  (bootCommits (fun c => l.into (0xC0100 + 32 * c) (0xC0120 + 32 * c)) (fun c b => lclassCommitErrs (one c) b) takeClass 16 b).bind fun b =>
  (bootCommits (fun s => l.into (t + 0x280000 + 4096 * s) (t + 0x281000 + 4096 * s) || l.into (t + 0x2A0000 + 16 * s) (t + 0x2A0010 + 16 * s))
    (fun s b => routeCommitErrs (one s) b) takeSlot 32 b).bind fun b =>
  (bootCommits (fun n => l.into (t + 0x440000 + 4096 * n) (t + 0x441000 + 4096 * n)) (fun n b => snsCommitErrs n 1 b) takeOffsets 9 b).bind fun b =>
  (bootCommit (l.into 0xA0400 0xA0600) (snsCommitErrs 0 2 b) takeRtds b).bind fun b =>
  bootCommit (l.into (t + 0x300000) (t + 0x304210)) (progCommitErrs 1 b) takeProgram b

/-- The image of `n` sections whose tables are committed, or cause 6 (R470). -/
def imageTables (n ver : Nat) : Option Blk → Except (Nat × Nat) Blk
  | none => .error (6, n)
  | some c => .ok (setF Reg.SYS.IMAGE_VER.VER ver c)

/-- The image at flash address `base`: loaded and committed, or the cause and the section of its failure (R468 to R471).
(DEDUCED, log 110). -/
def loadImage (base : Nat) (b : Blk) : Except (Nat × Nat) Blk :=
  let w := fun (i : Nat) => flashWord b (base + 4 * i)
  if headerBad b base then .error (1, 0)
  else if crc32 (flashBytes b base 28) ≠ w 7 then .error (2, 0)
  else (loadSections base (w 2) (w 3) 1 32 { wrote := [], b := b }).bind fun l => imageTables (w 3) (w 5) (bootTables l)

/-- BOOT_STAT after an image (R470): what a failed image changed is as it was before in `b`. (DEDUCED, log 110). -/
def imageResult (result : Nat) (b : Blk) : Except (Nat × Nat) Blk → Blk
  | .ok c => setF Reg.SYS.BOOT_STAT.RESULT result c
  | .error e => setF Reg.SYS.BOOT_STAT.RESULT 3 (setF Reg.SYS.BOOT_STAT.SECTION e.2 (setF Reg.SYS.BOOT_STAT.CAUSE e.1 b))

/-- One image tried after those before it: BOOT_STAT shows the failure of the last image tried (R470).
(DEDUCED, log 110). -/
def tryImage (result base : Nat) (answers : Bool) (b : Blk) : Blk :=
  if getF b Reg.SYS.BOOT_STAT.RESULT = 1 then b
  else imageResult result b (if answers then loadImage base b else .error (7, 0))

/-- The images that BOOTSEL selects (R466, R470). -/
def bootLoad (x : BootIn) (b : Blk) : Blk :=
  match getF b Reg.SYS.BOOT_STAT.BOOTSEL with
  | 0 => tryImage 2 0x800000 x.second (tryImage 1 0 x.first b)
  | 3 => tryImage 2 0 x.second (tryImage 1 0x800000 x.first b)
  | _ => b

/-- BOOT is left (R453): for SAFE where a source of class SAFE is latched, for FACTORY_TEST where TMODE was high, else for
IDLE. (DEDUCED, log 108; DEDUCED, log 113). -/
def leaveBoot (b : Blk) : Blk :=
  if latchedClass b [3, 4] then raiseAll clearedSources (lifeAdd 3 1 (enterMode .safe (clearBanks b)))
  else setMode (if b.sys.tmode then .factoryTest else .idle) b

/-- BOOT_COMPLETE: every step of BOOT has ended, the self-test pass and its migrations among them; M6 is reset (R366, R409, R467).
(DEDUCED, log 109; DEDUCED, log 113). -/
def bootComplete (x : BootIn) (b : Blk) : Blk :=
  if b.sys.mode ≠ .boot ∨ b.sys.tested = false ∨ b.red.migr ≠ [] then b
  else
    let b := bootLoad x b
    leaveBoot (setF Reg.SYS.BOOT_TIME.US (b.q / 4000) (masterReset 6 x.m6 b))

/-- BOOT_COMPLETE. -/
def execBootComplete (x : BootIn) (s : State) : Host.Outcome State Fault Refusal := .next { s with b := bootComplete x s.b }

end Sys2Proof.Machine
end

