-- ==== Sys2Proof/Machine/Read.lean ====
section
/-!
DEFINITION. Reads over the crossbar (R13, R129, R193, R197, R268, R317, R398 to R401, R407, R411 to R414, R422, R476, R483, R494).
-/
set_option autoImplicit false

namespace Sys2Proof.Machine

/-- A master may read a target (R400). -/
def mayRead (m : Master) (t : Nat) : Bool :=
  match m with
  | .m0 => decide (t ≤ 6)
  | .m1 => t == 0
  | .m2 => t == 0 || t == 4
  | .m3 => decide (t ≤ 4)
  | .m4 => false
  | .m5 => t == 0 || t == 4 || t == 6
  | .m6 => true

/-- The status with which a memory read over PCIe completes (R422): 0 successful, 1 Unsupported Request, 4 Completer Abort. -/
def completionStatus (code : Nat) : Nat := if code = 0 then 0 else if code = 0x20 then 1 else 4

/-- A read of M0 completes over PCIe with the first error code of its words (R422). (DEDUCED, log 144). -/
def complete (m : Master) (codes : List Nat) (b : Blk) : Blk :=
  if m = .m0 then send (.completion (completionStatus ((codes.find? fun c => c != 0).getD 0))) b else b

/-- The 32-bit words that `n` bytes from address `a` touch. -/
def wordsTouched (a n : Nat) : List Nat := (List.range ((a + n + 3) / 4 - a / 4)).map fun k => a / 4 * 4 + 4 * k

/-- The code with which a word of a T0 read is answered: 0x20 where no page is listed, 0x05 where the access does not read the word
whole (R13, R398, R476, R483). -/
def regReadCode (m : Master) (a n w : Nat) : Nat :=
  if m = .m4 ∨ pgOf (w / 4096) = none then 0x20 else if a ≤ w ∧ w + 4 ≤ a + n then 0 else 5

/-- One word of a T0 read: its code, its data, and what reading it does (R268, R317, R401, R416, R483). -/
def regRead (m : Master) (code w : Nat) (b : Blk) : Blk :=
  if code = 0x20 then send (.answer m w 0x20 0) (decodeErr m false w b)
  else if code ≠ 0 then send (.answer m w code 0) b
  else if w = 0x4048 then nowNsRead m b
  else if w = 0x1C06C then mevtRead m b
  else
    let v := (readReg b w).getD 0
    let x := if w / 4096 = 0x19 then latRead (w % 4096) v b else (v, b)
    send (.answer m w 0 (BitVec.ofNat 32 x.1)) x.2

/-- A read of master `m` of target `t` at BAR2 offset `a` returns the live copy: the contexts, the acquisition buffer, and for M3 the
element table, curves, crosstalk table and step shapes (R197, R407). (DEDUCED, log 145). -/
def readsLive (m : Master) (t a : Nat) : Bool :=
  isContext a || t == 5 || (m == .m3 && decide (t ≤ 3 ∧ a < 0x440000))

/-- The protected words of target `t` in BAR2 bytes `[lo, hi)`, of the copy read (R411). -/
def beatWord (t : Nat) (live : Bool) (lo hi : Nat) (w : EccWord) : Bool :=
  decide (w.mem.val = t ∧ (w.live = live ∨ t = 5) ∧ lo < eccOff w + 8 ∧ eccOff w < hi)

/-- The code of a table word: 0x17 where its beat holds a double-bit error (R412). -/
def tableCode (t : Nat) (live : Bool) (b : Blk) (w : Nat) : Nat :=
  if b.xb.double.any (beatWord t live (w / 16 * 16) (w / 16 * 16 + 16)) then 0x17 else 0

/-- A read of `n` bytes of target `t` at BAR2 offset `a` (R407, R411, R412, R414). -/
def tableRead (m : Master) (t a n : Nat) (b : Blk) : Blk :=
  let live := readsLive m t a
  let ws := wordsTouched a n
  let codes := ws.map (tableCode t live b)
  let b := eccFind (fun w => some (masterNo m, 1, w.addr.toNat)) (beatWord t live (a / 16 * 16) ((a + n + 15) / 16 * 16)) b
  let mem := if live then b.live else b.shadow
  complete m codes ((ws.zip codes).foldl (fun b x =>
    send (.answer m (0x10000000 + x.1) x.2 (BitVec.ofNat 32 (if x.2 = 0 then rdW mem x.1 else 0))) b) b)

/-- A read of the boot loader of the NVM or the flash window (R399, R400). -/
def storeRead (m : Master) (a n : Nat) (b : Blk) : Blk :=
  let byte := fun (i : Nat) => if i < 0x20004000 then nvmByte b (i - 0x20000000) else flashByte b (i - 0x40000000)
  (wordsTouched a n).foldl (fun b w =>
    send (.answer m w 0 (BitVec.ofNat 32 ((List.range 4).foldl (fun v j => v + (byte (w + j)).toNat * 256 ^ j) 0))) b) b

/-- A transaction that T9 answers as a whole (R401). -/
def readRefused (m : Master) (a n : Nat) (b : Blk) : Blk :=
  complete m [0x20] ((wordsTouched a n).foldl (fun b w => send (.answer m w 0x20 0) b) (decodeErr m false a b))

/-- A read request of `n` bytes at crossbar address `a`, answered word by word in ascending order; in RESET it returns 0 (R398 to
R401, R407, R483, R494). -/
def busRead (m : Master) (a n : Nat) (b : Blk) : Blk :=
  if b.sys.mode = .reset then send (.answer m a 0 0) b
  else if a < 0x1000000 then
    let ws := wordsTouched a n
    complete m (ws.map (regReadCode m a n)) (ws.foldl (fun b w => regRead m (regReadCode m a n w) w b) b)
  else
    match (if 0x10000000 ≤ a ∧ a < 0x20000000 then (bar2Target (a - 0x10000000) n).filter (mayRead m) else none) with
    | some t => tableRead m t (a - 0x10000000) n b
    | none => if m = .m6 ∧ inStore a n = true then storeRead m a n b else readRefused m a n b

end Sys2Proof.Machine
end

