-- ==== Sys2Proof/Machine/Cmds.lean ====
section
/-!
DEFINITION. The commands that are writes of one register: which register each writes, and with what value.
-/
set_option autoImplicit false

namespace Sys2Proof.Machine

/-- A write by the host of register `off` of page `page`. -/
def pageWrite (page off : Nat) (v : Word) (b : Blk) : Blk := hostWrite .m0 (page * 4096 + off) v b

/-- A write of words: over the crossbar, or of a register of the function's configuration space, which has no step of its own
(R398, R420, R431). (PRESUMED, log 136). -/
def wordsWrite (m : Master) (a : WrTo) (ws : List WrWord) (b : Blk) : Blk :=
  match a with
  | .bus a => busWrite m a ws b
  | .config r => configWrite r ws b

/-- REGISTER_WRITE (R13 to R16, R398 to R401, R421, R478). -/
def execRegisterWrite (m : Master) (a : WrTo) (ws : List WrWord) (s : State) : Host.Outcome State Fault Refusal :=
  .next { s with b := wordsWrite m a ws s.b }

/-- ERR_COUNT_CLEAR (R482). -/
def execErrCountClear (m : Master) (page : Fin 512) (v : Word) (s : State) : Host.Outcome State Fault Refusal :=
  .next { s with b := hostWrite m (page.val * 4096 + 0x24) v s.b }

/-- EVENT_LATCH_CLEAR (R348, R349): `a` is the address of a latch register. -/
def execEventLatchClear (m : Master) (a : Nat) (v : Word) (s : State) : Host.Outcome State Fault Refusal :=
  .next { s with b := hostWrite m a v s.b }

/-- LAUNCH_SHADOW_WRITE (R82): the launch shadow and the ARM words of bank `n`. -/
def execLaunchShadowWrite (m : Master) (n : Fin 18) (off : BitVec 12) (v : Word) (s : State) : Host.Outcome State Fault Refusal :=
  .next { s with b := hostWrite m ((0x80 + n.val) * 4096 + off.toNat) v s.b }

/-- NOW_NS_READ (R268): a read of 0x4048. A read of any other address is a read transaction too, for which the table
has no row of its own. (DESIGN CHOICE, log 146). -/
def execNowNsRead (x : ReadReq) (s : State) : Host.Outcome State Fault Refusal :=
  .next { s with b := busRead x.m x.addr x.len s.b }

/-- MEVT_READ (R317): a read of 0x1C06C. -/
def execMevtRead (m : Master) (s : State) : Host.Outcome State Fault Refusal := .next { s with b := busRead m 0x1C06C 4 s.b }

/-- A write of the CFG of ETH port `p` (R409, R434): disabling the port ends the traffic of M1 on it. -/
def ethCfgWrite (p : Nat) (v : Word) (x : MstReset) (b : Blk) : Blk :=
  let a := (0x1E + p) * 4096 + 0x40
  if accepted .m0 a v b && !v.bit 0 then masterReset 1 x (hostWrite .m0 a v b) else hostWrite .m0 a v b

/-- ETH_CFG_WRITE (R434). -/
def execEthCfgWrite (p : Fin 2) (v : Word) (x : MstReset) (s : State) : Host.Outcome State Fault Refusal :=
  .next { s with b := ethCfgWrite p.val v x s.b }

/-- A loop command word (R156): target, scope and operation. -/
def loopWord (op : Nat) (scope : Fin 4) (target : BitVec 13) : Word :=
  BitVec.ofNat 32 (target.toNat + scope.val * 8192 + op * 65536)

/-- SCHED_CANCEL (R251). -/
def execSchedCancel (v : Word) (s : State) : Host.Outcome State Fault Refusal := .next { s with b := pageWrite 0x08 0x74 v s.b }

/-- BUDGET_WRITE (R243). -/
def execBudgetWrite (v : Word) (s : State) : Host.Outcome State Fault Refusal := .next { s with b := pageWrite 0x08 0x44 v s.b }

/-- RETIRE_CLR (R257). -/
def execRetireClr (v : Word) (s : State) : Host.Outcome State Fault Refusal := .next { s with b := pageWrite 0x09 0x50 v s.b }

/-- FABRIC_COMMIT (R46, R486). -/
def execFabricCommit (v : Word) (s : State) : Host.Outcome State Fault Refusal := .next { s with b := pageWrite 0x0C 0x28 v s.b }

/-- ROUTE_COMMIT (R56, R486). -/
def execRouteCommit (v : Word) (s : State) : Host.Outcome State Fault Refusal := .next { s with b := pageWrite 0x0B 0x28 v s.b }

/-- ROUTE_TRY (R62). -/
def execRouteTry (v : Word) (s : State) : Host.Outcome State Fault Refusal := .next { s with b := pageWrite 0x0B 0x54 v s.b }

/-- PLAN_COMMIT_XT (R230, R486). -/
def execPlanCommitXt (s : State) : Host.Outcome State Fault Refusal := .next { s with b := pageWrite 0x0A 0x28 1 s.b }

/-- PLAN_COMMIT_STEP (R230, R486). -/
def execPlanCommitStep (s : State) : Host.Outcome State Fault Refusal := .next { s with b := pageWrite 0x0A 0x28 2 s.b }

/-- LCLASS_COMMIT (R163, R486). -/
def execLclassCommit (v : Word) (s : State) : Host.Outcome State Fault Refusal := .next { s with b := pageWrite 0xC0 0x28 v s.b }

/-- SNS_COMMIT_OFS (R127, R486). -/
def execSnsCommitOfs (n : Fin 9) (s : State) : Host.Outcome State Fault Refusal := .next { s with b := pageWrite (0xA0 + n.val) 0x28 1 s.b }

/-- SNS_COMMIT_RTD (R127, R486). -/
def execSnsCommitRtd (s : State) : Host.Outcome State Fault Refusal := .next { s with b := pageWrite 0xA0 0x28 2 s.b }

/-- PROG_COMMIT (R195, R486). -/
def execProgCommit (s : State) : Host.Outcome State Fault Refusal := .next { s with b := pageWrite 0x20 0x28 1 s.b }

/-- XT_SH_WRITE (R232). -/
def execXtShWrite (v : Word) (s : State) : Host.Outcome State Fault Refusal := .next { s with b := pageWrite 0x0A 0x40 v s.b }

/-- EPS_LOCK_WRITE (R232). -/
def execEpsLockWrite (v : Word) (s : State) : Host.Outcome State Fault Refusal := .next { s with b := pageWrite 0x0A 0x44 v s.b }

/-- DLOG_RP_WRITE (R229). -/
def execDlogRpWrite (v : Word) (s : State) : Host.Outcome State Fault Refusal := .next { s with b := pageWrite 0x0A 0x78 v s.b }

/-- DLOG_LOST_CLEAR (R232). -/
def execDlogLostClear (s : State) : Host.Outcome State Fault Refusal := .next { s with b := pageWrite 0x0A 0x7C 0x80000000 s.b }

/-- OPEN (R156, R157). -/
def execOpenLoops (scope : Fin 4) (target : BitVec 13) (s : State) : Host.Outcome State Fault Refusal := .next { s with b := pageWrite 0xC0 0x40 (loopWord 1 scope target) s.b }

/-- CLOSE (R156, R157). -/
def execCloseLoops (scope : Fin 4) (target : BitVec 13) (s : State) : Host.Outcome State Fault Refusal := .next { s with b := pageWrite 0xC0 0x40 (loopWord 2 scope target) s.b }

/-- PARK (R156, R157). -/
def execPark (scope : Fin 4) (target : BitVec 13) (s : State) : Host.Outcome State Fault Refusal := .next { s with b := pageWrite 0xC0 0x40 (loopWord 3 scope target) s.b }

/-- LCLASS_FIRST_CLEAR (R165). -/
def execLclassFirstClear (s : State) : Host.Outcome State Fault Refusal := .next { s with b := pageWrite 0xC0 0x64 0x80000000 s.b }

/-- DIAG_CLEAR (R206). -/
def execDiagClear (e : Fin 68) (s : State) : Host.Outcome State Fault Refusal := .next { s with b := pageWrite (0x20 + e.val) 0x4C 0x80000000 s.b }

/-- RAIL_CHANGE (R71). -/
def execRailChange (n : Fin 18) (v : Word) (s : State) : Host.Outcome State Fault Refusal := .next { s with b := pageWrite (0x80 + n.val) 0x40 v s.b }

/-- SPAN_WRITE (R75). -/
def execSpanWrite (n : Fin 18) (i : Fin 8) (v : Word) (s : State) : Host.Outcome State Fault Refusal := .next { s with b := pageWrite (0x80 + n.val) (0x80 + 4 * i.val) v s.b }

/-- DRV_EN_WRITE (R86). -/
def execDrvEnWrite (n : Fin 18) (v : Word) (s : State) : Host.Outcome State Fault Refusal := .next { s with b := pageWrite (0x80 + n.val) 0x08 v s.b }

/-- REARM (R89). -/
def execRearm (n : Fin 18) (s : State) : Host.Outcome State Fault Refusal := .next { s with b := pageWrite (0x80 + n.val) 0x48 1 s.b }

/-- MTR_PEAK_CLEAR (R95). -/
def execMtrPeakClear (n : Fin 18) (s : State) : Host.Outcome State Fault Refusal := .next { s with b := pageWrite (0x80 + n.val) 0x58 0x80000000 s.b }

/-- HOST_CODE_WRITE (R93). -/
def execHostCodeWrite (n : Fin 18) (row : Fin 256) (v : Word) (s : State) : Host.Outcome State Fault Refusal := .next { s with b := pageWrite (0x80 + n.val) (0x400 + 4 * row.val) v s.b }

/-- PD_BIAS_CHANGE (R99). -/
def execPdBiasChange (n : Fin 9) (v : Word) (s : State) : Host.Outcome State Fault Refusal := .next { s with b := pageWrite (0xA0 + n.val) 0x40 v s.b }

/-- SNS_FIRST_CLEAR (R128). -/
def execSnsFirstClear (n : Fin 9) (s : State) : Host.Outcome State Fault Refusal := .next { s with b := pageWrite (0xA0 + n.val) 0x5C 0x80000000 s.b }

/-- TIME_CFG_WRITE (R269). -/
def execTimeCfgWrite (v : Word) (s : State) : Host.Outcome State Fault Refusal := .next { s with b := pageWrite 0x04 0x40 v s.b }

/-- INCR_WRITE (R267). -/
def execIncrWrite (v : Word) (s : State) : Host.Outcome State Fault Refusal := .next { s with b := pageWrite 0x04 0x44 v s.b }

/-- SET_GO (R277). -/
def execSetGo (v : Word) (s : State) : Host.Outcome State Fault Refusal := .next { s with b := pageWrite 0x04 0x6C v s.b }

/-- ADJ (R277). -/
def execAdj (v : Word) (s : State) : Host.Outcome State Fault Refusal := .next { s with b := pageWrite 0x04 0x70 v s.b }

/-- PAUSE_CLR (R276). -/
def execPauseClr (s : State) : Host.Outcome State Fault Refusal := .next { s with b := pageWrite 0x04 0x78 1 s.b }

/-- CMD_TAIL_WRITE (R424). -/
def execCmdTailWrite (v : Word) (s : State) : Host.Outcome State Fault Refusal := .next { s with b := pageWrite 0x1D 0x54 v s.b }

/-- CMD_CFG_WRITE (R426). -/
def execCmdCfgWrite (v : Word) (s : State) : Host.Outcome State Fault Refusal := .next { s with b := pageWrite 0x1D 0x50 v s.b }

/-- CPL_RP_WRITE (R429). -/
def execCplRpWrite (v : Word) (s : State) : Host.Outcome State Fault Refusal := .next { s with b := pageWrite 0x1D 0x6C v s.b }

/-- QSPI_READ (R443). -/
def execQspiRead (s : State) : Host.Outcome State Fault Refusal := .next { s with b := pageWrite 0x1D 0xA4 0x80000001 s.b }

/-- QSPI_PROGRAM (R443). -/
def execQspiProgram (s : State) : Host.Outcome State Fault Refusal := .next { s with b := pageWrite 0x1D 0xA4 0x80000002 s.b }

/-- ERASE4K (R443). -/
def execErase4k (s : State) : Host.Outcome State Fault Refusal := .next { s with b := pageWrite 0x1D 0xA4 0x80000003 s.b }

/-- ERASE64K (R443). -/
def execErase64k (s : State) : Host.Outcome State Fault Refusal := .next { s with b := pageWrite 0x1D 0xA4 0x80000004 s.b }

/-- A write of GLEW.CFG (R300, R409): disabling the link resets M5 where a port was in RUN. -/
def glewCfgWrite (v : Word) (x : MstReset) (b : Blk) : Blk :=
  if accepted .m0 0x1C040 v b && !v.bit 0 && (portState b .up == 5 || portState b .dn == 5) then
    masterReset 5 x (hostWrite .m0 0x1C040 v b)
  else hostWrite .m0 0x1C040 v b

/-- GLEW_CFG_WRITE (R300, R319). -/
def execGlewCfgWrite (x : GlewCfgIn) (s : State) : Host.Outcome State Fault Refusal :=
  .next { s with b := glewCfgWrite x.v x.reset s.b }

/-- ACQ_RUN (R330). -/
def execAcqRun (s : State) : Host.Outcome State Fault Refusal := .next { s with b := pageWrite 0x1A 0x40 1 s.b }

/-- ACQ_STOP (R330). -/
def execAcqStop (s : State) : Host.Outcome State Fault Refusal := .next { s with b := pageWrite 0x1A 0x40 0 s.b }

/-- ACQ_RP_WRITE (R331). -/
def execAcqRpWrite (v : Word) (s : State) : Host.Outcome State Fault Refusal := .next { s with b := pageWrite 0x1A 0x54 v s.b }

/-- ARM (R339). -/
def execArm (s : State) : Host.Outcome State Fault Refusal := .next { s with b := pageWrite 0x1B 0x40 1 s.b }

/-- DISARM (R339). -/
def execDisarm (s : State) : Host.Outcome State Fault Refusal := .next { s with b := pageWrite 0x1B 0x40 2 s.b }

/-- FORCE (R334). -/
def execForce (s : State) : Host.Outcome State Fault Refusal := .next { s with b := pageWrite 0x1B 0x40 4 s.b }

/-- EVT_CNT_CLR (R376). -/
def execEvtCntClr (s : State) : Host.Outcome State Fault Refusal := .next { s with b := pageWrite 0x10 0x50 1 s.b }

/-- EVT_FORCE (R374). -/
def execEvtForce (page : Fin 512) (v : Word) (s : State) : Host.Outcome State Fault Refusal := .next { s with b := pageWrite page.val 0x1C v s.b }

/-- REACT_TABLE_WRITE (R352). -/
def execReactTableWrite (w : Fin 288) (v : Word) (s : State) : Host.Outcome State Fault Refusal := .next { s with b := pageWrite 0x11 (0x400 + 4 * w.val) v s.b }

/-- REACT_LOCK (R352). -/
def execReactLock (s : State) : Host.Outcome State Fault Refusal := .next { s with b := pageWrite 0x11 0x40 1 s.b }

/-- FCAP_CLEAR (R353). -/
def execFcapClear (s : State) : Host.Outcome State Fault Refusal := .next { s with b := pageWrite 0x12 0x40 1 s.b }

/-- KICK (R357). -/
def execKick (v : Word) (s : State) : Host.Outcome State Fault Refusal := .next { s with b := pageWrite 0x13 0x44 v s.b }

/-- ALIVE_CFG_WRITE (R357, R379). -/
def execAliveCfgWrite (v : Word) (s : State) : Host.Outcome State Fault Refusal := .next { s with b := pageWrite 0x13 0x40 v s.b }

/-- CHK_MIGRATE (R365). -/
def execChkMigrate (v : Word) (s : State) : Host.Outcome State Fault Refusal := .next { s with b := pageWrite 0x20 0xA8 v s.b }

/-- KEY_PROG (R372). -/
def execKeyProg (v : Word) (s : State) : Host.Outcome State Fault Refusal := .next { s with b := pageWrite 0x16 0x80 v s.b }

/-- ENG_FLIP (R374, R382). -/
def execEngFlip (v : Word) (s : State) : Host.Outcome State Fault Refusal := .next { s with b := pageWrite 0xF0 0x40 v s.b }

/-- SEQ_FLIP (R374, R382). -/
def execSeqFlip (v : Word) (s : State) : Host.Outcome State Fault Refusal := .next { s with b := pageWrite 0xF0 0x44 v s.b }

/-- ECC_INJECT (R374, R382). -/
def execEccInject (v : Word) (s : State) : Host.Outcome State Fault Refusal := .next { s with b := pageWrite 0xF0 0x48 v s.b }

/-- ADC_HOLD (R374, R382). -/
def execAdcHold (v : Word) (s : State) : Host.Outcome State Fault Refusal := .next { s with b := pageWrite 0xF0 0x4C v s.b }

/-- ST_FAIL (R374, R382). -/
def execStFail (v : Word) (s : State) : Host.Outcome State Fault Refusal := .next { s with b := pageWrite 0xF0 0x50 v s.b }

/-- SHUT_CLR (R392). -/
def execShutClr (s : State) : Host.Outcome State Fault Refusal := .next { s with b := pageWrite 0x14 0x68 1 s.b }

/-- SENSOR_REINCLUDE (R386). -/
def execSensorReinclude (i : Fin 3) (v : Word) (s : State) : Host.Outcome State Fault Refusal := .next { s with b := pageWrite 0x14 (0x58 + 4 * i.val) v s.b }

/-- XBAR_CLEAR_ORPHAN (R418). -/
def execXbarClearOrphan (s : State) : Host.Outcome State Fault Refusal := .next { s with b := pageWrite 0x18 0x70 1 s.b }

/-- XBAR_CLEAR_DEC (R418). -/
def execXbarClearDec (s : State) : Host.Outcome State Fault Refusal := .next { s with b := pageWrite 0x18 0x70 2 s.b }

/-- XBAR_CLEAR_ECC (R418). -/
def execXbarClearEcc (s : State) : Host.Outcome State Fault Refusal := .next { s with b := pageWrite 0x18 0x70 4 s.b }

/-- MON_CLEAR (R417). -/
def execMonClear (v : Word) (s : State) : Host.Outcome State Fault Refusal := .next { s with b := pageWrite 0x19 0x40 v s.b }

/-- MODE_REQ_IDLE (R453, R455). -/
def execModeReqIdle (s : State) : Host.Outcome State Fault Refusal := .next { s with b := pageWrite 0x00 0x40 2 s.b }

/-- MODE_REQ_CALIBRATE (R453, R455). -/
def execModeReqCalibrate (s : State) : Host.Outcome State Fault Refusal := .next { s with b := pageWrite 0x00 0x40 3 s.b }

/-- MODE_REQ_OPEN_HOLD (R453, R455). -/
def execModeReqOpenHold (s : State) : Host.Outcome State Fault Refusal := .next { s with b := pageWrite 0x00 0x40 4 s.b }

/-- MODE_REQ_TRACK (R453, R455). -/
def execModeReqTrack (s : State) : Host.Outcome State Fault Refusal := .next { s with b := pageWrite 0x00 0x40 5 s.b }

/-- MODE_REQ_SAFE (R453, R455). -/
def execModeReqSafe (s : State) : Host.Outcome State Fault Refusal := .next { s with b := pageWrite 0x00 0x40 9 s.b }

/-- MODE_REQ_OTHER (R455). -/
def execModeReqOther (code : BitVec 4) (s : State) : Host.Outcome State Fault Refusal := .next { s with b := pageWrite 0x00 0x40 (code.setWidth 32) s.b }

/-- SOFT_RESET (R462). -/
def execSoftReset (s : State) : Host.Outcome State Fault Refusal := .next { s with b := pageWrite 0x00 0x4C 0xA5C3 s.b }

end Sys2Proof.Machine
end

