-- ==== Sys2Proof/Machine/Dispatch.lean ====
section
/-! DEFINITION. What each command does: one arm per constructor of `Instr`, in the order of the table. -/

namespace Sys2Proof.Machine

/-- The effect of command `i` on state `s`. (DESIGN CHOICE, log 2). -/
def exec (i : Instr) (s : State) : Host.Outcome State Fault Refusal :=
  match i with
  | .registerWrite m a ws => Sys2Proof.Machine.execRegisterWrite m a ws s
  | .errCountClear m page v => Sys2Proof.Machine.execErrCountClear m page v s
  | .loopTick t => Sys2Proof.Machine.execLoopTick t s
  | .engineSlot e sl => Sys2Proof.Machine.execEngineSlot e sl s
  | .nop u k md a c => Sys2Proof.Machine.execNop u k md a c s
  | .mac u k md a c => Sys2Proof.Machine.execMac u k md a c s
  | .msu u k md a c => Sys2Proof.Machine.execMsu u k md a c s
  | .mul u k md a c => Sys2Proof.Machine.execMul u k md a c s
  | .mova u k md a c => Sys2Proof.Machine.execMova u k md a c s
  | .addx u k md a c => Sys2Proof.Machine.execAddx u k md a c s
  | .aop u k md a c => Sys2Proof.Machine.execAop u k md a c s
  | .sha u k md a c => Sys2Proof.Machine.execSha u k md a c s
  | .ftapm u k md a c => Sys2Proof.Machine.execFtapm u k md a c s
  | .clamp u k md a c => Sys2Proof.Machine.execClamp u k md a c s
  | .cmpsel u k md a c => Sys2Proof.Machine.execCmpsel u k md a c s
  | .norm u k md a c => Sys2Proof.Machine.execNorm u k md a c s
  | .rcp u k md a c => Sys2Proof.Machine.execRcp u k md a c s
  | .satd u k md a c => Sys2Proof.Machine.execSatd u k md a c s
  | .controlNop u => Sys2Proof.Machine.execControlNop u s
  | .ld u d p m => Sys2Proof.Machine.execLd u d p m s
  | .ldw u d p m => Sys2Proof.Machine.execLdw u d p m s
  | .ldv u d p m => Sys2Proof.Machine.execLdv u d p m s
  | .lda u a p m => Sys2Proof.Machine.execLda u a p m s
  | .std u d p m => Sys2Proof.Machine.execStd u d p m s
  | .stw u d p m => Sys2Proof.Machine.execStw u d p m s
  | .stv u d p m => Sys2Proof.Machine.execStv u d p m s
  | .sta u a p m => Sys2Proof.Machine.execSta u a p m s
  | .stS u a sh rm uns toMem d p m => Sys2Proof.Machine.execStS u a sh rm uns toMem d p m s
  | .movi u d imm => Sys2Proof.Machine.execMovi u d imm s
  | .alu u d x y fn => Sys2Proof.Machine.execAlu u d x y fn s
  | .alui u d x fn imm => Sys2Proof.Machine.execAlui u d x fn imm s
  | .cmpd u f cond uns x y => Sys2Proof.Machine.execCmpd u f cond uns x y s
  | .flog u f fn fa fb => Sys2Proof.Machine.execFlog u f fn fa fb s
  | .skip u f neg n alw => Sys2Proof.Machine.execSkip u f neg n alw s
  | .setp u reg x imm => Sys2Proof.Machine.execSetp u reg x imm s
  | .pwlin u d x y p => Sys2Proof.Machine.execPwlin u d x y p s
  | .pha u d src k => Sys2Proof.Machine.execPha u d src k s
  | .out u dh dt => Sys2Proof.Machine.execOut u dh dt s
  | .sel u d x y f => Sys2Proof.Machine.execSel u d x y f s
  | .rep u n count => Sys2Proof.Machine.execRep u n count s
  | .extinctionCheck e j rawA rawB => Sys2Proof.Machine.execExtinctionCheck e j rawA rawB s
  | .inputFrozen x => Sys2Proof.Machine.execInputFrozen x s
  | .ditherWindowEnd e => Sys2Proof.Machine.execDitherWindowEnd e s
  | .biasFault n => Sys2Proof.Machine.execBiasFault n s
  | .trmIlim e => Sys2Proof.Machine.execTrmIlim e s
  | .meterMillisecond => Sys2Proof.Machine.execMeterMillisecond s
  | .frameAdmission => Sys2Proof.Machine.execFrameAdmission s
  | .routeSolve => Sys2Proof.Machine.execRouteSolve s
  | .routeSolveDone => Sys2Proof.Machine.execRouteSolveDone s
  | .planStart => Sys2Proof.Machine.execPlanStart s
  | .planComplete => Sys2Proof.Machine.execPlanComplete s
  | .sequencerVote c => Sys2Proof.Machine.execSequencerVote c s
  | .comparatorMatch => Sys2Proof.Machine.execComparatorMatch s
  | .deliveryWindowClose => Sys2Proof.Machine.execDeliveryWindowClose s
  | .completionEvent => Sys2Proof.Machine.execCompletionEvent s
  | .schedCancel v => Sys2Proof.Machine.execSchedCancel v s
  | .budgetWrite v => Sys2Proof.Machine.execBudgetWrite v s
  | .retireClr v => Sys2Proof.Machine.execRetireClr v s
  | .fabricCommit v => Sys2Proof.Machine.execFabricCommit v s
  | .routeCommit v => Sys2Proof.Machine.execRouteCommit v s
  | .routeTry v => Sys2Proof.Machine.execRouteTry v s
  | .planCommitXt => Sys2Proof.Machine.execPlanCommitXt s
  | .planCommitStep => Sys2Proof.Machine.execPlanCommitStep s
  | .lclassCommit v => Sys2Proof.Machine.execLclassCommit v s
  | .snsCommitOfs n => Sys2Proof.Machine.execSnsCommitOfs n s
  | .snsCommitRtd => Sys2Proof.Machine.execSnsCommitRtd s
  | .progCommit => Sys2Proof.Machine.execProgCommit s
  | .tableWrite m a bytes => Sys2Proof.Machine.execTableWrite m a bytes s
  | .contextWrite m a bytes => Sys2Proof.Machine.execContextWrite m a bytes s
  | .xtCrcDone => Sys2Proof.Machine.execXtCrcDone s
  | .xtShWrite v => Sys2Proof.Machine.execXtShWrite v s
  | .epsLockWrite v => Sys2Proof.Machine.execEpsLockWrite v s
  | .dlogRpWrite v => Sys2Proof.Machine.execDlogRpWrite v s
  | .dlogLostClear => Sys2Proof.Machine.execDlogLostClear s
  | .openLoops scope target => Sys2Proof.Machine.execOpenLoops scope target s
  | .closeLoops scope target => Sys2Proof.Machine.execCloseLoops scope target s
  | .park scope target => Sys2Proof.Machine.execPark scope target s
  | .lclassFirstClear => Sys2Proof.Machine.execLclassFirstClear s
  | .diagClear e => Sys2Proof.Machine.execDiagClear e s
  | .railChange n v => Sys2Proof.Machine.execRailChange n v s
  | .spanWrite n x v => Sys2Proof.Machine.execSpanWrite n x v s
  | .spanSwitch e => Sys2Proof.Machine.execSpanSwitch e s
  | .spanSequenceDone n => Sys2Proof.Machine.execSpanSequenceDone n s
  | .drvEnWrite n v => Sys2Proof.Machine.execDrvEnWrite n v s
  | .rearm n => Sys2Proof.Machine.execRearm n s
  | .mtrPeakClear n => Sys2Proof.Machine.execMtrPeakClear n s
  | .hostCodeWrite n row v => Sys2Proof.Machine.execHostCodeWrite n row v s
  | .launchShadowWrite m n off v => Sys2Proof.Machine.execLaunchShadowWrite m n off v s
  | .clrNAssert => Sys2Proof.Machine.execClrNAssert s
  | .pdBiasChange n v => Sys2Proof.Machine.execPdBiasChange n v s
  | .snsFirstClear n => Sys2Proof.Machine.execSnsFirstClear n s
  | .timeCfgWrite v => Sys2Proof.Machine.execTimeCfgWrite v s
  | .incrWrite v => Sys2Proof.Machine.execIncrWrite v s
  | .setGo v => Sys2Proof.Machine.execSetGo v s
  | .adj v => Sys2Proof.Machine.execAdj v s
  | .deferredStep => Sys2Proof.Machine.execDeferredStep s
  | .pauseClr => Sys2Proof.Machine.execPauseClr s
  | .nowNsRead x => Sys2Proof.Machine.execNowNsRead x s
  | .ppsInEdge => Sys2Proof.Machine.execPpsInEdge s
  | .ppsTimeout => Sys2Proof.Machine.execPpsTimeout s
  | .ppsOutRise => Sys2Proof.Machine.execPpsOutRise s
  | .ppsOutFall => Sys2Proof.Machine.execPpsOutFall s
  | .sync p x => Sys2Proof.Machine.execSync p x s
  | .followUp p x => Sys2Proof.Machine.execFollowUp p x s
  | .delayResp p x => Sys2Proof.Machine.execDelayResp p x s
  | .pdelayReq p x => Sys2Proof.Machine.execPdelayReq p x s
  | .pdelayResp p x => Sys2Proof.Machine.execPdelayResp p x s
  | .pdelayRespFollowUp p x => Sys2Proof.Machine.execPdelayRespFollowUp p x s
  | .pdelayReqInterval p x => Sys2Proof.Machine.execPdelayReqInterval p x s
  | .announce p x => Sys2Proof.Machine.execAnnounce p x s
  | .announceReceiptTimeout p => Sys2Proof.Machine.execAnnounceReceiptTimeout p s
  | .ptpPortRecover p => Sys2Proof.Machine.execPtpPortRecover p s
  | .arpRequest p ip => Sys2Proof.Machine.execArpRequest p ip s
  | .icmpEcho p ip data => Sys2Proof.Machine.execIcmpEcho p ip data s
  | .schedule x => Sys2Proof.Machine.execSchedule x s
  | .cancel x => Sys2Proof.Machine.execCancel x s
  | .querySummary x => Sys2Proof.Machine.execQuerySummary x s
  | .queryFrame x => Sys2Proof.Machine.execQueryFrame x s
  | .subscribe x => Sys2Proof.Machine.execSubscribe x s
  | .unsubscribe x => Sys2Proof.Machine.execUnsubscribe x s
  | .subExpired x => Sys2Proof.Machine.execSubExpired x s
  | .telemetrySummary x => Sys2Proof.Machine.execTelemetrySummary x s
  | .ethLinkLoss p x => Sys2Proof.Machine.execEthLinkLoss p x s
  | .ethCfgWrite p v x => Sys2Proof.Machine.execEthCfgWrite p v x s
  | .cmdTailWrite v => Sys2Proof.Machine.execCmdTailWrite v s
  | .cmdEntryFetch x => Sys2Proof.Machine.execCmdEntryFetch x s
  | .cmdCfgWrite v => Sys2Proof.Machine.execCmdCfgWrite v s
  | .completionRecordWrite => Sys2Proof.Machine.execCompletionRecordWrite s
  | .cplSignalHoldoffEnd => Sys2Proof.Machine.execCplSignalHoldoffEnd s
  | .cplRpWrite v => Sys2Proof.Machine.execCplRpWrite v s
  | .acqStreamCopy ok => Sys2Proof.Machine.execAcqStreamCopy ok s
  | .pcieLinkDown x => Sys2Proof.Machine.execPcieLinkDown x s
  | .pcieHotReset x => Sys2Proof.Machine.execPcieHotReset x s
  | .functionLevelReset x => Sys2Proof.Machine.execFunctionLevelReset x s
  | .busMasterDisable => Sys2Proof.Machine.execBusMasterDisable s
  | .msixHoldoffEnd vec => Sys2Proof.Machine.execMsixHoldoffEnd vec s
  | .qspiRead => Sys2Proof.Machine.execQspiRead s
  | .qspiProgram => Sys2Proof.Machine.execQspiProgram s
  | .erase4k => Sys2Proof.Machine.execErase4k s
  | .erase64k => Sys2Proof.Machine.execErase64k s
  | .qspiOpDone ok => Sys2Proof.Machine.execQspiOpDone ok s
  | .i2cWrite bytes => Sys2Proof.Machine.execI2cWrite bytes s
  | .i2cRead n => Sys2Proof.Machine.execI2cRead n s
  | .i2cTimeout => Sys2Proof.Machine.execI2cTimeout s
  | .extest => Sys2Proof.Machine.execExtest s
  | .idcode => Sys2Proof.Machine.execIdcode s
  | .samplePreload pins load => Sys2Proof.Machine.execSamplePreload pins load s
  | .highz => Sys2Proof.Machine.execHighz s
  | .jtagClamp => Sys2Proof.Machine.execJtagClamp s
  | .bypass => Sys2Proof.Machine.execBypass s
  | .tapReset => Sys2Proof.Machine.execTapReset s
  | .glewCfgWrite x => Sys2Proof.Machine.execGlewCfgWrite x s
  | .linkLockRetry d => Sys2Proof.Machine.execLinkLockRetry d s
  | .laneAlign d => Sys2Proof.Machine.execLaneAlign d s
  | .deskewDone d => Sys2Proof.Machine.execDeskewDone d s
  | .idCell x => Sys2Proof.Machine.execIdCell x s
  | .measureDone d => Sys2Proof.Machine.execMeasureDone d s
  | .bitLockLoss d x => Sys2Proof.Machine.execBitLockLoss d x s
  | .timeCell x => Sys2Proof.Machine.execTimeCell x s
  | .glewOffsetUpdate => Sys2Proof.Machine.execGlewOffsetUpdate s
  | .statusCell x => Sys2Proof.Machine.execStatusCell x s
  | .memberLost k => Sys2Proof.Machine.execMemberLost k s
  | .frameCell x => Sys2Proof.Machine.execFrameCell x s
  | .states x => Sys2Proof.Machine.execStates x s
  | .nochange x => Sys2Proof.Machine.execNochange x s
  | .ready x => Sys2Proof.Machine.execReady x s
  | .readyTimeout => Sys2Proof.Machine.execReadyTimeout s
  | .commitCell x => Sys2Proof.Machine.execCommitCell x s
  | .abortCell x => Sys2Proof.Machine.execAbortCell x s
  | .summary x => Sys2Proof.Machine.execSummary x s
  | .eventCell x => Sys2Proof.Machine.execEventCell x s
  | .ledger x => Sys2Proof.Machine.execLedger x s
  | .ctrlPauseClr x => Sys2Proof.Machine.execCtrlPauseClr x s
  | .trigArm x => Sys2Proof.Machine.execTrigArm x s
  | .trigFire x => Sys2Proof.Machine.execTrigFire x s
  | .mevtRead m => Sys2Proof.Machine.execMevtRead m s
  | .acqRun => Sys2Proof.Machine.execAcqRun s
  | .acqStop => Sys2Proof.Machine.execAcqStop s
  | .acqRpWrite v => Sys2Proof.Machine.execAcqRpWrite v s
  | .acqFlush c => Sys2Proof.Machine.execAcqFlush c s
  | .acqResume => Sys2Proof.Machine.execAcqResume s
  | .syncRecord => Sys2Proof.Machine.execSyncRecord s
  | .arm => Sys2Proof.Machine.execArm s
  | .disarm => Sys2Proof.Machine.execDisarm s
  | .force => Sys2Proof.Machine.execForce s
  | .armInstant => Sys2Proof.Machine.execArmInstant s
  | .triggerTransition => Sys2Proof.Machine.execTriggerTransition s
  | .timerDone x => Sys2Proof.Machine.execTimerDone x s
  | .trigPinEdge rising => Sys2Proof.Machine.execTrigPinEdge rising s
  | .trigPulseEnd => Sys2Proof.Machine.execTrigPulseEnd s
  | .windowEnd => Sys2Proof.Machine.execWindowEnd s
  | .measDone c => Sys2Proof.Machine.execMeasDone c s
  | .eventLatchClear m a v => Sys2Proof.Machine.execEventLatchClear m a v s
  | .evtCntClr => Sys2Proof.Machine.execEvtCntClr s
  | .evtForce page v => Sys2Proof.Machine.execEvtForce page v s
  | .reactTableWrite w v => Sys2Proof.Machine.execReactTableWrite w v s
  | .reactLock => Sys2Proof.Machine.execReactLock s
  | .fcapClear => Sys2Proof.Machine.execFcapClear s
  | .aliveToggle => Sys2Proof.Machine.execAliveToggle s
  | .watchdog => Sys2Proof.Machine.execWatchdog s
  | .kick v => Sys2Proof.Machine.execKick v s
  | .aliveCfgWrite v => Sys2Proof.Machine.execAliveCfgWrite v s
  | .checkWindowStart => Sys2Proof.Machine.execCheckWindowStart s
  | .comparePhaseStart => Sys2Proof.Machine.execComparePhaseStart s
  | .confirmationStart => Sys2Proof.Machine.execConfirmationStart s
  | .confirmationEnd => Sys2Proof.Machine.execConfirmationEnd s
  | .selftestSegmentEnd e agree => Sys2Proof.Machine.execSelftestSegmentEnd e agree s
  | .chkMigrate v => Sys2Proof.Machine.execChkMigrate v s
  | .nvmWriteDone ok => Sys2Proof.Machine.execNvmWriteDone ok s
  | .nvmCounterWrite => Sys2Proof.Machine.execNvmCounterWrite s
  | .keyProg v => Sys2Proof.Machine.execKeyProg v s
  | .engFlip v => Sys2Proof.Machine.execEngFlip v s
  | .seqFlip v => Sys2Proof.Machine.execSeqFlip v s
  | .eccInject v => Sys2Proof.Machine.execEccInject v s
  | .adcHold v => Sys2Proof.Machine.execAdcHold v s
  | .stFail v => Sys2Proof.Machine.execStFail v s
  | .housekeepingRound x => Sys2Proof.Machine.execHousekeepingRound x s
  | .shutClr => Sys2Proof.Machine.execShutClr s
  | .sensorReinclude x v => Sys2Proof.Machine.execSensorReinclude x v s
  | .scrubPass x => Sys2Proof.Machine.execScrubPass x s
  | .eccWriteback => Sys2Proof.Machine.execEccWriteback s
  | .xbarClearOrphan => Sys2Proof.Machine.execXbarClearOrphan s
  | .xbarClearDec => Sys2Proof.Machine.execXbarClearDec s
  | .xbarClearEcc => Sys2Proof.Machine.execXbarClearEcc s
  | .monClear v => Sys2Proof.Machine.execMonClear v s
  | .modeReqIdle => Sys2Proof.Machine.execModeReqIdle s
  | .modeReqCalibrate => Sys2Proof.Machine.execModeReqCalibrate s
  | .modeReqOpenHold => Sys2Proof.Machine.execModeReqOpenHold s
  | .modeReqTrack => Sys2Proof.Machine.execModeReqTrack s
  | .modeReqSafe => Sys2Proof.Machine.execModeReqSafe s
  | .modeReqOther code => Sys2Proof.Machine.execModeReqOther code s
  | .freezeNFall => Sys2Proof.Machine.execFreezeNFall s
  | .freezeNRise => Sys2Proof.Machine.execFreezeNRise s
  | .softReset => Sys2Proof.Machine.execSoftReset s
  | .softResetEnd x => Sys2Proof.Machine.execSoftResetEnd x s
  | .powerOnReset => Sys2Proof.Machine.execPowerOnReset s
  | .powerOnResetRelease => Sys2Proof.Machine.execPowerOnResetRelease s
  | .resetNAssert => Sys2Proof.Machine.execResetNAssert s
  | .resetNRelease => Sys2Proof.Machine.execResetNRelease s
  | .refclkLoss => Sys2Proof.Machine.execRefclkLoss s
  | .corePllLockLoss => Sys2Proof.Machine.execCorePllLockLoss s
  | .corePllLock x => Sys2Proof.Machine.execCorePllLock x s
  | .serdesPllLock k => Sys2Proof.Machine.execSerdesPllLock k s
  | .bootSelftestDone failed => Sys2Proof.Machine.execBootSelftestDone failed s
  | .bootComplete x => Sys2Proof.Machine.execBootComplete x s
  | .clrNRelease => Sys2Proof.Machine.execClrNRelease s
  | .ethLinkUp p => Sys2Proof.Machine.execEthLinkUp p s
  | .pcieLinkUp speed width => Sys2Proof.Machine.execPcieLinkUp speed width s
  | .serdesPllLockLoss k => Sys2Proof.Machine.execSerdesPllLockLoss k s
  | .refclkPresent => Sys2Proof.Machine.execRefclkPresent s
  | .busMasterEnable => Sys2Proof.Machine.execBusMasterEnable s
  | .completionTimeout => Sys2Proof.Machine.execCompletionTimeout s
  | .cellCrc x isTime => Sys2Proof.Machine.execCellCrc x isTime s
  | .discardedFrame p x => Sys2Proof.Machine.execDiscardedFrame p x s
  | .rejectedMessage x => Sys2Proof.Machine.execRejectedMessage x s
  | .delayReq p x => Sys2Proof.Machine.execDelayReq p x s
  | .aerError correctable => Sys2Proof.Machine.execAerError correctable s

end Sys2Proof.Machine
end

