-- ==== Sys2Proof/Machine/Step.lean ====
section
/-!
DEFINITION. One step of the block: the command at the front of the queue, or, with no command waiting, one CLK_TICK
edge of the running clock.
-/
set_option autoImplicit false

namespace Sys2Proof.Machine

/-- One step. With commands waiting, the first is run on the block with the rest of the queue. With none, one
CLK_TICK edge passes inside the tick (R265, R30); the 250th edge of a tick is the command LOOP_TICK.
(DESIGN CHOICE, log 1). -/
def step (s : State) : Host.Outcome State Fault Refusal :=
  match s.pending with
  | [] => .next { s with b := idleEdge s.b }
  | c :: t => exec c { s with pending := t }

/-- The command that a word spells put at the front of the queue; no word spells one. (DESIGN CHOICE, log 1). -/
def State.withFetchWord (s : State) (nbits w : Nat) : State :=
  match Sys2Proof.decodeTableWord nbits w with
  | none => s
  | some c => { s with pending := c :: s.pending }

end Sys2Proof.Machine
end

