-- ==== Sys2Proof/Safety.lean ====
section
/-!
DEFINITION. What counts as a sound state of the block, and the terms in which statements speak of a step: what a step
keeps, when the host's writes are heard, and the datapath an engine works on before and after a syllable.
-/
set_option autoImplicit false

namespace Sys2Proof.Machine

/-- A table memory in canonical form: addresses rise and no entry holds its reset content (R472). -/
def Memory.wf (m : Tbl Byte) : Bool := Tbl.wf tblDflt m

/-- Shadow and live copies of the table memories are in canonical form. -/
def Blk.sound (b : Blk) : Bool := Memory.wf b.shadow && Memory.wf b.live

/-! ### What a step keeps -/

/-- Every byte of the shadow copies reads as before. -/
def KeepsShadow (b c : Blk) : Prop := ∀ a, rdB c.shadow a = rdB b.shadow a

/-- Every byte of both copies of the table memories reads as before. -/
def KeepsMemory (b c : Blk) : Prop := KeepsShadow b c ∧ ∀ a, rdB c.live a = rdB b.live a

/-- Every register field but the listed ones reads as before. -/
def KeepsRegsBut (fs : List Fld) (b c : Blk) : Prop := ∀ f : Fld, f.key ∉ fs.map Fld.key → getF c f = getF b f

/-- The host's writes are heard on every page: neither RESET nor BOOT, where it reaches XBAR.SLICE and the PCIE page only
(R494, R495). -/
def Blk.heard (b : Blk) : Bool := b.sys.mode != .reset && b.sys.mode != .boot

/-! ### The datapath of an engine -/

/-- The datapath on which the next syllable of engine `u` works (R166, R167, R204). -/
def engDp (u : Eng) (b : Blk) : Dp :=
  match u with
  | .slot e => slotDp b e.val
  | .planner p => b.dpP.get Dp.reset p.val

/-- The datapath that the last syllable of engine `u` left. -/
def engLeft (u : Eng) (b : Blk) : Dp :=
  match u with
  | .slot e => b.dpS.get Dp.reset (e.val % 64)
  | .planner p => b.dpP.get Dp.reset p.val

/-- The block with the datapath of engine `u` replaced. -/
def withDp (u : Eng) (dp : Dp) (b : Blk) : Blk :=
  match u with
  | .slot e => { b with dpS := b.dpS.set Dp.reset (e.val % 64) dp }
  | .planner p => { b with dpP := b.dpP.set Dp.reset p.val dp }

/-- Engine `u` runs a bundle now: the clock runs, an engine serves the slot in a cycle for slots; a planner engine's memory has no
error and no bundle is recorded for REP (R23, R168, R204, R411). -/
def engRuns (u : Eng) (b : Blk) : Bool :=
  b.sys.mode != .reset &&
    match u with
    | .slot e => slotCycles b && (engineOf b e.val).isSome
    | .planner p => (engDp u b).repN == 0 &&
        (b.xb.single ++ b.xb.double).all fun w => !(w.mem.val == 12 && w.unit.val == p.val)

/-- A syllable issued on engine `u` is carried out: a bundle runs and SKIP does not suppress it (R191). -/
def engReady (u : Eng) (b : Blk) : Bool := engRuns u b && (engDp u b).skip == 0

/-- The accumulator of each lane takes `val`, lane b after lane a; lane b is idle where it repeats lane a (R181, R192). A
value outside 40 bits is saturated and counted (R176); where none is, nothing but the datapath changes. -/
def AccLanes (u : Eng) (a c : MacLane) (val : MacLane → Int) (s t : State) : Prop :=
  let dp := engDp u s.b
  let dq := engLeft u t.b
  (∀ n, dq.rA n = if c ≠ a ∧ n = c.acc.val then accOf (val c) else if n = a.acc.val then accOf (val a) else dp.rA n) ∧
  dq = { dp with a := dq.a, issued := dp.issued + 1 } ∧ KeepsMemory s.b t.b ∧ t.pending = s.pending ∧
  (accOver (val a) = false → accOver (val c) = false → t.b = withDp u dq s.b)

/-- Register D `d` takes `v` and nothing else of the datapath changes; `c` is the rest of the block. -/
def TakesD (u : Eng) (d : Nat) (v : Half) (s t : State) : Prop :=
  let dp := engDp u s.b
  let dq := engLeft u t.b
  (∀ n, dq.rD n = if n = d then v else dp.rD n) ∧ dq = { dp with d := dq.d, issued := dp.issued + 1 } ∧
  t.b = withDp u dq s.b ∧ t.pending = s.pending

/-- Flag `f` takes `v` and nothing else changes. -/
def TakesF (u : Eng) (f : Nat) (v : Bool) (s t : State) : Prop :=
  let dp := engDp u s.b
  let dq := engLeft u t.b
  (∀ n, dq.rF n = if n = f then v else dp.rF n) ∧ dq = { dp with f := dq.f, issued := dp.issued + 1 } ∧
  t.b = withDp u dq s.b ∧ t.pending = s.pending

/-- The engine of a syllable; none for every other command. -/
def engineOfCmd (i : Instr) : Option Eng :=
  match i with
  | .nop u .. | .mac u .. | .msu u .. | .mul u .. | .mova u .. | .addx u .. | .aop u .. | .sha u .. | .ftapm u ..
  | .clamp u .. | .cmpsel u .. | .norm u .. | .rcp u .. | .satd u .. | .controlNop u | .ld u .. | .ldw u .. | .ldv u ..
  | .lda u .. | .std u .. | .stw u .. | .stv u .. | .sta u .. | .stS u .. | .movi u .. | .alu u .. | .alui u ..
  | .cmpd u .. | .flog u .. | .skip u .. | .setp u .. | .pwlin u .. | .pha u .. | .out u .. | .sel u .. | .rep u .. => some u
  | _ => none

/-- The live bytes after a store of `v` to halfword `a` by engine `u`: a slot's program reaches its context (R169, R174). -/
def storeLive (u : Eng) (m : Tbl Byte) (a : Nat) (v : Half) : Tbl Byte :=
  match u with
  | .slot e => if a % 4096 < 0x80 then wrH m (ctxAddr e.val 0 + 2 * (a % 4096)) v.toNat else m
  | .planner _ => m

/-- Pointer `p` moves by `m` from where it stood (R178); every other pointer stays. -/
def MovesP (u : Eng) (p : Nat) (m : Int) (dp dq : Dp) : Prop :=
  ∀ n, dq.rP u n = if n = p then advance u dp p (dp.rP u p) m else dp.rP u n

/-- The commands that can change a shadow copy: writes, the commit of an image at the end of BOOT, and what can begin a
controller reset (R197, R398, R461, R470). -/
def changesShadow (i : Instr) : Bool :=
  match i with
  | .registerWrite .. | .tableWrite .. | .contextWrite .. | .bootComplete .. | .powerOnReset | .resetNAssert | .refclkLoss
  | .corePllLockLoss | .loopTick .. => true
  | _ => false

/-! ### Writes of a register -/

/-- A write of `v` whose bits under `mask` are 0, all of them reserved (R14), while the host's writes are heard. -/
def hears (mask : Nat) (v : Word) (b : Blk) : Bool := b.heard && v.toNat &&& mask == 0

/-- Each listed field takes its value, cut to the field's width. -/
def setFs (ps : List (Fld × Nat)) (b : Blk) : Blk := ps.foldl (fun b p => setF p.1 p.2 b) b

/-- Only the elements that `p` names are changed, each to what `f` makes of it. -/
def ElemsTake (p : Nat → Prop) (f : Nat → Elem → Elem) (b c : Blk) : Prop :=
  c = { b with elems := c.elems } ∧ ∀ e, (p e → c.elem e = f e (b.elem e)) ∧ (¬ p e → c.elem e = b.elem e)

/-! ### Instants and events -/

/-- The instant `t`, in quarter nanoseconds of elapsed time, has passed or falls in the present tick, while the clock runs: the
event due then can occur (R24). -/
def Blk.due (t : Nat) (b : Blk) : Bool := decide ((t + 15) / 16 < 250 * (b.tick + 1)) && b.sys.mode != .reset

/-- The block at the first CLK_TICK edge at or after instant `t`; as it stands where that edge has passed. -/
def Blk.atEdge (t : Nat) (b : Blk) : Blk := toEdge ((t + 15) / 16 - 250 * b.tick) b

/-- A field of a page other than FCAP, NVM and ETH, and no pending bit of the MSI-X vectors. -/
def Fld.apart (f : Fld) : Prop :=
  f.key / 131072 ∉ [0x12, 0x16, 0x1E, 0x1F] ∧ f.key ≠ (Reg.PCIE.MSIX_PBA.W 0).key ∧ f.key ≠ (Reg.PCIE.MSIX_PBA.W 1).key

/-- No source of `ss` has a reaction (its class is below SAFE) and no other source waits to be raised (R346, R350). -/
def Blk.mild (ss : List Nat) (b : Blk) : Prop := (∀ x ∈ ss, (evGet b x).cls < 3) ∧ b.ev.late = []

/-- `c` is `b` after the sources `ss` have been raised without a reaction: they are latched, and beside the event records only
the fault capture, the NVM log, trigger conditions, messages, pending bits, cells and the UDP events may follow. -/
def Raised (ss : List Nat) (b c : Blk) : Prop :=
  (∀ x ∈ ss, (evGet c x).latch = true) ∧ (∀ f : Fld, f.apart → getF c f = getF b f) ∧
  c = { b with ev := c.ev, regs := c.regs, nvm := c.nvm, trig := c.trig, sent := c.sent, eth := c.eth, glew := c.glew }

/-- A PTP message that port `p` takes: the port is enabled and not FAULTY, the form and the domain fit (R284). -/
def ptpHears (p : Nat) (x : PtpMsg) (b : Blk) : Bool :=
  b.sys.mode != .reset && ptpOn b p && ptpFormOk b p x && x.domain.val == getF b (Reg.PTP.CFG.DOMAIN p)

end Sys2Proof.Machine
end

