-- ==== Sys2Proof/Certificates/Slice0/Obligations.lean ====
section
/-!
DEFINITION. The statements for the provers: what each command of the block does and leaves, what a step keeps, and what
reset leaves. Each statement's docstring names the rules of spec/ that it formalises.
-/
set_option autoImplicit false

open Sys2Proof Sys2Proof.Machine

/-! ### The queue and the step -/

/-- A step takes the command at the front of the queue and runs it with the queue's rest. -/
def Obligations.StepRunsFrontCommand : Prop :=
  ∀ (c : Instr) (rest : List Instr) (s : State), s.pending = c :: rest → step s = exec c { s with pending := rest }

/-! ### The engines' syllables -/

/-- MAC, MSU, MUL, MOVA, ADDX, AOP, SHA and CLAMP write their lanes' accumulators, saturated to 40 bits, and nothing else of
the datapath (R175, R176, R181, R182). A syllable given alone is a bundle with NOPs in its other lanes: the model's reading
(log entry 15). -/
def Obligations.LaneArithmeticWritesAccumulators : Prop :=
  ∀ (u : Eng) (k : Fin 4) (md : BitVec 2) (a c : MacLane) (s : State), engReady u s.b = true →
    let A := fun i : Nat => accI ((engDp u s.b).rA i)
    let D := fun i : Nat => (engDp u s.b).rD i
    ((Instr.mac u k md a c).wf = true → ∃ t, exec (.mac u k md a c) s = .next t ∧
      AccLanes u a c (fun q => A q.acc + product md (D q.x) (D q.y)) s t) ∧
    ((Instr.msu u k md a c).wf = true → ∃ t, exec (.msu u k md a c) s = .next t ∧
      AccLanes u a c (fun q => A q.acc - product md (D q.x) (D q.y)) s t) ∧
    ((Instr.mul u k md a c).wf = true → ∃ t, exec (.mul u k md a c) s = .next t ∧
      AccLanes u a c (fun q => product md (D q.x) (D q.y)) s t) ∧
    ((Instr.mova u k md a c).wf = true → ∃ t, exec (.mova u k md a c) s = .next t ∧
      AccLanes u a c (fun q => aligned md (D q.x)) s t) ∧
    ((Instr.addx u k md a c).wf = true → ∃ t, exec (.addx u k md a c) s = .next t ∧
      AccLanes u a c (fun q => A q.acc + aligned md (D q.x)) s t) ∧
    ((Instr.aop u k md a c).wf = true → ∃ t, exec (.aop u k md a c) s = .next t ∧
      AccLanes u a c (fun q => if md = 0 then A q.acc + A q.x else if md = 1 then A q.acc - A q.x
        else if md = 2 then A q.x else -A q.x) s t) ∧
    ((Instr.sha u k md a c).wf = true → ∃ t, exec (.sha u k md a c) s = .next t ∧
      AccLanes u a c (fun q => shiftA (A q.x) (if md = 1 then clampI (-40) 40 (D q.y).toInt else sext 5 q.y.val)) s t) ∧
    ((Instr.clamp u k md a c).wf = true → ∃ t, exec (.clamp u k md a c) s = .next t ∧
      AccLanes u a c (fun q => min (max (A q.acc) (A q.x)) (A q.y)) s t)

/-- CMPSEL, NORM, RCP and SATD write the accumulators, D registers and lane flags that R182 names, lane b after lane a, and nothing
else of the datapath (R177, R182, R186, R187, R188). -/
def Obligations.LaneTestsWriteFlagsAndRegisters : Prop :=
  ∀ (u : Eng) (k : Fin 4) (md : BitVec 2) (a c : MacLane) (s : State), engReady u s.b = true →
    let dp := engDp u s.b
    let A := fun i : Nat => accI (dp.rA i)
    let T := fun q : MacLane => condHolds (condOf md) (A q.acc) (A q.x)
    let N := fun q : MacLane => normCount (A q.x)
    let R := fun q : MacLane => rcp (dp.rD q.x)
    let S := fun q : MacLane => if md = 0 then satStore .rne false (A q.acc) 16 else if md = 1 then satStore .rne false (A q.acc) 15
      else if md = 2 then satStore .rne true (A q.acc) 15 else satStore .rne false (A q.acc) 17
    ((Instr.cmpsel u k md a c).wf = true → ∃ t, exec (.cmpsel u k md a c) s = .next t ∧
      let dq := engLeft u t.b
      (∀ n, dq.rF n = if c ≠ a ∧ n = 2 * k.val + 1 then T c else if n = 2 * k.val then T a else dp.rF n) ∧
      (∀ n, dq.rA n = if c ≠ a ∧ T c = true ∧ n = c.acc.val then dp.rA c.y else if T a = true ∧ n = a.acc.val then dp.rA a.y
        else dp.rA n) ∧
      dq = { dp with a := dq.a, f := dq.f, issued := dp.issued + 1 } ∧ t.b = withDp u dq s.b ∧ t.pending = s.pending) ∧
    ((Instr.norm u k md a c).wf = true → ∃ t, exec (.norm u k md a c) s = .next t ∧
      let dq := engLeft u t.b
      (∀ n, dq.rA n = if c ≠ a ∧ n = c.acc.val then accOf (shiftA (A c.x) (N c)) else if n = a.acc.val then
        accOf (shiftA (A a.x) (N a)) else dp.rA n) ∧
      (∀ n, dq.rD n = if c ≠ a ∧ n = c.y.val then toHalf (N c) else if n = a.y.val then toHalf (N a) else dp.rD n) ∧
      (∀ n, dq.rF n = if c ≠ a ∧ n = 2 * k.val + 1 then decide (A c.x = 0) else if n = 2 * k.val then decide (A a.x = 0)
        else dp.rF n) ∧
      dq = { dp with a := dq.a, d := dq.d, f := dq.f, issued := dp.issued + 1 } ∧ KeepsMemory s.b t.b ∧ t.pending = s.pending) ∧
    ((Instr.rcp u k md a c).wf = true → ∃ t, exec (.rcp u k md a c) s = .next t ∧
      let dq := engLeft u t.b
      (∀ n, dq.rA n = if c ≠ a ∧ n = c.acc.val then accOf (R c).1 else if n = a.acc.val then accOf (R a).1 else dp.rA n) ∧
      (∀ n, dq.rF n = if c ≠ a ∧ n = 2 * k.val + 1 ∧ (R c).2 = true then true else if n = 2 * k.val ∧ (R a).2 = true then true
        else dp.rF n) ∧
      dq = { dp with a := dq.a, f := dq.f, issued := dp.issued + 1 } ∧ KeepsMemory s.b t.b ∧ t.pending = s.pending) ∧
    ((Instr.satd u k md a c).wf = true → ∃ t, exec (.satd u k md a c) s = .next t ∧
      let dq := engLeft u t.b
      (∀ n, dq.rD n = if c ≠ a ∧ n = c.y.val then S c else if n = a.y.val then S a else dp.rD n) ∧
      dq = { dp with d := dq.d, issued := dp.issued + 1 } ∧ t.b = withDp u dq s.b ∧ t.pending = s.pending)

/-- FTAPM accumulates coefficient times sample, stores the sample one place on and steps the coefficient pointer up and the sample
pointer down; every live byte outside the stored halfwords and every shadow byte stays (R178, R184, R192). NOP and the control NOP
take their cycle and write nothing (R182, R183). -/
def Obligations.FilterTapMovesSamplesAndNopsWriteNothing : Prop :=
  ∀ (u : Eng) (k : Fin 4) (md : BitVec 2) (a c : MacLane) (s : State), engReady u s.b = true →
    let dp := engDp u s.b
    let P := fun i : Nat => dp.rP u i
    let M := fun i : Nat => (readMem s.b dp u i).1
    let V := fun q : MacLane => accI (dp.rA q.acc) + product md (M (P q.x)) (M (P q.y))
    let dest := fun q : MacLane => advance u dp q.y (P q.y) 1
    ((Instr.ftapm u k md a c).wf = true → ∃ t, exec (.ftapm u k md a c) s = .next t ∧
      let dq := engLeft u t.b
      (∀ n, dq.rA n = if c ≠ a ∧ n = c.acc.val then accOf (V c) else if n = a.acc.val then accOf (V a) else dp.rA n) ∧
      (∀ n, dq.rP u n = if c ≠ a ∧ n = c.y.val then advance u dp c.y (P c.y) (-1)
        else if c ≠ a ∧ n = c.x.val then advance u dp c.x (P c.x) 1
        else if n = a.y.val then advance u dp a.y (P a.y) (-1) else if n = a.x.val then advance u dp a.x (P a.x) 1 else P n) ∧
      dq = { dp with a := dq.a, p := dq.p, scr := dq.scr, wrote := dq.wrote, stored := dq.stored, issued := dp.issued + 1 } ∧
      KeepsShadow s.b t.b ∧
      t.b.live = (if c = a then storeLive u s.b.live (dest a) (M (P a.y))
        else storeLive u (storeLive u s.b.live (dest a) (M (P a.y))) (dest c) (M (P c.y))) ∧ t.pending = s.pending) ∧
    ((Instr.nop u k md a c).wf = true →
      exec (.nop u k md a c) s = .next { s with b := withDp u { dp with issued := dp.issued + 1 } s.b }) ∧
    exec (.controlNop u) s = .next { s with b := withDp u { dp with issued := dp.issued + 1 } s.b }

/-- LD, LDW, LDV and LDA read the halfwords at the pointer, aligned as R179 says, into their registers and then move the
pointer; no byte of memory changes, and where every address is mapped nothing but the datapath does (R174, R178, R179, R183).
A syllable given alone is a bundle with NOPs in its other lanes: the model's reading (log entry 15). -/
def Obligations.LoadsFillRegistersAndMoveThePointer : Prop :=
  ∀ (u : Eng) (d : Fin 32) (a p : Fin 8) (m : BitVec 6) (s : State), engReady u s.b = true →
    let dp := engDp u s.b
    let P := dp.rP u p
    let M := fun i : Nat => (readMem s.b dp u i).1
    let ok := fun i : Nat => (readMem s.b dp u i).2 = true
    (∃ t, exec (.ld u d p m) s = .next t ∧
      let dq := engLeft u t.b
      (∀ n, dq.rD n = if n = d.val then M P else dp.rD n) ∧ MovesP u p m.toInt dp dq ∧
      dq = { dp with d := dq.d, p := dq.p, issued := dp.issued + 1 } ∧ KeepsMemory s.b t.b ∧ t.pending = s.pending ∧
      (ok P → t.b = withDp u dq s.b)) ∧
    ((Instr.ldw u d p m).wf = true → ∃ t, exec (.ldw u d p m) s = .next t ∧
      let dq := engLeft u t.b
      (∀ n, dq.rD n = if n = d.val + 1 then M (P / 2 * 2 + 1) else if n = d.val then M (P / 2 * 2) else dp.rD n) ∧
      MovesP u p m.toInt dp dq ∧ dq = { dp with d := dq.d, p := dq.p, issued := dp.issued + 1 } ∧
      KeepsMemory s.b t.b ∧ t.pending = s.pending ∧ (ok (P / 2 * 2) → ok (P / 2 * 2 + 1) → t.b = withDp u dq s.b)) ∧
    ((Instr.ldv u d p m).wf = true → ∃ t, exec (.ldv u d p m) s = .next t ∧
      let dq := engLeft u t.b
      (∀ n, dq.rD n = if d.val ≤ n ∧ n < d.val + 8 then M (P / 8 * 8 + (n - d.val)) else dp.rD n) ∧
      MovesP u p m.toInt dp dq ∧ dq = { dp with d := dq.d, p := dq.p, issued := dp.issued + 1 } ∧
      KeepsMemory s.b t.b ∧ t.pending = s.pending ∧ ((∀ i < 8, ok (P / 8 * 8 + i)) → t.b = withDp u dq s.b)) ∧
    (∃ t, exec (.lda u a p m) s = .next t ∧
      let dq := engLeft u t.b
      (∀ n, dq.rA n = if n = a.val then accOf (sext 32 ((M (P / 2 * 2)).toNat + 65536 * (M (P / 2 * 2 + 1)).toNat)) else dp.rA n) ∧
      MovesP u p m.toInt dp dq ∧ dq = { dp with a := dq.a, p := dq.p, issued := dp.issued + 1 } ∧
      KeepsMemory s.b t.b ∧ t.pending = s.pending ∧ (ok (P / 2 * 2) → ok (P / 2 * 2 + 1) → t.b = withDp u dq s.b))

/-- STD, STW, STV, STA and ST.S make their stores at the pointer, aligned as R179 says, and then move the pointer; ST.S to a
register writes that register only. Nothing but the stores and the datapath changes (R177, R178, R179, R183). A program's
store reaches its context, its element's state, unless the strobe moves the element in the same cycle, and its scratch; anywhere
else it changes no memory, and each access that meets such an address is counted once as an address error. A planner engine's store reaches its own memory (R169, R171, R172, R174, R204). A syllable given alone is a bundle
with NOPs in its other lanes: the model's reading (log entry 15). -/
def Obligations.StoresReachThePointerOnly : Prop :=
  (∀ (u : Eng) (d : Fin 32) (a p : Fin 8) (m : BitVec 6) (sh : Fin 32) (rm : Rnd) (uns : Bool) (s : State),
    engReady u s.b = true →
    let dp := engDp u s.b
    let P := dp.rP u p
    let put := fun (a : Nat) (vs : List Half) (x : Blk × Dp) => storeAll u (a % ptrMod u) vs x
    let fin := fun x : Blk × Dp => withDp u { x.2 with
      p := x.2.p.set (ptrPreset u p) p (advance u dp p P m.toInt), issued := x.2.issued + 1 } x.1
    let w := toBits 32 (satS32 (accI (dp.rA a)))
    exec (.std u d p m) s = .next { s with b := fin (store u (P % ptrMod u) (dp.rD d) (s.b, dp)) } ∧
    ((Instr.stw u d p m).wf = true → exec (.stw u d p m) s = .next { s with
      b := fin (put (P / 2 * 2) [dp.rD d, dp.rD (d + 1)] (s.b, dp)) }) ∧
    ((Instr.stv u d p m).wf = true → exec (.stv u d p m) s = .next { s with
      b := fin (put (P / 8 * 8) ((List.range 8).map fun i => dp.rD (d + i)) (s.b, dp)) }) ∧
    exec (.sta u a p m) s = .next { s with
      b := fin (put (P / 2 * 2) [BitVec.ofNat 16 w, BitVec.ofNat 16 (w / 65536)] (s.b, dp)) } ∧
    ((Instr.stS u a sh rm uns true d p m).wf = true → exec (.stS u a sh rm uns true d p m) s = .next { s with
      b := fin (store u (P % ptrMod u) (satStore rm uns (accI (dp.rA a)) sh) (s.b, dp)) }) ∧
    ((Instr.stS u a sh rm uns false d p m).wf = true → ∃ t, exec (.stS u a sh rm uns false d p m) s = .next t ∧
      TakesD u d (satStore rm uns (accI (dp.rA a)) sh) s t)) ∧
  (∀ (e : Fin 4608) (pl : Fin 8) (a : Nat) (v : Half) (b : Blk) (dp : Dp),
    (a < 0x80 → let r := store (.slot e) a v (b, dp);
      rdH r.1.live (ctxAddr e.val 0 + 2 * a) = v.toNat ∧ r.2 = { dp with wrote := dp.wrote ++ [(a, v.toNat)] } ∧
      r.1 = { b with live := r.1.live } ∧
      ∀ x, x ≠ ctxAddr e.val 0 + 2 * a → x ≠ ctxAddr e.val 0 + 2 * a + 1 → rdB r.1.live x = rdB b.live x) ∧
    (let r := store (.slot e) 0x90 v (b, dp)
      let st := LoopState.ofCode (v.toNat / 256)
      r.2 = { dp with stored := some st } ∧ (strobeWins b dp (b.elem e.val) = true → r.1 = b) ∧
      (strobeWins b dp (b.elem e.val) = false → (r.1.elem e.val).lp = { (b.elem e.val).lp with st := st } ∧
        (∀ x, x ≠ e.val → r.1.elem x = b.elem x) ∧ r.1 = { b with elems := r.1.elems })) ∧
    (0x100 ≤ a → a < 0x180 → let r := store (.slot e) a v (b, dp);
      r.1 = b ∧ (readSlot b r.2 e.val a).1 = v ∧
      r.2 = { dp with scr := r.2.scr, wrote := dp.wrote ++ [(a, v.toNat)] } ∧
      ∀ x, x ≠ a - 0x100 → r.2.scr.get 0 x = dp.scr.get 0 x) ∧
    (writable a = false → store (.slot e) a v (b, dp) = (addrErr (.slot e) b, dp) ∧ KeepsMemory b (addrErr (.slot e) b)) ∧
    (let r := store (.planner pl) a v (b, dp);
      (readMem r.1 dp (.planner pl) a).1 = v ∧ r.2 = dp ∧ r.1 = { b with pmem := r.1.pmem })) ∧
  (∀ (u : Eng) (a : Nat) (vs : List Half) (x : Blk × Dp),
    let y := vs.zipIdx.foldl (fun x v => if u.isSlot && !writable (a + v.2) then x else store u (a + v.2) v.1 x) x
    storeAll u a vs x = (if u.isSlot && !(List.range vs.length).all fun i => writable (a + i) then addrErr u y.1 else y.1, y.2))

/-- The scalar control syllables each write the one register, flag or pointer that R183 names: MOVI, ALU, ALUI, SEL, PHA and
PWLIN a D register, CMPD and FLOG a flag, SETP a pointer, base or length register, and every other register, pointer, flag and
memory byte stays; an access to an unmapped knot may be counted (R174, R183, R185, R189). Which accumulator SRC = 1 reads on a planner
engine is the model's choice (log entry 151). A syllable given alone
is a bundle with NOPs in its other lanes: the model's reading (log entry 15). -/
def Obligations.ScalarSyllablesWriteOneRegister : Prop :=
  ∀ (u : Eng) (d x y : Fin 32) (f fa fb i k p : Fin 8) (fn : AluFn) (ff : FlagFn) (cond : Cond) (uns src : Bool) (imm : Half)
    (im : BitVec 12) (s : State), engReady u s.b = true →
    let dp := engDp u s.b
    (∃ t, exec (.movi u d imm) s = .next t ∧ TakesD u d imm s t) ∧
    (∃ t, exec (.alu u d x y fn) s = .next t ∧ TakesD u d (aluEval fn (dp.rD x) (dp.rD y)) s t) ∧
    (∃ t, exec (.alui u d x fn im) s = .next t ∧ TakesD u d (aluEval fn (dp.rD x) (im.signExtend 16)) s t) ∧
    (∃ t, exec (.sel u d x y f) s = .next t ∧ TakesD u d (if dp.rF f then dp.rD x else dp.rD y) s t) ∧
    (∃ t, exec (.pha u d src k) s = .next t ∧ TakesD u d (BitVec.ofNat 16 (toneAcc s.b (match src, u with
      | true, .slot e => tone s.b.live e.val | true, .planner p => Config.plannerTone p | false, _ => k.val) 0 / 65536)) s t) ∧
    (∃ t, exec (.pwlin u d x y p) s = .next t ∧ KeepsMemory s.b t.b ∧ t.pending = s.pending ∧
      let dq := engLeft u t.b
      (∀ n, dq.rD n = if n = d.val then BitVec.ofNat 16 (min (pwl (fun j =>
        (readMem s.b dp u (dp.rP u p + j)).1.toNat) (dp.rD x).toNat) (dp.rD y).toNat) else dp.rD n) ∧
      dq = { dp with d := dq.d, issued := dp.issued + 1 } ∧
      ((∀ j < 32, (readMem s.b dp u (dp.rP u p + j)).2 = true) → t.b = withDp u dq s.b)) ∧
    (∃ t, exec (.cmpd u f cond uns x y) s = .next t ∧ TakesF u f (if uns then condHolds cond (dp.rD x).toNat (dp.rD y).toNat
      else condHolds cond (dp.rD x).toInt (dp.rD y).toInt) s t) ∧
    (∃ t, exec (.flog u f ff fa fb) s = .next t ∧ TakesF u f (flagEval ff (dp.rF fa) (dp.rF fb)) s t) ∧
    (∃ t, exec (.setp u .p i im) s = .next t ∧ t.pending = s.pending ∧ (∀ n, (engLeft u t.b).rP u n = if n = i.val then im.toNat else dp.rP u n) ∧
      engLeft u t.b = { dp with p := (engLeft u t.b).p, issued := dp.issued + 1 } ∧ t.b = withDp u (engLeft u t.b) s.b) ∧
    (∃ t, exec (.setp u .b i im) s = .next t ∧ t.pending = s.pending ∧ (∀ n, (engLeft u t.b).rB u n = if n = i.val then im.toNat else dp.rB u n) ∧
      engLeft u t.b = { dp with b := (engLeft u t.b).b, issued := dp.issued + 1 } ∧ t.b = withDp u (engLeft u t.b) s.b) ∧
    (∃ t, exec (.setp u .l i im) s = .next t ∧ t.pending = s.pending ∧ (∀ n, (engLeft u t.b).rL n = if n = i.val then im.toNat else dp.rL n) ∧
      engLeft u t.b = { dp with l := (engLeft u t.b).l, issued := dp.issued + 1 } ∧ t.b = withDp u (engLeft u t.b) s.b)

/-- SKIP sets how many bundles are suppressed, OUT sets the tick codes of the slot's element in every mode but CALIBRATE, and
REP starts to record its body; nothing else changes (R134, R183, R190, R191, R204). A syllable given alone is a bundle with
NOPs in its other lanes: the model's reading (log entry 15). -/
def Obligations.ControlSyllablesSkipOutputAndRepeat : Prop :=
  ∀ (u : Eng) (e : Fin 4608) (pl : Fin 8) (f : Fin 8) (neg alw : Bool) (n : Fin 16) (dh dt r : Fin 32) (c : Fin 4097) (s : State),
    ((Instr.skip u f neg n alw).wf = true → engReady u s.b = true → exec (.skip u f neg n alw) s = .next { s with
      b := withDp u { engDp u s.b with
        skip := if alw = true ∨ (engDp u s.b).rF f ≠ neg then n.val else 0, issued := (engDp u s.b).issued + 1 } s.b }) ∧
    (engReady (.slot e) s.b = true → ∃ t, exec (.out (.slot e) dh dt) s = .next t ∧
      t.b = withDp (.slot e) { slotDp s.b e.val with outDone := true, issued := (slotDp s.b e.val).issued + 1 }
        { s.b with elems := t.b.elems } ∧ t.pending = s.pending ∧
      (∀ x, x ≠ e.val → t.b.elem x = s.b.elem x) ∧
      (s.b.sys.mode = .calibrate → t.b.elems = s.b.elems) ∧
      (s.b.sys.mode ≠ .calibrate → t.b.elem e.val = { s.b.elem e.val with drv := { (s.b.elem e.val).drv with
        htrTick := (slotDp s.b e.val).rD dh, trmTick := (slotDp s.b e.val).rD dt } })) ∧
    ((Instr.rep (.planner pl) r c).wf = true → engReady (.planner pl) s.b = true → exec (.rep (.planner pl) r c) s = .next { s with
      b := withDp (.planner pl) { engDp (.planner pl) s.b with
        repN := r.val, repCount := c.val, repBody := [], issued := (engDp (.planner pl) s.b).issued + 1 } s.b })

/-- A suppressed bundle takes its cycle and writes nothing, whatever syllable it holds (R166, R191). In RESET no engine runs, and a
slot that no engine serves, or one in the service cycles of the tick, runs no bundle (R23, R168, R363). -/
def Obligations.SuppressedBundlesAndResetRunNothing : Prop :=
  (∀ (i : Instr) (u : Eng) (s : State), engineOfCmd i = some u → i.wf = true → engRuns u s.b = true →
    0 < (engDp u s.b).skip →
    exec i s = .next { s with b := withDp u { engDp u s.b with
      skip := (engDp u s.b).skip - 1, issued := (engDp u s.b).issued + 1 } s.b }) ∧
  (∀ (i : Instr) (u : Eng) (s : State), engineOfCmd i = some u →
    (s.b.sys.mode = .reset ∨ ∃ e : Fin 4608, u = .slot e ∧ (engineOf s.b e.val = none ∨ 234 ≤ s.b.edge)) → exec i s = .next s)

/-- A saturating store forms n / 2^SH, rounds it by its mode, to nearest with ties to even, towards zero, down, or to nearest with ties
away from zero, and saturates the result to S16, or to U16 where U = 1; with SH = 0 no rounding occurs (R177). -/
def Obligations.RoundingIsAsTheModeSays : Prop :=
  ∀ (n : Int) (sh : Nat),
    let d : Int := (2 ^ sh : Nat)
    let r := fun rm : Rnd => roundShift rm n sh
    (2 * (r .rne * d - n).natAbs ≤ 2 ^ sh ∧ (2 * (r .rne * d - n).natAbs = 2 ^ sh → sh ≠ 0 → r .rne % 2 = 0)) ∧
    ((r .rtz * d).natAbs ≤ n.natAbs ∧ (n - r .rtz * d).natAbs < 2 ^ sh) ∧
    (r .rdn * d ≤ n ∧ n < (r .rdn + 1) * d) ∧
    (2 * (r .rha * d - n).natAbs ≤ 2 ^ sh ∧ (2 * (r .rha * d - n).natAbs = 2 ^ sh → n.natAbs ≤ (r .rha * d).natAbs)) ∧
    (∀ rm : Rnd, (satStore rm false n sh).toInt = min (max (-32768) (r rm)) 32767 ∧
      ((satStore rm true n sh).toNat : Int) = min (max 0 (r rm)) 65535 ∧ (sh = 0 → r rm = n))

/-! ### Registers whose write is a command -/

/-- BUDGET_WRITE stores both budgets and sets OVERDRAWN where the metered power is over the new steady budget; EPS_LOCK_WRITE takes
a threshold of 1 to 65,534, live from the next boundary; XT_SH_WRITE takes a shift of 0 to 4; DLOG_RP_WRITE moves the read pointer
no further than the write pointer; DLOG_LOST_CLEAR clears the count (R229, R232, R243, R244). -/
def Obligations.SchedulingRegistersTakeTheirWrites : Prop :=
  ∀ (v : Word) (s : State),
    (hears 0xE000E000 v s.b = true → v.bits 0 13 ≤ v.bits 16 13 → v.bits 16 13 ≤ 8000 →
      let c := setFs [(Reg.SCHED.BUDGET.STEADY, v.bits 0 13), (Reg.SCHED.BUDGET.PEAK, v.bits 16 13)] s.b
      exec (.budgetWrite v) s = .next { s with
        b := if 10 * v.bits 0 13 ≤ getF s.b Reg.SCHED.METER.P_MS then setOverdrawn true c else c }) ∧
    (hears 0xFFFF0000 v s.b = true → 1 ≤ v.bits 0 16 → v.bits 0 16 ≤ 65534 →
      exec (.epsLockWrite v) s = .next { s with b := { setF Reg.PLAN.EPS.EPS_LOCK (v.bits 0 16) s.b with epsPend := true } }) ∧
    (hears 0xFFFFFFF8 v s.b = true → v.bits 0 3 ≤ 4 →
      exec (.xtShWrite v) s = .next { s with b := setF Reg.PLAN.CFG.XT_SH (v.bits 0 3) s.b }) ∧
    (hears 0xFFFFFE00 v s.b = true → (v.bits 0 9 + 512 - getF s.b Reg.PLAN.DLOG_RP.RP) % 512 ≤
        (getF s.b Reg.PLAN.DLOG_WP.WP + 512 - getF s.b Reg.PLAN.DLOG_RP.RP) % 512 →
      exec (.dlogRpWrite v) s = .next { s with b := setF Reg.PLAN.DLOG_RP.RP (v.bits 0 9) s.b }) ∧
    (s.b.heard = true → exec .dlogLostClear s = .next { s with b := setF Reg.PLAN.DLOG_LOST.LOST 0 s.b })

/-- An accepted COMMIT sets the pending bit of every selected unit and changes nothing else: the live copies wait for the boundary.
It is accepted where no selected unit is pending, the checks of the page hold and no closed loop needs the old contents (R46, R56,
R127, R163, R195, R230, R486 to R488). -/
def Obligations.CommitsMarkTheirUnitsPending : Prop :=
  ∀ (v : Word) (n : Fin 9) (s : State), s.b.heard = true →
    let pends := fun (page : Nat) (v : Word) (t : State) => t = { s with b := { s.b with regs := t.b.regs } } ∧
      (∀ j < 32, v.bit j = true → flag t.b (Reg.HDR.pend page j) = true) ∧
      (∀ f : Fld, (∀ j < 32, v.bit j = true → f.key ≠ (Reg.HDR.pend page j).key) → getF t.b f = getF s.b f)
    let free := fun (page : Nat) (v : Word) => ∀ j < 32, v.bit j = true → flag s.b (Reg.HDR.pend page j) = false
    (v.toNat &&& 0xFFFFFFFE = 0 → free 0xC v → badRecs s.b.shadow = [] →
      damaged s.b 0 0x90000 = false → damaged s.b 0x200000 0x248000 = false →
      (∀ e ∈ touchedRecs s.b.shadow ++ touchedRecs s.b.live, loopClass s.b.shadow e ≠ loopClass s.b.live e →
        closed s.b e = false) → flag s.b (Reg.HDR.pend 0xC 0) = false →
      ∃ t, exec (.fabricCommit v) s = .next t ∧ pends 0xC v t) ∧
    (free 0xB v → (∀ k < 32, v.bit k = true → slotBad s.b.shadow k = false ∧
        damaged s.b (0x280000 + 4096 * k) (0x281000 + 4096 * k) = false ∧
        damaged s.b (0x2A0000 + 16 * k) (0x2A0010 + 16 * k) = false) →
      ∃ t, exec (.routeCommit v) s = .next t ∧ pends 0xB v t) ∧
    (free 0xA 1 → flag s.b Reg.PLAN.XT_STAT.CRC_BUSY = false → s.b.xtCrc = getF s.b Reg.PLAN.XT_CRC.CRC →
      damaged s.b 0x100000 0x200000 = false → ∃ t, exec .planCommitXt s = .next t ∧ pends 0xA 1 t) ∧
    (free 0xA 2 → (∀ k < 64, rdH s.b.shadow (0x248000 + 512 * k + 510) = 4096) → damaged s.b 0x248000 0x250000 = false →
      ∃ t, exec .planCommitStep s = .next t ∧ pends 0xA 2 t) ∧
    (v.toNat &&& 0xFFFF0000 = 0 → free 0xC0 v → (∀ c < 16, v.bit c = true → classBad s.b c = false ∧
        (classChanged s.b c = true → ∀ e ∈ s.b.listed, closed s.b e = true → loopClass s.b.live e ≠ c)) →
      ∃ t, exec (.lclassCommit v) s = .next t ∧ pends 0xC0 v t) ∧
    (s.b.sys.mode ∈ [Mode.idle, .calibrate, .openHold] → free (0xA0 + n.val) 1 →
      ∃ t, exec (.snsCommitOfs n) s = .next t ∧ pends (0xA0 + n.val) 1 t) ∧
    (s.b.sys.mode ∈ [Mode.idle, .calibrate, .openHold] → free 0xA0 2 →
      ∃ t, exec .snsCommitRtd s = .next t ∧ pends 0xA0 2 t) ∧
    (s.b.sys.mode ∈ [Mode.idle, .calibrate, .openHold] → free 0x20 1 → anyClosed s.b s.b.listed = false →
      (progCheck s.b.shadow).1 = 0 → damaged s.b 0x300000 0x304210 = false →
      ∃ t, exec .progCommit s = .next t ∧ pends 0x20 1 t)

/-- OPEN, CLOSE and PARK are accepted where no command is waiting, the target stands and the mode allows the operation, and
take effect in the next tick: BUSY sets, both counts clear (R156 to R160). The clearing writes clear what they name and
nothing else: LCLASS.FIRST, an engine's DIAG, a bank's peak, the first frozen input, the fault capture's VALID, MERGED and
merge counters, the crossbar's orphan, decode error and ECC records, and the count of rejected writes, bit by bit (R95, R128,
R165, R206, R353, R418, R482). The counts' scope is the model's reading (log entry 30). -/
def Obligations.LoopCommandsAndClearingWrites : Prop :=
  (∀ (scope : Fin 4) (target : BitVec 13) (s : State), s.b.heard = true → flag s.b Reg.LCLASS.CMD_STAT.BUSY = false →
    targetOk scope.val target.toNat = true →
    let waits := fun op : Nat => (.next { s with b := { setFs
      [(Reg.LCLASS.CMD_STAT.BUSY, 1), (Reg.LCLASS.CMD_STAT.SKIPPED, 0), (Reg.LCLASS.CMD_STAT.AFFECTED, 0)] s.b with
        cmd := some { op := op, scope := scope.val, target := target.toNat, tick := s.b.tick + 1 } } } : Host.Outcome State Fault Refusal)
    let fits := fun op : Nat => scope.val = 0 → elementErrs s.b op target.toNat = []
    (s.b.sys.mode ∉ [Mode.safe, .shutdown, .factoryTest] → fits 1 → exec (.openLoops scope target) s = waits 1) ∧
    (s.b.sys.mode.working = true → fits 2 → exec (.closeLoops scope target) s = waits 2) ∧
    (s.b.sys.mode ∉ [Mode.safe, .shutdown, .factoryTest] → fits 3 → exec (.park scope target) s = waits 3)) ∧
  (∀ (e : Fin 68) (n : Fin 18) (m : Fin 9) (w : Master) (page : Fin 512) (v : Word) (s : State), s.b.heard = true →
    let zeros := fun fs : List Fld => (.next { s with b := setFs (fs.map fun f => (f, 0)) s.b } : Host.Outcome State Fault Refusal)
    exec .lclassFirstClear s = zeros [Reg.LCLASS.FIRST.E_CLAMP, Reg.LCLASS.FIRST.E_FAULT, Reg.LCLASS.FIRST.V_CLAMP,
      Reg.LCLASS.FIRST.V_FAULT] ∧
    exec (.diagClear e) s = zeros [Reg.ENG.DIAG.ADDR_ERR e.val, Reg.ENG.DIAG.ACC_SAT e.val] ∧
    exec (.mtrPeakClear n) s = zeros [Reg.DRV.MTR_PEAK.P_PEAK n.val] ∧
    exec (.snsFirstClear m) s = zeros [Reg.SNS.FIRST.INPUT m.val, Reg.SNS.FIRST.CAUSE m.val] ∧
    exec .fcapClear s = zeros [Reg.FCAP.STAT.VALID, Reg.FCAP.STAT.MERGED, Reg.FCAP.STAT.MERGE_CNT, Reg.FCAP.SRC.SOURCE,
      Reg.FCAP.SRC.CLASS, Reg.FCAP.SRC.MASTER, Reg.FCAP.SRC.ACCESS, Reg.FCAP.ADDR.ADDR, Reg.FCAP.T_NS.NS, Reg.FCAP.T_SLO.SEC,
      Reg.FCAP.T_SHI.SEC, Reg.FCAP.MERGED_GRP0.GROUPS, Reg.FCAP.MERGED_GRP1.GROUPS] ∧
    exec .xbarClearOrphan s = zeros [Reg.XBAR.ORPHAN.MASTER, Reg.XBAR.ORPHAN.TARGET, Reg.XBAR.ORPHAN.BEATS_DONE,
      Reg.XBAR.ORPHAN.BEATS, Reg.XBAR.ORPHAN.READ, Reg.XBAR.ORPHAN.VALID, Reg.XBAR.ORPHAN_ADDR.ADDR] ∧
    exec .xbarClearDec s = zeros [Reg.XBAR.DEC_LAST.MASTER, Reg.XBAR.DEC_LAST.WRITE, Reg.XBAR.DEC_LAST.VALID,
      Reg.XBAR.DEC_ADDR.ADDR] ∧
    exec .xbarClearEcc s = zeros [Reg.XBAR.ECC_CNT.SINGLE, Reg.XBAR.ECC_CNT.DOUBLE, Reg.XBAR.ECC_LAST.MEM,
      Reg.XBAR.ECC_LAST.LIVE, Reg.XBAR.ECC_LAST.DOUBLE, Reg.XBAR.ECC_LAST.UNIT, Reg.XBAR.ECC_LAST.VALID,
      Reg.XBAR.ECC_ADDR.ADDR] ∧
    (w ≠ .m4 → (pgOf page.val).isSome = true → v.toNat &&& 0xFFFF0000 = 0 →
      exec (.errCountClear w page v) s = .next { s with
        b := setF (Reg.HDR.errCount page.val) (getF s.b (Reg.HDR.errCount page.val) &&& (65535 ^^^ v.bits 0 16)) s.b }))

/-! ### Time -/

/-- TIME.CFG takes format, source and servo mode; leaving PTP drops the master and unselects both ports, entering PPS begins its
timeout. INCR takes an increment within its bounds. PAUSE_CLR ends the pause and tells a chain. A read of NOW_NS answers the
nanoseconds and fills the snapshot (R267 to R269, R276, R282, R285). -/
def Obligations.TimeRegistersTakeTheirWrites : Prop :=
  ∀ (v : Word) (m : Master) (s : State),
    let old := getF s.b Reg.TIME.CFG.SRC
    let cfg := [(Reg.TIME.CFG.FMT, v.bits 0 1), (Reg.TIME.CFG.SRC, v.bits 1 2), (Reg.TIME.CFG.SERVO_HOST, v.bits 3 1)]
    (hears 0xFFFFFFF0 v s.b = true →
      ((v.bits 0 1 ≠ getF s.b Reg.TIME.CFG.FMT ∨ v.bits 1 2 ≠ old) → s.b.sys.mode ∈ [Mode.idle, .calibrate, .openHold]) →
      (v.bits 0 1 ≠ getF s.b Reg.TIME.CFG.FMT → flag s.b Reg.GLEW.CFG.EN = false) → (v.bits 1 2 = 2 → isMember s.b = true) →
      ∃ t, exec (.timeCfgWrite v) s = .next t ∧
        t = { s with b := { s.b with
          regs := t.b.regs, time := { s.b.time with master := t.b.time.master, ppsSeen := t.b.time.ppsSeen }
          glew := if old ≠ 2 ∧ v.bits 1 2 = 2 then { s.b.glew with oSum := 0, oN := 0 } else s.b.glew } } ∧
        KeepsRegsBut ((List.range 2).flatMap fun p => [Reg.PTP.STATE.SELECTED p, Reg.PTP.STATE.PORT_STATE p]) (setFs cfg s.b) t.b ∧
        (if old = 1 ∧ v.bits 1 2 ≠ 1 then t.b.time.master = none ∧ ∀ p < 2, isSelected t.b p = false
          else t.b.time.master = s.b.time.master ∧ t.b.regs = (setFs cfg s.b).regs) ∧
        t.b.time.ppsSeen = if old ≠ 3 ∧ v.bits 1 2 = 3 then some s.b.q else s.b.time.ppsSeen) ∧
    (s.b.heard = true → 0x3FF7CED9 ≤ v.toNat → v.toNat ≤ 0x40083127 → (old = 0 ∨ flag s.b Reg.TIME.CFG.SERVO_HOST = true) →
      exec (.incrWrite v) s = .next { s with b := setF Reg.TIME.INCR.INCR v.toNat (anchor s.b) }) ∧
    (s.b.heard = true → isMember s.b = false →
      exec .pauseClr s = .next { s with b := sendCell .dn 15 0 true 1 [] (setF Reg.TIME.STAT.PAUSED 0 s.b) }) ∧
    (s.b.sys.mode ≠ .reset → m ≠ .m4 →
      let c := send (.answer m 0x4048 0 (BitVec.ofNat 32 (s.b.time.ns % 1000000000))) (setFs
        [(Reg.TIME.NOW_NS.NS, s.b.time.ns % 1000000000), (Reg.TIME.SNAP_SLO.SEC, s.b.time.ns / 1000000000 % 2 ^ 32),
         (Reg.TIME.SNAP_SHI.SEC, s.b.time.ns / 1000000000 / 2 ^ 32), (Reg.TIME.SNAP_FRAC.FRAC, s.b.time.frac),
         (Reg.TIME.SNAP32.COUNT, s.b.time.ns % 2 ^ 32)] s.b)
      exec (.nowNsRead ⟨m, 0x4048, 4⟩) s = .next { s with b := if m = .m0 then send (.completion 0) c else c })

/-- SET_GO and ADJ step the local time at the next CLK_TICK edge: to the time set, or by the offset, modulo 2^48 seconds. A
step of at most 1,000 ns waits while the armed frame's comparator is less than 2,000 ns away, and DEFERRED_STEP applies it
once no comparator is armed (R265, R273, R274, R277). An edge of PPS_IN within 100 ms of a second not yet served is accepted,
counted and measured, and steers the clock where the pulse is the source; every other edge is counted and raises its source.
Three seconds without one is holdover. PPS_OUT rises at a new second and falls after its width (R282, R288, R289). When the
three seconds begin is the model's reading (log entry 68). -/
def Obligations.StepsOfTheClockAndPulsesPerSecond : Prop :=
  (∀ (v : Word) (s : State),
    let c := toEdge (min 250 (s.b.edge + 1)) s.b
    let goal : Int := (((getF s.b Reg.TIME.SET_SHI.SEC * 2 ^ 32 + getF s.b Reg.TIME.SET_SLO.SEC) * 1000000000
      + getF s.b Reg.TIME.SET_NS.NS : Nat) : Int) * 2 ^ 28
    let waits := fun d : Int => d.natAbs ≤ 1000 * 2 ^ 28 ∧ ∃ x, toCompare c = some x ∧ 0 ≤ x ∧ x < 2000 * 2 ^ 28
    let mayStep := (getF s.b Reg.TIME.CFG.SRC = 0 ∨ flag s.b Reg.TIME.CFG.SERVO_HOST = true) ∧ s.b.time.defer = none
    let lands := fun (d : Int) (t : State) => local28 t.b = (local28 c + d) % (2 ^ 48 * 1000000000 * 2 ^ 28) ∧ t.pending = s.pending
    (hears 0xFFFFFFFE v s.b = true → v.bit 0 = true → mayStep → goal ≠ local28 c → ¬ waits (goal - local28 c) →
      ∃ t, exec (.setGo v) s = .next t ∧ lands (goal - local28 c) t) ∧
    (s.b.heard = true → v.toNat ≠ 0 → mayStep → ¬ waits (v.toInt * 2 ^ 28) →
      ∃ t, exec (.adj v) s = .next t ∧ lands (v.toInt * 2 ^ 28) t) ∧
    (s.b.heard = true → v.toNat ≠ 0 → mayStep → waits (v.toInt * 2 ^ 28) →
      exec (.adj v) s = .next { s with b := raise 932 (setF Reg.TIME.STAT.STEP_DEFER 1
        { c with time := { c.time with defer := some (v.toInt * 2 ^ 28) } }) }) ∧
    (∀ d : Int, s.b.time.defer = some d → toCompare s.b = none → s.b.sys.mode ≠ .reset → deferEdge s.b ≤ 250 * (s.b.tick + 1) →
      ∃ t, exec .deferredStep s = .next t ∧ t.pending = s.pending ∧
        local28 t.b = (local28 (toEdge (deferEdge s.b - 250 * s.b.tick) s.b) + d) % (2 ^ 48 * 1000000000 * 2 ^ 28))) ∧
  (∀ (s : State), s.b.sys.mode ≠ .reset →
    let st := (s.b.time.ns + (2 ^ 48 * 1000000000 - 12)) % (2 ^ 48 * 1000000000)
    let near := if st % 1000000000 < 100000000 then some (st / 1000000000)
      else if 900000000 ≤ st % 1000000000 then some ((st / 1000000000 + 1) % 2 ^ 48) else none
    let o : Int := if st % 1000000000 < 500000000 then ((st % 1000000000 : Nat) : Int)
      else ((st % 1000000000 : Nat) : Int) - 1000000000
    let c := setF Reg.TIME.PPS_IN.O (toBits 32 o) (incF Reg.TIME.PPS_CNT.ACCEPTED
      { s.b with time := { s.b.time with ppsSec := near, ppsSeen := some s.b.q } })
    let goal := (s.b.time.ns / 1000000000 + 1) * 1000000000 * 2 ^ 28
    let n := ceilDiv (goal - (s.b.time.ns * 2 ^ 28 + s.b.time.frac)) (getF s.b Reg.TIME.INCR.INCR)
    (near ≠ none → near ≠ s.b.time.ppsSec → exec .ppsInEdge s = .next { s with
      b := if getF s.b Reg.TIME.CFG.SRC = 3 then offsetUpdate o 0x40000000 false c else c }) ∧
    (near = none ∨ near = s.b.time.ppsSec → exec .ppsInEdge s = .next { s with
      b := raise 933 (incF Reg.TIME.PPS_CNT.DISCARDED s.b) }) ∧
    (∀ t, s.b.time.ppsSeen = some t → getF s.b Reg.TIME.CFG.SRC = 3 → flag s.b Reg.TIME.STAT.HOLDOVER = false →
      s.b.due (t + 12000000000) = true → exec .ppsTimeout s = .next { s with
        b := enterHoldover false (s.b.atEdge (t + 12000000000)) }) ∧
    (flag s.b Reg.TIME.PPS_OUT.EN = true → s.b.time.ppsOut = false → s.b.edge + n ≤ 250 →
      let d := toEdge (s.b.edge + n) s.b
      exec .ppsOutRise s = .next { s with b := send (.pin pinPps true) { d with
        time := { d.time with ppsOut := true, ppsEnd := d.q + 4000 * getF s.b Reg.TIME.PPS_OUT.WIDTH } } }) ∧
    (s.b.time.ppsOut = true → s.b.due s.b.time.ppsEnd = true →
      let d := s.b.atEdge s.b.time.ppsEnd
      exec .ppsOutFall s = .next { s with b := send (.pin pinPps false) { d with time := { d.time with ppsOut := false } } }))

/-- What an offset update does: holdover ends, the offset shows, SYNCED follows eight good updates; where the host does not run the
servo, an offset beyond the threshold steps the clock by its negative with the integrator unchanged, and any other slews the
increment, clamped, with SERVO_LIMIT raised where it was. The integrator is 0 at reset (R278 to R283). -/
def Obligations.OffsetUpdatesSteerTheClock : Prop :=
  ∀ (o : Int) (nom : Nat) (force : Bool) (b : Blk), -2147483648 ≤ o → o ≤ 2147483647 →
    let good := decide (o.natAbs ≤ getF b Reg.TIME.LOCK_THR.THR)
    let n := if good then min 8 (b.time.good + 1) else 0
    let c := setFs [(Reg.TIME.HOLD_CNT.SEC, holdSeconds b), (Reg.TIME.STAT.HOLDOVER, 0), (Reg.TIME.OFFSET.O, toBits 32 o),
      (Reg.TIME.STAT.SYNCED, if good = true ∧ (flag b Reg.TIME.STAT.SYNCED = true ∨ 8 ≤ n) then 1 else 0)]
      { b with time := { b.time with good := n }, ev := (setRaw 928 false b).ev }
    let i := clampI (-137438976) 137438976 (sext 32 (getF b Reg.TIME.INTEG.I) + getF b Reg.TIME.SERVO.KI * o)
    let d := satS32 (rne (getF b Reg.TIME.SERVO.KP * o + i) 256)
    let x := clampI 0x3FF7CED9 0x40083127 ((nom : Int) - d)
    let slewed := setFs [(Reg.TIME.INTEG.I, toBits 32 i), (Reg.TIME.INCR.INCR, x.toNat)] (anchor c)
    (flag b Reg.TIME.CFG.SERVO_HOST = true → offsetUpdate o nom force b = c) ∧
    (flag b Reg.TIME.CFG.SERVO_HOST = false → (force = true ∨ getF b Reg.TIME.STEP_THR.THR < o.natAbs) →
      offsetUpdate o nom force b = stepLocal (-o * 2 ^ 28) c) ∧
    (flag b Reg.TIME.CFG.SERVO_HOST = false → force = false → o.natAbs ≤ getF b Reg.TIME.STEP_THR.THR →
      offsetUpdate o nom force b = if x = (nom : Int) - d then slewed else raise 931 slewed) ∧
    getF c Reg.TIME.INTEG.I = getF b Reg.TIME.INTEG.I ∧ getF Blk.reset Reg.TIME.INTEG.I = 0

/-- A Sync of the parent gives origin and arrival, at once or with its Follow_Up; once the path delay is known, each gives an
offset and an offset update. A PTP message of a wrong form or domain is counted (R278, R284, R286). The delay messages: a
request leaves with its sequence number and its egress stamp is kept; the response gives the mean path delay, at once or with
its follow-up, rounded to nanoseconds; a neighbour's request is answered with both stamps; the third missing egress stamp in
a row makes the port FAULTY (R284, R286, R287). What of IEEE 1588 stands behind these rules is the model's reading (log
entries 65 to 67). -/
def Obligations.SyncAndDelayMessagesMeasureTheMaster : Prop :=
  (∀ (p : Fin 2) (x : PtpMsg) (s : State),
    let q := ptpSt s.b p.val
    let t2 := ingress s.b p.val - x.corr - asym s.b p.val
    let done := fun (t1 t2 : Int) (b : Blk) =>
      let c := setPtp p.val { q with sync := none, last := some (t1, t2) } b
      let o := satS32 (rne (t2 - t1 - sext 32 (getF s.b (Reg.PTP.DELAY.MEAN p.val)) * 65536) 65536)
      if q.delayKnown then offsetUpdate o 0x40000000 false (setFs [(Reg.PTP.OFFSET.O p.val, toBits 32 o),
        (Reg.PTP.UPD.COUNT p.val, getF s.b (Reg.PTP.UPD.COUNT p.val) + 1), (Reg.PTP.STATE.PORT_STATE p.val, 9)] c) else c
    let heard := incF (Reg.PTP.CNT_RX.SYNC p.val) (if q.sync.isSome then incF (Reg.PTP.CNT_ERR.TS_MISS p.val) s.b else s.b)
    let timely := -7 ≤ x.logIntv ∧ x.logIntv ≤ 1
    (ptpHears p.val x s.b = true → fromParent s.b p.val x = true → timely → x.twoStep = true → exec (.sync p x) s = .next { s with
      b := setPtp p.val { q with sync := some (x.seqId.toNat, t2, 0) } heard }) ∧
    (ptpHears p.val x s.b = true → fromParent s.b p.val x = true → timely → x.twoStep = false → exec (.sync p x) s = .next { s with
      b := done (x.origin * 65536) t2 heard }) ∧
    (ptpHears p.val x s.b = true → ¬ timely → exec (.sync p x) s = .next { s with b := incF (Reg.PTP.CNT_ERR.DISCARD p.val) s.b }) ∧
    (∀ y, ptpHears p.val x s.b = true → fromParent s.b p.val x = true → q.sync = some y → y.1 = x.seqId.toNat →
      exec (.followUp p x) s = .next { s with b := done (x.origin * 65536 + x.corr) y.2.1 s.b }) ∧
    (s.b.sys.mode ≠ .reset → ptpOn s.b p.val = true → ptpHears p.val x s.b = false →
      ∀ g : EgressIn, ∀ c ∈ [Instr.sync p x, .followUp p x, .delayResp p x, .pdelayReq p ⟨x, g⟩, .pdelayResp p x,
        .pdelayRespFollowUp p x, .announce p x], exec c s = .next { s with b := incF (Reg.PTP.CNT_ERR.DISCARD p.val) s.b })) ∧
  (∀ (p : Fin 2) (x : PtpMsg) (g : EgressIn) (s : State),
    let q := ptpSt s.b p.val
    let runs := s.b.sys.mode ≠ .reset ∧ flag s.b (Reg.PTP.CFG.EN p.val) = true ∧ getF s.b (Reg.PTP.STATE.PORT_STATE p.val) ≠ 2
    let req := fun kind : Nat => sendPtp p.val kind [q.seq, toBits 64 (-asym s.b p.val)] s.b
    let next := (q.seq + 1) % 65536
    let known := fun (d2 : Int) (q : PtpSt) => setPtp p.val { q with delayKnown := true }
      (setF (Reg.PTP.DELAY.MEAN p.val) (toBits 32 (satS32 (rne d2 131072))) s.b)
    let t4 := ingress s.b p.val - x.corr - asym s.b p.val
    let miss := fun kind : Nat =>
      let c := incF (Reg.PTP.CNT_ERR.TS_MISS p.val) (setPtp p.val { q with seq := next, missed := q.missed + 1 } (req kind))
      if 2 ≤ q.missed then ptpFault p.val c else c
    (runs → flag s.b (Reg.PTP.CFG.MECH p.val) = false → isSelected s.b p.val = true → exec (.delayReq p g) s = .next { s with
      b := if g.stamped = true then setPtp p.val { q with
          seq := next, missed := 0, dreq := some ((next + 65535) % 65536, egress s.b p.val) } (req 1) else miss 1 }) ∧
    (∀ d l, ptpHears p.val x s.b = true → q.dreq = some d → q.last = some l → x.forUs = true → d.1 = x.seqId.toNat →
      fromParent s.b p.val x = true → exec (.delayResp p x) s = .next { s with
        b := known ((l.2 - l.1) + (x.origin * 65536 - x.corr - d.2)) { q with dreq := none } }) ∧
    (runs → flag s.b (Reg.PTP.CFG.MECH p.val) = true → exec (.pdelayReqInterval p g) s = .next { s with
      b := if g.stamped = true then setPtp p.val { q with
          seq := next, missed := 0, preq := some ((next + 65535) % 65536, egress s.b p.val), presp := none }
          (if q.presp.isSome then incF (Reg.PTP.CNT_ERR.TS_MISS p.val) (req 2) else req 2) else miss 2 }) ∧
    (ptpHears p.val x s.b = true → flag s.b (Reg.PTP.CFG.MECH p.val) = true → exec (.pdelayReq p ⟨x, g⟩) s = .next { s with
      b := let c := sendPtp p.val 3 [x.seqId.toNat, toBits 96 (ingress s.b p.val)] s.b
        if g.stamped = true then sendPtp p.val 10 [x.seqId.toNat, toBits 96 (egress s.b p.val), toBits 64 x.corr]
          (setPtp p.val { q with missed := 0 } c)
        else
          let d := incF (Reg.PTP.CNT_ERR.TS_MISS p.val) (setPtp p.val { q with missed := q.missed + 1 } c)
          if 2 ≤ q.missed then ptpFault p.val d else d }) ∧
    (∀ r, ptpHears p.val x s.b = true → q.preq = some r → x.forUs = true → r.1 = x.seqId.toNat →
      flag s.b (Reg.PTP.CFG.MECH p.val) = true → exec (.pdelayResp p x) s = .next { s with
        b := if x.twoStep = true then setPtp p.val { q with presp := some (r.1, x.origin * 65536, t4, 0) } s.b
          else known (t4 - r.2) { q with preq := none } }) ∧
    (∀ r y, ptpHears p.val x s.b = true → q.preq = some r → q.presp = some y → x.forUs = true → y.1 = x.seqId.toNat →
      exec (.pdelayRespFollowUp p x) s = .next { s with
        b := known ((y.2.2.1 - r.2) - (x.origin * 65536 + x.corr - y.2.1)) { q with preq := none, presp := none } }))

/-- An Announce enters its sender among the port's foreign masters, and a second one within four of its intervals qualifies it; a
receipt timeout, ANN_TO announce intervals after the parent's last, drops the parent; each makes the choice of the master anew.
No qualified master is better than the one chosen, where the Announces of one grandmaster agree. A faulty port whose link is
up returns to LISTENING when its second is over (R282, R285, R287). What of IEEE 1588 stands behind these rules is the model's reading (log entries 65 to 67). -/
def Obligations.AnnounceMessagesChooseTheMaster : Prop :=
  ∀ (p : Fin 2) (x : PtpMsg) (s : State),
    let q := ptpSt s.b p.val
    let n := min 2 (((q.foreign.find? fun f => f.src == x.src).map Foreign.n).getD 0 + 1)
    let agree := fun b : Blk => ∀ i < 2, ∀ j < 2, ∀ g ∈ (ptpSt b i).foreign, ∀ h ∈ (ptpSt b j).foreign, g.gm = h.gm →
      g.prio1 = h.prio1 ∧ g.quality = h.quality ∧ g.prio2 = h.prio2
    let old := q.foreign.find? fun f => f.src == x.src
    let f : Foreign := { prio1 := x.prio1.toNat, quality := x.quality.toNat, prio2 := x.prio2.toNat, gm := x.gm
                         steps := x.steps.toNat, src := x.src, n := n, intv := logInterval x.logIntv, last := s.b.q
                         prev := (old.map Foreign.last).getD s.b.q }
    (ptpHears p.val x s.b = true → exec (.announce p x) s = .next { s with
      b := ptpSelect (setPtp p.val { q with foreign := (q.foreign.filter fun g => g.src != x.src) ++ [f] }
        (incF (Reg.PTP.CNT_RX.ANNOUNCE p.val) s.b)) }) ∧
    (∀ g, q.foreign.find? (isParent s.b p.val) = some g →
      let t := g.last + getF s.b (Reg.PTP.INTV.ANN_TO p.val) * g.intv
      let c := s.b.atEdge t
      s.b.due t = true → exec (.announceReceiptTimeout p) s = .next { s with
        b := ptpSelect (setPtp p.val { q with foreign := q.foreign.filter fun g => !isParent c p.val g } c) }) ∧
    (∀ b : Blk, ∀ r, bestMaster b = some r →
      r.2 ∈ (ptpSt b r.1).foreign ∧ ptpOn b r.1 = true ∧ 2 ≤ r.2.n ∧ r.2.steps < 255 ∧
      (isParent b r.1 r.2 = true ∨ b.q ≤ r.2.prev + 4 * r.2.intv) ∧
      (agree b → ∀ j < 2, ptpOn b j = true → ∀ g ∈ (ptpSt b j).foreign, qualified b j g = true → better g j r.2 r.1 = false)) ∧
    (∀ t, q.recoverAt = some t → getF s.b (Reg.PTP.STATE.PORT_STATE p.val) = 2 → flag s.b (Reg.ETH.STAT.LINK p.val) = true →
      s.b.due t = true →
      exec (.ptpPortRecover p) s = .next { s with
        b := setF (Reg.PTP.STATE.PORT_STATE p.val) 4 (setPtp p.val { q with recoverAt := none, missed := 0 } (s.b.atEdge t)) })

/-! ### Ticks and element loops -/

/-- Where the clock runs, LOOP_TICK ends the tick and counts it, unless an accepted soft reset begins there; in RESET nothing
happens (R30, R460, R462). -/
def Obligations.LoopTickCountsTheTick : Prop :=
  ∀ (t : TickIn) (s : State),
    (s.b.sys.mode = .reset → exec (.loopTick t) s = .next s) ∧
    (s.b.sys.mode ≠ .reset → (s.b.sys.softReq = false ∨ s.b.sys.mode = .shutdown) →
      ∃ u, exec (.loopTick t) s = .next u ∧ u.b.tick = s.b.tick + 1 ∧ u.pending = s.pending) ∧
    (s.b.sys.mode ≠ .reset → s.b.sys.softReq = true → s.b.sys.mode ≠ .shutdown →
      exec (.loopTick t) s = .next { s with b := controllerReset 4 (toEdge 250 s.b) })

/-- At a tick boundary every pending unit whose condition holds becomes live, byte for byte the shadow copy, and its pending bit
clears; the fabric, crosstalk and step tables wait while a frame lies between planning and completion. With nothing pending the
boundary commits nothing (R26, R27, R46, R57, R127, R163, R195, R230, R488). -/
def Obligations.PendingCommitsBecomeLiveAtTheBoundary : Prop :=
  ∀ (b : Blk), b.sound = true →
    let c := commitBoundary b
    let live := fun lo hi : Nat => ∀ a, lo ≤ a → a < hi → rdB c.live a = rdB b.shadow a
    let gone := fun p j : Nat => flag c (Reg.HDR.pend p j) = false
    c.shadow = b.shadow ∧
    (planToCompletion b = false → flag b (Reg.HDR.pend 0xC 0) = true → live 0 0x90000 ∧ live 0x200000 0x248000 ∧ gone 0xC 0) ∧
    (planToCompletion b = false → flag b (Reg.HDR.pend 0xA 0) = true → live 0x100000 0x200000 ∧ gone 0xA 0) ∧
    (planToCompletion b = false → flag b (Reg.HDR.pend 0xA 1) = true → live 0x248000 0x250000 ∧ gone 0xA 1) ∧
    (∀ k < 32, flag b (Reg.HDR.pend 0xB k) = true → slotNamed b k = false →
      live (0x280000 + 4096 * k) (0x281000 + 4096 * k) ∧ live (0x2A0000 + 16 * k) (0x2A0010 + 16 * k) ∧ gone 0xB k) ∧
    (∀ k < 16, flag b (Reg.HDR.pend 0xC0 k) = true → (∀ w < 8, classW c k w = shClass b k w % 2 ^ 32) ∧ gone 0xC0 k) ∧
    (∀ n < 9, flag b (Reg.HDR.pend (0xA0 + n) 0) = true → live (0x440000 + 4096 * n) (0x441000 + 4096 * n) ∧ gone (0xA0 + n) 0) ∧
    (flag b (Reg.HDR.pend 0x20 0) = true → live 0x300000 0x304210 ∧ gone 0x20 0) ∧
    (planToCompletion b = true → ∀ a, a < 0x90000 ∨ (0x100000 ≤ a ∧ a < 0x250000) → rdB c.live a = rdB b.live a) ∧
    ((∀ p, ∀ j < 32, flag b (Reg.HDR.pend p j) = false) → c = b)

/-- A slot runs once a tick on the engine that serves its element, in no service cycle; it reaches no live byte outside the
element's context and no shadow byte. A standby's slot runs too, once a tick, and leaves everything but its own engine's counts; a
FAILED one's does nothing (R23, R166, R168, R169, R171, R200 to R203, R359, R364). Program 3.2 runs by its stated behaviour (log entry 16). -/
def Obligations.EngineSlotServesItsElementOnce : Prop :=
  ∀ (g : Fin 68) (k : Fin 72) (s : State), s.b.sys.mode ≠ .reset →
    let c := s.b.atEdge (4000 * s.b.tick + 52 * k.val)
    let e := 64 * k.val + logicalOf c g.val
    let reads := eccSlot g.val e c
    (234 ≤ c.edge ∨ (serving c g.val = true ∧ (4608 ≤ e ∨ c.tick < (c.elem e).lp.slotTick)) →
      exec (.engineSlot g k) s = .next { s with b := c }) ∧
    (∀ h : e < 4608, c.edge < 234 → serving c g.val = true → (c.elem e).lp.slotTick ≤ c.tick →
      exec (.engineSlot g k) s = .next { s with b := acqSlot e (if isRom reads.live = true
        then slotRom g.val k.val e reads else slotHost g.val k.val ⟨e, h⟩ reads) } ∧
      (isRom reads.live = true → let d := slotRom g.val k.val e reads
        KeepsShadow s.b d ∧ ∀ a, (a < ctxAddr e 0 ∨ ctxAddr e 64 ≤ a) → rdB d.live a = rdB s.b.live a)) ∧
    (c.edge < 234 → serving c g.val = false → ∃ t, exec (.engineSlot g k) s = .next t ∧ t.pending = s.pending ∧
      (failedEng c g.val = true → t.b = c) ∧ t.b = { c with red := { c.red with engs := t.b.red.engs } } ∧ KeepsMemory s.b t.b ∧
      (failedEng c g.val = false → (engRt c g.val).nextSlot ≤ 72 * c.tick + k.val →
        (engRt t.b g.val).nextSlot = 72 * c.tick + k.val + 1))

/-- The codes that each state's law computes: PARKED gives the park codes, HOLD and DARK the held heater code with the change
of feed-forward and the held trim, FAULT both held codes, TRANSIT the trajectory's present codes (R130, R137, R223). The
rounding inside the laws is the model's reading (log entries 26 and 36). -/
def Obligations.EachStateHasItsLaw : Prop :=
  ∀ (q : SlIn) (el : Int) (s : Sl),
    (s.x.lp.st = .parked → (s.law q el).1 = ((parkHtr q.b.live q.e : Int), parkTrm q.b.live q.e) ∧ (s.law q el).2 = s) ∧
    (s.x.lp.st = .hold ∨ s.x.lp.st = .dark →
      (s.law q el).1 = (clampI 0 q.hmax (s.c.hH + s.c.ff - s.c.ffH), s.c.tH) ∧ (s.law q el).2 = s) ∧
    (s.x.lp.st = .fault → (s.law q el).1 = ((s.c.hH : Int), s.c.tH) ∧ (s.law q el).2 = s) ∧
    (s.x.lp.st = .transit → let k := (clampI 0 15 s.c.idx).toNat
      (s.law q el).1 = ((rdH q.b.live (ctxAddr q.e 43 + 2 * k) : Int), rdH q.b.live (ctxAddr q.e 51 + 2 * k)) ∧
      (s.law q el).2.c.idx = min (s.c.idx + 1) 15)

/-! ### Monitors -/

/-- A sample at its instant enters both inputs with range, correction and freeze count, and the check of the frame before is
appended to the element's record and shown to its delivery tracker; no other element changes (R104 to R106, R110 to R114, R224). The
check of a frame: a set state with its output lit compares the wrong-port fraction, at most 65,534, with the lock threshold; below
the floor it is DARK, without balance UNOBS (R110, R112, R113). -/
def Obligations.ChecksCompareAndAreRecordedInOrder : Prop :=
  (∀ (e : Fin 4608) (j : Fin 8) (ra rb : BitVec 14) (s : State), s.b.sys.mode ≠ .reset →
    (s.b.elem e.val).sns.cur.chk.length = j.val →
    let c := s.b.atEdge (checkInstant s.b j.val)
    let x := s.b.elem e.val
    let g := 8 * s.b.tick + j.val
    let byte := sbyteAt x (checkInstant s.b j.val)
    let y := if g = 0 then x else latchStep c e.val (g - 1) (checkInstant s.b j.val) byte x
    let r := if g = 0 then (2, none) else checkFrame c e.val (g - 1) byte y
    let d := if g = 0 then none else frameD c e.val (g - 1) byte y
    ∃ f, exec (.extinctionCheck e j ra rb) s = .next { s with b := acqFrame e.val j.val r d f } ∧
      let z := f.elem e.val
      z.sns.a = sampleIn c e.val 0 g ra x.sns.a ∧ z.sns.b = sampleIn c e.val 1 g rb x.sns.b ∧
      z.sns.cur.chk = x.sns.cur.chk ++ [r.1] ∧ z.sns.cur.epsLast = r.2.getD x.sns.cur.epsLast ∧
      z.trk = x.trk.map (Tracker.check (checkInstant s.b j.val) r) ∧ z.lp = x.lp ∧ z.drv = x.drv ∧
      (∀ i, i ≠ e.val → f.elem i = s.b.elem i) ∧ KeepsRegsBut [Reg.SNS.STAT.FROZEN (snsPage e.val)] s.b f ∧
      f = { c with elems := f.elems, regs := f.regs }) ∧
  (∀ (b : Blk) (e g : Nat) (byte : Byte) (x : Elem),
    let r := checkFrame b e g byte x
    let ia : Int := x.sns.a.at_ g
    let ib : Int := x.sns.b.at_ g
    let d := (frameD b e g byte x).getD 0
    let lit := byte.toNat / 4 % 2 = 1 ∨ byte.toNat / 8 % 2 = 1
    (∀ n, r.2 = some n → n ≤ 0xFFFE ∧ r.1 = if n ≤ b.epsLock then 1 else 0) ∧
    (r.2 = none → r.1 = 2 ∨ r.1 = 3) ∧
    (byte.toNat % 4 ≠ 2 → ia + ib < getF b (Reg.SNS.FLOOR.I_FLOOR (snsPage e)) → r = (2, none)) ∧
    (byte.toNat % 4 ≠ 2 → ¬ lit → r = (2, none)) ∧
    (∀ n, byte.toNat % 4 = 0 → r.2 = some n → n = (clampI 0 0xFFFE (rne (if d < 0 then -(32768 * (d - (ia - ib))) else
      32768 * (d - (ia - ib))) d.natAbs)).toNat) ∧
    (∀ n, byte.toNat % 4 = 1 → r.2 = some n → n = (clampI 0 0xFFFE (rne (if d < 0 then -(32768 * (d + (ia - ib))) else
      32768 * (d + (ia - ib))) d.natAbs)).toNat))

/-- The monitors' commands: an input that repeated its code long enough freezes, is counted and first recorded; a dither
window that ends below the floor sets DITH_LOW for the next and raises it, one that passes clears it; a limiting bias supply
and a limiting trim output show and raise their sources. The bias voltage while limiting is open (R80, R100, R119, R121,
R128). That the voltage is free is the model's choice (log entry 22). -/
def Obligations.MonitorFaultsAreShownAndRaised : Prop :=
  ∀ (x : Fin 9216) (e : Fin 4608) (n : Fin 9) (s : State), s.b.sys.mode ≠ .reset →
    let i := x.val / 2
    let el := s.b.elem i
    let w := (s.b.elem e.val).sns.win
    let low := decide ((w.h2.natAbs + w.i.natAbs + w.q.natAbs) * 65536 <
      getF s.b (Reg.SNS.DITH.DITH_FLOOR (snsPage e.val)) * w.d.natAbs)
    let win : DithWin := { h2 := 0, i := 0, q := 0, d := 0, counts := true, low := if w.counts then low else w.low
                           ended := s.b.tick }
    let c := setElem e.val { s.b.elem e.val with sns := { (s.b.elem e.val).sns with win := win } } s.b
    (∀ y, y = (if x.val % 2 = 0 then el.sns.a else el.sns.b) → getF s.b (Reg.SNS.FRZ.N_FREEZE (snsPage i)) ≤ y.same →
      y.frozen = false →
      let z := { y with frozen := true, frozeTick := true }
      let c := setElem i { el with sns := if x.val % 2 = 0 then { el.sns with a := z } else { el.sns with b := z } } s.b
      exec (.inputFrozen x) s = .next { s with
        b := raise (832 + 7 * snsPage i) (snsFirst (snsPage i) (2 * (i % 512) + x.val % 2) 1
          (setF (Reg.SNS.STAT.FROZEN (snsPage i)) (getF s.b (Reg.SNS.STAT.FROZEN (snsPage i)) + 1) c)) }) ∧
    (s.b.tick % 1024 = 0 → w.ended < s.b.tick → exec (.ditherWindowEnd e) s = .next { s with
      b := if w.counts = true ∧ low = true then raise (832 + 7 * snsPage e.val + 2) (snsFirst (snsPage e.val) (2 * (e.val % 512)) 3 c)
        else c }) ∧
    (let c := setRaw (836 + 7 * n.val) true (setFs [(Reg.SNS.BIAS_STAT.LIMIT n.val, 1),
        (Reg.SNS.BIAS_STAT.V_BIAS n.val, (Config.freeValue s.b.free).toNat)]
        { s.b with free := s.b.free + 1, biasSeen := s.b.biasSeen.set 0 n.val (s.b.tick + 1) })
     exec (.biasFault n) s = .next { s with
        b := if (evGet s.b (836 + 7 * n.val)).raw = true then c else raise (836 + 7 * n.val) c }) ∧
    (exec (.trmIlim e) s = .next { s with
      b := raise (545 + 16 * (e.val / 256)) (setFs [(Reg.DRV.STAT.ILIM_TRM (e.val / 256), 1),
        (Reg.DRV.STAT.ILIM_ROW (e.val / 256), e.val % 256)] s.b) })

/-! ### Drive outputs -/

/-- The writes of a bank's registers: rail, clear mode and dither; power down; rearming of a cleared bank; the span bits,
whose changed outputs begin their sequence in the next tick; the host's codes in CALIBRATE; the launch shadow and ARM words,
for the sequencer and the planner only; the monitors' bias and range (R71, R75, R76, R82, R86, R89, R93, R99). What V_BIAS
shows is the model's reading (log entry 21). -/
def Obligations.BankRegistersTakeTheirWrites : Prop :=
  ∀ (m : Master) (n : Fin 18) (k : Fin 8) (row : Fin 256) (p : Fin 9) (off : BitVec 12) (v : Word) (s : State),
    let bk := s.b.bank n.val
    let old := getF s.b (Reg.DRV.SPAN.SPAN n.val k.val)
    let turned := fun e : Nat => e / 32 = 8 * n.val + k.val ∧ v.bit (e % 32) ≠ (natBits old (e % 32) 1 == 1)
    let put := fun (b : Bool) (l : List Nat) => if b then (if row.val ∈ l then l else row.val :: l) else l
    (hears 0xFFFFFFF8 v s.b = true → (v.bit 0 ≠ flag s.b (Reg.DRV.CFG.RAIL n.val) → bankClosed s.b n.val = false) →
      ∃ t, exec (.railChange n v) s = .next t ∧ t.pending = s.pending ∧
        ElemsTake (fun e => v.bit 2 = false ∧ bankOf e = n.val) (fun _ x => { x with sns := { x.sns with dithNow := false } })
          (setFs [(Reg.DRV.CFG.RAIL n.val, v.bits 0 1), (Reg.DRV.CFG.CLR_MODE n.val, v.bits 1 1),
            (Reg.DRV.CFG.DITH_EN n.val, v.bits 2 1)] s.b) t.b) ∧
    (hears 0xFFFFFFFE v s.b = true → (v.bit 0 = false → bk.released = true → bankClosed s.b n.val = false) →
      exec (.drvEnWrite n v) s = .next { s with
        b := setBank n.val { bk with powerDown := bk.released && !v.bit 0 } (setF (Reg.HDR.en n.val) (v.bits 0 1) s.b) }) ∧
    (s.b.heard = true → s.b.sys.mode ∈ [Mode.idle, .calibrate, .openHold] → s.b.sys.clrLow = false →
      exec (.rearm n) s = .next { s with b := setBank n.val { bk with rearm := bk.cleared } s.b }) ∧
    (s.b.heard = true → (∀ e, turned e → closed s.b e = false ∧ bk.cleared = false ∧ (s.b.elem e).drv.seq = none) →
      ∃ t, exec (.spanWrite n k v) s = .next t ∧ t.pending = s.pending ∧
        ElemsTake (fun e => bk.released = true ∧ turned e) (fun _ x => { x with drv := { x.drv with
          seq := some { start := s.b.tick + 1, src := x.drv.trmLive, kept := x.drv.trmTick, switched := false } } })
          (setF (Reg.DRV.SPAN.SPAN n.val k.val) v.toNat s.b) t.b) ∧
    (s.b.sys.mode = .calibrate → exec (.hostCodeWrite n row v) s = .next { s with
      b := setBank n.val { bk with hostRows := put true bk.hostRows, hostPend := put (bk.released && !bk.cleared) bk.hostPend }
        (setFs [(Reg.DRV.HOST_CODE.HTR n.val row.val, v.bits 0 16), (Reg.DRV.HOST_CODE.TRM n.val row.val, v.bits 16 16)] s.b) }) ∧
    (m = .m2 ∨ m = .m3 → s.b.sys.mode ≠ .reset → off.toNat % 4 = 0 → 0x800 ≤ off.toNat → off.toNat < 0xC00 →
      ∃ t, exec (.launchShadowWrite m n off v) s = .next t ∧ t.pending = s.pending ∧
        ElemsTake (fun e => e = 256 * n.val + (off.toNat - 0x800) / 4) (fun _ x => { x with drv := { x.drv with
          htrSh := BitVec.ofNat 16 (v.bits 0 16), trmSh := BitVec.ofNat 16 (v.bits 16 16) } }) s.b t.b) ∧
    (m = .m2 ∨ m = .m3 → s.b.sys.mode ≠ .reset → off.toNat % 4 = 0 → 0xC00 ≤ off.toNat → off.toNat < 0xC20 →
      ∃ t, exec (.launchShadowWrite m n off v) s = .next t ∧ t.pending = s.pending ∧
        ElemsTake (fun e => e / 32 = 8 * n.val + (off.toNat - 0xC00) / 4) (fun e x => { x with drv := { x.drv with
          arm := v.bit (e % 32) } }) s.b t.b) ∧
    (hears 0xFFFFFFE0 v s.b = true → v.bits 0 2 ≠ 3 → v.bits 3 2 ≠ 3 → (v.bits 0 2 ≠ getF s.b (Reg.SNS.CFG.PD_BIAS p.val) →
        bankClosed s.b (2 * p.val) = false ∧ bankClosed s.b (2 * p.val + 1) = false) →
      exec (.pdBiasChange p v) s = .next { s with
        b := setFs [(Reg.SNS.CFG.PD_BIAS p.val, v.bits 0 2), (Reg.SNS.CFG.AUTORANGE p.val, v.bits 2 1),
          (Reg.SNS.CFG.FIX_RANGE p.val, v.bits 3 2)] s.b })

/-- Span sequences switch at their second tick with the trim code at 0, or at the clear code of a cleared bank, and give the kept
code back when they are done. CLR_N clears every bank, counts the assertion and raises every bank's source; its release ends
the level. A released bank that was not cleared takes the clear code, every other output keeps its codes, and every ARM bit
clears (R76, R83, R87, R88, R90 to R92). The code of a cleared bank during a sequence is the model's choice (log entry 123). -/
def Obligations.SpanSequencesAndTheClearPin : Prop :=
  ∀ (e : Fin 4608) (n : Fin 18) (s : State),
    let d := (s.b.elem e.val).drv
    let past := fun x : Nat => x ∈ s.b.listed ∧ bankOf x = n.val ∧
      ∃ q, (s.b.elem x).drv.seq = some q ∧ q.switched = true ∧ q.start + 2 ≤ s.b.tick
    (∀ q, d.seq = some q → q.start + 1 ≤ s.b.tick → q.switched = false → exec (.spanSwitch e) s = .next { s with
      b := let k := s.b.bank (bankOf e.val)
        setElem e.val { s.b.elem e.val with drv := { d with
          span := k.released && spanReq s.b e.val, trmLive := if k.released && k.cleared then d.trmLive else 0
          old := outsTo s.b s.b.q e.val (s.b.elem e.val), seq := some { q with switched := true } } } s.b }) ∧
    ((∃ x, past x) → ∃ c, ElemsTake past (fun e x => { x with drv := { x.drv with
          trmLive := (x.drv.seq.map SpanSeq.kept).getD x.drv.trmLive, old := outsTo s.b s.b.q e x, seq := none } }) s.b c ∧
        exec (.spanSequenceDone n) s = .next { s with b := raise (550 + 16 * n.val) c }) ∧
    (s.b.sys.mode ≠ .reset → s.b.sys.clrLow = false → ∃ c, c.sys.clrLow = true ∧
      (∀ k < 18, (c.bank k).cleared = true ∧
        getF c (Reg.DRV.STAT.CHATTER k) = satInc 255 (getF s.b (Reg.DRV.STAT.CHATTER k))) ∧
      exec .clrNAssert s = .next { s with b := raiseAll ((List.range 18).map (fun k => 549 + 16 * k) ++ [1126]) c }) ∧
    (exec .clrNRelease s = .next { s with b := { s.b with sys := { s.b.sys with clrLow := false } } }) ∧
    (∀ b : Blk, ∀ k < 18, (clearBanks b).bank k = { b.bank k with
      cleared := true, rearm := false, parkCode := if (b.bank k).cleared then (b.bank k).parkCode else flag b (Reg.DRV.CFG.CLR_MODE k) }) ∧
    (∀ b : Blk, ∀ x < 4608,
      let k := b.bank (bankOf x)
      let y := ((clearBanks b).elem x).drv
      y.arm = false ∧
      (k.released = true → k.cleared = false →
        (y.htrLive, y.trmLive) = clearCode b (flag b (Reg.DRV.CFG.CLR_MODE (bankOf x))) x) ∧
      (k.released = false ∨ k.cleared = true → (clearBanks b).elem x = { b.elem x with drv := { (b.elem x).drv with arm := false } }))

/-! ### Scheduling and launching -/

/-- The arrival with the earliest stamp is evaluated; the code of a rejection is that of the first check that fails. An
accepted frame joins the queue's end, is counted and acknowledged with its planning time; a rejected one changes no queue, is
counted, answered with its code and raised (R236, R241, R242, R259). The ledger's fold is the model's reading (log entry 38).
-/
def Obligations.ArrivalsAreEvaluatedInOrder : Prop :=
  ∀ (s : State) (i : Nat) (a : Arrival), nextArrival s.b.sched.arrivals = some (i, a) →
    let c := { s.b with sched := { s.b.sched with arrivals := s.b.sched.arrivals.eraseIdx i } }
    let r := admissionResult c a.words
    let f := frameOf c a
    let d := showLast a.words r c
    let e := lifeAdd64 5 (incF Reg.SCHED.CNT_ACC.COUNT (showQueue { d with
      sched := { d.sched with queue := d.sched.queue ++ [f] } }))
    let g := solveDirects (postRecord a.peer.isNone a.peer a.msg (recordWords e 1 f.seq f.tp 0 0 e.time.ns 0) e)
    let h := incF Reg.SCHED.CNT_REJ.COUNT d
    s.b.sched.arrivals[i]? = some a ∧ (∀ y ∈ s.b.sched.arrivals, a.stamp ≤ y.stamp) ∧
    ((∀ x ∈ admissionChecks c a.words, x.2.1 = false) → r.1 = 0) ∧
    (∀ (n : Nat) (x : Nat × Bool × Nat), (admissionChecks c a.words)[n]? = some x → x.2.1 = true →
      (∀ m < n, ∀ y : Nat × Bool × Nat, (admissionChecks c a.words)[m]? = some y → y.2.1 = false) → r = (x.1, x.2.2)) ∧
    (r.1 = 0 → exec .frameAdmission s = .next { s with
      b := flushLate (if g.sched.queue.length = 56 then raise 1029 g else g) }) ∧
    (r.1 ≠ 0 → exec .frameAdmission s = .next { s with
      b := raise 1024 (postRecord a.peer.isNone a.peer a.msg (recordWords h (1 + r.2 * 256) f.seq 0 0 0 h.time.ns 0) h) })

/-- The solver takes the first frame that is not solved, with its entries as they stand, and is done T_SOLVE later; planning
begins with the first frame not launched once it is solved and the release instant before it has come, reads the contexts once no
element is left in TRANSIT, and its completion arms the elements still eligible and shows the plan's figures; a frame that
moves nothing arms nothing (R50, R53, R57, R62, R207 to R209, R214, R215, R261). When solving ends and what is written when are
the model's readings (log entries 24 and 35). -/
def Obligations.FramesAreSolvedAndPlanned : Prop :=
  ∀ (s : State) (i : Nat) (f : Frame), s.b.sched.queue[i]? = some f → s.b.sys.mode ≠ .reset →
    let t := 4 * tSolve (getF s.b Reg.FABRIC.CFG.SIZE)
    (i = (s.b.sched.queue.takeWhile fun f => !f.unsolved).length → f.stage = .queued → f.kind ≠ 3 → f.casc = false →
      solverFree s.b = true → let es := permEntries s.b f.kind f.slot f.payload
      let ws := (List.range (es.length / 2)).map fun k => BitVec.ofNat 32 (es.getD (2 * k) 0 + 65536 * es.getD (2 * k + 1) 0)
      let c := if f.kind = 2 then eccData (slotWords6 f.slot) s.b else s.b
      exec .routeSolve s = .next { s with b := setFrame i { f with
        stage := .solving, solveStart := s.b.q, keep := flag s.b Reg.ROUTE.CFG.KEEP, payload := ws } c }) ∧
    (i = (s.b.sched.queue.takeWhile fun f => f.stage != .solving).length → s.b.sched.trySlot = none →
      s.b.due (f.solveStart + t) = true →
      exec .routeSolveDone s = .next { s with b := solveFrame i f (s.b.atEdge (f.solveStart + t)) }) ∧
    (let t := s.b.sched.tryStart + 4 * tSolve s.b.sched.trySize
     s.b.sched.trySlot ≠ none → s.b.due t = true → exec .routeSolveDone s = .next { s with b := trySolve (s.b.atEdge t) }) ∧
    (i = firstUnlaunched s.b → f.stage = .solved → s.b.sched.relTick ≤ s.b.tick →
      let g := { f with stage := .planning, planStart := s.b.q, plan := [] }
      let c := setFrame i g s.b
      exec .planStart s = .next { s with b := if anyTransit s.b = true then c else planRead i g c }) ∧
    (let c := eccData (fun w => w.live && decide (w.mem.val ∈ [1, 2, 3])) s.b
      let r := planAll (boundaryAt s.b (4 * f.launch) - f.launch) f.seq f.states c
      let parked := (f.states.zipIdx.filter fun x =>
        natBits x.1.toNat 4 1 == 1 && (c.elem x.2).lp.st == .parked).map Prod.snd
      planRead i f s.b = if f.moves = true then setFrame i { f with
          armSet := r.2.arm, wasParked := parked, plan := [r.2.moved, r.2.nb, r.2.kick, r.2.late] } r.1
        else setFrame i { f with armSet := [], wasParked := parked, plan := [0, 0, 0, 0] } c) ∧
    (i = (s.b.sched.queue.takeWhile fun f => f.stage != .planning).length → f.stage = .planning → f.plan = [] →
      exec .planComplete s = exec .planComplete { s with b := planRead i f s.b }) ∧
    (i = (s.b.sched.queue.takeWhile fun f => f.stage != .planning).length → f.stage = .planning → f.plan ≠ [] →
      let arm := f.armSet.filter fun e => stillArmed s.b f e
      ∃ c p, exec .planComplete s = .next { s with b := setFrame i { f with
          stage := .planned, armSet := arm, pEnd := if chainN s.b = 0 then s.b.time.ns else f.pEnd } (setFs
          [(Reg.PLAN.LAST_TIME.T_PLAN, (s.b.q - f.planStart) / 4), (Reg.PLAN.LAST_PLAN.MOVED, f.plan.getD 0 0),
           (Reg.PLAN.LAST_PLAN.ARMED_NB, f.plan.getD 1 0), (Reg.PLAN.LAST_CLAMP.KICK_CLAMP, f.plan.getD 2 0),
           (Reg.PLAN.LAST_CLAMP.LATE, f.plan.getD 3 0), (Reg.PLAN.LAST_PEAK.P_LAUNCH, p)] c) } ∧
        ElemsTake (· ∈ arm) (fun _ x => { x with drv := { x.drv with arm := true } }) s.b c)

/-- The vote over the three channels: where all agree the comparator is armed; where one disagrees it is shown and retired
and the other two arm it; where no two agree, or in DUPLEX any difference stands, the sequencer halts (R254 to R258, R264).
What an absent channel counts as is the model's reading (log entry 48). -/
def Obligations.TheVoteArmsRetiresOrHalts : Prop :=
  ∀ (s : State) (v : VoteIn) (f : Frame),
    let i := firstUnlaunched s.b
    let ins := fun (x y z : Bool) => inService s.b 0 = x ∧ inService s.b 1 = y ∧ inService s.b 2 = z
    let voted := incF Reg.SEQ.VOTES.COUNT s.b
    let shown := fun (p q r : Nat) (b : Blk) => setF Reg.FTEST.SEQ_FLIP.GO 0 (setFs [(Reg.SEQ.LAST_DIS.ODD_I, p),
      (Reg.SEQ.LAST_DIS.ODD_L, q), (Reg.SEQ.LAST_DIS.ODD_P, r), (Reg.SEQ.LAST_DIS.WHAT, 0), (Reg.SEQ.LAST_DIS.VALID, 1),
      (Reg.SEQ.LAST_DIS.WORD, 0)] b)
    s.b.sched.queue[i]? = some f → f.stage = .planned → getF s.b Reg.SEQ.STAT.CONFIG ≠ 2 →
    flag s.b Reg.FTEST.SEQ_FLIP.GO = false → v.i.words = v.l.words → v.p.words = v.l.words →
    (ins true true true → v.i.present = true → v.l = v.i → v.p = v.i → exec (.sequencerVote v) s = .next { s with
      b := armFrame i (votedFrame s.b v [] f) (setF Reg.FTEST.SEQ_FLIP.GO 0 voted) }) ∧
    (ins true true true → v.i.present = true → v.l.present = true → v.p = v.l → v.i.cmd ≠ v.l.cmd →
      let c := retire 0 (shown 1 0 0 voted)
      exec (.sequencerVote v) s = .next { s with
        b := if firstUnlaunched c < c.sched.queue.length then armFrame i (votedFrame s.b v [0] f) c else c }) ∧
    (ins true true true → v.i.present = true → v.l.present = true → v.p.present = true → v.i.cmd ≠ v.l.cmd →
      v.i.cmd ≠ v.p.cmd → v.l.cmd ≠ v.p.cmd → exec (.sequencerVote v) s = .next { s with b := seqHalt (shown 1 1 1 voted) }) ∧
    (ins false true true → v.l.present = true → v.p.present = true → v.l.cmd ≠ v.p.cmd →
      exec (.sequencerVote v) s = .next { s with b := seqHalt (shown 0 1 1 voted) }) ∧
    (ins false true true → v.l.present = true → v.p = v.l → exec (.sequencerVote v) s = .next { s with
      b := armFrame i (votedFrame s.b v [] f) (setF Reg.FTEST.SEQ_FLIP.GO 0 voted) })

/-- The armed comparator matches at the first edge at which local time, in the format in force, has reached 40 ns before the launch
time: the frame is launched; while FREEZE_N is low it is withdrawn, and a member's committed frame issues no strobe. The strobe takes every armed output of an open bank to its launch code, sets
moved elements to TRANSIT and tracks them; a moved element that it does not reach is not launched (R81, R84, R136, R172,
R226, R253, R272). That the strobe is pending for three edges is the model's reading (log entry 23). -/
def Obligations.TheComparatorLaunchesTheArmedFrame : Prop :=
  ∀ (s : State) (f : Frame),
    let past : Int := s.b.time.ns - ((f.launch : Int) - 40)
    let ahead : Int := if flag s.b Reg.TIME.CFG.FMT = false then -past
      else if past % 2 ^ 32 < 2 ^ 31 then 0 else 2 ^ 32 - past % 2 ^ 32
    let n := ceilDiv (ahead * 2 ^ 28 - s.b.time.frac).toNat (getF s.b Reg.TIME.INCR.INCR)
    let c := toEdge (s.b.edge + n) s.b
    (s.b.sched.queue[firstUnlaunched s.b]? = some f → f.stage = .armed → s.b.sys.mode ≠ .reset → s.b.edge + n < 250 →
      ((f.casc = false ∧ chainN s.b = 0) ∨ f.commit = true) →
      (s.b.sys.frozenLow = false → exec .comparatorMatch s = .next { s with b := launch f c }) ∧
      (s.b.sys.frozenLow = true → exec .comparatorMatch s = .next { s with
        b := if f.casc then suppress f c else raiseAll (994 :: withdrawn2 c) (withdrawAll c) })) ∧
    (∀ (b : Blk) (e : Fin 4608), (∀ k < 18, bankShut b k = false) → b.ev.late = [] →
      let x := b.elem e.val
      let y := (strobe f b).elem e.val
      let moved := natBits (f.states.getD e.val 0).toNat 4 1 = 1
      (strobe f b).strobe = none ∧ y.drv.arm = false ∧
      (x.drv.arm = true → moved → y.lp.st = .transit ∧ y.trk = some (newTracker f .tracking)) ∧
      (x.drv.arm = true → ¬ moved → y.lp.st = x.lp.st ∧ y.trk = none) ∧
      (x.drv.arm = true → y.drv.htrLive = limitHtr b e.val x.drv.htrSh.toNat ∧ (x.drv.seq = none → y.drv.trmLive = x.drv.trmSh)) ∧
      (x.drv.arm = false → moved → y = { x with trk := some (newTracker f .notLaunched) }) ∧
      (x.drv.arm = false → ¬ moved → y = x))

/-- At the end of a delivery window every tracker whose window is over is decided: FAIL where light was seen, else MODEL. The
frame at the front completes once no element is tracked and every member has answered: its counts show, it leaves the queue,
and failures are counted and raised (R34, R224, R226, R229, R260, R261). The stamps are the model's reading (log entries 19
and 40). -/
def Obligations.WindowsCloseAndFramesComplete : Prop :=
  ∀ (s : State) (f : Frame) (t : Nat) (ts : List Nat),
    let tr := trackersOf s.b f
    let c := s.b.atEdge (closingInstant f tr)
    let own := ownTally c f (trackersOf c f)
    let failed := decide (0 < own.fail + own.other)
    (openEnds s.b = t :: ts → s.b.due (ts.foldl min t) = true →
      exec .deliveryWindowClose s = .next { s with b := closeWindows (s.b.atEdge (ts.foldl min t)) }) ∧
    (∀ (b : Blk) (e : Nat), (closeWindows b).elem e = { b.elem e with trk := (b.elem e).trk.map fun k =>
      if k.outcome = .tracking ∧ k.tEnd ≤ b.q then { k with outcome := if k.lit then .fail else .model } else k } ∧
      closeWindows b = { b with elems := (closeWindows b).elems }) ∧
    (s.b.sched.queue.head? = some f → f.stage = .launched → frameEnded s.b f tr = true → s.b.due (closingInstant f tr) = true →
      f.casc = false → chainN s.b = 0 → ∃ d, exec .completionEvent s = .next { s with
          b := if failed then raise 1025 (incF Reg.SCHED.CNT_FAIL.COUNT d) else flushLate d } ∧
        d.sched.queue = s.b.sched.queue.drop 1 ∧ getF d Reg.PLAN.DLV0.DELIVERED = own.deliv % 2 ^ 13 ∧
        getF d Reg.PLAN.DLV0.MODEL = own.model % 2 ^ 13 ∧ getF d Reg.PLAN.DLV1.FAIL = own.fail % 2 ^ 13 ∧
        getF d Reg.PLAN.DLV1.OTHER = own.other % 2 ^ 13 ∧ getF d Reg.SCHED.STAT.QUEUED = (s.b.sched.queue.length - 1) % 128)

/-- A millisecond shows every bank's average and their sum, and the budget's flag follows it. CANCEL acknowledges, and
withdraws a frame that is queued and not within 1,000 ns of its launch. RETIRE_CLR in IDLE logs and erases the marks
selected. ROUTE.TRY begins a trial solve of a committed slot (R62, R95, R243, R249, R251, R257). The rounding of the averages
is the model's reading (log entry 33). -/
def Obligations.MeterCancelAndTrialCommands : Prop :=
  ∀ (s : State) (v : Word),
    let avg := fun n : Nat => (ratRne ((s.b.bank n).msSum / ((max 1 (s.b.bank n).msN : Nat) : Rat))).toNat
    let sum := ((List.range 18).map avg).sum
    let ack := fun k : Nat => postRecord false none 0 (recordWords s.b (4 + k * 256) v 0 0 0 s.b.time.ns 0) s.b
    let tried := setF Reg.ROUTE.TRY.SLOT (v.bits 0 5) s.b
    (s.b.tick % 1000 = 0 → s.b.tick ≠ s.b.sched.msTick → s.b.sys.mode ≠ .reset →
      ∃ c, exec .meterMillisecond s = .next { s with
          b := setOverdrawn (decide (10 * getF s.b Reg.SCHED.BUDGET.STEADY ≤ sum)) c } ∧
        (∀ n < 18, getF c (Reg.DRV.MTR_AVG.P_AVG n) = avg n % 2 ^ 17 ∧ (c.bank n).msN = 0 ∧ (c.bank n).msSum = 0) ∧
        getF c Reg.SCHED.METER.P_MS = sum % 2 ^ 20 ∧ c.sched.msTick = s.b.tick ∧
        c = { s.b with regs := c.regs, banks := c.banks, sched := { s.b.sched with overMs := false, msTick := s.b.tick } }) ∧
    (∀ i f, s.b.heard = true → frameWith s.b v = some i → s.b.sched.queue[i]? = some f → f.stage ≠ .launched →
      s.b.time.ns + 1000 < f.launch → exec (.schedCancel v) s = .next { s with b := flushLate (withdrawFrom i 0 1 (ack 0)) }) ∧
    (hears 0xFFFFFFF8 v s.b = true → (v.bits 0 3 ≠ 0 → s.b.sys.mode = .idle) → exec (.retireClr v) s = .next { s with
      b := (List.range 3).foldl (fun b c => if v.bit c then writeMark c 0 (nvmRecord 3 0 0 c b) else b) s.b }) ∧
    (hears 0x7FFFFFE0 v s.b = true → v.bit 31 = true → s.b.sys.mode ∈ [Mode.idle, .calibrate, .openHold] →
      v.bits 0 5 ∈ s.b.permDone → slotSize s.b.live (v.bits 0 5) = getF s.b Reg.FABRIC.CFG.SIZE →
      let d := eccData (slotWords6 (v.bits 0 5)) tried
      exec (.routeTry v) s = .next { s with b := showQueue { d with
        sched := { d.sched with
          trySlot := some (v.bits 0 5), tryStart := d.q, tryKeep := flag s.b Reg.ROUTE.CFG.KEEP
          trySize := getF s.b Reg.FABRIC.CFG.SIZE
          tryEntries := slotEntries d.live (v.bits 0 5) (portsOf (getF s.b Reg.FABRIC.CFG.SIZE)) } } })

/-! ### The host link -/

/-- Writes of the rings' registers: the tail no further than the ring is long, its size only while disabled, a ring written 0
and then 1 starts anew, the read pointer no further than what was written (R424, R426, R429, R449). What the registers do
with a size change is the model's reading (log entry 92). -/
def Obligations.RingRegistersTakeTheirWrites : Prop :=
  ∀ (v : Word) (s : State), s.b.sys.mode ≠ .reset →
    let m := ringMod s.b Reg.PCIE.CMD_CFG.LOG2SIZE
    let mc := ringMod s.b Reg.PCIE.CPL_CFG.LOG2SIZE
    let rp := getF s.b Reg.PCIE.CPL_RP.RP % mc
    let c := setFs [(Reg.PCIE.CMD_CFG.EN, v.bits 0 1), (Reg.PCIE.CMD_CFG.LOG2SIZE, v.bits 1 4)] s.b
    (v.toNat &&& 0xFFFFE000 = 0 → (v.bits 0 13 % m + m - getF s.b Reg.PCIE.CMD_HEAD.HEAD % m) % m ≤ m / 2 →
      exec (.cmdTailWrite v) s = .next { s with b := setF Reg.PCIE.CMD_TAIL.TAIL (v.bits 0 13 % m) s.b }) ∧
    (v.toNat &&& 0xFFFFFFE0 = 0 → 4 ≤ v.bits 1 4 → v.bits 1 4 ≤ 12 →
      (flag s.b Reg.PCIE.CMD_CFG.EN = true → v.bits 1 4 = getF s.b Reg.PCIE.CMD_CFG.LOG2SIZE) →
      exec (.cmdCfgWrite v) s = .next { s with
        b := if v.bit 0 = false then { c with host := { c.host with cmdOff := true } }
          else if s.b.host.cmdOff = true then setFs [(Reg.PCIE.CMD_TAIL.TAIL, 0), (Reg.PCIE.CMD_HEAD.HEAD, 0),
            (Reg.PCIE.CMD_HEAD.STOPPED, 0)] { c with host := { c.host with cmdOff := false } }
          else c }) ∧
    (v.toNat &&& 0xFFFFE000 = 0 →
      (v.bits 0 13 % mc + mc - rp) % mc ≤ (getF s.b Reg.PCIE.CPL_WP.WP % mc + mc - rp) % mc →
      exec (.cplRpWrite v) s = .next { s with b := setF Reg.PCIE.CPL_RP.RP (v.bits 0 13 % mc) s.b })

/-- An entry of the command ring that can be taken makes an arrival and advances HEAD; a read error or a faulty entry stops
the ring at it, a read not answered in time too. A completion record goes to the ring's next place and is signalled, spaced;
a record of the acquisition buffer goes to the host's ring (R424 to R427, R429, R430). The order of the checks and the failed
copy are the model's readings (log entries 91 and 93). -/
def Obligations.TheRingsMoveTheirEntries : Prop :=
  ∀ (s : State) (x : RingEntry) (r : List Word) (rs : List (List Word)),
    let stop := fun cause : Nat => raise 1059 (signalMsix 23 (setFs [(Reg.PCIE.CMD_HEAD.STOPPED, 1), (Reg.PCIE.DMA_ERR.ENGINE, 0),
      (Reg.PCIE.DMA_ERR.CAUSE, cause), (Reg.PCIE.DMA_ERR.VALID, 1)] s.b))
    let c := cmdAdvance s.b
    let bad := descReserved x.frame = false ∧ (x.entry.headD 0).bits 0 18 ≠ 32 + payloadBytes c x.frame
    let m := ringMod s.b Reg.PCIE.CPL_CFG.LOG2SIZE
    let wp := getF s.b Reg.PCIE.CPL_WP.WP
    let mir := hostAddr s.b Reg.PCIE.CPL_MIRROR_LO.W Reg.PCIE.CPL_MIRROR_HI.W
    let base := hostAddr s.b Reg.PCIE.CPL_BASE_LO.W Reg.PCIE.CPL_BASE_HI.W
    let sent := setF Reg.PCIE.CPL_WP.WP ((wp + 1) % m) (send (.dma (base + 32 * (wp % (m / 2))) r)
      { s.b with sched := { s.b.sched with recs := rs } })
    let size := acqRing s.b
    let awp := getF s.b Reg.PCIE.ACQ_WP.WP
    let arp := getF s.b Reg.ACQ.RP.RP
    let room := dmaOn s.b Reg.PCIE.ACQ_CFG.EN = true ∧ flag s.b Reg.ACQ.CFG.DRAIN = true ∧ 0 < acqUsed s.b ∧
      (awp + 2 * size - getF s.b Reg.PCIE.ACQ_RP.RP % (2 * size)) % (2 * size) + 32 ≤ size
    let off := 0x1000000 + 32 * (arp % 131072)
    let read := eccData (fun w => decide (w.mem.val = 5 ∧ off ≤ eccOff w ∧ eccOff w < off + 32)) s.b
    let copied := setFs [(Reg.ACQ.RP.RP, (arp + 1) % 262144), (Reg.PCIE.ACQ_WP.WP, (awp + 32) % (2 * size))]
      (send (.dma (hostAddr read Reg.PCIE.ACQ_BASE_LO.W Reg.PCIE.ACQ_BASE_HI.W + awp % size) ((List.range 8).map fun i =>
        BitVec.ofNat 32 (rdW read.live (off + 4 * i)))) read)
    (cmdWaits s.b = true → 2 ≤ cplFree s.b → x.err ≠ 0 → exec (.cmdEntryFetch x) s = .next { s with b := stop x.err.val }) ∧
    (cmdWaits s.b = true → 2 ≤ cplFree s.b → x.err = 0 → entryFault x = true →
      exec (.cmdEntryFetch x) s = .next { s with b := stop 5 }) ∧
    (cmdWaits s.b = true → 2 ≤ cplFree s.b → x.err = 0 → entryFault x = false → ¬ bad →
      exec (.cmdEntryFetch x) s = .next { s with b := { c with sched := { c.sched with
        arrivals := c.sched.arrivals ++ [{ stamp := c.time.ns, peer := none, msg := 0, words := x.frame }] } } }) ∧
    (cmdWaits s.b = true → 2 ≤ cplFree s.b → x.err = 0 → entryFault x = false → bad →
      exec (.cmdEntryFetch x) s = .next { s with b := wrongLength x.frame c }) ∧
    (cmdWaits s.b = true → exec .completionTimeout s = .next { s with b := stop 3 }) ∧
    (s.b.sched.recs = r :: rs → dmaOn s.b Reg.PCIE.CPL_CFG.EN = true → (wp + m - getF s.b Reg.PCIE.CPL_RP.RP) % m ≠ m / 2 →
      exec .completionRecordWrite s = .next { s with
        b := cplSignal (if mir = 0 then sent else send (.dma mir [BitVec.ofNat 32 ((wp + 1) % m)]) sent) }) ∧
    (s.b.host.cplDue = true → s.b.due (s.b.host.cplSig.getD 0 + cplGap s.b) = true →
      let d := s.b.atEdge (s.b.host.cplSig.getD 0 + cplGap s.b)
      exec .cplSignalHoldoffEnd s = .next { s with
        b := signalMsix 24 { d with host := { d.host with cplSig := some d.q, cplDue := false } } }) ∧
    (room → exec (.acqStreamCopy true) s = .next { s with
      b := if getF copied Reg.PCIE.ACQ_CFG.THRESH ≤ copied.host.acqSig + 1
        then signalMsix 25 { copied with host := { copied.host with acqSig := 0 } }
        else { copied with host := { copied.host with acqSig := copied.host.acqSig + 1 } } }) ∧
    (room → exec (.acqStreamCopy false) s = .next { s with
      b := raise 1061 (setFs [(Reg.PCIE.DMA_ERR.ENGINE, 2), (Reg.PCIE.DMA_ERR.CAUSE, (Config.freeValue s.b.free).toNat),
        (Reg.PCIE.DMA_ERR.VALID, 1)] { s.b with free := s.b.free + 1 }) })

/-- The link trains where nothing holds it down, and says so where it came up narrow or slow; its loss, a hot reset and a
function reset return the ring registers to reset values, stop the engines and reset the host's master, whose waiting
transactions are dropped and whose granted bursts are orphaned; bus mastering, the power state, in which D3hot stalls every
engine, and the transfer sizes, error reports and the vectors' spacing, a masked vector's pending bit in place of its message (R347,
R410, R420, R423, R431, R448, R536). What a function reset clears beyond the spec's list, the bits of the two configuration
registers, and the pending bit, are the model's presumptions (log entries 94 and 136). -/
def Obligations.TheLinkComesAndGoes : Prop :=
  ∀ (s : State) (x : MstReset) (v : Word) (be : BitVec 4) (speed width : BitVec 3) (vec : Fin 32) (cor : Bool),
    let up := setFs [(Reg.PCIE.LINK.SPEED, speed.toNat), (Reg.PCIE.LINK.WIDTH, width.toNat)] s.b
    let h := s.b.host
    let heldTill := (s.b.ev.lastMsg.find vec.val).getD 0 + getF s.b Reg.EVT.CFG.HOLDOFF * 4000
    let d := s.b.atEdge heldTill
    (canTrain s.b = true → exec (.pcieLinkUp speed width) s = .next { s with
      b := if speed.toNat < 4 ∨ width.toNat < 4 then raise 1057 up else up }) ∧
    (linkUp s.b = true → exec (.pcieLinkDown x) s = .next { s with
      b := raise 1056 (functionReset x (setFs [(Reg.PCIE.LINK.SPEED, 0), (Reg.PCIE.LINK.WIDTH, 0)] s.b)) }) ∧
    (linkUp s.b = true → exec (.pcieHotReset x) s = .next { s with b := raise 1058 (functionReset x s.b) }) ∧
    (linkUp s.b = true → exec (.functionLevelReset x) s = .next { s with b := raise 1058 (functionReset x s.b) }) ∧
    (∀ b : Blk, x.bursts = [] → let c := functionReset x b
      (∀ f ∈ ringFields, getF c f = f.rst % 2 ^ f.wid) ∧
      getF c Reg.XBAR.DROP.COUNT = min 65535 (getF b Reg.XBAR.DROP.COUNT + x.waiting) ∧
      KeepsRegsBut (Reg.XBAR.DROP.COUNT :: ringFields) b c ∧
      c = { b with regs := c.regs
                   host := { b.host with busMaster := false, d3 := false, mps := 0, mrrs := 2, cmdOff := false, cplSig := none
                                         cplDue := false, acqSig := 0 } }) ∧
    (∀ (b : Blk) (k : Nat), masterReset k x b = x.bursts.foldl (fun b r => orphan k r b)
      (setF Reg.XBAR.DROP.COUNT (min 65535 (getF b Reg.XBAR.DROP.COUNT + x.waiting)) b)) ∧
    (∀ (b : Blk) (k : Nat) (r : Burst), orphan k r b = flushLate (raiseTx [961]
      (some (k, (if r.read then 1 else 2), r.addr.toNat)) (setFs
        [(Reg.XBAR.ORPHAN.MASTER, k), (Reg.XBAR.ORPHAN.TARGET, r.target.val), (Reg.XBAR.ORPHAN.BEATS_DONE, r.done),
         (Reg.XBAR.ORPHAN.BEATS, r.beats), (Reg.XBAR.ORPHAN.READ, if r.read then 1 else 0), (Reg.XBAR.ORPHAN.VALID, 1),
         (Reg.XBAR.ORPHAN_ADDR.ADDR, r.addr.toNat)] b))) ∧
    (linkUp s.b = true →
      exec .busMasterDisable s = .next { s with b := { s.b with host := { h with busMaster := false } } } ∧
      exec .busMasterEnable s = .next { s with b := { s.b with host := { h with busMaster := true } } } ∧
      let state := be.getLsbD 0 = true ∧ (v.bits 0 2 = 0 ∨ v.bits 0 2 = 3)
      let sizes := { h with mps := (if be.getLsbD 0 = true then min 1 (v.bits 5 3) else h.mps),
                            mrrs := (if be.getLsbD 1 = true then min 2 (v.bits 12 3) else h.mrrs) }
      (state → exec (.registerWrite .m0 (.config .pmControl) [⟨v, be⟩]) s = .next { s with
        b := { s.b with host := { h with d3 := decide (v.bits 0 2 = 3) } } }) ∧
      (¬ state → exec (.registerWrite .m0 (.config .pmControl) [⟨v, be⟩]) s = .next s) ∧
      exec (.registerWrite .m0 (.config .deviceControl) [⟨v, be⟩]) s = .next { s with b := { s.b with host := sizes } }) ∧
    (∀ (b : Blk) (en : Fld), b.host.d3 = true → dmaOn b en = false) ∧
    (linkUp s.b = true → exec (.aerError cor) s = .next { s with b := raise (if cor then 1062 else 1063) s.b }) ∧
    (vec.val ∈ s.b.ev.due → s.b.due heldTill = true →
      exec (.msixHoldoffEnd vec) s = .next { s with b := signalMsix vec.val { d with
        ev := { d.ev with due := d.ev.due.filter fun v => v != vec.val, lastMsg := d.ev.lastMsg.put vec.val d.q } } }) ∧
    (∀ (b : Blk) (n : Fin 64), let pba := Reg.PCIE.MSIX_PBA.W (n.val / 32)
      let masked := natBits (getF b (Reg.PCIE.MSIX_TABLE.W (4 * n.val + 3))) 0 1 = 1
      (masked → signalMsix n.val b = setF pba (getF b pba ||| 2 ^ (n.val % 32)) b) ∧
      (¬ masked → signalMsix n.val b = send (.msix n.val) b))

/-- A flash operation starts where none runs and its address is aligned, and ends with its effect: the buffer holds what was
read, the page holds the buffer, the sector or block is erased. One that fails says so, and what it leaves in its range is
open; no other byte of the flash changes (R442, R443). I2C sets its pointer, reads the status map from it and on, and reports
a timeout; a TAP instruction is selected, shows its register, and begins or ends to drive the covered pins, which is raised
as it begins (R444 to R446, R448, R509). The free bytes of a failed operation and the TAP's reset are the model's (log
entries 90 and 98). -/
def Obligations.FlashBoardManagementAndTap : Prop :=
  (∀ (s : State) (ok : Bool),
    let a := getF s.b Reg.PCIE.QSPI_ADDR.ADDR
    let starts := fun op : Nat => (.next { s with
      b := setF Reg.PCIE.QSPI_STAT.BUSY 1 { s.b with host := { s.b.host with qspi := some (op, a) } } } : Host.Outcome State Fault Refusal)
    (s.b.heard = true → flag s.b Reg.PCIE.QSPI_STAT.BUSY = false →
      (a % 256 = 0 → exec .qspiRead s = starts 1 ∧ exec .qspiProgram s = starts 2) ∧
      (a % 4096 = 0 → exec .erase4k s = starts 3) ∧ (a % 65536 = 0 → exec .erase64k s = starts 4)) ∧
    (∀ op p, s.b.host.qspi = some (op, p) → let good := ok || op == 1
      let n := if op = 2 then 256 else if op = 3 then 4096 else 65536
      ∃ c, exec (.qspiOpDone ok) s = .next { s with b := if good then c else raise 1064 c } ∧ c.host.qspi = none ∧
        flag c Reg.PCIE.QSPI_STAT.BUSY = false ∧ flag c Reg.PCIE.QSPI_STAT.FAIL = !good ∧
        getF c Reg.PCIE.QSPI_STAT.SR % 2 = (if good then 0 else 1) ∧
        (op = 1 → c.flash = s.b.flash ∧ ∀ i < 256, bufByte c i = flashByte s.b (p + i)) ∧
        (op = 2 → ok = true → ∀ i < 256, flashByte c (p + i) = bufByte s.b i) ∧
        (op ≠ 1 → op ≠ 2 → ok = true → ∀ i < n, flashByte c (p + i) = 255) ∧
        (op ≠ 1 → ∀ i, i < p ∨ p + n ≤ i → flashByte c i = flashByte s.b i))) ∧
  (∀ (s : State) (y : Byte) (ys : List Byte) (n : Nat) (pins load : BitVec 35),
    let sel := fun (ir v : Nat) =>
      let c := setRaw 1066 (tapDrives ir) (send (.tap ir v) { s.b with host := { s.b.host with tapIr := ir } })
      if tapDrives ir = true ∧ tapDrives s.b.host.tapIr = false then raise 1066 c else c
    (s.b.sys.resetPin = false →
      exec (.i2cWrite (y :: ys)) s = .next { s with b := { s.b with host := { s.b.host with i2cPtr := y.toNat % 64 } } } ∧
      exec (.i2cRead n) s = .next { s with
        b := send (.i2c ((List.range n).map fun i => i2cByte s.b ((s.b.host.i2cPtr + i) % 64)))
          { s.b with host := { s.b.host with i2cPtr := (s.b.host.i2cPtr + n) % 64 } } } ∧
      exec .i2cTimeout s = .next { s with b := raise 1065 s.b }) ∧
    exec .extest s = .next { s with b := sel 0 s.b.host.boundary.toNat } ∧
    exec .idcode s = .next { s with b := sel 1 (0x04608B4B + 0x10000000 * Config.siliconRev.val) } ∧
    exec .tapReset s = .next { s with b := sel 1 (0x04608B4B + 0x10000000 * Config.siliconRev.val) } ∧
    exec (.samplePreload pins load) s = .next { s with
      b := { sel 2 pins.toNat with host := { (sel 2 pins.toNat).host with boundary := load } } } ∧
    exec .highz s = .next { s with b := sel 8 0 } ∧
    exec .jtagClamp s = .next { s with b := sel 9 s.b.host.boundary.toNat } ∧
    exec .bypass s = .next { s with b := sel 0x3F 0 })

/-- A scrub counts its pass and finds every flawed word: single errors are corrected and rewritten, double errors stand until
their word is rewritten, by a commit for one, and are used as read in a live copy. MON.CTL sets the enables and clears the selected histograms
(R411 to R415, R417). That errors stand as lists of words is the model's choice (log entry 85). -/
def Obligations.ScrubbingAndMonitorClears : Prop :=
  ∀ (s : State) (x : ScrubIn) (v : Word),
    let p := setF Reg.XBAR.SCRUB_STAT.PASSES (getF s.b Reg.XBAR.SCRUB_STAT.PASSES + 1) s.b
    let one := s.b.xb.single ++ x.single.filter fun w => decide (w ∉ s.b.xb.single)
    let two := s.b.xb.double ++ x.double.filter fun w => decide (w ∉ s.b.xb.double)
    (s.b.sys.mode ≠ .reset → exec (.scrubPass x) s = .next { s with
      b := two.foldl (fun b w => raise (if eccInLive w then 964 else 963) (foundDouble w b))
        (one.foldl (fun b w => raise 962 (foundSingle w b)) p) }) ∧
    (∀ (b : Blk) (w : EccWord), let c := foundSingle w b
      getF c Reg.XBAR.ECC_CNT.SINGLE = satInc 65535 (getF b Reg.XBAR.ECC_CNT.SINGLE) ∧ w ∈ c.xb.fix ∧ w ∈ c.xb.single ∧
      c.xb.double = b.xb.double ∧ KeepsMemory b c) ∧
    (∀ (b : Blk) (w : EccWord), eccInLive w = false → let c := foundDouble w b
      getF c Reg.XBAR.ECC_CNT.DOUBLE = satInc 65535 (getF b Reg.XBAR.ECC_CNT.DOUBLE) ∧ w ∈ c.xb.double ∧ KeepsMemory b c) ∧
    (∀ (b : Blk) (w : EccWord), eccInLive w = true → let c := foundDouble w b
      getF c Reg.XBAR.ECC_CNT.DOUBLE = satInc 65535 (getF b Reg.XBAR.ECC_CNT.DOUBLE) ∧ w ∈ c.xb.double ∧ KeepsShadow b c ∧
      (w ∈ b.xb.double → c.live = b.live) ∧ ∀ a, a < eccOff w ∨ eccOff w + 8 ≤ a → rdB c.live a = rdB b.live a) ∧
    (∀ (b : Blk) (lo hi : Nat) (w : EccWord), w.live = true → w.mem.val < 7 → lo < eccOff w + 8 → eccOff w < hi →
      w ∉ (copyLive lo hi b).xb.double ∧ w ∉ (copyLive lo hi b).xb.single) ∧
    (exec .eccWriteback s = .next { s with
      b := { s.b with xb := { s.b.xb with single := s.b.xb.single.filter (fun w => decide (w ∉ s.b.xb.fix)), fix := [] } } }) ∧
    (hears 0xFFFFF0F0 v s.b = true → ∃ t, exec (.monClear v) s = .next t ∧ t = { s with b := { s.b with regs := t.b.regs } } ∧
      getF t.b Reg.MON.CTL.EN = v.bits 0 4 ∧
      (∀ i < 64, getF t.b (Reg.MON.SETTLE_BIN.COUNT i) = if v.bit 8 then 0 else getF s.b (Reg.MON.SETTLE_BIN.COUNT i)) ∧
      (∀ i < 64, getF t.b (Reg.MON.OCC_BIN.COUNT i) = if v.bit 9 then 0 else getF s.b (Reg.MON.OCC_BIN.COUNT i)) ∧
      (∀ i < 64, getF t.b (Reg.MON.EPS_BIN.COUNT i) = if v.bit 10 then 0 else getF s.b (Reg.MON.EPS_BIN.COUNT i)) ∧
      (∀ i < 224, getF t.b (Reg.MON.LAT_BIN.COUNT i) = if v.bit 11 then 0 else getF s.b (Reg.MON.LAT_BIN.COUNT i)))

/-! ### Writes of registers and windows -/

/-- A register write ends in one of three ways: a page that the map does not list is answered by T9, one that fails a check
leaves its code, offset and master on its page, counts there and changes nothing else (misalignment is found before a
reserved bit, and that before the rest), and one that fails none has its register's effect (R13 to R15, R400, R401, R482,
R484). A request of several words is split into single words in ascending order, a word written in part is rejected with ALIGN
and one without strobes is none; a read answers the word, an ALIGN error for a word it does not read whole, or T9's error
(R398, R407, R422, R483). What M4 meets, and the status of a PCIe completion, are the model's readings (log entries 103 and 144). -/
def Obligations.RegisterWritesAreCheckedInOrder : Prop :=
  ∀ (m : Master) (a : Nat) (v : Word) (s : State), s.b.sys.mode ≠ .reset →
   (0x1000000 ≤ a → a < 0x10000000 → ∀ x xs,
      exec (.registerWrite m (.bus a) (x :: xs)) s = .next { s with b := decodeErr m true a s.b }) ∧
   (a + 4 < 0x1000000 →
    let word := [(⟨v, 15⟩ : WrWord)]
    let listed := m ≠ .m4 ∧ (pgOf (a / 4096)).isSome = true
    let fin := fun (code : Nat) (b : Blk) =>
      if m = .m0 then send (.completion (if code = 0 then 0 else if code = 0x20 then 1 else 4)) b else b
    (∀ x xs, ∃ t, exec (.registerWrite m (.bus a) [x]) s = .next t ∧
      exec (.registerWrite m (.bus a) (x :: xs)) s = exec (.registerWrite m (.bus (a + 4)) xs) t) ∧
    (∀ be : BitVec 4, be ≠ 15 → exec (.registerWrite m (.bus a) [⟨v, be⟩]) s = .next { s with
      b := if be = 0 then s.b else if listed then reject (a / 4096) (a % 4096) 5 m s.b else decodeErr m true a s.b }) ∧
    (a % 4 = 0 → ¬ listed → exec (.nowNsRead ⟨m, a, 4⟩) s = .next { s with
      b := fin 0x20 (send (.answer m a 0x20 0) (decodeErr m false a s.b)) }) ∧
    (a % 4 = 0 → listed → (a / 4096 = 0x19 → histOn s.b 3 = false) → a ≠ 0x4048 → a ≠ 0x1C06C → exec (.nowNsRead ⟨m, a, 4⟩) s = .next { s with
      b := fin 0 (send (.answer m a 0 (BitVec.ofNat 32 ((readReg s.b a).getD 0))) s.b) }) ∧
    (∀ n, 0 < n → n < 4 → a % 4 + n ≤ 4 → listed → exec (.nowNsRead ⟨m, a, n⟩) s = .next { s with
      b := fin 5 (send (.answer m (a / 4 * 4) 5 0) s.b) }) ∧
    ((m = .m4 ∨ pgOf (a / 4096) = none) → exec (.registerWrite m (.bus a) word) s = .next { s with b := decodeErr m true a s.b }) ∧
    (m ≠ .m4 → ∀ g i, pgOf (a / 4096) = some (g, i) →
      let p := a / 4096
      let code := firstCode (regErrs m g i p (a % 4096) v s.b)
      (code = 0 ↔ regErrs m g i p (a % 4096) v s.b = []) ∧
      (a % 4 ≠ 0 → code = 5) ∧
      (5 ∉ regErrs m g i p (a % 4096) v s.b → v.toNat &&& g.reserved i (a % 4096) ≠ 0 → code = 4) ∧
      (code = 0 → exec (.registerWrite m (.bus a) word) s = .next { s with b := regDo g i p (a % 4096) v s.b }) ∧
      (code ≠ 0 → (g = .sched → a % 4096 ≠ 0x74) → ∃ t, exec (.registerWrite m (.bus a) word) s = .next t ∧
        t = { s with b := { s.b with regs := t.b.regs } } ∧
        KeepsRegsBut [Reg.HDR.errCode p, Reg.HDR.errOff p, Reg.HDR.errMaster p, Reg.HDR.errCount p] s.b t.b ∧
        getF t.b (Reg.HDR.errCode p) = code ∧ getF t.b (Reg.HDR.errOff p) = a % 4096 ∧
        getF t.b (Reg.HDR.errMaster p) = masterNo m ∧
        getF t.b (Reg.HDR.errCount p) = min 65535 (getF s.b (Reg.HDR.errCount p) + 1))))

/-- An accepted write of a table lands in its shadow (of the acquisition buffer, in its one copy) and nowhere else, and
starts the CRC of the crosstalk table; a rejected one leaves its record on the page that owns the window. Each half of an
accepted context write waits for the boundary of the present tick, or of the next where it lands in the tick's last engine
cycles, and replaces what waited there. Bytes whose strobe is off are not written. A read of a word answers the shadow, of a
context and the acquisition buffer the one live copy, to M3 of the tables the live copy; 0 with 0x17 where its beat holds a double-bit
error, and T9's error where nothing is mapped or readable (R197 to R199, R231, R324, R398 to R401, R407, R408, R411, R412, R422, R491).
Bursts over several units, which copy a context's read returns, and a completion's status are the model's readings (log entries 104
to 106, 144 and 145). -/
def Obligations.WindowWritesReachTheirCopies : Prop :=
  (∀ (m : Master) (a : Nat) (s : State), s.b.sys.mode ≠ .reset → a < 0x10000000 → a % 4 = 0 →
    let x := 0x10000000 + a
    let fin := fun (code : Nat) (b : Blk) =>
      if m = .m0 then send (.completion (if code = 0 then 0 else if code = 0x20 then 1 else 4)) b else b
    ((bar2Target a 4).filter (mayRead m) = none →
      exec (.nowNsRead ⟨m, x, 4⟩) s = .next { s with b := fin 0x20 (send (.answer m x 0x20 0) (decodeErr m false x s.b)) }) ∧
    (∀ g, (bar2Target a 4).filter (mayRead m) = some g →
      let live := isContext a || g == 5 || (m == .m3 && decide (g ≤ 3 ∧ a < 0x440000))
      let spoilt := s.b.xb.double.any (beatWord g live (a / 16 * 16) (a / 16 * 16 + 16))
      let c := eccFind (fun w => some (masterNo m, 1, w.addr.toNat)) (beatWord g live (a / 16 * 16) (a / 16 * 16 + 16)) s.b
      let d := if spoilt = true then fin 0x17 (send (.answer m x 0x17 0) c)
        else fin 0 (send (.answer m x 0 (BitVec.ofNat 32 (rdW (if live then s.b.live else s.b.shadow) a))) c)
      KeepsMemory s.b c ∧ exec (.nowNsRead ⟨m, x, 4⟩) s = .next { s with b := d })) ∧
  (∀ (m : Master) (a : Nat) (bytes : List (Option Byte)) (s : State), s.b.sys.mode ≠ .reset → bytes ≠ [] →
    let n := bytes.length
    let ps := strobed a bytes
    let code := firstCode (windowErrs m a ps s.b)
    ((bar2Target a n).filter (mayWrite m) = none →
      exec (.tableWrite m a bytes) s = .next { s with b := decodeErr m true (0x10000000 + a) s.b } ∧
      exec (.contextWrite m a bytes) s = .next { s with b := decodeErr m true (0x10000000 + a) s.b }) ∧
    (∀ g, (bar2Target a n).filter (mayWrite m) = some g →
      (code ≠ 0 → exec (.tableWrite m a bytes) s = .next { s with b := reject (rejectPage a ps code s.b) 0xFFF code m s.b } ∧
        exec (.contextWrite m a bytes) s = .next { s with b := reject (rejectPage a ps code s.b) 0xFFF code m s.b }) ∧
      (code = 0 → isContext a = false → (flag s.b Reg.FTEST.ECC.GO = true → getF s.b Reg.FTEST.ECC.TARGET ≠ g) →
        ∃ t, exec (.tableWrite m a bytes) s = .next t ∧
          t = { s with b := { s.b with shadow := t.b.shadow, live := t.b.live, regs := t.b.regs, xb := t.b.xb } } ∧
          (∀ i y, bytes[i]? = some (some y) → rdB (if g = 5 then t.b.live else t.b.shadow) (a + i) = y) ∧
          (∀ x, (g = 5 ∨ ∀ y, (x, y) ∉ ps) → rdB t.b.shadow x = rdB s.b.shadow x) ∧
          (∀ x, (g ≠ 5 ∨ ∀ y, (x, y) ∉ ps) → rdB t.b.live x = rdB s.b.live x) ∧
          flag t.b Reg.PLAN.XT_STAT.CRC_BUSY = (g == 2 || flag s.b Reg.PLAN.XT_STAT.CRC_BUSY) ∧
          KeepsRegsBut [Reg.PLAN.XT_STAT.CRC_BUSY] s.b t.b))) ∧
  (∀ (m : Master) (a : Nat) (bytes : List (Option Byte)) (s : State), s.b.sys.mode ≠ .reset → bytes ≠ [] → isContext a = true →
    let ps := strobed a bytes
    (bar2Target a bytes.length).filter (mayWrite m) = some 4 → windowErrs m a ps s.b = [] →
    (flag s.b Reg.FTEST.ECC.GO = true → getF s.b Reg.FTEST.ECC.TARGET ≠ 4) →
    ∃ t, exec (.contextWrite m a bytes) s = .next t ∧ t = { s with b := { s.b with pend := t.b.pend } } ∧
      (∀ i y z, (a + i) % 2 = 0 → bytes[i]? = some (some y) → bytes[i + 1]? = some (some z) → t.b.pend.find (a + i) = some {
        val := z ++ y
        tick := if s.b.edge < 234 then s.b.tick else s.b.tick + 1
        host := decide (m = .m0) }) ∧
      (∀ h, (h % 2 = 1 ∨ ∀ y, (h, y) ∉ ps) → t.b.pend.find h = s.b.pend.find h))

/-- The CRC that becomes available is the CRC-32 over the bytes of the whole shadow crosstalk table (R43, R231). -/
def Obligations.TheCrosstalkCrcCoversTheTable : Prop :=
  ∀ (s : State), s.b.sound = true →
    (flag s.b Reg.PLAN.XT_STAT.CRC_BUSY = true → exec .xtCrcDone s = .next { s with
      b := setF Reg.PLAN.XT_STAT.CRC_BUSY 0 { s.b with
        xtCrc := crc32 ((List.range 0x100000).map fun i => rdB s.b.shadow (0x100000 + i)) } })

/-! ### Events -/

/-- A source that is raised without a reaction is latched with its class and counted, no other source's record changes, and the
first raise of class WARN or worse fills the capture; later ones merge into it (R347, R352, R353). -/
def Obligations.RaisesAreLatchedCountedAndCaptured : Prop :=
  ∀ (b : Blk) (x : Nat), x < 1152 → b.mild [x] →
    let r := evGet b x
    let c := raise x b
    evGet c x = { r with latch := true, lcls := r.cls, count := min 255 (r.count + 1) } ∧
    (∀ y, y ≠ x → evGet c y = evGet b y) ∧ Raised [x] b c ∧
    (∀ f : Fld, f.key / 131072 = 0x12 → (r.cls = 0 → getF c f = getF b f)) ∧
    (r.cls ≠ 0 → flag b Reg.FCAP.STAT.VALID = false → flag c Reg.FCAP.STAT.VALID = true ∧
      getF c Reg.FCAP.SRC.SOURCE = x ∧ getF c Reg.FCAP.SRC.CLASS = r.cls ∧ getF c Reg.FCAP.SRC.MASTER = 7 ∧
      getF c Reg.FCAP.SRC.ACCESS = 0 ∧ getF c Reg.FCAP.ADDR.ADDR = 0) ∧
    (r.cls ≠ 0 → flag b Reg.FCAP.STAT.VALID = true → flag c Reg.FCAP.STAT.MERGED = true ∧
      getF c Reg.FCAP.STAT.MERGE_CNT = min 65535 (getF b Reg.FCAP.STAT.MERGE_CNT + 1) ∧
      getF c Reg.FCAP.SRC.SOURCE = getF b Reg.FCAP.SRC.SOURCE ∧ getF c Reg.FCAP.SRC.CLASS = getF b Reg.FCAP.SRC.CLASS ∧
      (x < 1024 → getF c Reg.FCAP.MERGED_GRP0.GROUPS = (getF b Reg.FCAP.MERGED_GRP0.GROUPS ||| 2 ^ (x / 32)) % 2 ^ 32) ∧
      (1024 ≤ x → getF c Reg.FCAP.MERGED_GRP1.GROUPS = (getF b Reg.FCAP.MERGED_GRP1.GROUPS ||| 2 ^ (x / 32 - 32)) % 16))

/-- A raise of class SAFE leaves SAFE, or SHUTDOWN where something raised with it asks for that, in every mode that it can
leave; one of class SHUTDOWN leaves SHUTDOWN; either clears every bank (R91, R350, R453). That SHUTDOWN is entered at once is
the model's reading (log entry 17). -/
def Obligations.ReactionsLeaveTheWorkingModes : Prop :=
  ∀ (b : Blk) (x : Nat), x < 1152 →
    (b.sys.mode ∉ [Mode.reset, .boot, .shutdown] → (evGet b x).cls = 3 →
      ((raise x b).sys.mode = .safe ∨ (raise x b).sys.mode = .shutdown) ∧
      ∀ n, n < 18 → ((raise x b).bank n).cleared = true) ∧
    (b.sys.mode ∉ [Mode.reset, .shutdown] → (evGet b x).cls = 4 →
      (raise x b).sys.mode = .shutdown ∧ ∀ n, n < 18 → ((raise x b).bank n).cleared = true) ∧
    (b.sys.mode ∈ [Mode.reset, .boot] → (evGet b x).cls = 3 → b.ev.late = [] → (raise x b).sys.mode = b.sys.mode ∧
      (evGet (raise x b) x).latch = true)

/-- A latch that is written 1 clears with its latched class where its raw bit is 0, in either window. EVT_FORCE raises the
sources written 1, in FACTORY_TEST only; CNT_CLR clears the counts; a word of the reaction table takes its four classes and
LOG bits unless the table is locked; MEVT returns and removes the oldest member event. ALIVE changes level at each 100th
boundary unless a mode, a latched source or the watchdog stops it, and the watchdog expires WD_MS ms after its last restart
(R317, R348, R349, R352, R356, R357, R374, R376, R379). When ALIVE is looked at, what locks REACT and the read's completion are
the model's readings (log entries 73, 99 and 144). -/
def Obligations.EventCommandsAndTheWatchdog : Prop :=
  (∀ (s : State) (m : Master) (v : Word) (p : Nat) (g : Pg) (i : Nat),
    let clears := fun (a base n : Nat) => ∃ t, exec (.eventLatchClear m a v) s = .next t ∧
      t = { s with b := { s.b with ev := t.b.ev, sent := t.b.sent, regs := t.b.regs } } ∧
      (∀ f : Fld, f.key ∉ [(Reg.PCIE.MSIX_PBA.W 0).key, (Reg.PCIE.MSIX_PBA.W 1).key] → getF t.b f = getF s.b f) ∧
      (∀ x, evGet t.b x = if base ≤ x ∧ x < base + n ∧ v.bit (x - base) = true ∧ (evGet s.b x).raw = false
        then { evGet s.b x with latch := false, lcls := 0 } else evGet s.b x)
    (s.b.heard = true → m ≠ .m4 → pgOf p = some (g, i) → v.toNat &&& g.reserved i 0x14 = 0 →
      clears (p * 4096 + 0x14) (g.events i).1 (g.events i).2) ∧
    (s.b.heard = true → m ≠ .m4 → ∀ k, k < 36 → v.toNat &&& Pg.reserved .evt 0 (0x100 + 4 * k) = 0 →
      clears (0x10100 + 4 * k) (32 * k) 32)) ∧
  (∀ (s : State) (v : Word) (page : Fin 512) (w : Fin 288) (m : Master) (g : Pg) (i : Nat) (e : Nat × Nat × Nat)
    (es : List (Nat × Nat × Nat)),
    let fits := v.toNat &&& 0xF0F0F0F0 = 0 ∧ (∀ j < 4, v.bits (8 * j) 3 < 5) ∧ (w.val = 224 → v.bits 16 3 = 4)
    (pgOf page.val = some (g, i) → v.toNat &&& g.reserved i 0x1C = 0 →
      (s.b.sys.mode = .factoryTest → exec (.evtForce page v) s = .next { s with
        b := raiseAll (((List.range (g.events i).2).filter fun j => v.bit j).map fun j => (g.events i).1 + j) s.b }) ∧
      (s.b.heard = true → s.b.sys.mode ≠ .factoryTest →
        exec (.evtForce page v) s = .next { s with b := reject page.val 0x1C 2 .m0 s.b })) ∧
    (s.b.heard = true → ∃ t, exec .evtCntClr s = .next t ∧ t = { s with b := { s.b with ev := { s.b.ev with tab := t.b.ev.tab } } } ∧
      ∀ x, evGet t.b x = { evGet s.b x with count := 0 }) ∧
    (s.b.heard = true → fits → flag s.b Reg.REACT.CTL.LOCK = false → ∃ t, exec (.reactTableWrite w v) s = .next t ∧
      t = { s with b := { s.b with ev := { s.b.ev with tab := t.b.ev.tab } } } ∧
      ∀ x, evGet t.b x = if x / 4 = w.val then { evGet s.b x with cls := v.bits (8 * (x % 4)) 3, log := v.bit (8 * (x % 4) + 3) }
        else evGet s.b x) ∧
    (s.b.heard = true → fits → flag s.b Reg.REACT.CTL.LOCK = true →
      exec (.reactTableWrite w v) s = .next { s with b := reject 0x11 (0x400 + 4 * w.val) 3 .m0 s.b }) ∧
    (s.b.heard = true → flag s.b reactWritten = false → ∃ t, exec .reactLock s = .next t ∧ t = { s with b := { s.b with regs := t.b.regs } } ∧
      flag t.b Reg.REACT.CTL.LOCK = true ∧ ∀ f : Fld, f.key / 131072 ≠ 0x11 → getF t.b f = getF s.b f) ∧
    (s.b.sys.mode ≠ .reset → m ≠ .m4 → s.b.glew.mevt = e :: es → exec (.mevtRead m) s = .next { s with
      b := complete m [0] (send (.answer m 0x1C06C 0 (BitVec.ofNat 32 (2147483648 + 16384 * e.2.2 + 2048 * e.2.1 + e.1)))
        (setF Reg.GLEW.MEVT_STAT.COUNT es.length { s.b with glew := { s.b.glew with mevt := es } })) })) ∧
  (∀ (s : State) (v : Word),
    let wdEnd := s.b.ev.wdStart + getF s.b Reg.ALIVE.CFG.WD_MS * 4000000
    let d := s.b.atEdge wdEnd
    let set := setFs [(Reg.ALIVE.CFG.WD_EN, v.bits 0 1), (Reg.ALIVE.CFG.WD_MS, v.bits 1 16)] s.b
    let restarts := flag s.b Reg.ALIVE.CFG.WD_EN = false ∨ v.bits 1 16 ≠ getF s.b Reg.ALIVE.CFG.WD_MS
    let level := flag s.b Reg.ALIVE.STAT.LEVEL
    (100 ≤ s.b.ev.aliveN → s.b.sys.mode ∉ [Mode.reset, .boot, .safe, .shutdown] → latchedClass s.b [3, 4] = false →
      (flag s.b Reg.ALIVE.CFG.WD_EN = true → s.b.ev.wdOver = false) → exec .aliveToggle s = .next { s with
        b := send (.pin pinAlive (!level)) (setF Reg.ALIVE.STAT.LEVEL (if level then 0 else 1)
          { s.b with ev := { s.b.ev with aliveN := s.b.ev.aliveN - 100 } }) }) ∧
    (flag s.b Reg.ALIVE.CFG.WD_EN = true → s.b.ev.wdDone = false → s.b.due wdEnd = true → exec .watchdog s = .next { s with
      b := raise 1132 { d with ev := { d.ev with wdOver := true, wdDone := true, aliveN := 0 } } }) ∧
    (hears 0xFFFFFFFE v s.b = true → v.bit 0 = true → flag s.b Reg.ALIVE.CFG.WD_EN = true → exec (.kick v) s = .next { s with
      b := { s.b with ev := { s.b.ev with wdStart := s.b.q, wdOver := false, wdDone := false } } }) ∧
    (hears 0xFFFE0000 v s.b = true → 1 ≤ v.bits 1 16 → v.bits 1 16 ≤ 60000 → exec (.aliveCfgWrite v) s = .next { s with
      b := if v.bit 0 = false then { set with ev := { set.ev with wdOver := false, wdDone := false } }
        else if restarts then { set with ev := { set.ev with wdStart := s.b.q, wdDone := false } } else set }))

/-! ### Redundancy, the NVM and fault injection -/

/-- A window start sends each available standby to its logical engine's server, in a copy phase; a copy phase of nine ticks
ends with COPY 0; a confirmation begins with both standbys copying and ends after CONFIRM ticks, and in it the result that two
of the three engines agree on stands; a serving engine that is outvoted is replaced, an outvoted standby FAILED. A segment that agrees adds
to its pass, and one that fails twice in a row makes the standby FAILED. A migration shows the new server and raises MIGRATED
(R358, R359, R361, R363 to R365). How standbys come to differ and the failing segment are the model's (log entries 31 and
32). -/
def Obligations.StandbysCheckAndReplaceEngines : Prop :=
  (∀ (s : State) (v : Word),
    let av := standbys s.b
    let role := fun (c : Blk) (e : Nat) => (roleOf c e, getF c (Reg.ENG.CHK_STAT.OF e), flag c (Reg.ENG.CHK_STAT.COPY e))
    let n := getF s.b Reg.ENG.CHK_CFG.CONFIRM
    let alone := fun c : Confirm => ∃ l r, s.b.red.confirm = l ++ c :: r ∧
      ∀ d ∈ l ++ r, ∀ e ∈ [c.s1, c.s2], e ≠ d.s1 ∧ e ≠ d.s2
    (s.b.sys.mode ≠ .reset → s.b.tick % 1000 = 0 → s.b.red.wnd ≠ s.b.tick + 1 → ∃ t, exec .checkWindowStart s = .next t ∧
      t = { s with b := { s.b with regs := t.b.regs, red := { s.b.red with engs := t.b.red.engs, wnd := s.b.tick + 1 } } } ∧
      (flag s.b Reg.ENG.CHK_CFG.ROT_EN = true → ∀ j e g, av[j]? = some e → (engRt s.b e).lone = 0 →
        serverOf s.b ((av.length * (s.b.tick / 1000) + j) % 64) = some g →
        role t.b e = (2, g, true) ∧ (engRt t.b e).t0 = s.b.tick) ∧
      (∀ e, e < 68 → e ∉ av → role t.b e = role s.b e ∧ engRt t.b e = engRt s.b e)) ∧
    (s.b.sys.mode ≠ .reset → ∃ t, exec .comparePhaseStart s = .next t ∧ t = { s with b := { s.b with regs := t.b.regs } } ∧
      ∀ e, e < 68 → role t.b e =
        (roleOf s.b e, getF s.b (Reg.ENG.CHK_STAT.OF e),
         flag s.b (Reg.ENG.CHK_STAT.COPY e) && decide (s.b.tick < (engRt s.b e).t0 + 9))) ∧
    (∀ c, alone c → c.start ≤ s.b.tick → roleOf s.b c.s1 ≠ 3 → s.b.sys.mode ≠ .reset → c.serving < 68 →
      ∃ t, exec .confirmationStart s = .next t ∧
        t = { s with b := { s.b with regs := t.b.regs, red := { s.b.red with engs := t.b.red.engs } } } ∧
        ∀ e ∈ [c.s1, c.s2], role t.b e = (3, c.serving, true) ∧ (engRt t.b e).t0 = s.b.tick) ∧
    (∀ c, alone c → roleOf s.b c.s1 = 3 → c.decided = false → (engRt s.b c.s1).t0 + 9 + n ≤ s.b.tick →
      ∃ t, exec .confirmationEnd s = .next t ∧ c ∉ t.b.red.confirm ∧
        t = { s with b := { s.b with
          regs := t.b.regs, red := { s.b.red with engs := t.b.red.engs, confirm := t.b.red.confirm } } } ∧
        ∀ e ∈ [c.s1, c.s2], failedEng s.b e = false → serving s.b e = false → role t.b e = (1, 0, false)) ∧
    (hears 0x7FFFFFC0 v s.b = true → v.bit 31 = true → s.b.sys.mode ∉ [Mode.safe, .shutdown] →
      (∀ c ∈ s.b.red.confirm, logicalOf s.b c.serving ≠ v.bits 0 6) → ∀ e es, av = e :: es →
      exec (.chkMigrate v) s = .next { s with b := showPool (queueMigration (v.bits 0 6) e (s.b.tick + 9) 2
        (startCopy e 2 ((serverOf s.b (v.bits 0 6)).getD 0) (s.b.tick + 1) 0 s.b)) })) ∧
  ((∀ (b : Blk) (g k : Nat) (r : SlotRes) (c : Confirm), votes b g = some c →
    let x := flipRes b g k r
    let y := flipRes b c.s1 k r
    let z := flipRes b c.s2 k r
    let w := checkSlot g k r b
    let d := flipDone r (flipDone r (flipDone r b g k) c.s1 k) c.s2 k
    (y = z → w.1 = y) ∧ (y ≠ z → w.1 = x) ∧ (x = y → x = z → w.2 = d) ∧
    (c.decided = true → w.2 = d) ∧
    (c.decided = false → y = z → x ≠ y → w.2 = queueMigration (logicalOf d g) c.s1 b.tick 0
      (failEngine g 1 { d with red := { d.red with
        confirm := d.red.confirm.map fun x => if x = c then { c with decided := true } else x } })) ∧
    (c.decided = false → x = z → x ≠ y → w.2 = endConfirm c (failEngine c.s1 1 d)) ∧
    (c.decided = false → x = y → x ≠ z → w.2 = endConfirm c (failEngine c.s2 1 d))) ∧
  (∀ (s : State) (e : Fin 68), selfTesting s.b e.val = true → s.b.sys.mode ≠ .reset → flag s.b Reg.FTEST.ST_FAIL.GO = false →
    let r := engRt s.b e.val
    let agreed := setF (Reg.ENG.SIG.SIG e.val) (Config.selfTestSig e.val r.segment).toNat s.b
    let failed := setF (Reg.ENG.SIG.SIG e.val) (Config.freeValue s.b.free).toNat
      (setF (Reg.ENG.HEALTH.SEGMENT e.val) r.segment { s.b with free := s.b.free + 1 })
    (r.segment ≠ 63 → exec (.selftestSegmentEnd e true) s = .next { s with
      b := setEngRt e.val { r with segment := r.segment + 1, failRun := 0 } agreed }) ∧
    (r.segment = 63 → r.lone ≠ 1 → exec (.selftestSegmentEnd e true) s = .next { s with
      b := incF (Reg.ENG.HEALTH.PASSES e.val) (setEngRt e.val { r with segment := 0, failRun := 0 } agreed) }) ∧
    (r.failRun = 0 → exec (.selftestSegmentEnd e false) s = .next { s with b := setEngRt e.val { r with failRun := 1 } failed }) ∧
    (r.failRun ≠ 0 → s.b.mild [8 * e.val + 5] → ∃ t, exec (.selftestSegmentEnd e false) s = .next t ∧ failedEng t.b e.val = true ∧
      getF t.b (Reg.ENG.HEALTH.CAUSE e.val) = 2 ∧ roleOf t.b e.val = 4 ∧ (evGet t.b (8 * e.val + 5)).latch = true)) ∧
  (∀ (b : Blk) (m : Migration), m.dest < 68 → m.logical < 64 → b.mild [8 * m.dest + 6, 1128] → serverOf b m.logical ≠ some m.dest →
    let c := migrate m b
    serving c m.dest = true ∧ logicalOf c m.dest = m.logical ∧ (evGet c (8 * m.dest + 6)).latch = true ∧ roleOf c m.dest = 0 ∧
    (∀ o, serverOf b m.logical = some o → serving c o = false) ∧ c.red.migr = b.red.migr.filter fun x => x.dest != m.dest))

/-- An NVM write that verifies stands byte for byte and leaves the queue; one that fails is tried once more, a log record in the next
slot, and its second failure raises NVM_FAIL. Counters are written each 3,600 s, and the key once, in IDLE. In FACTORY_TEST the fault injections
take their writes; in every other mode in which the host is heard they are rejected with 0x02 (R370 to R374, R382). When the
key counts as set and what is worn are the model's readings (log entry 72). -/
def Obligations.NvmWritesAndInjections : Prop :=
  (∀ (s : State) (w : NvmWrite) (ws : List NvmWrite) (v : Word),
    let ends := s.b.nvm.queue = w :: ws ∧ (flag s.b Reg.FTEST.ECC.GO = true → getF s.b Reg.FTEST.ECC.TARGET ≠ 7)
    let key := (List.range 8).flatMap fun i => wordBytes (BitVec.ofNat 32 (getF s.b (Reg.NVM.KEY.KEY i)))
    (ends → ∃ t, exec (.nvmWriteDone true) s = .next t ∧ t.b.nvm.queue.length ≥ ws.length ∧ t.b.nvm.queue.take ws.length = ws ∧
      (∀ i, i < w.bytes.length → t.b.nvm.mem.get 0 (w.addr + i) = w.bytes.getD i 0) ∧
      (∀ a, a < w.addr ∨ w.addr + w.bytes.length ≤ a → t.b.nvm.mem.get 0 a = s.b.nvm.mem.get 0 a) ∧
      t.b.nvm.wear.get 0 w.wearIx = s.b.nvm.wear.get 0 w.wearIx + 1 ∧
      flag t.b Reg.NVM.STAT.BUSY = !t.b.nvm.queue.isEmpty ∧ KeepsMemory s.b t.b) ∧
    (ends → w.retry = false → w.log = false → exec (.nvmWriteDone false) s = .next { s with
      b := { s.b with nvm := { s.b.nvm with queue := { w with retry := true } :: ws } } }) ∧
    (ends → w.retry = false → w.log = true → exec (.nvmWriteDone false) s = .next { s with
      b := { s.b with nvm := { s.b.nvm with
        queue := { w.later with retry := true } :: ws.map NvmWrite.later, seqn := (s.b.nvm.seqn + 1) % 2 ^ 32 } } }) ∧
    (w.bytes.length = 32 → w.log = true → let n := (((bytesWords w.bytes).getD 1 0).toNat + 1) % 2 ^ 32
      w.later.addr = 0x400 + 32 * (n % 480) ∧ ((bytesWords w.later.bytes).getD 1 0).toNat = n ∧
      ∀ i < 7, i ≠ 1 → (bytesWords w.later.bytes).getD i 0 = (bytesWords w.bytes).getD i 0) ∧
    (ends → w.retry = true → s.b.mild [1130] → ∃ t, exec (.nvmWriteDone false) s = .next t ∧ (evGet t.b 1130).latch = true ∧
      flag t.b Reg.NVM.STAT.FAIL = true ∧ t.b.nvm.mem = s.b.nvm.mem ∧ t.b.nvm.queue.take ws.length = ws) ∧
    (s.b.sys.leftIdle = true → 3600000000 ≤ s.b.nvm.powered → s.b.sys.mode ≠ .reset → exec .nvmCounterWrite s = .next { s with
      b := nvmCounters { s.b with nvm := { s.b.nvm with powered := s.b.nvm.powered - 3600000000 } } }) ∧
    (hears 0xFFFFFFFE v s.b = true → v.bit 0 = true → s.b.sys.mode = .idle → flag s.b Reg.NVM.STAT.KEY_SET = false →
      ∃ t, exec (.keyProg v) s = .next t ∧ flag t.b Reg.NVM.STAT.KEY_SET = true ∧ t.b.nvm.keySet = true ∧
        (∀ i, i < 8 → getF t.b (Reg.NVM.KEY.KEY i) = 0) ∧
        t.b.nvm.queue = s.b.nvm.queue ++ [{ addr := 0x40, bytes := key, wearIx := 1001, log := false, retry := false }])) ∧
  (∀ (s : State) (v : Word),
    let armed := fun fs : List (Fld × Nat) => (.next { s with b := setFs fs s.b } : Host.Outcome State Fault Refusal)
    let refused := fun off : Nat => (.next { s with b := reject 0xF0 off 2 .m0 s.b } : Host.Outcome State Fault Refusal)
    (s.b.sys.mode = .factoryTest →
      (v.toNat &&& 0x7FFC0000 = 0 → exec (.engFlip v) s = armed [(Reg.FTEST.ENG_FLIP.ENGINE, v.bits 0 7),
        (Reg.FTEST.ENG_FLIP.SLOT, v.bits 7 7), (Reg.FTEST.ENG_FLIP.BIT, v.bits 14 4), (Reg.FTEST.ENG_FLIP.GO, v.bits 31 1)]) ∧
      (v.toNat &&& 0x7FFFE000 = 0 → exec (.seqFlip v) s = armed [(Reg.FTEST.SEQ_FLIP.CHANNEL, v.bits 0 2),
        (Reg.FTEST.SEQ_FLIP.WORD, v.bits 2 11), (Reg.FTEST.SEQ_FLIP.GO, v.bits 31 1)]) ∧
      (v.toNat &&& 0x7FFFFFE0 = 0 → exec (.eccInject v) s = armed [(Reg.FTEST.ECC.TARGET, v.bits 0 4),
        (Reg.FTEST.ECC.DOUBLE, v.bits 4 1), (Reg.FTEST.ECC.GO, v.bits 31 1)]) ∧
      (v.toNat &&& 0xBFFFC000 = 0 → exec (.adcHold v) s = armed [(Reg.FTEST.ADC_HOLD.INPUT, v.bits 0 10),
        (Reg.FTEST.ADC_HOLD.PAGE, v.bits 10 4), (Reg.FTEST.ADC_HOLD.HOLD, v.bits 30 1)]) ∧
      (v.toNat &&& 0x7FFFFFFC = 0 → exec (.stFail v) s = armed [(Reg.FTEST.ST_FAIL.STANDBY, v.bits 0 2),
        (Reg.FTEST.ST_FAIL.GO, v.bits 31 1)])) ∧
    (s.b.heard = true → s.b.sys.mode ≠ .factoryTest →
      (v.toNat &&& 0x7FFC0000 = 0 → exec (.engFlip v) s = refused 0x40) ∧
      (v.toNat &&& 0x7FFFE000 = 0 → exec (.seqFlip v) s = refused 0x44) ∧
      (v.toNat &&& 0x7FFFFFE0 = 0 → exec (.eccInject v) s = refused 0x48) ∧
      (v.toNat &&& 0xBFFFC000 = 0 → exec (.adcHold v) s = refused 0x4C) ∧
      (v.toNat &&& 0x7FFFFFFC = 0 → exec (.stFail v) s = refused 0x50)))

/-! ### Thermal supervision -/

/-- A housekeeping round replaces the sensors' readings and marks, counts bad rounds up to the exclusion in the eighth, and
moves the counts of each level of each region that has a temperature, the highest of its included sensors in range; a blind
die keeps its counts, and THERMAL_LIMIT is requested while a die holds LIMIT or SHUT. A level is entered with the fourth
round in a row at its threshold or above and left with the sixteenth below it by 3 °C. EXCL words re-include excluded sensors from the next
round, for which alone a setting written during a round counts, and SHUT_CLR clears the thermal latches where no die is hot
or blind (R383, R385 to R389, R392, R393, R396). What a blind die keeps, when SHUT_CLR is decided, and which settings a round sees
are the model's readings (log entries 76, 79, 80 and 150). -/
def Obligations.HousekeepingWatchesTheDies : Prop :=
  (∀ (s : State) (x : HkIn), s.b.sys.mode ≠ .reset → 1000 * (s.b.hk.rounds + 1) ≤ s.b.tick →
    let ts := (readings x s.b).1
    let u := roundView (readings x s.b).2
    ((∀ h ∈ s.b.hk.held, h.1 < s.b.hk.rounds) → u.regs = s.b.regs) ∧
    ∃ t, exec (.housekeepingRound x) s = .next t ∧ t.b.hk.rounds = s.b.hk.rounds + 1 ∧
      (∀ k, k < 88 →
        let T := ts.getD k 32767
        let bad := if excludedS u k then 0 else if outOfRange T || deviates u ts k then getF u (Reg.THERM.SENSOR.BAD k) + 1 else 0
        getF t.b (Reg.THERM.SENSOR.T k) = toBits 16 T ∧ flag t.b (Reg.THERM.SENSOR.OUT k) = outOfRange T ∧
        flag t.b (Reg.THERM.SENSOR.DEV k) = deviates u ts k ∧
        (bad = 8 → flag t.b (Reg.THERM.SENSOR.EXCLUDED k) = true ∧ getF t.b (Reg.THERM.SENSOR.BAD k) = 0 ∧
          (evGet t.b 902).latch = true) ∧
        (bad ≠ 8 → flag t.b (Reg.THERM.SENSOR.EXCLUDED k) = excludedS s.b k ∧
          getF t.b (Reg.THERM.SENSOR.BAD k) = bad % 8)) ∧
      (∀ ph r l, r ∈ regionsOf ph → l < 3 →
        let own := (regionsOf ph).filter fun q => sensorsOf u ph q != []
        let blind := own != [] && own.all fun q => (ownTemp u ts ph q).isNone
        (blind = true → lvlOf t.b ph r l = lvlOf s.b ph r l) ∧
        (blind = false → r ∈ own → ∀ y, regionTemp u ts ph r = some y →
          lvlOf t.b ph r l = lvlStep (threshold u ph l) y.1 (lvlOf s.b ph r l))) ∧
      flag t.b Reg.THERM.LEVEL.LIMIT_REQ = (dieHolds t.b false 1 || dieHolds t.b false 2 || dieHolds t.b true 1 || dieHolds t.b true 2)) ∧
  ((∀ (b : Blk) (ts : List Int) (ph : Die) (r k : Nat), k ∈ sensorsOf b ph r → excludedS b k = false →
    outOfRange (ts.getD k 32767) = false → ∃ x, ownTemp b ts ph r = some x ∧ ts.getD k 32767 ≤ x.1 ∧
      x.2 ∈ sensorsOf b ph r ∧ ts.getD x.2 32767 = x.1 ∧ excludedS b x.2 = false ∧ outOfRange x.1 = false) ∧
  (∀ (thr t : Int) (en ex : Nat) (holds : Bool), let y := lvlStep thr t (en, ex, holds)
    (y.1 = if thr ≤ t then min 4 (en + 1) else 0) ∧ (y.2.1 = if t < thr - 300 then min 16 (ex + 1) else 0) ∧
    (holds = false → (y.2.2 = true ↔ thr ≤ t ∧ 3 ≤ en)) ∧ (holds = true → (y.2.2 = false ↔ t < thr - 300 ∧ 15 ≤ ex))) ∧
  (∀ (s : State) (i : Fin 3) (v : Word), s.b.heard = true → (v.toNat &&& (if i.val = 0 then 0xFF000000 else 0) = 0) →
    ∃ t, exec (.sensorReinclude i v) s = .next t ∧
      t = { s with b := { s.b with regs := t.b.regs, hk := { s.b.hk with held := t.b.hk.held } } } ∧
      (s.b.hk.held = [] → s.b.hk.rounds ≤ s.b.tick / 1000 → ∀ k, k < 88 → excludedS (roundView t.b) k = excludedS s.b k) ∧
      ∀ k, k < 88 →
        let j := if i.val = 0 then k else k - 24 - 32 * (i.val - 1)
        let hit := (if i.val = 0 then k < 24 else 24 + 32 * (i.val - 1) ≤ k ∧ k < 56 + 32 * (i.val - 1)) ∧ v.bit j = true
        flag t.b (Reg.THERM.SENSOR.EXCLUDED k) = (if hit then false else flag s.b (Reg.THERM.SENSOR.EXCLUDED k)) ∧
        getF t.b (Reg.THERM.SENSOR.BAD k) = if hit ∧ excludedS s.b k = true then 0 else getF s.b (Reg.THERM.SENSOR.BAD k)) ∧
  (∀ (s : State), s.b.sys.mode = .shutdown → dieHolds s.b false 2 = false → dieHolds s.b true 2 = false →
    flag s.b Reg.THERM.LEVEL.BLIND_C = false → flag s.b Reg.THERM.LEVEL.BLIND_P = false →
    (∀ ph r, r ∈ regionsOf ph → (lvlOf s.b ph r 2).1 = 0) → ∃ t, exec .shutClr s = .next t ∧
      t = { s with b := { s.b with ev := { s.b.ev with tab := t.b.ev.tab }, sys := { s.b.sys with shutClr := t.b.sys.shutClr } } } ∧
      (∀ x, evGet t.b x = if x = 898 ∨ x = 901 then { evGet s.b x with latch := false, lcls := 0 } else evGet s.b x) ∧
      t.b.sys.shutClr = !latchedClass t.b [4]) ∧
  (∀ (s : State), s.b.heard = true → s.b.sys.mode ≠ .shutdown →
    exec .shutClr s = .next { s with b := reject 0x14 0x68 2 .m0 s.b }))

/-! ### The Ethernet ports and the UDP protocol -/

/-- A port comes up and goes down, takes its configuration, answers for its own address and discards the rest; a port that
goes down or is disabled loses its subscriptions, and M1 is reset for its transactions (R287, R409, R432, R434, R448). The
form of the answers is the model's (log entry 95). -/
def Obligations.EthernetPortsAnswerAndDiscard : Prop :=
  ∀ (s : State) (p : Fin 2) (x : MstReset) (v ip : Word) (data : List Byte),
    let n := p.val
    let cfg := setFs [(Reg.ETH.CFG.EN n, v.bits 0 1), (Reg.ETH.CFG.AN_EN n, v.bits 1 1), (Reg.ETH.CFG.CMD_EN n, v.bits 2 1),
      (Reg.ETH.CFG.VLAN_EN n, v.bits 3 1), (Reg.ETH.CFG.VID n, v.bits 4 12), (Reg.ETH.CFG.PCP n, v.bits 16 3)] s.b
    let down := raise (1068 + 8 * n) (portReset n x (setFs [(Reg.ETH.STAT.LINK n, 0), (Reg.ETH.STAT.AN_DONE n, 0)] s.b))
    let lost := setPtp n { ptpSt down n with recoverAt := none } down
    let own := ip.toNat = getF s.b (Reg.ETH.IP.ADDR n)
    (s.b.sys.mode ≠ .reset → exec (.ethLinkUp p) s = .next { s with
      b := setFs [(Reg.ETH.STAT.LINK n, 1), (Reg.ETH.STAT.AN_DONE n, if flag s.b (Reg.ETH.CFG.AN_EN n) then 1 else 0)] s.b }) ∧
    (flag s.b (Reg.ETH.STAT.LINK n) = true → exec (.ethLinkLoss p x) s = .next { s with
      b := if flag lost (Reg.PTP.CFG.EN n) = true ∧ getF lost (Reg.PTP.STATE.PORT_STATE n) ≠ 2 then ptpFault n lost else lost }) ∧
    (hears 0xFFF80000 v s.b = true → v.bit 0 = true → exec (.ethCfgWrite p v x) s = .next { s with b := cfg }) ∧
    (hears 0xFFF80000 v s.b = true → v.bit 0 = false → exec (.ethCfgWrite p v x) s = .next { s with
      b := masterReset 1 x (portReset n ⟨0, []⟩ cfg) }) ∧
    (∀ b : Blk, x.bursts = [] → let c := portReset n x b
      c.eth.subs = (b.eth.subs.filter fun u => u.peer.port.val != n) ∧
      c = { b with regs := c.regs, eth := { b.eth with subs := c.eth.subs } } ∧
      KeepsRegsBut [Reg.XBAR.DROP.COUNT, Reg.ETH.STAT.SUBS 0, Reg.ETH.STAT.SUBS 1] b c) ∧
    (ethOn s.b n = true →
      (own → exec (.arpRequest p ip) s = .next { s with b := send (.eth n 1 (ip :: macWords s.b n)) s.b }) ∧
      (own → data.length ≤ 64 → exec (.icmpEcho p ip data) s = .next { s with
        b := send (.eth n 2 (ip :: data.map fun y => y.setWidth 32)) s.b }) ∧
      (¬ (own ∧ data.length ≤ 64) → exec (.icmpEcho p ip data) s = .next { s with b := incF (Reg.ETH.CNT_DROP.RX n) s.b }) ∧
      (∀ f : List Byte, frameBad f = true →
        exec (.discardedFrame p ⟨false, f⟩) s = .next { s with b := incF (Reg.ETH.CNT_DROP.RX n) s.b }) ∧
      (∀ f : List Byte,
        exec (.discardedFrame p ⟨true, f⟩) s = .next { s with b := raise (1071 + 8 * n) (incF (Reg.ETH.CNT_DROP.RX n) s.b) })) ∧
    (∀ f : List Byte, (9216 < f.length ∨ bytesWords (f.drop (f.length - 4)) ≠ [BitVec.ofNat 32 (crc32 (f.take (f.length - 4)))] ∨
        (be16 f 12 = 0x0800 ∧ (f.getD 14 0 ≠ 0x45 ∨ ipSum f 14 ≠ 65535 ∨ be16 f 20 % 16384 ≠ 0))) → frameBad f = true)

/-- A SEQ that passes the window moves it to the higher of the old and the new, cannot pass again, and leaves what every
other SEQ would meet as it was but for those that the window leaves behind. A message is treated by the first of the seven
checks that it fails; an ERROR leaves at most once in a millisecond for each port, and a suppressed one is counted and raised
(R437, R438, R440, R448). Some codes are the model's reading (log entry 96). -/
def Obligations.UdpMessagesAreCheckedInOrder : Prop :=
  (∀ (b : Blk) (q : Word), seqFresh b q = true →
    let c := takeSeq q b
    let h := max (getF b Reg.ETH.WIN_HIGH.H) q.toNat
    getF c Reg.ETH.WIN_HIGH.H = h ∧
    (∀ r : Word, seqFresh c r = (seqFresh b r && r != q && (decide (h < r.toNat) || decide (h - r.toNat < 64)))) ∧
    (seqFresh c q = false) ∧ KeepsRegsBut [Reg.ETH.WIN_HIGH.H] b c ∧
    c = { b with regs := c.regs, eth := { b.eth with win := c.eth.win } }) ∧
  (∀ (s : State) (x : UdpMsg), udpOn s.b x = true →
    let p := x.port.val
    let c := failedCheck s.b x
    let counted := fun f : Fld => raise (1069 + 8 * p) (incF f s.b)
    let undecoded := fun b : Blk => raise (1070 + 8 * p) (incF (Reg.ETH.CNT_DEC.DECODE p) b)
    (c = 1 ↔ x.formOk = false) ∧
    (c = 2 ↔ x.formOk = true ∧ flag s.b Reg.NVM.STAT.KEY_SET = false) ∧
    (c = 3 ↔ x.formOk = true ∧ flag s.b Reg.NVM.STAT.KEY_SET = true ∧
      x.tag ≠ hmacTag (keyBytes s.b) (x.payload.take (12 + x.len))) ∧
    (c = 5 → x.formOk = true ∧ flag s.b Reg.NVM.STAT.KEY_SET = true ∧ x.tagOk (keyBytes s.b) = true ∧
      x.epoch.toNat = getF s.b Reg.ETH.BOOT_ID.ID ∧ seqFresh s.b x.msgSeq = false) ∧
    (c = 0 ∨ 6 ≤ c → seqFresh s.b x.msgSeq = true) ∧ c ≤ 7 ∧
    (c = 1 → exec (.rejectedMessage x) s = .next { s with b := sendError x 0x20 0 0 (undecoded s.b) }) ∧
    (c = 2 → exec (.rejectedMessage x) s = .next { s with b := incF (Reg.ETH.CNT_DEC.DECODE p) s.b }) ∧
    (c = 3 → exec (.rejectedMessage x) s = .next { s with
      b := sendError x 0x21 1 x.msgSeq (counted (Reg.ETH.CNT_AUTH.AUTH p)) }) ∧
    (c = 4 → exec (.rejectedMessage x) s = .next { s with
      b := sendError x 0x21 2 x.msgSeq (counted (Reg.ETH.CNT_AUTH.AUTH p)) }) ∧
    (c = 5 → exec (.rejectedMessage x) s = .next { s with
      b := sendError x 0x21 3 x.msgSeq (counted (Reg.ETH.CNT_AUTH.REPLAY p)) }) ∧
    (6 ≤ c → exec (.rejectedMessage x) s = .next { s with
      b := sendError x 0x20 0 x.msgSeq (undecoded (takeSeq x.msgSeq s.b)) }) ∧
    (∀ (b : Blk) (code detail : Nat) (q : Word),
      ((∀ t, b.eth.errAt.find p = some t → t + 4000000 ≤ b.q) → sendError x code detail q b =
        sendUdp (peerOf x) 0x84 [BitVec.ofNat 32 (code + detail * 256), q] { b with eth := { b.eth with errAt := b.eth.errAt.put p b.q } }) ∧
      ((∃ t, b.eth.errAt.find p = some t ∧ b.q < t + 4000000) → sendError x code detail q b =
        raise (1073 + 8 * p) (incF (Reg.ETH.CNT_DEC.SUPPRESSED p) b))))

/-- A message that passes the checks is counted and acted on: a frame joins the arrivals with its stamp, CANCEL looks for its
frame, a query is answered, a subscription is made, replaced or removed, and refused where its fields do not fit or a fifth
would be needed; its summaries fall due each period and it ends with its lease, which is raised (R433, R437 to R441, R448).
Some codes are the model's reading (log entry 96). -/
def Obligations.UdpRequestsAndSubscriptions : Prop :=
  (∀ (s : State) (x : UdpMsg), udpOn s.b x = true → failedCheck s.b x = 0 →
    let c := takeSeq x.msgSeq (incF (Reg.ETH.CNT_OK.COUNT x.port.val) s.b)
    let w := fun i : Nat => x.body.getD i 0
    let others := c.eth.subs.filter fun u => !u.peer.same (peerOf x)
    let ack := [BitVec.ofNat 32 (1 + 0x81 * 256 + 40 * 65536), BitVec.ofNat 32 (getF s.b Reg.ETH.BOOT_ID.ID),
      BitVec.ofNat 32 (s.b.eth.ansSeq + 1), x.msgSeq] ++ List.replicate 9 0
    let clean := (w 0).bits 4 28 = 0 ∧ (w 1).bits 16 16 = 0 ∧ (w 2).bits 12 20 = 0
    let fits := 10 ≤ (w 1).bits 0 16 ∧ (w 1).bits 0 16 ≤ 60000 ∧ 1 ≤ (w 2).bits 0 12 ∧ (w 2).bits 0 12 ≤ 3600
    (x.typ = 1 → exec (.schedule x) s = .next { s with b := { c with sched := { c.sched with
      arrivals := c.sched.arrivals ++ [{ stamp := c.time.ns, peer := some (peerOf x), msg := x.msgSeq, words := x.body }] } } }) ∧
    (x.typ = 2 → exec (.cancel x) s = .next { s with b := cancelFrame (some (peerOf x)) x.msgSeq (w 0) c }) ∧
    (x.typ = 3 → (w 0) = 0 → exec (.querySummary x) s = .next { s with b := sendUdp (peerOf x) 0x82 (summaryWords c) c }) ∧
    (x.typ = 3 → (w 0) = 1 → exec (.queryFrame x) s = .next { s with b := sendUdp (peerOf x) 0x82 (frameWords (w 1) c) c }) ∧
    (x.typ = 3 → 1 < (w 0).toNat → (w 0).bits 0 8 ≠ 1 →
      exec (.querySummary x) s = .next { s with b := sendError x 4 0 x.msgSeq c }) ∧
    (x.typ = 3 → (w 0).bits 8 24 ≠ 0 → (w 0).bits 0 8 = 1 →
      exec (.queryFrame x) s = .next { s with b := sendError x 4 0 x.msgSeq c }) ∧
    (x.typ = 4 → (w 0).bit 0 = true → clean → fits → others.length < 4 → ∃ t, exec (.subscribe x) s = .next t ∧
      t.b.eth.subs = others ++ [{ peer := peerOf x, records := (w 0).bit 1, events := (w 0).bit 2, summary := (w 0).bit 3
                                  period := (w 1).bits 0 16, lease := s.b.q + (w 2).bits 0 12 * 4000000000
                                  next := s.b.q + (w 1).bits 0 16 * 4000000, evStart := s.b.q, evN := 0 }] ∧
      t.b.sent = .udp (peerOf x) 47810 ack (hmacTag (keyBytes s.b) (ack.flatMap wordBytes)) :: s.b.sent) ∧
    (x.typ = 4 → (w 0).bit 0 = false → clean → fits → ∃ t, exec (.unsubscribe x) s = .next t ∧ t.b.eth.subs = others) ∧
    (x.typ = 4 → (w 0).bit 0 = true → ¬ clean → exec (.subscribe x) s = .next { s with b := sendError x 4 0 x.msgSeq c }) ∧
    (x.typ = 4 → (w 0).bit 0 = true → clean → ¬ fits → exec (.subscribe x) s = .next { s with b := sendError x 1 0 x.msgSeq c }) ∧
    (x.typ = 4 → (w 0).bit 0 = true → clean → fits → 4 ≤ others.length →
      exec (.subscribe x) s = .next { s with b := sendError x 3 0 x.msgSeq c })) ∧
  (∀ (s : State) (i : Fin 4) (u : Sub), s.b.eth.subs[i.val]? = some u →
    let e := s.b.atEdge u.lease
    let d := s.b.atEdge u.next
    (s.b.due u.lease = true → exec (.subExpired i) s = .next { s with
      b := raise (1072 + 8 * u.peer.port.val) (showSubs { e with eth := { e.eth with subs := e.eth.subs.eraseIdx i.val } }) }) ∧
    (s.b.due u.next = true → u.summary = true → exec (.telemetrySummary i) s = .next { s with
      b := sendUdp u.peer 0x83 (0 :: summaryWords d)
        { d with eth := { d.eth with subs := d.eth.subs.set i.val { u with next := u.next + u.period * 4000000 } } } }))

/-! ### Glewlink -/

/-- A port trains from LOCK over DESKEW and ID to MEASURE and RUN, where its neighbour's ID fits and the flight time is at
most 48 ns; losing bit lock ends it; a cell whose CRC fails is counted, and the sixteenth bad TIME cell in a row ends RUN. A
TIME cell leaves its arrival stamp, adds a flight time while the port measures and an offset on a member's UP port in RUN,
and the mean of 64 offsets steers the member's clock (R293, R297, R300 to R302, R318, R319). How a port leaves DOWN is the
model's reading (log entry 70). -/
def Obligations.GlewlinkTrainsAndTellsTime : Prop :=
  (∀ (s : State) (d : Port) (v : Word) (x : Cell) (y : MstReset) (isTime : Bool),
    let st := portState s.b d
    let p := portSt s.b d
    let low := setPortState d 0 (setPort d { PortSt.reset with serial := p.serial } s.b)
    let down := if flag s.b Reg.GLEW.CFG.EN = true ∧ connected s.b d = true then setPortState d 1 low else low
    let fl := p.flight / (p.n : Rat)
    let shown := setF (match d with | .up => Reg.GLEW.FLIGHT.UP | .dn => Reg.GLEW.FLIGHT.DN)
      (clampI 0 1023 (ratRne (10 * fl))).toNat (setPort d { p with n := 0, flight := 0 } s.b)
    let sn : BitVec 64 := BitVec.ofNat 64 ((pw x 1).toNat + 2 ^ 32 * (pw x 2).toNat)
    let q := portSt s.b x.d
    let named := setPort x.d { q with serial := some sn, n := 0, flight := 0 } s.b
    let good := crc32 ((x.ws.take 9).flatMap wordBytes) = (x.ws.getD 9 0).toNat
    let cfg := setFs [(Reg.GLEW.CFG.EN, v.bits 0 1), (Reg.GLEW.CFG.CHAIN, v.bits 1 3)] s.b
    let crc := raise 1095 (incF (match x.d with | .up => Reg.GLEW.CNT_CRC.UP | .dn => Reg.GLEW.CNT_CRC.DN) s.b)
    let worse := setPort x.d { portSt crc x.d with bad := (portSt crc x.d).bad + 1 } crc
    (hears 0xFFFFFFF0 v s.b = true → s.b.sys.mode = .idle → (v.bit 0 = true → ownId s.b ≤ v.bits 1 3) →
      exec (.glewCfgWrite ⟨v, y⟩) s = .next { s with
        b := let off := portDown .dn (portDown .up cfg)
          if v.bit 0 = true then startPort (startPort cfg .up) .dn
          else if portState s.b .up = 5 ∨ portState s.b .dn = 5 then masterReset 5 y off else off }) ∧
    (s.b.sys.mode ≠ .reset → flag s.b Reg.GLEW.CFG.EN = true → connected s.b d = true → st = 0 →
      exec (.linkLockRetry d) s = .next { s with b := setPortState d 1 s.b }) ∧
    (st = 1 → exec (.laneAlign d) s = .next { s with b := setPortState d 2 s.b }) ∧
    (st = 2 → exec (.deskewDone d) s = .next { s with b := setPortState d 3 s.b }) ∧
    (portState s.b x.d = 3 → good → x.typ = 2 → (x.bcast = true ∨ x.dest.val = ownId s.b) →
      ((x.d = .up → q.serial = none ∨ q.serial = some sn) → exec (.idCell x) s = .next { s with
        b := if idFits named x = true then setPortState x.d 4 named else raise 1094 named }) ∧
      (∀ o, x.d = .up → q.serial = some o → o ≠ sn → exec (.idCell x) s = .next { s with
        b := if idFits (raise 930 named) x = true then setPortState x.d 4 (raise 930 named) else raise 1094 (raise 930 named) })) ∧
    (portState s.b x.d = 3 → ¬ good → exec (.idCell x) s = .next { s with b := crc }) ∧
    (st = 4 → 256 ≤ p.n → exec (.measureDone d) s = .next { s with b := if fl ≤ 48 then portRun d shown else raise 1094 shown }) ∧
    (portState (portRun d shown) d = 5) ∧
    (1 ≤ st → st < 5 → exec (.bitLockLoss d y) s = .next { s with b := down }) ∧
    (st = 5 → exec (.bitLockLoss d y) s = .next { s with b := portDown d (masterReset 5 y s.b) }) ∧
    (portState s.b x.d ≠ 0 → x.crcOk isTime = false → exec (.cellCrc ⟨x, y⟩ isTime) s = .next { s with
      b := if isTime = false then crc
        else if 15 ≤ (portSt crc x.d).bad ∧ portState crc x.d = 5 then portDown x.d (masterReset 5 y worse) else worse }) ∧
    (x.crcOk isTime = true → exec (.cellCrc ⟨x, y⟩ isTime) s = .next s)) ∧
  (∀ (s : State) (x : TimeCell),
    let st := portState s.b x.d
    let p := portSt s.b x.d
    let w := fun i : Nat => (x.w.getD (i - 1) 0).toNat
    let arr := local28 s.b + rne ((x.tenths.val : Int) * 2 ^ 28) 10 - corr28 (getF s.b Reg.GLEW.CORR.ING)
    let stamped := { p with rxFrame := w 2 / 65536, rxNs := arr.toNat / 2 ^ 28, rxFrac := arr.toNat % 2 ^ 28, bad := 0 }
    let g := s.b.glew
    let sums := getF s.b Reg.TIME.CFG.SRC = 2 ∧ g.oN < 64
    let ratio := fun e : Int => (e : Rat) / 536870912
    let mean := g.oSum / (g.oN : Rat)
    let shown := setF Reg.GLEW.OFFSET.O (toBits 32 (satS32 (ratRne (100 * mean))))
      { s.b with glew := { g with oSum := 0, oN := 0, stepNext := false } }
    (s.b.sys.mode ≠ .reset → st ≠ 0 → crc32 (x.w.flatMap wordBytes) = x.crc.toNat → ∃ t, exec (.timeCell x) s = .next t ∧
      t = { s with b := { s.b with glew := t.b.glew } } ∧
      (portSt t.b x.d = match timeDiffs p arr x with
        | some e => if st = 4 then { stamped with n := p.n + 1, flight := p.flight + ratio (e.1 + e.2) } else stamped
        | none => stamped) ∧
      (x.d = .up → isMember s.b = true → st = 5 → t.b.glew.upIncr = w 5 ∧ t.b.glew.upHold = (w 8 / 2 ^ 16 % 2 == 1) ∧
        t.b.glew.stepNext = (g.stepNext || (w 8 / 2 ^ 17 % 2 == 1)) ∧
        (∀ e, sums → timeDiffs p arr x = some e → t.b.glew.oSum = g.oSum + ratio (e.1 - e.2) ∧ t.b.glew.oN = g.oN + 1) ∧
        (¬ sums ∨ timeDiffs p arr x = none → t.b.glew.oSum = g.oSum ∧ t.b.glew.oN = g.oN)) ∧
      (x.d = .dn ∨ isMember s.b = false ∨ st ≠ 5 → t.b.glew.oSum = g.oSum ∧ t.b.glew.oN = g.oN ∧
        t.b.glew.stepNext = g.stepNext ∧ t.b.glew.upIncr = g.upIncr ∧ t.b.glew.upHold = g.upHold)) ∧
    (isMember s.b = true → getF s.b Reg.TIME.CFG.SRC = 2 → portState s.b .up = 5 → 64 ≤ g.oN →
      exec .glewOffsetUpdate s = .next { s with b := offsetUpdate (ratRne mean) g.upIncr g.stepNext shown }))

/-- A cell in RUN whose CRC is right is taken where it is addressed to this controller and passed on, in a slot of its own, where it
is not addressed to it alone; any other is discarded and counted. Of a READY the first good copy acts. On
the master STATUS, LEDGER and EVENT cells keep the members' readiness, images and events, READY and SUMMARY serve the frame
they name, and silent members are lost and unready frames aborted. A member queues the frame of a FRAME cell, completes its
states from STATES or NOCHANGE, with MOVE set against its own reference, and holds or discards it as COMMIT or ABORT says
(R298, R300, R304 to R307, R309 to R314, R317, R342). The image's layout is the model's presumption (log entry 50), late
refusals its reading (log entry 71). -/
def Obligations.CellsReachMasterAndMembers : Prop :=
  (∀ (s : State) (x : Cell) (k : Fin 8),
    let good := crc32 ((x.ws.take 9).flatMap wordBytes) = (x.ws.getD 9 0).toNat
    let here := fun t : Nat => portState s.b x.d = 5 ∧ s.b.sys.mode ≠ .reset ∧ good ∧ x.typ = t ∧ x.bcast = false ∧
      x.dest.val = ownId s.b
    let g := s.b.glew
    let ev := { g with mevt := g.mevt ++ [((pw x 1).bits 0 11, (pw x 1).bits 11 3, x.src.val)] }
    let heard := g.mems.set MemberSt.reset x.src.val
      { seen := some s.b.q, bits := (pw x 1).bits 0 11, imgSeq := (pw x 2).bits 0 16, lost := false }
    let i := firstUnlaunched s.b
    let n := chainN s.b
    (∀ (b : Blk) (typ : Nat) (take : Blk → Blk), portState b x.d = 5 → b.sys.mode ≠ .reset →
      let c := queueCell (otherPort x.d) typ ((x.ws.take 9).map BitVec.toNat) b
      let on := if portState b (otherPort x.d) = 5 then c else b
      (good → x.typ = typ → x.bcast = true → onCell typ x take b = take on) ∧
      (good → x.typ = typ → x.bcast = false → x.dest.val = ownId b → onCell typ x take b = take b) ∧
      (good → x.typ = typ → x.bcast = false → x.dest.val ≠ ownId b → onCell typ x take b = on) ∧
      (¬ good → onCell typ x take b =
        raise 1095 (incF (match x.d with | .up => Reg.GLEW.CNT_CRC.UP | .dn => Reg.GLEW.CNT_CRC.DN) b))) ∧
    (isMember s.b = false →
      (here 3 → exec (.statusCell x) s = .next { s with b := { s.b with glew := { g with mems := heard } } }) ∧
      (here 14 → ∃ t, exec (.ledger x) s = .next t ∧ t = { s with b := { s.b with glew := { g with image := t.b.glew.image } } } ∧
        (∀ j, j < 8 → t.b.glew.image.get 0 (32768 * x.src.val + 8 * x.arg.toNat + j) = pw x (j + 1)) ∧
        (∀ a, (∀ j, j < 8 → a ≠ 32768 * x.src.val + 8 * x.arg.toNat + j) → t.b.glew.image.get 0 a = g.image.get 0 a)) ∧
      (here 13 → g.mevt.length < 16 → exec (.eventCell x) s = .next { s with
        b := raise 1096 (setF Reg.GLEW.MEVT_STAT.COUNT (g.mevt.length + 1) { s.b with glew := ev }) }) ∧
      (here 13 → 16 ≤ g.mevt.length → exec (.eventCell x) s = .next { s with
        b := raise 1096 (setF Reg.GLEW.MEVT_STAT.COUNT g.mevt.length (incF Reg.GLEW.MEVT_STAT.LOST s.b)) }) ∧
      (∀ j f, frameWith s.b (pw x 1) = some j → s.b.sched.queue[j]? = some f →
        (here 7 → f.stage ≠ .launched → f.commit = false → (pw x 2).bits 0 8 ≠ 0 → x.src.val ∉ f.ready →
          exec (.ready x) s = .next { s with b := abortFrame j x.src.val ((pw x 2).bits 0 8) s.b }) ∧
        (here 7 → f.stage = .launched ∨ f.commit = true ∨ x.src.val ∈ f.ready → exec (.ready x) s = .next s) ∧
        (here 7 → f.stage ≠ .launched → f.commit = false → (pw x 2).bits 0 8 = 0 → x.src.val ∉ f.ready →
          exec (.ready x) s = .next { s with b := tryCommit (setFrame j { f with
            ready := x.src.val :: f.ready
            pEnd := if (∀ m, m < n → m + 1 ∈ x.src.val :: f.ready) then s.b.time.ns else f.pEnd } s.b) }) ∧
        (here 10 → f.stage = .launched → (∀ y ∈ f.sums, y.1 ≠ x.src.val) → exec (.summary x) s = .next { s with
          b := setFrame j { f with sums := f.sums ++ [(x.src.val, 0 :: x.w.map BitVec.toNat)] } s.b }))) ∧
    (∀ t, (g.mems.get MemberSt.reset k.val).seen = some t → 1 ≤ k.val → k.val ≤ n →
      (g.mems.get MemberSt.reset k.val).lost = false → s.b.due (t + 16016) = true →
      let c := s.b.atEdge (t + 16016)
      exec (.memberLost k) s = .next { s with b := membersLost [k.val] (if splitBeyond c t = true then cascSplit k.val c else c) }) ∧
    (∀ f m, s.b.sched.queue[i]? = some f → f.commit = false → m < n → m + 1 ∉ f.ready → (∀ j, j < m → j + 1 ∈ f.ready) →
      s.b.sys.mode ≠ .reset →
      let left : Int := ((f.launch : Int) - 40 - 240 * n) * 2 ^ 28 - local28 s.b
      let e := s.b.edge + if left ≤ 0 then 0 else ceilDiv left.toNat (getF s.b Reg.TIME.INCR.INCR)
      e < 250 → exec .readyTimeout s = .next { s with b := abortFrame i (m + 1) 0 (toEdge e s.b) })) ∧
  (∀ (s : State) (x : Cell),
    let good := crc32 ((x.ws.take 9).flatMap wordBytes) = (x.ws.getD 9 0).toNat
    let here := fun t : Nat => portState s.b x.d = 5 ∧ s.b.sys.mode ≠ .reset ∧ good ∧ x.typ = t ∧ x.bcast = false ∧
      x.dest.val = ownId s.b
    let c := s.b.sched
    let d := disarm s.b
    let waiting := fun f : Frame => f.casc = true ∧ f.stage = .queued ∧ f.refused = false
    (isMember s.b = true →
      (here 4 → c.queue.length < 64 → (∀ f ∈ c.queue, ¬ waiting f) → s.b.sys.mode.working = true → getF s.b Reg.SEQ.STAT.CONFIG ≠ 2 →
        ∃ t f, exec (.frameCell x) s = .next t ∧ t.b.sched = { c with queue := c.queue ++ [f] } ∧ waiting f ∧
          f.seq = pw x 1 ∧ f.launch = cellLaunch s.b x ∧ f.settle = (pw x 4).bits 16 10 ∧ f.kind = (pw x 4).bits 26 2 ∧
          f.commit = false ∧ f.rel = boundaryAt s.b (4 * f.launch + 125 * f.settle)) ∧
      (∀ i f, filling s.b = some i → c.queue[i]? = some f →
        (here 5 → x.arg.toNat < 144 → (f.cells.set [] x.arg.toNat x.w).length ≠ 144 → exec (.states x) s = .next { s with
          b := setFrame i { f with cells := f.cells.set [] x.arg.toNat x.w } s.b }) ∧
        (here 5 → x.arg.toNat < 144 → (f.cells.set [] x.arg.toNat x.w).length = 144 → exec (.states x) s = .next { s with
          b := fillStates i (some (f.cells.set [] x.arg.toNat x.w)) f s.b }) ∧
        (here 6 → f.seq = pw x 1 → exec (.nochange x) s = .next { s with
          b := setFrame i { f with states := refBytes s.b i, stage := .solved, cells := [], sFree := s.b.time.ns } s.b })) ∧
      (∀ i f, frameWith s.b (pw x 1) = some i → c.queue[i]? = some f → f.stage ≠ .launched →
        (here 8 → exec (.commitCell x) s = .next { s with b := show2pc f.seq 1 0 0 (setFrame i { f with commit := true } s.b) }) ∧
        (here 9 → f.stage ∈ [Stage.queued, .solved] → exec (.abortCell x) s = .next { s with
          b := show2pc f.seq 2 0 0 (showQueue { s.b with sched := { c with queue := c.queue.take i } }) }) ∧
        (here 9 → f.stage ∉ [Stage.queued, .solved] → exec (.abortCell x) s = .next { s with
          b := show2pc f.seq 2 0 0 (showQueue { d with sched := { d.sched with queue := d.sched.queue.take i } }) })) ∧
      (here 15 → x.arg = 1 → exec (.ctrlPauseClr x) s = .next { s with b := setF Reg.TIME.STAT.PAUSED 0 s.b }) ∧
      (here 11 → flag s.b Reg.TRIG.CFG.CASC = true → exec (.trigArm x) s = .next { s with b := { s.b with trig := { s.b.trig with
        armAt := some ((pw x 2).toNat, (pw x 1).toNat % 2 == 1, x.arg.toNat % 256) } } })) ∧
    (here 12 → exec (.trigFire x) s = .next { s with
      b := trigFireCell x.src.val x.arg.toNat (pw x 1).toNat (pw x 2).toNat s.b }) ∧
    (∀ (b : Blk) (i : Nat) (f : Frame) (ws : Tbl (List Word)) (e : Nat), i < b.sched.queue.length →
      (∀ k, k < 144 → (ws.get [] k).length = 8) → e < 4608 → (refBytes b i).length = 4608 →
      let sent := (wordBytes ((ws.get [] (e / 32)).getD (e % 32 / 4) 0)).getD (e % 4) 0
      let own := (refBytes b i).getD e 0
      ((fillStates i (some ws) f b).sched.queue[i]?.map fun g => g.states.getD e 0) =
        some (if sent = 0xFF then own else withMove own (sent.toNat % 16))))

/-! ### Acquisition and triggers -/

/-- RUN waits for the next boundary, RP frees records up to WP, and a full or timely DATA record lands whole in the buffer,
in its eight words, where there is room; dropping ends with a GAP record, the held records and a SYNC; SYNC records fall due
as the count passes a multiple of 2^30, and a span that is over ends its measurement (R324, R325, R328, R330 to R332, R341,
R343). When a record is written and when a SYNC follows are the model's readings (log entries 55, 62 and 63). -/
def Obligations.TheStreamTakesItsRecords : Prop :=
  ∀ (s : State) (v : Word) (c : Fin 32),
    let flushAt := 16 * (chanSt s.b c.val).partDec + 4000 * getF s.b Reg.ACQ.FLUSH.US
    let goal := (s.b.time.ns / 2 ^ 30 + 1) * 2 ^ 30
    let e := s.b.edge + ceilDiv (goal * 2 ^ 28 - (s.b.time.ns * 2 ^ 28 + s.b.time.frac)) (getF s.b Reg.TIME.INCR.INCR)
    let m := (chanSt s.b c.val).meas
    let ask := fun r : Bool => { s.b.acq with runReq := some r }
    (s.b.heard = true → s.b.sys.mode ≠ .shutdown → exec .acqRun s = .next { s with
      b := { setF Reg.ACQ.RUN.RUN 1 s.b with acq := ask true } }) ∧
    (s.b.heard = true → exec .acqStop s = .next { s with b := { setF Reg.ACQ.RUN.RUN 0 s.b with acq := ask false } }) ∧
    (hears 0xFFFC0000 v s.b = true → flag s.b Reg.ACQ.CFG.DRAIN = false →
      (v.bits 0 18 + 262144 - getF s.b Reg.ACQ.RP.RP) % 262144 ≤ acqUsed s.b →
      exec (.acqRpWrite v) s = .next { s with b := setF Reg.ACQ.RP.RP (v.bits 0 18) s.b }) ∧
    ((chanSt s.b c.val).part ≠ [] → s.b.due flushAt = true →
      exec (.acqFlush c) s = .next { s with b := flushData (s.b.atEdge flushAt) c.val }) ∧
    (∀ (b : Blk) (n : Nat), n < 32 → (chanSt b n).part ≠ [] → (chanSt b n).part.length ≤ 12 → acqFull b = false →
      (flag b Reg.FTEST.ECC.GO = true → getF b Reg.FTEST.ECC.TARGET ≠ 5) →
      let x := chanSt b n
      let w := flag b (Reg.ACQ.CH_CFG.W32 n)
      let p := getF b Reg.ACQ.WP.WP
      let a := 0x1000000 + 32 * (p % 131072)
      let ws := (1 + 16 * n + 512 * x.part.length + (if w then 8192 else 0) + p % 65536 * 65536) :: x.partT :: packSamples w x.part
      let d := flushData b n
      getF d Reg.ACQ.WP.WP = (p + 1) % 262144 ∧ (chanSt d n).part = [] ∧ KeepsShadow b d ∧
      (∀ i, i < 8 → rdW d.live (a + 4 * i) = ws.getD i 0 % 2 ^ 32) ∧
      (∀ z, z < a ∨ a + 32 ≤ z → rdB d.live z = rdB b.live z)) ∧
    (∀ (b : Blk) (n : Nat), (chanSt b n).part ≠ [] → acqFull b = true → flushData b n = enterDrop b) ∧
    (flag s.b Reg.ACQ.STAT.DROPPING = true → getF s.b Reg.ACQ.RESUME.REC ≤ 131072 - acqUsed s.b → s.b.mild [1121] →
      ∃ t, exec .acqResume s = .next t ∧ flag t.b Reg.ACQ.STAT.DROPPING = false ∧ getF t.b Reg.ACQ.STAT.HELD = 0 ∧
        t.b.acq.held = [] ∧ t.b.acq.lostN = 0 ∧ (evGet t.b 1121).latch = true ∧
        getF t.b Reg.ACQ.WP.WP = (getF s.b Reg.ACQ.WP.WP + 2 + s.b.acq.held.length) % 262144) ∧
    (flag s.b Reg.ACQ.STAT.RUNNING = true → s.b.sys.mode ≠ .reset →
      (s.b.acq.mark ≠ s.b.time.ns / 2 ^ 30 → exec .syncRecord s = .next { s with b := dueSync s.b }) ∧
      (s.b.acq.mark = s.b.time.ns / 2 ^ 30 → e < 250 → exec .syncRecord s = .next { s with b := dueSync (toEdge e s.b) })) ∧
    (∀ y, m = some y → (y.past = true ∨ getF s.b (Reg.ACQ.CH_MEAS.MSPAN c.val) ≤ y.xs.length) →
      exec (.measDone c) s = .next { s with b := endMeas false s.b c.val } ∧
      (flag s.b Reg.ACQ.STAT.RUNNING = true → (evGet (endMeas false s.b c.val) 1125).latch = true) ∧
      (s.b.mild [1120, 1122, 1125] → (chanSt (endMeas false s.b c.val) c.val).meas = none))

/-- ACT arms, disarms and forces at the next step, or in a chain at the instant its master sets; the entry of the present
state with the lowest index that fires is taken, sets the state and acts on counters and timers; timers, the pulse and windows
end at their instants, and a pin edge counts once two samples agree on a new level, unless the own pulse blanks it (R334, R336
to R340, R342). What STOP leaves open, what marks carry and when an edge is taken are the model's readings (log entries 56, 57
and 147). -/
def Obligations.TheTriggerEngineRuns : Prop :=
  ∀ (s : State) (i : Fin 4) (rising : Bool),
    let d := nextStep s.b
    let id := getF s.b Reg.TRIG.STAT.ARM_ID
    let armed := flag s.b Reg.TRIG.STAT.ARMED
    let alone := flag s.b Reg.TRIG.CFG.CASC = false
    let chained := flag s.b Reg.TRIG.CFG.CASC = true ∧ isMember s.b = false ∧ portState s.b .dn = 5
    let z := (timerWin s.b i.val).2
    let o := acqOuts s.b.now s.b
    let edge := { s.b with trig := { s.b.trig with level := rising, levelAt := s.b.now } }
    (s.b.heard = true → armed = false → alone → exec .arm s = .next { s with b := armAct d.now ((id + 1) % 256) d }) ∧
    (s.b.heard = true → armed = false → chained → exec .arm s = .next { s with b := nextStep (chainArm true s.b) }) ∧
    (s.b.heard = true → armed = true → exec .arm s = .next { s with
      b := reject 0x1B 0x40 3 .m0 s.b }) ∧
    (s.b.heard = true → alone → exec .disarm s = .next { s with b := disarmCmd d.now d }) ∧
    (s.b.heard = true → chained → exec .disarm s = .next { s with b := nextStep (chainArm false s.b) }) ∧
    (s.b.heard = true → exec .force s = .next { s with b := if armed then trigOnce d.now 10 0 d else d }) ∧
    (∀ a, s.b.trig.armAt = some a → s.b.sys.mode ≠ .reset →
      let left := sext 32 (toBits 32 ((a.1 : Int) - (s.b.time.ns % 2 ^ 32 : Nat)))
      let e := s.b.edge + if left ≤ 0 then 0 else ceilDiv (left.toNat * 2 ^ 28 - s.b.time.frac) (getF s.b Reg.TIME.INCR.INCR)
      let c := toEdge e { s.b with trig := { s.b.trig with armAt := none } }
      e < 250 → exec .armInstant s = .next { s with
        b := if a.2.1 then armAct c.now a.2.2 c else disarmCmd c.now (setF Reg.TRIG.STAT.ARM_ID a.2.2 c) }) ∧
    (∀ (b : Blk) (k n : Nat), n < 256 → b.mild [1120, 1122, 1124] → let c := armAct k n b
      flag c Reg.TRIG.STAT.ARMED = true ∧ getF c Reg.TRIG.STAT.STATE = getF b Reg.TRIG.CFG.START % 16 ∧ getF c Reg.TRIG.STAT.ARM_ID = n ∧
      (∀ j, j < 4 → getF c (Reg.TRIG.CNT.COUNT j) = 0) ∧ c.trig.tmr = [] ∧ c.trig.next = k + 1) ∧
    (flag o Reg.TRIG.STAT.ARMED = true → o.sys.mode ≠ .reset → ∀ k x,
      ((trigSteps o).find? fun k => decide (k < 250 * o.tick + 250) && (firingAt o k).isSome) = some k →
      firingAt o k = some x → exec .triggerTransition s = .next { s with b := takeEntry k x (toEdge (k - 250 * o.tick) o) }) ∧
    (∀ (b : Blk) (k x : Nat), let st := getF b Reg.TRIG.STAT.STATE
      (firingAt b k = some x ↔ 4 * st ≤ x ∧ x < 4 * st + 4 ∧ entryFires b (condVec b k) x = true ∧
        ∀ y, 4 * st ≤ y → y < x → entryFires b (condVec b k) y = false)) ∧
    (∀ (b : Blk) (k x : Nat), let c := entryMove k x b
      getF c Reg.TRIG.STAT.STATE = natBits (getF b (Reg.TRIG.TT.W0 x)) 18 4 ∧ getF c Reg.TRIG.LAST.INDEX = x % 64 ∧
      getF c Reg.TRIG.LAST.MASK = condVec b k % 65536) ∧
    (∀ (b : Blk) (k x j : Nat), j < 4 → b.mild [1123] → let w := getF b (Reg.TRIG.TT.W1 x)
      let n := if natBits w (4 + j) 1 = 1 then 0 else getF b (Reg.TRIG.CNT.COUNT j)
      getF (entryCounts k x b) (Reg.TRIG.CNT.COUNT j) = (if natBits w j 1 = 1 then min (2 ^ 32 - 1) (n + 1) else n) ∧
      timerWin (entryCounts k x b) j = if natBits w (8 + j) 1 = 1 then (k + 1, k + 1 + getF b (Reg.TRIG.TMR.STEPS j))
        else if natBits w (12 + j) 1 = 1 then (0, 0) else timerWin b j) ∧
    (z ≠ 0 → (z, 7, i.val) ∉ s.b.trig.once → s.b.due (16 * z) = true →
      exec (.timerDone i) s = .next { s with b := trigOnce z 7 i.val (s.b.atEdge (16 * z)) }) ∧
    (s.b.sys.mode ≠ .reset → rising ≠ s.b.trig.level → s.b.trig.levelAt + 2 ≤ s.b.now →
      ((∀ p ∈ s.b.trig.pulse, s.b.now < p.1 ∨ p.2 + 10 ≤ s.b.now) →
        exec (.trigPinEdge rising) s = .next { s with b := trigOnce s.b.now 2 (if rising then 1 else 0) edge }) ∧
      (∀ p, s.b.trig.pulse = some p → p.1 ≤ s.b.now → s.b.now < p.2 + 10 →
        exec (.trigPinEdge rising) s = .next { s with b := edge })) ∧
    (rising = s.b.trig.level ∨ s.b.now < s.b.trig.levelAt + 2 → exec (.trigPinEdge rising) s = .next s) ∧
    (∀ p, s.b.trig.pulse = some p → p.1 < p.2 → s.b.due (16 * p.2) = true →
      let c := s.b.atEdge (16 * p.2)
      exec .trigPulseEnd s = .next { s with b := send (.pin pinTrig true) { c with trig := { c.trig with pulse := some (p.2, p.2) } } }) ∧
    (∀ w y, s.b.trig.win = some w → w.stop = some y → s.b.due y = true →
      exec .windowEnd s = .next { s with b := closeWindow (ceilDiv y 16) false (s.b.atEdge y) }) ∧
    (∀ (b : Blk) (k : Nat) (cut : Bool) (w : Win), b.trig.win = some w → b.mild [1120, 1122, 1124] →
      let c := closeWindow k cut b
      c.trig.win = none ∧ flag c Reg.TRIG.STAT.WIN_OPEN = false ∧ (evGet c 1124).latch = true ∧
      ∀ n, n < 32 → (chanSt c n).meas.isSome = (chanSt b n).meas.isSome ∧
        ∀ m y, (chanSt b n).meas = some m → (chanSt c n).meas = some y → y.past = true ∧ y.t = m.t ∧ y.stamp = m.stamp ∧
          y.origin = m.origin ∧ m.xs <+: y.xs ∧
          ∃ q, y.stop = some q ∧ q ≤ if cut then 16 * k else w.stop.getD (16 * k))

/-! ### Modes, resets and boot -/

/-- A mode request that R453 lists for the present mode and whose gates hold waits for the next boundary; one for the present
mode, or for a working mode in one, changes nothing; every other is refused whole with the first code of R484 that applies:
RESERVED_VALUE for a code from 12, MODE where R453 lists none or the supplies' gate is shut, LOCKED while a request is pending
or a source of SAFE or SHUTDOWN is latched, TABLE without the tables. The filtered FREEZE_N is counted and raised as it falls,
and rises again (R453 to R457, R460). When the working mode shows is the model's reading (log entry 44). -/
def Obligations.ModeRequestsAndTheFreezePin : Prop :=
  ∀ (s : State) (code : BitVec 4),
    let m := s.b.sys.mode
    let c := code.toNat
    let asked := fun t : Mode => { s.b with sys := { s.b.sys with req := some t } }
    let pend := s.b.sys.req.isSome = true ∨ s.b.sys.shutClr = true
    let shut := m = .safe ∧ latchedClass s.b [3, 4] = true
    let tables := s.b.sys.tblElem = true ∧ s.b.sys.tblXt = true
    let power := pwrGate s.b = true
    let w := m.working = true
    let toIdle := m ∈ [Mode.calibrate, .openHold, .safe] ∨ w
    let toCal := m ∈ [Mode.idle, .openHold]
    let toHold := m ∈ [Mode.idle, .calibrate] ∨ w
    let toTrack := m ∈ [Mode.idle, .openHold]
    let refused := fun (i : Instr) (k : Nat) => exec i s = .next { s with b := reject 0 0x40 k .m0 s.b }
    (s.b.heard = true → ¬ pend →
      (toIdle → ¬ shut → exec .modeReqIdle s = .next { s with b := asked .idle }) ∧
      (toCal → power → exec .modeReqCalibrate s = .next { s with b := asked .calibrate }) ∧
      (toHold → tables → power → exec .modeReqOpenHold s = .next { s with b := asked .openHold }) ∧
      (toTrack → tables → power → exec .modeReqTrack s = .next { s with b := asked .track }) ∧
      (m ∉ [.boot, .safe, .shutdown] → exec .modeReqSafe s = .next { s with b := asked .safe })) ∧
    (m = .idle → exec .modeReqIdle s = .next s) ∧ (m = .calibrate → exec .modeReqCalibrate s = .next s) ∧
    (m = .openHold → exec .modeReqOpenHold s = .next s) ∧ (w → exec .modeReqTrack s = .next s) ∧
    (m = .safe → exec .modeReqSafe s = .next s) ∧
    ((w ∧ c ∈ [6, 7, 8]) ∨ (m = .factoryTest ∧ c = 11) → exec (.modeReqOther code) s = .next s) ∧
    (s.b.heard = true →
      (12 ≤ c → refused (.modeReqOther code) 4) ∧
      (c ∈ [0, 1, 6, 7, 8, 10, 11] → ¬ (w ∧ c ∈ [6, 7, 8]) → ¬ (m = .factoryTest ∧ c = 11) → refused (.modeReqOther code) 2) ∧
      (m ≠ .idle → (¬ toIdle → refused .modeReqIdle 2) ∧ (toIdle → pend ∨ shut → refused .modeReqIdle 3)) ∧
      (m ≠ .calibrate → (¬ toCal ∨ ¬ power → refused .modeReqCalibrate 2) ∧ (toCal → power → pend → refused .modeReqCalibrate 3)) ∧
      (m ≠ .openHold → (¬ toHold ∨ ¬ power → refused .modeReqOpenHold 2) ∧
        (toHold → power → (pend → refused .modeReqOpenHold 3) ∧ (¬ pend → ¬ tables → refused .modeReqOpenHold 0x17))) ∧
      (¬ w → (¬ toTrack ∨ ¬ power → refused .modeReqTrack 2) ∧
        (toTrack → power → (pend → refused .modeReqTrack 3) ∧ (¬ pend → ¬ tables → refused .modeReqTrack 0x17))) ∧
      (m ∈ [.boot, .shutdown] → refused .modeReqSafe 2) ∧
      (m ∉ [.boot, .safe, .shutdown] → pend → refused .modeReqSafe 3)) ∧
    (∀ (b : Blk) (t : Mode), b.sys.req = some t → b.ev.late = [] → b.sys.mode.working = false → t ∈ [Mode.idle, .calibrate, .openHold] →
      (requestBoundary b).sys.mode = t ∧ (requestBoundary b).sys.req = none) ∧
    (m ≠ .reset → s.b.sys.frozenLow = false → exec .freezeNFall s = .next { s with
      b := raise 1127 (incF Reg.SYS.FREEZE.ASSERTS { s.b with sys := { s.b.sys with frozenLow := true } }) }) ∧
    (exec .freezeNRise s = .next { s with b := { s.b with sys := { s.b.sys with frozenLow := false } } })

/-- A controller reset leaves RESET with every register at its reset value but those that name the reset, every table at its
reset contents and every queue empty; the NVM and the flash stay. POR reads no earlier mode; under POR no other reset adds
anything (R461 to R463, R472, R474). Overlapping resets and what a reset loses are the model's readings (log entries 81 and
83). -/
def Obligations.ControllerResetsReturnEverything : Prop :=
  ∀ (s : State),
    let resets := fun (c : Instr) (cause from_ tmode : Nat) => ∃ t, exec c s = .next t ∧ t.pending = s.pending ∧
      t.b.sys.mode = .reset ∧ t.b.shadow = [] ∧ t.b.live = [] ∧ t.b.nvm.mem = s.b.nvm.mem ∧ t.b.flash = s.b.flash ∧
      t.b.nvm.queue = [] ∧ t.b.sched = Blk.reset.sched ∧ t.b.ev = Blk.reset.ev ∧ t.b.elems = [] ∧ t.b.banks = [] ∧
      t.b.acq = Blk.reset.acq ∧ t.b.trig = Blk.reset.trig ∧ t.b.eth = Blk.reset.eth ∧ t.b.glew = Blk.reset.glew ∧
      t.b.tick = 0 ∧ t.b.time = Blk.reset.time ∧
      getF t.b Reg.SYS.RST_CAUSE.CAUSE = cause ∧ getF t.b Reg.SYS.RST_CAUSE.FROM_MODE = from_ ∧
      getF t.b Reg.SYS.RST_CAUSE.TMODE = tmode ∧
      ∀ f : Fld, f.key ∉ [Reg.SYS.RST_CAUSE.CAUSE.key, Reg.SYS.RST_CAUSE.FROM_MODE.key, Reg.SYS.RST_CAUSE.TMODE.key,
        Reg.CLK.STAT.REFCLK_OK.key] → getF t.b f = getF Blk.reset f
    let was := s.b.sys.mode.code
    let tm := getF s.b Reg.SYS.RST_CAUSE.TMODE % 2
    resets .powerOnReset 1 0 0 ∧
    (s.b.sys.resetPor = false → resets .resetNAssert 2 was tm ∧ resets .refclkLoss 3 was tm ∧ resets .corePllLockLoss 3 was tm) ∧
    (s.b.sys.resetPor = true → exec .corePllLockLoss s = .next s ∧
      exec .resetNAssert s = .next { s with b := { s.b with sys := { s.b.sys with resetPin := true } } }) ∧
    (exec .powerOnResetRelease s = .next { s with b := { s.b with sys := { s.b.sys with resetPor := false } } }) ∧
    (exec .resetNRelease s = .next { s with b := { s.b with sys := { s.b.sys with resetPin := false } } }) ∧
    (exec .refclkPresent s = .next { s with
      b := setF Reg.CLK.STAT.REFCLK_OK 1 { s.b with sys := { s.b.sys with refOk := true } } }) ∧
    (s.b.heard = true → s.b.sys.mode ≠ .shutdown →
      exec .softReset s = .next { s with b := { s.b with sys := { s.b.sys with softReq := true } } }) ∧
    (s.b.sys.mode = .shutdown → exec .softReset s = .next { s with b := reject 0 0x4C 2 .m0 s.b }) ∧
    (∀ k : Serdes, s.b.sys.resetPor = false → s.b.sys.resetPin = false →
      exec (.serdesPllLock k) s = .next { s with b := setF (lockBit k) 1 s.b }) ∧
    (∀ k : Serdes, flag s.b (lockBit k) = true →
      exec (.serdesPllLockLoss k) s = .next { s with b := incF (lossCount k) (setF (lockBit k) 0 s.b) })

/-- RESET passes to BOOT with the core PLL's lock, or at the end of a soft reset, with its pins sampled and a BOOT_ID that is
not 0; the self-test leaves each engine passed or FAILED; BOOT loads the images in the order of BOOTSEL, records what failed,
and ends, not before the self-test's migrations, with a reset of M6 in IDLE, in FACTORY_TEST, or in SAFE where such a source is
latched (R366, R409, R436, R453, R466, R467, R470). The draw of BOOT_ID, the order of the self-test, and what a failed image
leaves are the model's (log entries 10, 82, 84 and 108 to 113). -/
def Obligations.BootLeadsToIdle : Prop :=
  ∀ (s : State) (x : StrapIn) (y : BootIn) (failed : List (Fin 68)),
    let locked := setFs [(Reg.CLK.STAT.REFCLK_OK, 1), (Reg.CLK.STAT.CORE_LOCK, 1), (Reg.CLK.LOCK_TIME.US, x.us.toNat)]
      { s.b with sys := { s.b.sys with refOk := true } }
    let done := fun b : Blk => leaveBoot (setF Reg.SYS.BOOT_TIME.US (b.q / 4000) (masterReset 6 y.m6 b))
    let sel := getF s.b Reg.SYS.BOOT_STAT.BOOTSEL
    let a := if sel = 3 then 0x800000 else 0
    let z := if sel = 3 then 0 else 0x800000
    let boots := s.b.sys.mode = .boot ∧ s.b.sys.tested = true ∧ s.b.red.migr = [] ∧ getF s.b Reg.SYS.BOOT_STAT.RESULT ≠ 1
    (s.b.sys.mode = .reset → s.b.sys.resetPor = false → s.b.sys.resetPin = false → s.b.sys.softRun = false →
      exec (.corePllLock x) s = .next { s with b := leaveReset x locked }) ∧
    (s.b.sys.mode = .reset → s.b.sys.softRun = true → exec (.softResetEnd x) s = .next { s with b := leaveReset x s.b }) ∧
    (∀ b : Blk, b.sys.mode = .reset → let c := leaveReset x b
      (c.sys.mode = .boot ∨ c.sys.mode = .shutdown) ∧ (getF c Reg.SEQ.STAT.CONFIG ≠ 2 → c.sys.mode = .boot) ∧
      getF c Reg.GLEW.ID.CASC_ID = x.cascId.toNat ∧ getF c Reg.SYS.BOOT_STAT.BOOTSEL = x.bootsel.toNat ∧
      flag c Reg.SYS.RST_CAUSE.TMODE = x.tmode ∧ getF c Reg.ETH.BOOT_ID.ID ≠ 0) ∧
    (s.b.sys.mode = .boot → s.b.sys.tested = false → (∀ e, e < 68 → failedEng s.b e = false) →
      s.b.mild (1128 :: failed.map fun e => 8 * e.val + 5) →
      ∃ t, exec (.bootSelftestDone failed) s = .next t ∧ t.b.sys.tested = true ∧
        ∀ e : Fin 68, failedEng t.b e.val = decide (e ∈ failed) ∧
          (e ∈ failed → getF t.b (Reg.ENG.HEALTH.CAUSE e.val) = 3 ∧ roleOf t.b e.val = 4) ∧
          (e ∉ failed → getF t.b (Reg.ENG.HEALTH.PASSES e.val) = satInc (2 ^ (Reg.ENG.HEALTH.PASSES e.val).wid - 1)
            (getF s.b (Reg.ENG.HEALTH.PASSES e.val)))) ∧
    (s.b.sys.mode ≠ .boot ∨ s.b.sys.tested = false ∨ s.b.red.migr ≠ [] → exec (.bootComplete y) s = .next s) ∧
    (boots → sel ∈ [1, 2] → exec (.bootComplete y) s = .next { s with b := done s.b }) ∧
    (boots → sel ∈ [0, 3] →
      (∀ c, y.first = true → loadImage a s.b = .ok c →
        exec (.bootComplete y) s = .next { s with b := done (setF Reg.SYS.BOOT_STAT.RESULT 1 c) }) ∧
      (∀ e c, (if y.first then loadImage a s.b else .error (7, 0)) = .error e → y.second = true →
        loadImage z (imageResult 1 s.b (.error e)) = .ok c →
        exec (.bootComplete y) s = .next { s with b := done (setF Reg.SYS.BOOT_STAT.RESULT 2 c) }) ∧
      (y.first = false → y.second = false → exec (.bootComplete y) s = .next { s with
        b := done (setFs [(Reg.SYS.BOOT_STAT.CAUSE, 7), (Reg.SYS.BOOT_STAT.SECTION, 0), (Reg.SYS.BOOT_STAT.RESULT, 3)]
          (setFs [(Reg.SYS.BOOT_STAT.CAUSE, 7), (Reg.SYS.BOOT_STAT.SECTION, 0), (Reg.SYS.BOOT_STAT.RESULT, 3)] s.b)) })) ∧
    (∀ (b : Blk) (base : Nat), headerBad b base = true → loadImage base b = .error (1, 0)) ∧
    (∀ (b : Blk) (base : Nat), headerBad b base = false → crc32 (flashBytes b base 28) ≠ flashWord b (base + 28) →
      loadImage base b = .error (2, 0)) ∧
    (∀ b : Blk, b.sys.mode = .boot →
      (latchedClass b [3, 4] = false → (leaveBoot b).sys.mode = if b.sys.tmode then .factoryTest else .idle) ∧
      (latchedClass b [3, 4] = true → (leaveBoot b).sys.mode = .safe ∨ (leaveBoot b).sys.mode = .shutdown))

/-! ### Every step -/

/-- Every command answers a next state, and leaves the commands that wait as they are; with none waiting one CLK_TICK edge passes
while the clock runs and the tick is not over. That a step without a command is an edge is the model's choice (log entry 1). -/
def Obligations.EveryCommandAnswersAndTheQueueStays : Prop :=
  (∀ (c : Instr) (s : State), ∃ t, exec c s = .next t ∧ t.pending = s.pending) ∧
  (∀ s : State, s.pending = [] → s.b.edge < 249 → s.b.sys.mode ≠ .reset →
    step s = .next { s with b := toEdge (s.b.edge + 1) s.b }) ∧
  (∀ s : State, s.pending = [] → s.b.sys.mode = .reset → step s = .next s)

/-- A step from a state whose table memories are canonical leaves them canonical (R472). -/
def Obligations.StepKeepsTablesCanonical : Prop :=
  ∀ (s t : State), s.b.sound = true → step s = .next t → t.b.sound = true

/-- After reset: RESET, no command waiting, every register at its reset value but CAUSE, which reads POR, no source latched,
every element PARKED, and the tables canonical with their reset contents (R453, R461, R463, R472). Where the spec gives no
value, the value is the model's choice (log entries 5 to 7). -/
def Obligations.ResetLeavesEverythingAtItsValue : Prop :=
  State.reset.pending = [] ∧ State.reset.b.sys.mode = .reset ∧ State.reset.b.sound = true ∧
  getF State.reset.b Reg.SYS.RST_CAUSE.CAUSE = 1 ∧
  (∀ f : Fld, f.key ≠ Reg.SYS.RST_CAUSE.CAUSE.key → getF State.reset.b f = f.rst) ∧
  (∀ x, (evGet State.reset.b x).latch = false ∧ (evGet State.reset.b x).mask = true ∧
    (evGet State.reset.b x).cls = defaultClass x) ∧
  (∀ e, (State.reset.b.elem e).lp.st = .parked) ∧
  (∀ a, rdB State.reset.b.shadow a = tblDflt a ∧ rdB State.reset.b.live a = tblDflt a)

/-- No command but a write, the end of BOOT and what can begin a controller reset changes a shadow copy: live copies change by
commits, engines and the stream alone; a tick with no soft reset pending keeps it too (R26, R408, R461, R470). -/
def Obligations.ShadowsChangeByWritesOnly : Prop :=
  (∀ (c : Instr) (s t : State), changesShadow c = false → exec c s = .next t → t.b.shadow = s.b.shadow) ∧
  (∀ (x : TickIn) (s t : State), s.b.sys.softReq = false → exec (.loopTick x) s = .next t → t.b.shadow = s.b.shadow)
end

