-- ==== Sys2Proof/Laws/Memory.lean ====
section
/-!
SUPPORT. Sparse tables: reading after writing, and every operation on a table keeps the canonical form.
-/
set_option autoImplicit false

namespace Sys2Proof.Machine

variable {β : Type}

/-! ### Reading after writing -/

@[simp] theorem Tbl.find_nil (k : Nat) : Tbl.find ([] : Tbl β) k = none := rfl

theorem Tbl.find_cons (j : Nat) (v : β) (t : Tbl β) (k : Nat) :
    Tbl.find ((j, v) :: t) k = if k = j then some v else t.find k := rfl

theorem Tbl.find_put (t : Tbl β) (k k' : Nat) (v : β) :
    (t.put k v).find k' = if k' = k then some v else t.find k' := by
  induction t with
  | nil => rfl
  | cons e t ih =>
    obtain ⟨j, w⟩ := e
    simp only [Tbl.put]
    split
    · rfl
    · split
      · next h => subst h; simp only [Tbl.find_cons]; split <;> rfl
      · next h =>
        simp only [Tbl.find_cons, ih]
        split
        · next h' => subst h'; rw [if_neg (Ne.symm h)]
        · rfl

theorem Tbl.rising_tail (o : Option Nat) (j : Nat) (w : β) (t : Tbl β) (h : Tbl.risingFrom o ((j, w) :: t) = true) :
    t.risingFrom (some j) = true := by
  cases o with
  | none => exact h
  | some k => exact (Bool.and_eq_true _ _ ▸ h).2

theorem Tbl.find_del (t : Tbl β) (k k' : Nat) : (t.del k).find k' = if k' = k then none else t.find k' := by
  induction t with
  | nil => simp [Tbl.del]
  | cons e t ih =>
    obtain ⟨j, w⟩ := e
    simp only [Tbl.del]
    split
    · next hk =>
      subst hk
      rw [ih, Tbl.find_cons]
      split <;> rfl
    · next hk =>
      rw [Tbl.find_cons, Tbl.find_cons, ih]
      split
      · next h' => subst h'; rw [if_neg (Ne.symm hk)]
      · rfl

/-- A read after a write: the written key reads the value written, and with its own default every other key reads as
before. -/
theorem Tbl.get_set [DecidableEq β] (t : Tbl β) (d d' : β) (k k' : Nat) (v : β) :
    (t.set d k v).get d' k' = if k' = k then (if v = d then d' else v) else t.get d' k' := by
  unfold Tbl.set Tbl.get
  split
  · rw [Tbl.find_del]
    split <;> rfl
  · rw [Tbl.find_put]
    split <;> rfl

@[simp] theorem Tbl.get_set_same [DecidableEq β] (t : Tbl β) (d : β) (k : Nat) (v : β) : (t.set d k v).get d k = v := by
  rw [Tbl.get_set, if_pos rfl]
  split <;> simp_all

/-- The same where every key has the default `d`. -/
theorem Tbl.get_set_dflt [DecidableEq β] (t : Tbl β) (d : β) (k k' : Nat) (v : β) :
    (t.set d k v).get d k' = if k' = k then v else t.get d k' := by
  rw [Tbl.get_set]
  split
  · split <;> simp_all
  · rfl

/-- The same where key `k` has the default `d k`. -/
theorem Tbl.get_set_fun [DecidableEq β] (t : Tbl β) (d : Nat → β) (k k' : Nat) (v : β) :
    (t.set (d k) k v).get (d k') k' = if k' = k then v else t.get (d k') k' := by
  rw [Tbl.get_set]
  split
  · next h => subst h; split <;> simp_all
  · rfl

theorem Tbl.get_set_ne [DecidableEq β] (t : Tbl β) (d d' : β) (k k' : Nat) (v : β) (h : k' ≠ k) :
    (t.set d k v).get d' k' = t.get d' k' := by
  rw [Tbl.get_set, if_neg h]

/-! ### The canonical form -/

theorem Tbl.put_rising (t : Tbl β) (o : Option Nat) (k : Nat) (v : β) (h : t.risingFrom o = true)
    (ho : ∀ j ∈ o, j < k) : (t.put k v).risingFrom o = true := by
  induction t generalizing o with
  | nil =>
    cases o with
    | none => rfl
    | some j => simpa [Tbl.put, Tbl.risingFrom] using ho j rfl
  | cons e t ih =>
    obtain ⟨j, w⟩ := e
    have ht := Tbl.rising_tail o j w t h
    simp only [Tbl.put]
    split
    · next hk => cases o <;> simp_all [Tbl.risingFrom]
    · split
      · next hk => subst hk; cases o <;> simp_all [Tbl.risingFrom]
      · next h1 h2 =>
        have := ih (some j) ht (by simp; omega)
        cases o <;> simp_all [Tbl.risingFrom]

theorem Tbl.rising_weaken (t : Tbl β) (j k : Nat) (h : t.risingFrom (some k) = true) (hjk : j ≤ k) :
    t.risingFrom (some j) = true := by
  cases t with
  | nil => rfl
  | cons e t =>
    simp only [Tbl.risingFrom, Bool.and_eq_true, decide_eq_true_eq] at h ⊢
    exact ⟨by omega, h.2⟩

theorem Tbl.rising_none (t : Tbl β) (k : Nat) (h : t.risingFrom (some k) = true) : t.risingFrom none = true := by
  cases t with
  | nil => rfl
  | cons e t => exact (Bool.and_eq_true _ _ ▸ h).2

theorem Tbl.del_rising (t : Tbl β) (o : Option Nat) (k : Nat) (h : t.risingFrom o = true) :
    (t.del k).risingFrom o = true := by
  induction t generalizing o with
  | nil => exact h
  | cons e t ih =>
    obtain ⟨j, w⟩ := e
    have ht := ih (some j) (Tbl.rising_tail o j w t h)
    simp only [Tbl.del]
    split
    · cases o with
      | none => exact Tbl.rising_none _ j ht
      | some i =>
        simp only [Tbl.risingFrom, Bool.and_eq_true, decide_eq_true_eq] at h
        exact Tbl.rising_weaken _ i j ht (by omega)
    · cases o <;> simp_all [Tbl.risingFrom]

theorem Tbl.put_all (t : Tbl β) (k : Nat) (v : β) (p : Nat × β → Bool) (h : t.all p = true) (hv : p (k, v) = true) :
    (t.put k v).all p = true := by
  induction t with
  | nil => simpa [Tbl.put] using hv
  | cons e t ih =>
    obtain ⟨j, w⟩ := e
    simp only [List.all_cons, Bool.and_eq_true] at h
    simp only [Tbl.put]
    split
    · simp [hv, h]
    · split <;> simp [hv, h, ih h.2]

theorem Tbl.del_all (t : Tbl β) (k : Nat) (p : Nat × β → Bool) (h : t.all p = true) : (t.del k).all p = true := by
  induction t with
  | nil => rfl
  | cons e t ih =>
    obtain ⟨j, w⟩ := e
    simp only [List.all_cons, Bool.and_eq_true] at h
    simp only [Tbl.del]
    split
    · exact ih h.2
    · simp [h, ih h.2]

/-- Writing keeps the canonical form. -/
theorem Tbl.set_wf [DecidableEq β] (t : Tbl β) (d : Nat → β) (k : Nat) (v : β) (h : t.wf d = true) :
    (t.set (d k) k v).wf d = true := by
  unfold Tbl.wf Tbl.rising at h ⊢
  rw [Bool.and_eq_true] at h ⊢
  unfold Tbl.set
  split
  · exact ⟨Tbl.del_rising t none k h.1, Tbl.del_all t k _ h.2⟩
  · next hv =>
    exact ⟨Tbl.put_rising t none k v h.1 (by simp), Tbl.put_all t k v _ h.2 (by simpa using hv)⟩

/-! ### The table memories -/

/-- A byte of a table copy after a byte was written. -/
theorem rdB_wrB (m : Tbl Byte) (a a' : Nat) (v : Byte) : rdB (wrB m a v) a' = if a' = a then v else rdB m a' := by
  unfold rdB wrB
  split
  · next h => subst h; exact Tbl.get_set_same m _ _ v
  · next h => exact Tbl.get_set_ne m _ _ a a' v h

@[simp] theorem wrB_wf (m : Tbl Byte) (a : Nat) (v : Byte) (h : Memory.wf m = true) : Memory.wf (wrB m a v) = true :=
  Tbl.set_wf m tblDflt a v h

@[simp] theorem wrH_wf (m : Tbl Byte) (a v : Nat) (h : Memory.wf m = true) : Memory.wf (wrH m a v) = true := by
  simp [wrH, h]

@[simp] theorem wrW_wf (m : Tbl Byte) (a v : Nat) (h : Memory.wf m = true) : Memory.wf (wrW m a v) = true := by
  simp [wrW, h]

@[simp] theorem wrBytes_wf (m : Tbl Byte) (a : Nat) (l : List Byte) (h : Memory.wf m = true) :
    Memory.wf (wrBytes m a l) = true := by
  induction l generalizing m a with
  | nil => exact h
  | cons x t ih => exact ih _ _ (wrB_wf m a x h)

/-- Bytes outside a written run read as before. -/
theorem rdB_wrBytes_ne (m : Tbl Byte) (a a' : Nat) (l : List Byte)
    (ho : a' < a ∨ a + l.length ≤ a') : rdB (wrBytes m a l) a' = rdB m a' := by
  induction l generalizing m a with
  | nil => rfl
  | cons x t ih =>
    simp only [List.length_cons] at ho
    rw [wrBytes, ih _ _ (by omega), rdB_wrB m a a' x, if_neg (by omega)]

/-- Byte `i` of a written run reads as written. -/
theorem rdB_wrBytes (m : Tbl Byte) (a i : Nat) (l : List Byte) (hi : i < l.length) :
    rdB (wrBytes m a l) (a + i) = l[i] := by
  induction l generalizing m a i with
  | nil => simp at hi
  | cons x t ih =>
    rw [wrBytes]
    cases i with
    | zero =>
      have h1 := rdB_wrBytes_ne (wrB m a x) (a + 1) a t (by omega)
      rw [rdB_wrB m a a x, if_pos rfl] at h1
      exact h1
    | succ i =>
      have := ih (wrB m a x) (a + 1) i (by simpa using hi)
      rw [show a + (i + 1) = a + 1 + i by omega, this]
      rfl

@[simp] theorem wrPairs_wf (m : Tbl Byte) (ps : List (Nat × Byte)) (h : Memory.wf m = true) :
    Memory.wf (wrPairs m ps) = true := by
  induction ps generalizing m with
  | nil => exact h
  | cons p t ih => exact ih _ (wrB_wf m p.1 p.2 h)

/-- Bytes that no pair names read as before. -/
theorem rdB_wrPairs_ne (m : Tbl Byte) (ps : List (Nat × Byte)) (a : Nat) (h : ∀ p ∈ ps, p.1 ≠ a) :
    rdB (wrPairs m ps) a = rdB m a := by
  induction ps generalizing m with
  | nil => rfl
  | cons p t ih =>
    have h1 := ih (wrB m p.1 p.2) fun q hq => h q (List.mem_cons_of_mem _ hq)
    rw [rdB_wrB, if_neg (Ne.symm (h p (List.mem_cons_self ..)))] at h1
    exact h1

/-- Where no address is named twice, a byte that a pair names reads as that pair's byte. -/
theorem rdB_wrPairs (m : Tbl Byte) (ps : List (Nat × Byte)) (p : Nat × Byte) (hp : p ∈ ps)
    (hd : ps.Pairwise fun x y => x.1 ≠ y.1) : rdB (wrPairs m ps) p.1 = p.2 := by
  induction ps generalizing m with
  | nil => simp at hp
  | cons q t ih =>
    obtain ⟨hq, ht⟩ := List.pairwise_cons.1 hd
    rcases List.mem_cons.1 hp with rfl | hp
    · have h := rdB_wrPairs_ne (wrB m p.1 p.2) t p.1 fun r hr => Ne.symm (hq r hr)
      rw [rdB_wrB, if_pos rfl] at h
      exact h
    · exact ih _ hp ht

/-- The addresses of a burst's strobed bytes lie in the burst and rise. -/
theorem strobed_bounds (a : Nat) (l : List (Option Byte)) :
    (∀ p ∈ strobed a l, a ≤ p.1 ∧ p.1 < a + l.length) ∧ (strobed a l).Pairwise fun x y => x.1 < y.1 := by
  induction l generalizing a with
  | nil => simp [strobed]
  | cons v t ih =>
    obtain ⟨h1, h2⟩ := ih (a + 1)
    have h3 : ∀ p ∈ strobed (a + 1) t, a < p.1 ∧ p.1 < a + (t.length + 1) := fun p hp => by
      have := h1 p hp
      omega
    cases v with
    | none => exact ⟨fun p hp => ⟨Nat.le_of_lt (h3 p hp).1, (h3 p hp).2⟩, h2⟩
    | some v =>
      refine ⟨fun p hp => ?_, List.pairwise_cons.2 ⟨fun p hp => (h3 p hp).1, h2⟩⟩
      rcases List.mem_cons.1 hp with rfl | hp
      · simp
      · exact ⟨Nat.le_of_lt (h3 p hp).1, (h3 p hp).2⟩

/-- A table rises exactly if its keys do. -/
theorem Tbl.rising_iff (o : Option Nat) (t : Tbl β) :
    t.risingFrom o = true ↔ (∀ j ∈ o, ∀ e ∈ t, j < e.1) ∧ t.Pairwise fun x y => x.1 < y.1 := by
  induction t generalizing o with
  | nil => simp [Tbl.risingFrom]
  | cons e t ih =>
    obtain ⟨j, w⟩ := e
    have hj : Tbl.risingFrom (some j) t = true ↔ (∀ e ∈ t, j < e.1) ∧ t.Pairwise fun x y => x.1 < y.1 := by
      rw [ih]; simp
    cases o with
    | none => rw [Tbl.risingFrom, hj]; simp
    | some k =>
      simp only [Tbl.risingFrom, Bool.and_eq_true, decide_eq_true_eq, hj, Option.mem_some_iff, forall_eq',
        List.mem_cons, forall_eq_or_imp, List.pairwise_cons]
      constructor
      · rintro ⟨h1, h2, h3⟩
        exact ⟨⟨h1, fun e he => Nat.lt_trans h1 (h2 e he)⟩, h2, h3⟩
      · rintro ⟨⟨h1, _⟩, h2, h3⟩
        exact ⟨h1, h2, h3⟩

/-- A commit's copy of a region keeps the canonical form. -/
@[simp] theorem copyRange_wf (s l : Tbl Byte) (lo hi : Nat) (hs : Memory.wf s = true) (hl : Memory.wf l = true) (hlh : lo ≤ hi) :
    Memory.wf (copyRange s l lo hi) = true := by
  unfold Memory.wf Tbl.wf Tbl.rising at *
  rw [Bool.and_eq_true] at *
  obtain ⟨hs1, hs2⟩ := hs
  obtain ⟨hl1, hl2⟩ := hl
  have hs3 := ((Tbl.rising_iff none s).1 hs1).2
  have hl3 := ((Tbl.rising_iff none l).1 hl1).2
  refine ⟨(Tbl.rising_iff _ _).2 ⟨by simp, ?_⟩, ?_⟩
  · unfold copyRange Tbl.inside
    rw [List.pairwise_append, List.pairwise_append]
    refine ⟨⟨hl3.filter _, hs3.filter _, ?_⟩, hl3.filter _, ?_⟩
    · intro x hx y hy
      simp only [List.mem_filter, decide_eq_true_eq] at hx hy
      omega
    · intro x hx y hy
      simp only [List.mem_append, List.mem_filter, decide_eq_true_eq] at hx hy
      omega
  · unfold copyRange Tbl.inside
    rw [List.all_eq_true] at *
    intro x hx
    simp only [List.mem_append, List.mem_filter] at hx
    rcases hx with (h | h) | h
    · exact hl2 x h.1
    · exact hs2 x h.1
    · exact hl2 x h.1

end Sys2Proof.Machine
end

