-- ==== Sys2Proof/Laws/State.lean ====
section
/-!
SUPPORT. What the named updates of the state change and leave: one lemma per field and update, and reading a register
field, an element, a bank or an event record after one was written.
-/
set_option autoImplicit false

namespace Sys2Proof.Machine

/-! ### setF -/

@[simp] theorem setF_tick (f : Fld) (v : Nat) (b : Blk) : (setF f v b).tick = b.tick := (rfl)
@[simp] theorem setF_edge (f : Fld) (v : Nat) (b : Blk) : (setF f v b).edge = b.edge := rfl
@[simp] theorem setF_time (f : Fld) (v : Nat) (b : Blk) : (setF f v b).time = b.time := rfl
@[simp] theorem setF_ptp (f : Fld) (v : Nat) (b : Blk) : (setF f v b).ptp = b.ptp := rfl
@[simp] theorem setF_sys (f : Fld) (v : Nat) (b : Blk) : (setF f v b).sys = b.sys := rfl
@[simp] theorem setF_ev (f : Fld) (v : Nat) (b : Blk) : (setF f v b).ev = b.ev := rfl
@[simp] theorem setF_pend (f : Fld) (v : Nat) (b : Blk) : (setF f v b).pend = b.pend := rfl
@[simp] theorem setF_clsLive (f : Fld) (v : Nat) (b : Blk) : (setF f v b).clsLive = b.clsLive := rfl
@[simp] theorem setF_rtdLive (f : Fld) (v : Nat) (b : Blk) : (setF f v b).rtdLive = b.rtdLive := rfl
@[simp] theorem setF_elems (f : Fld) (v : Nat) (b : Blk) : (setF f v b).elems = b.elems := rfl
@[simp] theorem setF_banks (f : Fld) (v : Nat) (b : Blk) : (setF f v b).banks = b.banks := rfl
@[simp] theorem setF_biasLive (f : Fld) (v : Nat) (b : Blk) : (setF f v b).biasLive = b.biasLive := rfl
@[simp] theorem setF_biasSeen (f : Fld) (v : Nat) (b : Blk) : (setF f v b).biasSeen = b.biasSeen := rfl
@[simp] theorem setF_strobe (f : Fld) (v : Nat) (b : Blk) : (setF f v b).strobe = b.strobe := rfl
@[simp] theorem setF_cmd (f : Fld) (v : Nat) (b : Blk) : (setF f v b).cmd = b.cmd := rfl
@[simp] theorem setF_sched (f : Fld) (v : Nat) (b : Blk) : (setF f v b).sched = b.sched := rfl
@[simp] theorem setF_epsLock (f : Fld) (v : Nat) (b : Blk) : (setF f v b).epsLock = b.epsLock := rfl
@[simp] theorem setF_epsPend (f : Fld) (v : Nat) (b : Blk) : (setF f v b).epsPend = b.epsPend := rfl
@[simp] theorem setF_red (f : Fld) (v : Nat) (b : Blk) : (setF f v b).red = b.red := rfl
@[simp] theorem setF_nvm (f : Fld) (v : Nat) (b : Blk) : (setF f v b).nvm = b.nvm := rfl
@[simp] theorem setF_dpS (f : Fld) (v : Nat) (b : Blk) : (setF f v b).dpS = b.dpS := rfl
@[simp] theorem setF_dpP (f : Fld) (v : Nat) (b : Blk) : (setF f v b).dpP = b.dpP := rfl
@[simp] theorem setF_planFw (f : Fld) (v : Nat) (b : Blk) : (setF f v b).planFw = b.planFw := rfl
@[simp] theorem setF_pmem (f : Fld) (v : Nat) (b : Blk) : (setF f v b).pmem = b.pmem := rfl
@[simp] theorem setF_hk (f : Fld) (v : Nat) (b : Blk) : (setF f v b).hk = b.hk := rfl
@[simp] theorem setF_xb (f : Fld) (v : Nat) (b : Blk) : (setF f v b).xb = b.xb := rfl
@[simp] theorem setF_acq (f : Fld) (v : Nat) (b : Blk) : (setF f v b).acq = b.acq := rfl
@[simp] theorem setF_trig (f : Fld) (v : Nat) (b : Blk) : (setF f v b).trig = b.trig := rfl
@[simp] theorem setF_glew (f : Fld) (v : Nat) (b : Blk) : (setF f v b).glew = b.glew := rfl
@[simp] theorem setF_host (f : Fld) (v : Nat) (b : Blk) : (setF f v b).host = b.host := rfl
@[simp] theorem setF_eth (f : Fld) (v : Nat) (b : Blk) : (setF f v b).eth = b.eth := rfl
@[simp] theorem setF_flash (f : Fld) (v : Nat) (b : Blk) : (setF f v b).flash = b.flash := rfl
@[simp] theorem setF_permDone (f : Fld) (v : Nat) (b : Blk) : (setF f v b).permDone = b.permDone := rfl
@[simp] theorem setF_xtCrc (f : Fld) (v : Nat) (b : Blk) : (setF f v b).xtCrc = b.xtCrc := rfl
@[simp] theorem setF_free (f : Fld) (v : Nat) (b : Blk) : (setF f v b).free = b.free := rfl
@[simp] theorem setF_sent (f : Fld) (v : Nat) (b : Blk) : (setF f v b).sent = b.sent := rfl

/-! ### setFlag -/

@[simp] theorem setFlag_tick (f : Fld) (v : Bool) (b : Blk) : (setFlag f v b).tick = b.tick := (rfl)
@[simp] theorem setFlag_edge (f : Fld) (v : Bool) (b : Blk) : (setFlag f v b).edge = b.edge := rfl
@[simp] theorem setFlag_time (f : Fld) (v : Bool) (b : Blk) : (setFlag f v b).time = b.time := rfl
@[simp] theorem setFlag_ptp (f : Fld) (v : Bool) (b : Blk) : (setFlag f v b).ptp = b.ptp := rfl
@[simp] theorem setFlag_sys (f : Fld) (v : Bool) (b : Blk) : (setFlag f v b).sys = b.sys := rfl
@[simp] theorem setFlag_ev (f : Fld) (v : Bool) (b : Blk) : (setFlag f v b).ev = b.ev := rfl
@[simp] theorem setFlag_pend (f : Fld) (v : Bool) (b : Blk) : (setFlag f v b).pend = b.pend := rfl
@[simp] theorem setFlag_clsLive (f : Fld) (v : Bool) (b : Blk) : (setFlag f v b).clsLive = b.clsLive := rfl
@[simp] theorem setFlag_rtdLive (f : Fld) (v : Bool) (b : Blk) : (setFlag f v b).rtdLive = b.rtdLive := rfl
@[simp] theorem setFlag_elems (f : Fld) (v : Bool) (b : Blk) : (setFlag f v b).elems = b.elems := rfl
@[simp] theorem setFlag_banks (f : Fld) (v : Bool) (b : Blk) : (setFlag f v b).banks = b.banks := rfl
@[simp] theorem setFlag_biasLive (f : Fld) (v : Bool) (b : Blk) : (setFlag f v b).biasLive = b.biasLive := rfl
@[simp] theorem setFlag_biasSeen (f : Fld) (v : Bool) (b : Blk) : (setFlag f v b).biasSeen = b.biasSeen := rfl
@[simp] theorem setFlag_strobe (f : Fld) (v : Bool) (b : Blk) : (setFlag f v b).strobe = b.strobe := rfl
@[simp] theorem setFlag_cmd (f : Fld) (v : Bool) (b : Blk) : (setFlag f v b).cmd = b.cmd := rfl
@[simp] theorem setFlag_sched (f : Fld) (v : Bool) (b : Blk) : (setFlag f v b).sched = b.sched := rfl
@[simp] theorem setFlag_epsLock (f : Fld) (v : Bool) (b : Blk) : (setFlag f v b).epsLock = b.epsLock := rfl
@[simp] theorem setFlag_epsPend (f : Fld) (v : Bool) (b : Blk) : (setFlag f v b).epsPend = b.epsPend := rfl
@[simp] theorem setFlag_red (f : Fld) (v : Bool) (b : Blk) : (setFlag f v b).red = b.red := rfl
@[simp] theorem setFlag_nvm (f : Fld) (v : Bool) (b : Blk) : (setFlag f v b).nvm = b.nvm := rfl
@[simp] theorem setFlag_dpS (f : Fld) (v : Bool) (b : Blk) : (setFlag f v b).dpS = b.dpS := rfl
@[simp] theorem setFlag_dpP (f : Fld) (v : Bool) (b : Blk) : (setFlag f v b).dpP = b.dpP := rfl
@[simp] theorem setFlag_planFw (f : Fld) (v : Bool) (b : Blk) : (setFlag f v b).planFw = b.planFw := rfl
@[simp] theorem setFlag_pmem (f : Fld) (v : Bool) (b : Blk) : (setFlag f v b).pmem = b.pmem := rfl
@[simp] theorem setFlag_hk (f : Fld) (v : Bool) (b : Blk) : (setFlag f v b).hk = b.hk := rfl
@[simp] theorem setFlag_xb (f : Fld) (v : Bool) (b : Blk) : (setFlag f v b).xb = b.xb := rfl
@[simp] theorem setFlag_acq (f : Fld) (v : Bool) (b : Blk) : (setFlag f v b).acq = b.acq := rfl
@[simp] theorem setFlag_trig (f : Fld) (v : Bool) (b : Blk) : (setFlag f v b).trig = b.trig := rfl
@[simp] theorem setFlag_glew (f : Fld) (v : Bool) (b : Blk) : (setFlag f v b).glew = b.glew := rfl
@[simp] theorem setFlag_host (f : Fld) (v : Bool) (b : Blk) : (setFlag f v b).host = b.host := rfl
@[simp] theorem setFlag_eth (f : Fld) (v : Bool) (b : Blk) : (setFlag f v b).eth = b.eth := rfl
@[simp] theorem setFlag_flash (f : Fld) (v : Bool) (b : Blk) : (setFlag f v b).flash = b.flash := rfl
@[simp] theorem setFlag_permDone (f : Fld) (v : Bool) (b : Blk) : (setFlag f v b).permDone = b.permDone := rfl
@[simp] theorem setFlag_xtCrc (f : Fld) (v : Bool) (b : Blk) : (setFlag f v b).xtCrc = b.xtCrc := rfl
@[simp] theorem setFlag_free (f : Fld) (v : Bool) (b : Blk) : (setFlag f v b).free = b.free := rfl
@[simp] theorem setFlag_sent (f : Fld) (v : Bool) (b : Blk) : (setFlag f v b).sent = b.sent := rfl

/-! ### incF -/

@[simp] theorem incF_tick (f : Fld) (b : Blk) : (incF f b).tick = b.tick := (rfl)
@[simp] theorem incF_edge (f : Fld) (b : Blk) : (incF f b).edge = b.edge := rfl
@[simp] theorem incF_time (f : Fld) (b : Blk) : (incF f b).time = b.time := rfl
@[simp] theorem incF_ptp (f : Fld) (b : Blk) : (incF f b).ptp = b.ptp := rfl
@[simp] theorem incF_sys (f : Fld) (b : Blk) : (incF f b).sys = b.sys := rfl
@[simp] theorem incF_ev (f : Fld) (b : Blk) : (incF f b).ev = b.ev := rfl
@[simp] theorem incF_pend (f : Fld) (b : Blk) : (incF f b).pend = b.pend := rfl
@[simp] theorem incF_clsLive (f : Fld) (b : Blk) : (incF f b).clsLive = b.clsLive := rfl
@[simp] theorem incF_rtdLive (f : Fld) (b : Blk) : (incF f b).rtdLive = b.rtdLive := rfl
@[simp] theorem incF_elems (f : Fld) (b : Blk) : (incF f b).elems = b.elems := rfl
@[simp] theorem incF_banks (f : Fld) (b : Blk) : (incF f b).banks = b.banks := rfl
@[simp] theorem incF_biasLive (f : Fld) (b : Blk) : (incF f b).biasLive = b.biasLive := rfl
@[simp] theorem incF_biasSeen (f : Fld) (b : Blk) : (incF f b).biasSeen = b.biasSeen := rfl
@[simp] theorem incF_strobe (f : Fld) (b : Blk) : (incF f b).strobe = b.strobe := rfl
@[simp] theorem incF_cmd (f : Fld) (b : Blk) : (incF f b).cmd = b.cmd := rfl
@[simp] theorem incF_sched (f : Fld) (b : Blk) : (incF f b).sched = b.sched := rfl
@[simp] theorem incF_epsLock (f : Fld) (b : Blk) : (incF f b).epsLock = b.epsLock := rfl
@[simp] theorem incF_epsPend (f : Fld) (b : Blk) : (incF f b).epsPend = b.epsPend := rfl
@[simp] theorem incF_red (f : Fld) (b : Blk) : (incF f b).red = b.red := rfl
@[simp] theorem incF_nvm (f : Fld) (b : Blk) : (incF f b).nvm = b.nvm := rfl
@[simp] theorem incF_dpS (f : Fld) (b : Blk) : (incF f b).dpS = b.dpS := rfl
@[simp] theorem incF_dpP (f : Fld) (b : Blk) : (incF f b).dpP = b.dpP := rfl
@[simp] theorem incF_planFw (f : Fld) (b : Blk) : (incF f b).planFw = b.planFw := rfl
@[simp] theorem incF_pmem (f : Fld) (b : Blk) : (incF f b).pmem = b.pmem := rfl
@[simp] theorem incF_hk (f : Fld) (b : Blk) : (incF f b).hk = b.hk := rfl
@[simp] theorem incF_xb (f : Fld) (b : Blk) : (incF f b).xb = b.xb := rfl
@[simp] theorem incF_acq (f : Fld) (b : Blk) : (incF f b).acq = b.acq := rfl
@[simp] theorem incF_trig (f : Fld) (b : Blk) : (incF f b).trig = b.trig := rfl
@[simp] theorem incF_glew (f : Fld) (b : Blk) : (incF f b).glew = b.glew := rfl
@[simp] theorem incF_host (f : Fld) (b : Blk) : (incF f b).host = b.host := rfl
@[simp] theorem incF_eth (f : Fld) (b : Blk) : (incF f b).eth = b.eth := rfl
@[simp] theorem incF_flash (f : Fld) (b : Blk) : (incF f b).flash = b.flash := rfl
@[simp] theorem incF_permDone (f : Fld) (b : Blk) : (incF f b).permDone = b.permDone := rfl
@[simp] theorem incF_xtCrc (f : Fld) (b : Blk) : (incF f b).xtCrc = b.xtCrc := rfl
@[simp] theorem incF_free (f : Fld) (b : Blk) : (incF f b).free = b.free := rfl
@[simp] theorem incF_sent (f : Fld) (b : Blk) : (incF f b).sent = b.sent := rfl

/-! ### setElem -/

@[simp] theorem setElem_tick (e : Nat) (x : Elem) (b : Blk) : (setElem e x b).tick = b.tick := (rfl)
@[simp] theorem setElem_edge (e : Nat) (x : Elem) (b : Blk) : (setElem e x b).edge = b.edge := rfl
@[simp] theorem setElem_time (e : Nat) (x : Elem) (b : Blk) : (setElem e x b).time = b.time := rfl
@[simp] theorem setElem_ptp (e : Nat) (x : Elem) (b : Blk) : (setElem e x b).ptp = b.ptp := rfl
@[simp] theorem setElem_sys (e : Nat) (x : Elem) (b : Blk) : (setElem e x b).sys = b.sys := rfl
@[simp] theorem setElem_regs (e : Nat) (x : Elem) (b : Blk) : (setElem e x b).regs = b.regs := rfl
@[simp] theorem setElem_ev (e : Nat) (x : Elem) (b : Blk) : (setElem e x b).ev = b.ev := rfl
@[simp] theorem setElem_pend (e : Nat) (x : Elem) (b : Blk) : (setElem e x b).pend = b.pend := rfl
@[simp] theorem setElem_clsLive (e : Nat) (x : Elem) (b : Blk) : (setElem e x b).clsLive = b.clsLive := rfl
@[simp] theorem setElem_rtdLive (e : Nat) (x : Elem) (b : Blk) : (setElem e x b).rtdLive = b.rtdLive := rfl
@[simp] theorem setElem_banks (e : Nat) (x : Elem) (b : Blk) : (setElem e x b).banks = b.banks := rfl
@[simp] theorem setElem_biasLive (e : Nat) (x : Elem) (b : Blk) : (setElem e x b).biasLive = b.biasLive := rfl
@[simp] theorem setElem_biasSeen (e : Nat) (x : Elem) (b : Blk) : (setElem e x b).biasSeen = b.biasSeen := rfl
@[simp] theorem setElem_strobe (e : Nat) (x : Elem) (b : Blk) : (setElem e x b).strobe = b.strobe := rfl
@[simp] theorem setElem_cmd (e : Nat) (x : Elem) (b : Blk) : (setElem e x b).cmd = b.cmd := rfl
@[simp] theorem setElem_sched (e : Nat) (x : Elem) (b : Blk) : (setElem e x b).sched = b.sched := rfl
@[simp] theorem setElem_epsLock (e : Nat) (x : Elem) (b : Blk) : (setElem e x b).epsLock = b.epsLock := rfl
@[simp] theorem setElem_epsPend (e : Nat) (x : Elem) (b : Blk) : (setElem e x b).epsPend = b.epsPend := rfl
@[simp] theorem setElem_red (e : Nat) (x : Elem) (b : Blk) : (setElem e x b).red = b.red := rfl
@[simp] theorem setElem_nvm (e : Nat) (x : Elem) (b : Blk) : (setElem e x b).nvm = b.nvm := rfl
@[simp] theorem setElem_dpS (e : Nat) (x : Elem) (b : Blk) : (setElem e x b).dpS = b.dpS := rfl
@[simp] theorem setElem_dpP (e : Nat) (x : Elem) (b : Blk) : (setElem e x b).dpP = b.dpP := rfl
@[simp] theorem setElem_planFw (e : Nat) (x : Elem) (b : Blk) : (setElem e x b).planFw = b.planFw := rfl
@[simp] theorem setElem_pmem (e : Nat) (x : Elem) (b : Blk) : (setElem e x b).pmem = b.pmem := rfl
@[simp] theorem setElem_hk (e : Nat) (x : Elem) (b : Blk) : (setElem e x b).hk = b.hk := rfl
@[simp] theorem setElem_xb (e : Nat) (x : Elem) (b : Blk) : (setElem e x b).xb = b.xb := rfl
@[simp] theorem setElem_acq (e : Nat) (x : Elem) (b : Blk) : (setElem e x b).acq = b.acq := rfl
@[simp] theorem setElem_trig (e : Nat) (x : Elem) (b : Blk) : (setElem e x b).trig = b.trig := rfl
@[simp] theorem setElem_glew (e : Nat) (x : Elem) (b : Blk) : (setElem e x b).glew = b.glew := rfl
@[simp] theorem setElem_host (e : Nat) (x : Elem) (b : Blk) : (setElem e x b).host = b.host := rfl
@[simp] theorem setElem_eth (e : Nat) (x : Elem) (b : Blk) : (setElem e x b).eth = b.eth := rfl
@[simp] theorem setElem_flash (e : Nat) (x : Elem) (b : Blk) : (setElem e x b).flash = b.flash := rfl
@[simp] theorem setElem_permDone (e : Nat) (x : Elem) (b : Blk) : (setElem e x b).permDone = b.permDone := rfl
@[simp] theorem setElem_xtCrc (e : Nat) (x : Elem) (b : Blk) : (setElem e x b).xtCrc = b.xtCrc := rfl
@[simp] theorem setElem_free (e : Nat) (x : Elem) (b : Blk) : (setElem e x b).free = b.free := rfl
@[simp] theorem setElem_sent (e : Nat) (x : Elem) (b : Blk) : (setElem e x b).sent = b.sent := rfl

/-! ### updElem -/

@[simp] theorem updElem_tick (e : Nat) (g : Elem → Elem) (b : Blk) : (updElem e g b).tick = b.tick := (rfl)
@[simp] theorem updElem_edge (e : Nat) (g : Elem → Elem) (b : Blk) : (updElem e g b).edge = b.edge := rfl
@[simp] theorem updElem_time (e : Nat) (g : Elem → Elem) (b : Blk) : (updElem e g b).time = b.time := rfl
@[simp] theorem updElem_ptp (e : Nat) (g : Elem → Elem) (b : Blk) : (updElem e g b).ptp = b.ptp := rfl
@[simp] theorem updElem_sys (e : Nat) (g : Elem → Elem) (b : Blk) : (updElem e g b).sys = b.sys := rfl
@[simp] theorem updElem_regs (e : Nat) (g : Elem → Elem) (b : Blk) : (updElem e g b).regs = b.regs := rfl
@[simp] theorem updElem_ev (e : Nat) (g : Elem → Elem) (b : Blk) : (updElem e g b).ev = b.ev := rfl
@[simp] theorem updElem_pend (e : Nat) (g : Elem → Elem) (b : Blk) : (updElem e g b).pend = b.pend := rfl
@[simp] theorem updElem_clsLive (e : Nat) (g : Elem → Elem) (b : Blk) : (updElem e g b).clsLive = b.clsLive := rfl
@[simp] theorem updElem_rtdLive (e : Nat) (g : Elem → Elem) (b : Blk) : (updElem e g b).rtdLive = b.rtdLive := rfl
@[simp] theorem updElem_banks (e : Nat) (g : Elem → Elem) (b : Blk) : (updElem e g b).banks = b.banks := rfl
@[simp] theorem updElem_biasLive (e : Nat) (g : Elem → Elem) (b : Blk) : (updElem e g b).biasLive = b.biasLive := rfl
@[simp] theorem updElem_biasSeen (e : Nat) (g : Elem → Elem) (b : Blk) : (updElem e g b).biasSeen = b.biasSeen := rfl
@[simp] theorem updElem_strobe (e : Nat) (g : Elem → Elem) (b : Blk) : (updElem e g b).strobe = b.strobe := rfl
@[simp] theorem updElem_cmd (e : Nat) (g : Elem → Elem) (b : Blk) : (updElem e g b).cmd = b.cmd := rfl
@[simp] theorem updElem_sched (e : Nat) (g : Elem → Elem) (b : Blk) : (updElem e g b).sched = b.sched := rfl
@[simp] theorem updElem_epsLock (e : Nat) (g : Elem → Elem) (b : Blk) : (updElem e g b).epsLock = b.epsLock := rfl
@[simp] theorem updElem_epsPend (e : Nat) (g : Elem → Elem) (b : Blk) : (updElem e g b).epsPend = b.epsPend := rfl
@[simp] theorem updElem_red (e : Nat) (g : Elem → Elem) (b : Blk) : (updElem e g b).red = b.red := rfl
@[simp] theorem updElem_nvm (e : Nat) (g : Elem → Elem) (b : Blk) : (updElem e g b).nvm = b.nvm := rfl
@[simp] theorem updElem_dpS (e : Nat) (g : Elem → Elem) (b : Blk) : (updElem e g b).dpS = b.dpS := rfl
@[simp] theorem updElem_dpP (e : Nat) (g : Elem → Elem) (b : Blk) : (updElem e g b).dpP = b.dpP := rfl
@[simp] theorem updElem_planFw (e : Nat) (g : Elem → Elem) (b : Blk) : (updElem e g b).planFw = b.planFw := rfl
@[simp] theorem updElem_pmem (e : Nat) (g : Elem → Elem) (b : Blk) : (updElem e g b).pmem = b.pmem := rfl
@[simp] theorem updElem_hk (e : Nat) (g : Elem → Elem) (b : Blk) : (updElem e g b).hk = b.hk := rfl
@[simp] theorem updElem_xb (e : Nat) (g : Elem → Elem) (b : Blk) : (updElem e g b).xb = b.xb := rfl
@[simp] theorem updElem_acq (e : Nat) (g : Elem → Elem) (b : Blk) : (updElem e g b).acq = b.acq := rfl
@[simp] theorem updElem_trig (e : Nat) (g : Elem → Elem) (b : Blk) : (updElem e g b).trig = b.trig := rfl
@[simp] theorem updElem_glew (e : Nat) (g : Elem → Elem) (b : Blk) : (updElem e g b).glew = b.glew := rfl
@[simp] theorem updElem_host (e : Nat) (g : Elem → Elem) (b : Blk) : (updElem e g b).host = b.host := rfl
@[simp] theorem updElem_eth (e : Nat) (g : Elem → Elem) (b : Blk) : (updElem e g b).eth = b.eth := rfl
@[simp] theorem updElem_flash (e : Nat) (g : Elem → Elem) (b : Blk) : (updElem e g b).flash = b.flash := rfl
@[simp] theorem updElem_permDone (e : Nat) (g : Elem → Elem) (b : Blk) : (updElem e g b).permDone = b.permDone := rfl
@[simp] theorem updElem_xtCrc (e : Nat) (g : Elem → Elem) (b : Blk) : (updElem e g b).xtCrc = b.xtCrc := rfl
@[simp] theorem updElem_free (e : Nat) (g : Elem → Elem) (b : Blk) : (updElem e g b).free = b.free := rfl
@[simp] theorem updElem_sent (e : Nat) (g : Elem → Elem) (b : Blk) : (updElem e g b).sent = b.sent := rfl

/-! ### setBank -/

@[simp] theorem setBank_tick (n : Nat) (x : Bank) (b : Blk) : (setBank n x b).tick = b.tick := (rfl)
@[simp] theorem setBank_edge (n : Nat) (x : Bank) (b : Blk) : (setBank n x b).edge = b.edge := rfl
@[simp] theorem setBank_time (n : Nat) (x : Bank) (b : Blk) : (setBank n x b).time = b.time := rfl
@[simp] theorem setBank_ptp (n : Nat) (x : Bank) (b : Blk) : (setBank n x b).ptp = b.ptp := rfl
@[simp] theorem setBank_sys (n : Nat) (x : Bank) (b : Blk) : (setBank n x b).sys = b.sys := rfl
@[simp] theorem setBank_regs (n : Nat) (x : Bank) (b : Blk) : (setBank n x b).regs = b.regs := rfl
@[simp] theorem setBank_ev (n : Nat) (x : Bank) (b : Blk) : (setBank n x b).ev = b.ev := rfl
@[simp] theorem setBank_pend (n : Nat) (x : Bank) (b : Blk) : (setBank n x b).pend = b.pend := rfl
@[simp] theorem setBank_clsLive (n : Nat) (x : Bank) (b : Blk) : (setBank n x b).clsLive = b.clsLive := rfl
@[simp] theorem setBank_rtdLive (n : Nat) (x : Bank) (b : Blk) : (setBank n x b).rtdLive = b.rtdLive := rfl
@[simp] theorem setBank_elems (n : Nat) (x : Bank) (b : Blk) : (setBank n x b).elems = b.elems := rfl
@[simp] theorem setBank_biasLive (n : Nat) (x : Bank) (b : Blk) : (setBank n x b).biasLive = b.biasLive := rfl
@[simp] theorem setBank_biasSeen (n : Nat) (x : Bank) (b : Blk) : (setBank n x b).biasSeen = b.biasSeen := rfl
@[simp] theorem setBank_strobe (n : Nat) (x : Bank) (b : Blk) : (setBank n x b).strobe = b.strobe := rfl
@[simp] theorem setBank_cmd (n : Nat) (x : Bank) (b : Blk) : (setBank n x b).cmd = b.cmd := rfl
@[simp] theorem setBank_sched (n : Nat) (x : Bank) (b : Blk) : (setBank n x b).sched = b.sched := rfl
@[simp] theorem setBank_epsLock (n : Nat) (x : Bank) (b : Blk) : (setBank n x b).epsLock = b.epsLock := rfl
@[simp] theorem setBank_epsPend (n : Nat) (x : Bank) (b : Blk) : (setBank n x b).epsPend = b.epsPend := rfl
@[simp] theorem setBank_red (n : Nat) (x : Bank) (b : Blk) : (setBank n x b).red = b.red := rfl
@[simp] theorem setBank_nvm (n : Nat) (x : Bank) (b : Blk) : (setBank n x b).nvm = b.nvm := rfl
@[simp] theorem setBank_dpS (n : Nat) (x : Bank) (b : Blk) : (setBank n x b).dpS = b.dpS := rfl
@[simp] theorem setBank_dpP (n : Nat) (x : Bank) (b : Blk) : (setBank n x b).dpP = b.dpP := rfl
@[simp] theorem setBank_planFw (n : Nat) (x : Bank) (b : Blk) : (setBank n x b).planFw = b.planFw := rfl
@[simp] theorem setBank_pmem (n : Nat) (x : Bank) (b : Blk) : (setBank n x b).pmem = b.pmem := rfl
@[simp] theorem setBank_hk (n : Nat) (x : Bank) (b : Blk) : (setBank n x b).hk = b.hk := rfl
@[simp] theorem setBank_xb (n : Nat) (x : Bank) (b : Blk) : (setBank n x b).xb = b.xb := rfl
@[simp] theorem setBank_acq (n : Nat) (x : Bank) (b : Blk) : (setBank n x b).acq = b.acq := rfl
@[simp] theorem setBank_trig (n : Nat) (x : Bank) (b : Blk) : (setBank n x b).trig = b.trig := rfl
@[simp] theorem setBank_glew (n : Nat) (x : Bank) (b : Blk) : (setBank n x b).glew = b.glew := rfl
@[simp] theorem setBank_host (n : Nat) (x : Bank) (b : Blk) : (setBank n x b).host = b.host := rfl
@[simp] theorem setBank_eth (n : Nat) (x : Bank) (b : Blk) : (setBank n x b).eth = b.eth := rfl
@[simp] theorem setBank_flash (n : Nat) (x : Bank) (b : Blk) : (setBank n x b).flash = b.flash := rfl
@[simp] theorem setBank_permDone (n : Nat) (x : Bank) (b : Blk) : (setBank n x b).permDone = b.permDone := rfl
@[simp] theorem setBank_xtCrc (n : Nat) (x : Bank) (b : Blk) : (setBank n x b).xtCrc = b.xtCrc := rfl
@[simp] theorem setBank_free (n : Nat) (x : Bank) (b : Blk) : (setBank n x b).free = b.free := rfl
@[simp] theorem setBank_sent (n : Nat) (x : Bank) (b : Blk) : (setBank n x b).sent = b.sent := rfl

/-! ### send -/

@[simp] theorem send_tick (o : Out) (b : Blk) : (send o b).tick = b.tick := (rfl)
@[simp] theorem send_edge (o : Out) (b : Blk) : (send o b).edge = b.edge := rfl
@[simp] theorem send_time (o : Out) (b : Blk) : (send o b).time = b.time := rfl
@[simp] theorem send_ptp (o : Out) (b : Blk) : (send o b).ptp = b.ptp := rfl
@[simp] theorem send_sys (o : Out) (b : Blk) : (send o b).sys = b.sys := rfl
@[simp] theorem send_regs (o : Out) (b : Blk) : (send o b).regs = b.regs := rfl
@[simp] theorem send_ev (o : Out) (b : Blk) : (send o b).ev = b.ev := rfl
@[simp] theorem send_pend (o : Out) (b : Blk) : (send o b).pend = b.pend := rfl
@[simp] theorem send_clsLive (o : Out) (b : Blk) : (send o b).clsLive = b.clsLive := rfl
@[simp] theorem send_rtdLive (o : Out) (b : Blk) : (send o b).rtdLive = b.rtdLive := rfl
@[simp] theorem send_elems (o : Out) (b : Blk) : (send o b).elems = b.elems := rfl
@[simp] theorem send_banks (o : Out) (b : Blk) : (send o b).banks = b.banks := rfl
@[simp] theorem send_biasLive (o : Out) (b : Blk) : (send o b).biasLive = b.biasLive := rfl
@[simp] theorem send_biasSeen (o : Out) (b : Blk) : (send o b).biasSeen = b.biasSeen := rfl
@[simp] theorem send_strobe (o : Out) (b : Blk) : (send o b).strobe = b.strobe := rfl
@[simp] theorem send_cmd (o : Out) (b : Blk) : (send o b).cmd = b.cmd := rfl
@[simp] theorem send_sched (o : Out) (b : Blk) : (send o b).sched = b.sched := rfl
@[simp] theorem send_epsLock (o : Out) (b : Blk) : (send o b).epsLock = b.epsLock := rfl
@[simp] theorem send_epsPend (o : Out) (b : Blk) : (send o b).epsPend = b.epsPend := rfl
@[simp] theorem send_red (o : Out) (b : Blk) : (send o b).red = b.red := rfl
@[simp] theorem send_nvm (o : Out) (b : Blk) : (send o b).nvm = b.nvm := rfl
@[simp] theorem send_dpS (o : Out) (b : Blk) : (send o b).dpS = b.dpS := rfl
@[simp] theorem send_dpP (o : Out) (b : Blk) : (send o b).dpP = b.dpP := rfl
@[simp] theorem send_planFw (o : Out) (b : Blk) : (send o b).planFw = b.planFw := rfl
@[simp] theorem send_pmem (o : Out) (b : Blk) : (send o b).pmem = b.pmem := rfl
@[simp] theorem send_hk (o : Out) (b : Blk) : (send o b).hk = b.hk := rfl
@[simp] theorem send_xb (o : Out) (b : Blk) : (send o b).xb = b.xb := rfl
@[simp] theorem send_acq (o : Out) (b : Blk) : (send o b).acq = b.acq := rfl
@[simp] theorem send_trig (o : Out) (b : Blk) : (send o b).trig = b.trig := rfl
@[simp] theorem send_glew (o : Out) (b : Blk) : (send o b).glew = b.glew := rfl
@[simp] theorem send_host (o : Out) (b : Blk) : (send o b).host = b.host := rfl
@[simp] theorem send_eth (o : Out) (b : Blk) : (send o b).eth = b.eth := rfl
@[simp] theorem send_flash (o : Out) (b : Blk) : (send o b).flash = b.flash := rfl
@[simp] theorem send_permDone (o : Out) (b : Blk) : (send o b).permDone = b.permDone := rfl
@[simp] theorem send_xtCrc (o : Out) (b : Blk) : (send o b).xtCrc = b.xtCrc := rfl
@[simp] theorem send_free (o : Out) (b : Blk) : (send o b).free = b.free := rfl

/-! ### evSet -/

@[simp] theorem evSet_tick (s : Nat) (r : EvRec) (b : Blk) : (evSet s r b).tick = b.tick := (rfl)
@[simp] theorem evSet_edge (s : Nat) (r : EvRec) (b : Blk) : (evSet s r b).edge = b.edge := rfl
@[simp] theorem evSet_time (s : Nat) (r : EvRec) (b : Blk) : (evSet s r b).time = b.time := rfl
@[simp] theorem evSet_ptp (s : Nat) (r : EvRec) (b : Blk) : (evSet s r b).ptp = b.ptp := rfl
@[simp] theorem evSet_sys (s : Nat) (r : EvRec) (b : Blk) : (evSet s r b).sys = b.sys := rfl
@[simp] theorem evSet_regs (s : Nat) (r : EvRec) (b : Blk) : (evSet s r b).regs = b.regs := rfl
@[simp] theorem evSet_pend (s : Nat) (r : EvRec) (b : Blk) : (evSet s r b).pend = b.pend := rfl
@[simp] theorem evSet_clsLive (s : Nat) (r : EvRec) (b : Blk) : (evSet s r b).clsLive = b.clsLive := rfl
@[simp] theorem evSet_rtdLive (s : Nat) (r : EvRec) (b : Blk) : (evSet s r b).rtdLive = b.rtdLive := rfl
@[simp] theorem evSet_elems (s : Nat) (r : EvRec) (b : Blk) : (evSet s r b).elems = b.elems := rfl
@[simp] theorem evSet_banks (s : Nat) (r : EvRec) (b : Blk) : (evSet s r b).banks = b.banks := rfl
@[simp] theorem evSet_biasLive (s : Nat) (r : EvRec) (b : Blk) : (evSet s r b).biasLive = b.biasLive := rfl
@[simp] theorem evSet_biasSeen (s : Nat) (r : EvRec) (b : Blk) : (evSet s r b).biasSeen = b.biasSeen := rfl
@[simp] theorem evSet_strobe (s : Nat) (r : EvRec) (b : Blk) : (evSet s r b).strobe = b.strobe := rfl
@[simp] theorem evSet_cmd (s : Nat) (r : EvRec) (b : Blk) : (evSet s r b).cmd = b.cmd := rfl
@[simp] theorem evSet_sched (s : Nat) (r : EvRec) (b : Blk) : (evSet s r b).sched = b.sched := rfl
@[simp] theorem evSet_epsLock (s : Nat) (r : EvRec) (b : Blk) : (evSet s r b).epsLock = b.epsLock := rfl
@[simp] theorem evSet_epsPend (s : Nat) (r : EvRec) (b : Blk) : (evSet s r b).epsPend = b.epsPend := rfl
@[simp] theorem evSet_red (s : Nat) (r : EvRec) (b : Blk) : (evSet s r b).red = b.red := rfl
@[simp] theorem evSet_nvm (s : Nat) (r : EvRec) (b : Blk) : (evSet s r b).nvm = b.nvm := rfl
@[simp] theorem evSet_dpS (s : Nat) (r : EvRec) (b : Blk) : (evSet s r b).dpS = b.dpS := rfl
@[simp] theorem evSet_dpP (s : Nat) (r : EvRec) (b : Blk) : (evSet s r b).dpP = b.dpP := rfl
@[simp] theorem evSet_planFw (s : Nat) (r : EvRec) (b : Blk) : (evSet s r b).planFw = b.planFw := rfl
@[simp] theorem evSet_pmem (s : Nat) (r : EvRec) (b : Blk) : (evSet s r b).pmem = b.pmem := rfl
@[simp] theorem evSet_hk (s : Nat) (r : EvRec) (b : Blk) : (evSet s r b).hk = b.hk := rfl
@[simp] theorem evSet_xb (s : Nat) (r : EvRec) (b : Blk) : (evSet s r b).xb = b.xb := rfl
@[simp] theorem evSet_acq (s : Nat) (r : EvRec) (b : Blk) : (evSet s r b).acq = b.acq := rfl
@[simp] theorem evSet_trig (s : Nat) (r : EvRec) (b : Blk) : (evSet s r b).trig = b.trig := rfl
@[simp] theorem evSet_glew (s : Nat) (r : EvRec) (b : Blk) : (evSet s r b).glew = b.glew := rfl
@[simp] theorem evSet_host (s : Nat) (r : EvRec) (b : Blk) : (evSet s r b).host = b.host := rfl
@[simp] theorem evSet_eth (s : Nat) (r : EvRec) (b : Blk) : (evSet s r b).eth = b.eth := rfl
@[simp] theorem evSet_flash (s : Nat) (r : EvRec) (b : Blk) : (evSet s r b).flash = b.flash := rfl
@[simp] theorem evSet_permDone (s : Nat) (r : EvRec) (b : Blk) : (evSet s r b).permDone = b.permDone := rfl
@[simp] theorem evSet_xtCrc (s : Nat) (r : EvRec) (b : Blk) : (evSet s r b).xtCrc = b.xtCrc := rfl
@[simp] theorem evSet_free (s : Nat) (r : EvRec) (b : Blk) : (evSet s r b).free = b.free := rfl
@[simp] theorem evSet_sent (s : Nat) (r : EvRec) (b : Blk) : (evSet s r b).sent = b.sent := rfl

/-! ### lifeAdd -/

@[simp] theorem lifeAdd_tick (w n : Nat) (b : Blk) : (lifeAdd w n b).tick = b.tick := (rfl)
@[simp] theorem lifeAdd_edge (w n : Nat) (b : Blk) : (lifeAdd w n b).edge = b.edge := rfl
@[simp] theorem lifeAdd_time (w n : Nat) (b : Blk) : (lifeAdd w n b).time = b.time := rfl
@[simp] theorem lifeAdd_ptp (w n : Nat) (b : Blk) : (lifeAdd w n b).ptp = b.ptp := rfl
@[simp] theorem lifeAdd_sys (w n : Nat) (b : Blk) : (lifeAdd w n b).sys = b.sys := rfl
@[simp] theorem lifeAdd_regs (w n : Nat) (b : Blk) : (lifeAdd w n b).regs = b.regs := rfl
@[simp] theorem lifeAdd_ev (w n : Nat) (b : Blk) : (lifeAdd w n b).ev = b.ev := rfl
@[simp] theorem lifeAdd_pend (w n : Nat) (b : Blk) : (lifeAdd w n b).pend = b.pend := rfl
@[simp] theorem lifeAdd_clsLive (w n : Nat) (b : Blk) : (lifeAdd w n b).clsLive = b.clsLive := rfl
@[simp] theorem lifeAdd_rtdLive (w n : Nat) (b : Blk) : (lifeAdd w n b).rtdLive = b.rtdLive := rfl
@[simp] theorem lifeAdd_elems (w n : Nat) (b : Blk) : (lifeAdd w n b).elems = b.elems := rfl
@[simp] theorem lifeAdd_banks (w n : Nat) (b : Blk) : (lifeAdd w n b).banks = b.banks := rfl
@[simp] theorem lifeAdd_biasLive (w n : Nat) (b : Blk) : (lifeAdd w n b).biasLive = b.biasLive := rfl
@[simp] theorem lifeAdd_biasSeen (w n : Nat) (b : Blk) : (lifeAdd w n b).biasSeen = b.biasSeen := rfl
@[simp] theorem lifeAdd_strobe (w n : Nat) (b : Blk) : (lifeAdd w n b).strobe = b.strobe := rfl
@[simp] theorem lifeAdd_cmd (w n : Nat) (b : Blk) : (lifeAdd w n b).cmd = b.cmd := rfl
@[simp] theorem lifeAdd_sched (w n : Nat) (b : Blk) : (lifeAdd w n b).sched = b.sched := rfl
@[simp] theorem lifeAdd_epsLock (w n : Nat) (b : Blk) : (lifeAdd w n b).epsLock = b.epsLock := rfl
@[simp] theorem lifeAdd_epsPend (w n : Nat) (b : Blk) : (lifeAdd w n b).epsPend = b.epsPend := rfl
@[simp] theorem lifeAdd_red (w n : Nat) (b : Blk) : (lifeAdd w n b).red = b.red := rfl
@[simp] theorem lifeAdd_dpS (w n : Nat) (b : Blk) : (lifeAdd w n b).dpS = b.dpS := rfl
@[simp] theorem lifeAdd_dpP (w n : Nat) (b : Blk) : (lifeAdd w n b).dpP = b.dpP := rfl
@[simp] theorem lifeAdd_planFw (w n : Nat) (b : Blk) : (lifeAdd w n b).planFw = b.planFw := rfl
@[simp] theorem lifeAdd_pmem (w n : Nat) (b : Blk) : (lifeAdd w n b).pmem = b.pmem := rfl
@[simp] theorem lifeAdd_hk (w n : Nat) (b : Blk) : (lifeAdd w n b).hk = b.hk := rfl
@[simp] theorem lifeAdd_xb (w n : Nat) (b : Blk) : (lifeAdd w n b).xb = b.xb := rfl
@[simp] theorem lifeAdd_acq (w n : Nat) (b : Blk) : (lifeAdd w n b).acq = b.acq := rfl
@[simp] theorem lifeAdd_trig (w n : Nat) (b : Blk) : (lifeAdd w n b).trig = b.trig := rfl
@[simp] theorem lifeAdd_glew (w n : Nat) (b : Blk) : (lifeAdd w n b).glew = b.glew := rfl
@[simp] theorem lifeAdd_host (w n : Nat) (b : Blk) : (lifeAdd w n b).host = b.host := rfl
@[simp] theorem lifeAdd_eth (w n : Nat) (b : Blk) : (lifeAdd w n b).eth = b.eth := rfl
@[simp] theorem lifeAdd_flash (w n : Nat) (b : Blk) : (lifeAdd w n b).flash = b.flash := rfl
@[simp] theorem lifeAdd_permDone (w n : Nat) (b : Blk) : (lifeAdd w n b).permDone = b.permDone := rfl
@[simp] theorem lifeAdd_xtCrc (w n : Nat) (b : Blk) : (lifeAdd w n b).xtCrc = b.xtCrc := rfl
@[simp] theorem lifeAdd_free (w n : Nat) (b : Blk) : (lifeAdd w n b).free = b.free := rfl
@[simp] theorem lifeAdd_sent (w n : Nat) (b : Blk) : (lifeAdd w n b).sent = b.sent := rfl

/-! ### raiseLate -/

@[simp] theorem raiseLate_tick (s : Nat) (b : Blk) : (raiseLate s b).tick = b.tick := (rfl)
@[simp] theorem raiseLate_edge (s : Nat) (b : Blk) : (raiseLate s b).edge = b.edge := rfl
@[simp] theorem raiseLate_time (s : Nat) (b : Blk) : (raiseLate s b).time = b.time := rfl
@[simp] theorem raiseLate_ptp (s : Nat) (b : Blk) : (raiseLate s b).ptp = b.ptp := rfl
@[simp] theorem raiseLate_sys (s : Nat) (b : Blk) : (raiseLate s b).sys = b.sys := rfl
@[simp] theorem raiseLate_regs (s : Nat) (b : Blk) : (raiseLate s b).regs = b.regs := rfl
@[simp] theorem raiseLate_pend (s : Nat) (b : Blk) : (raiseLate s b).pend = b.pend := rfl
@[simp] theorem raiseLate_clsLive (s : Nat) (b : Blk) : (raiseLate s b).clsLive = b.clsLive := rfl
@[simp] theorem raiseLate_rtdLive (s : Nat) (b : Blk) : (raiseLate s b).rtdLive = b.rtdLive := rfl
@[simp] theorem raiseLate_elems (s : Nat) (b : Blk) : (raiseLate s b).elems = b.elems := rfl
@[simp] theorem raiseLate_banks (s : Nat) (b : Blk) : (raiseLate s b).banks = b.banks := rfl
@[simp] theorem raiseLate_biasLive (s : Nat) (b : Blk) : (raiseLate s b).biasLive = b.biasLive := rfl
@[simp] theorem raiseLate_biasSeen (s : Nat) (b : Blk) : (raiseLate s b).biasSeen = b.biasSeen := rfl
@[simp] theorem raiseLate_strobe (s : Nat) (b : Blk) : (raiseLate s b).strobe = b.strobe := rfl
@[simp] theorem raiseLate_cmd (s : Nat) (b : Blk) : (raiseLate s b).cmd = b.cmd := rfl
@[simp] theorem raiseLate_sched (s : Nat) (b : Blk) : (raiseLate s b).sched = b.sched := rfl
@[simp] theorem raiseLate_epsLock (s : Nat) (b : Blk) : (raiseLate s b).epsLock = b.epsLock := rfl
@[simp] theorem raiseLate_epsPend (s : Nat) (b : Blk) : (raiseLate s b).epsPend = b.epsPend := rfl
@[simp] theorem raiseLate_red (s : Nat) (b : Blk) : (raiseLate s b).red = b.red := rfl
@[simp] theorem raiseLate_nvm (s : Nat) (b : Blk) : (raiseLate s b).nvm = b.nvm := rfl
@[simp] theorem raiseLate_dpS (s : Nat) (b : Blk) : (raiseLate s b).dpS = b.dpS := rfl
@[simp] theorem raiseLate_dpP (s : Nat) (b : Blk) : (raiseLate s b).dpP = b.dpP := rfl
@[simp] theorem raiseLate_planFw (s : Nat) (b : Blk) : (raiseLate s b).planFw = b.planFw := rfl
@[simp] theorem raiseLate_pmem (s : Nat) (b : Blk) : (raiseLate s b).pmem = b.pmem := rfl
@[simp] theorem raiseLate_hk (s : Nat) (b : Blk) : (raiseLate s b).hk = b.hk := rfl
@[simp] theorem raiseLate_xb (s : Nat) (b : Blk) : (raiseLate s b).xb = b.xb := rfl
@[simp] theorem raiseLate_acq (s : Nat) (b : Blk) : (raiseLate s b).acq = b.acq := rfl
@[simp] theorem raiseLate_trig (s : Nat) (b : Blk) : (raiseLate s b).trig = b.trig := rfl
@[simp] theorem raiseLate_glew (s : Nat) (b : Blk) : (raiseLate s b).glew = b.glew := rfl
@[simp] theorem raiseLate_host (s : Nat) (b : Blk) : (raiseLate s b).host = b.host := rfl
@[simp] theorem raiseLate_eth (s : Nat) (b : Blk) : (raiseLate s b).eth = b.eth := rfl
@[simp] theorem raiseLate_flash (s : Nat) (b : Blk) : (raiseLate s b).flash = b.flash := rfl
@[simp] theorem raiseLate_permDone (s : Nat) (b : Blk) : (raiseLate s b).permDone = b.permDone := rfl
@[simp] theorem raiseLate_xtCrc (s : Nat) (b : Blk) : (raiseLate s b).xtCrc = b.xtCrc := rfl
@[simp] theorem raiseLate_free (s : Nat) (b : Blk) : (raiseLate s b).free = b.free := rfl
@[simp] theorem raiseLate_sent (s : Nat) (b : Blk) : (raiseLate s b).sent = b.sent := rfl

/-! ### Reading what was written -/

@[simp] theorem getF_setF_same (f : Fld) (v : Nat) (b : Blk) : getF (setF f v b) f = v % 2 ^ f.wid :=
  Tbl.get_set_same _ _ _ _

theorem getF_setF_ne (f g : Fld) (v : Nat) (b : Blk) (h : g.key ≠ f.key) : getF (setF f v b) g = getF b g :=
  Tbl.get_set_ne _ _ _ _ _ _ h

/-- A field after a write of a field: the written one reads what was written, every other one as before. -/
theorem getF_setF (f g : Fld) (v : Nat) (b : Blk) (h : g.key = f.key → g = f) :
    getF (setF f v b) g = if g.key = f.key then v % 2 ^ f.wid else getF b g := by
  split
  · next hk => rw [h hk, getF_setF_same]
  · next hk => exact getF_setF_ne f g v b hk

@[simp] theorem getF_setElem (f : Fld) (e : Nat) (x : Elem) (b : Blk) : getF (setElem e x b) f = getF b f := rfl
@[simp] theorem getF_updElem (f : Fld) (e : Nat) (g : Elem → Elem) (b : Blk) : getF (updElem e g b) f = getF b f := rfl
@[simp] theorem getF_setBank (f : Fld) (n : Nat) (x : Bank) (b : Blk) : getF (setBank n x b) f = getF b f := rfl
@[simp] theorem getF_send (f : Fld) (o : Out) (b : Blk) : getF (send o b) f = getF b f := rfl
@[simp] theorem getF_evSet (f : Fld) (s : Nat) (r : EvRec) (b : Blk) : getF (evSet s r b) f = getF b f := rfl
@[simp] theorem getF_lifeAdd (f : Fld) (w n : Nat) (b : Blk) : getF (lifeAdd w n b) f = getF b f := rfl
@[simp] theorem getF_raiseLate (f : Fld) (s : Nat) (b : Blk) : getF (raiseLate s b) f = getF b f := rfl

@[simp] theorem elem_setElem (e e' : Nat) (x : Elem) (b : Blk) :
    (setElem e x b).elem e' = if e' = e then x else b.elem e' := by
  unfold Blk.elem setElem
  split
  · next h => subst h; exact Tbl.get_set_same _ _ _ _
  · next h => exact Tbl.get_set_ne _ _ _ _ _ _ h

@[simp] theorem elem_updElem (e e' : Nat) (g : Elem → Elem) (b : Blk) :
    (updElem e g b).elem e' = if e' = e then g (b.elem e) else b.elem e' := elem_setElem e e' _ b

@[simp] theorem elem_setF (f : Fld) (v e : Nat) (b : Blk) : (setF f v b).elem e = b.elem e := rfl
@[simp] theorem elem_setBank (n : Nat) (x : Bank) (e : Nat) (b : Blk) : (setBank n x b).elem e = b.elem e := rfl

@[simp] theorem bank_setBank (n n' : Nat) (x : Bank) (b : Blk) :
    (setBank n x b).bank n' = if n' = n then x else b.bank n' := by
  unfold Blk.bank setBank
  split
  · next h => subst h; exact Tbl.get_set_same _ _ _ _
  · next h => exact Tbl.get_set_ne _ _ _ _ _ _ h

@[simp] theorem bank_setF (f : Fld) (v n : Nat) (b : Blk) : (setF f v b).bank n = b.bank n := rfl
@[simp] theorem bank_setElem (e : Nat) (x : Elem) (n : Nat) (b : Blk) : (setElem e x b).bank n = b.bank n := rfl
@[simp] theorem bank_updElem (e : Nat) (g : Elem → Elem) (n : Nat) (b : Blk) : (updElem e g b).bank n = b.bank n := rfl

@[simp] theorem evGet_evSet (s s' : Nat) (r : EvRec) (b : Blk) :
    evGet (evSet s r b) s' = if s' = s then r else evGet b s' := by
  unfold evGet evSet
  split
  · next h => subst h; exact Tbl.get_set_same _ _ _ _
  · next h => exact Tbl.get_set_ne _ _ _ _ _ _ h

@[simp] theorem evGet_setF (f : Fld) (v s : Nat) (b : Blk) : evGet (setF f v b) s = evGet b s := rfl
@[simp] theorem evGet_setFlag (f : Fld) (v : Bool) (s : Nat) (b : Blk) : evGet (setFlag f v b) s = evGet b s := rfl

end Sys2Proof.Machine
end

