-- ==== Sys2Proof/Laws/Events.lean ====
section
/-!
SUPPORT. Raising a source: the source is latched and counted, no latch that was set is lost, and no other part of the
machine's actions touches the table of sources.
-/
set_option autoImplicit false

namespace Sys2Proof.Machine

/-! ### What leaves the table of sources alone -/

theorem foldl_tab {α : Type} (l : List α) (g : Blk → α → Blk) (b : Blk) (h : ∀ b x, (g b x).ev.tab = b.ev.tab) :
    (l.foldl g b).ev.tab = b.ev.tab := by
  induction l generalizing b with
  | nil => rfl
  | cons x t ih => rw [List.foldl_cons, ih, h]

theorem foldl_snd_tab {α β : Type} (l : List α) (g : β × Blk → α → β × Blk) (s : β × Blk)
    (h : ∀ s x, (g s x).2.ev.tab = s.2.ev.tab) : (l.foldl g s).2.ev.tab = s.2.ev.tab := by
  induction l generalizing s with
  | nil => rfl
  | cons x t ih => rw [List.foldl_cons, ih, h]

theorem ite_tab (c : Prop) [Decidable c] (x y : Blk) : (if c then x else y).ev.tab = if c then x.ev.tab else y.ev.tab := by
  split <;> rfl

@[simp] theorem trigOnce_tab (k typ arg : Nat) (b : Blk) : (trigOnce k typ arg b).ev.tab = b.ev.tab := by
  unfold trigOnce
  split <;> rfl

@[simp] theorem signalMsix_tab (v : Nat) (b : Blk) : (signalMsix v b).ev.tab = b.ev.tab := by
  unfold signalMsix
  dsimp only
  split <;> rfl

@[simp] theorem signalVec_tab (v : Nat) (b : Blk) : (signalVec v b).ev.tab = b.ev.tab := by
  unfold signalVec
  dsimp only
  repeat' split
  all_goals simp

@[simp] theorem capture_tab (s c : Nat) (tx : Option (Nat × Nat × Nat)) (b : Blk) : (capture s c tx b).ev.tab = b.ev.tab := by
  unfold capture
  dsimp only
  repeat' split
  all_goals simp

@[simp] theorem nvmRecord_tab (kind src cls detail : Nat) (b : Blk) : (nvmRecord kind src cls detail b).ev.tab = b.ev.tab := rfl

@[simp] theorem nvmCounters_tab (b : Blk) : (nvmCounters b).ev.tab = b.ev.tab := rfl

@[simp] theorem sendUdp_tab (p : Peer) (typ : Nat) (body : List Word) (b : Blk) : (sendUdp p typ body b).ev.tab = b.ev.tab := rfl

@[simp] theorem queueCell_tab (d : Port) (typ : Nat) (ws : List Nat) (b : Blk) : (queueCell d typ ws b).ev.tab = b.ev.tab := by
  cases d <;> rfl

@[simp] theorem sendCell_tab (d : Port) (typ dest : Nat) (bc : Bool) (arg : Nat) (ws : List Nat) (b : Blk) :
    (sendCell d typ dest bc arg ws b).ev.tab = b.ev.tab := by
  unfold sendCell
  split <;> simp

@[simp] theorem sendUp3_tab (typ : Nat) (seq : Word) (ws : List Word) (b : Blk) : (sendUp3 typ seq ws b).ev.tab = b.ev.tab :=
  foldl_tab _ _ _ fun _ _ => sendCell_tab _ _ _ _ _ _ _

@[simp] theorem sendDown3_tab (typ : Nat) (seq : Word) (ws : List Word) (b : Blk) :
    (sendDown3 typ seq ws b).ev.tab = b.ev.tab := by
  unfold sendDown3
  rw [foldl_tab _ _ _ fun _ _ => sendCell_tab _ _ _ _ _ _ _]

@[simp] theorem show2pc_tab (seq : Word) (res m c : Nat) (b : Blk) : (show2pc seq res m c b).ev.tab = b.ev.tab := rfl

@[simp] theorem tellEvent_tab (ws : List Word) (x : List Sub × Blk) (s : Sub) :
    (tellEvent ws x s).2.ev.tab = x.2.ev.tab := by
  unfold tellEvent
  dsimp only
  repeat' split
  all_goals rfl

@[simp] theorem announceEvent_tab (s c : Nat) (b : Blk) : (announceEvent s c b).ev.tab = b.ev.tab := by
  unfold announceEvent
  dsimp only
  repeat' split
  · rfl
  · rw [sendCell_tab]
    exact foldl_snd_tab _ _ _ fun _ _ => tellEvent_tab _ _ _
  · exact foldl_snd_tab _ _ _ fun _ _ => tellEvent_tab _ _ _

@[simp] theorem updElems_tab (es : List Nat) (f : Nat → Elem → Elem) (b : Blk) : (updElems es f b).ev.tab = b.ev.tab :=
  foldl_tab _ _ _ fun _ _ => rfl

@[simp] theorem clearBanks_tab (b : Blk) : (clearBanks b).ev.tab = b.ev.tab := by
  unfold clearBanks
  refine (foldl_tab _ _ _ fun b n => ?_).trans (updElems_tab _ _ _)
  dsimp only
  rw [setBank_ev]
  split
  · exact updElems_tab _ _ _
  · rfl

@[simp] theorem raiseLate_tab (s : Nat) (b : Blk) : (raiseLate s b).ev.tab = b.ev.tab := rfl

@[simp] theorem addCpl_tab (ring : Bool) (ws : List Word) (b : Blk) : (addCpl ring ws b).ev.tab = b.ev.tab := by
  unfold addCpl
  split <;> rfl

@[simp] theorem postRecord_tab (ring : Bool) (peer : Option Peer) (msg : Word) (ws : List Word) (b : Blk) :
    (postRecord ring peer msg ws b).ev.tab = b.ev.tab := by
  unfold postRecord
  dsimp only
  rw [foldl_tab]
  · split <;> simp
  · intro b s
    split <;> simp

@[simp] theorem clearArms_tab (b : Blk) : (clearArms b).ev.tab = b.ev.tab := updElems_tab _ _ _

@[simp] theorem disarm_tab (b : Blk) : (disarm b).ev.tab = b.ev.tab := clearArms_tab _

@[simp] theorem showQueue_tab (b : Blk) : (showQueue b).ev.tab = b.ev.tab := rfl

@[simp] theorem dropFrame_tab (i c : Nat) (b : Blk) : (dropFrame i c b).ev.tab = b.ev.tab := by
  unfold dropFrame
  repeat' split
  · rfl
  · simp
  · simp

@[simp] theorem withdrawFrom_tab (i c c' : Nat) (b : Blk) : (withdrawFrom i c c' b).ev.tab = b.ev.tab := by
  unfold withdrawFrom
  split
  · rfl
  · dsimp only
    rw [showQueue_tab, foldl_tab _ _ _ fun _ _ => dropFrame_tab _ _ _, dropFrame_tab]
    repeat' split
    all_goals simp

@[simp] theorem withdrawAll_tab (b : Blk) : (withdrawAll b).ev.tab = b.ev.tab := withdrawFrom_tab _ _ _ _

@[simp] theorem dropReq_tab (b : Blk) : (dropReq b).ev.tab = b.ev.tab := by
  unfold dropReq
  split <;> rfl

@[simp] theorem emptyFreeze_tab (b : Blk) : (emptyFreeze b).ev.tab = b.ev.tab := updElems_tab _ _ _

@[simp] theorem setMode_tab (m : Mode) (b : Blk) : (setMode m b).ev.tab = b.ev.tab := by
  unfold setMode
  split <;> rfl

@[simp] theorem enterMode_tab (m : Mode) (b : Blk) : (enterMode m b).ev.tab = b.ev.tab := by
  unfold enterMode
  dsimp only
  split <;> simp

@[simp] theorem safeActions_tab (b : Blk) : (safeActions b).ev.tab = b.ev.tab := by
  unfold safeActions
  repeat' split
  all_goals simp

@[simp] theorem shutdownActions_tab (s : Nat) (b : Blk) : (shutdownActions s b).ev.tab = b.ev.tab := by
  unfold shutdownActions
  split
  · rfl
  · dsimp only
    simp only [enterMode_tab, nvmCounters_tab, nvmRecord_tab, lifeAdd_ev, clearBanks_tab, withdrawAll_tab, dropReq_tab, setF_ev]
    split <;> rfl

/-! ### Latching -/

theorem evGet_of_tab {b c : Blk} (h : c.ev.tab = b.ev.tab) (s : Nat) : evGet c s = evGet b s := by
  unfold evGet
  rw [h]

/-- Latching one source (R347): its latch is set with its class, its count rises, and no other record changes. -/
theorem evGet_latch (tx : Option (Nat × Nat × Nat)) (b : Blk) (s s' : Nat) :
    evGet (latch tx b s) s' = if s' = s then
      { evGet b s with latch := true, lcls := (evGet b s).cls, count := satInc 255 (evGet b s).count } else evGet b s' := by
  rw [← evGet_evSet]
  unfold latch
  refine evGet_of_tab ?_ s'
  dsimp only
  rw [announceEvent_tab]
  split <;> (try rw [nvmRecord_tab]) <;> (try dsimp only) <;> rw [capture_tab] <;> split <;> simp

theorem latch_keeps (tx : Option (Nat × Nat × Nat)) (b : Blk) (s s' : Nat) (h : (evGet b s').latch = true) :
    (evGet (latch tx b s) s').latch = true := by
  rw [evGet_latch]
  split
  · rfl
  · exact h

theorem latches_keep (tx : Option (Nat × Nat × Nat)) (ss : List Nat) (b : Blk) (s' : Nat) (h : (evGet b s').latch = true) :
    (evGet (ss.foldl (latch tx) b) s').latch = true := by
  induction ss generalizing b with
  | nil => exact h
  | cons x t ih => exact ih _ (latch_keeps tx b x s' h)

theorem latches_mem (tx : Option (Nat × Nat × Nat)) (ss : List Nat) (b : Blk) (s : Nat) (h : s ∈ ss) :
    (evGet (ss.foldl (latch tx) b) s).latch = true := by
  induction ss generalizing b with
  | nil => cases h
  | cons x t ih =>
    rcases List.mem_cons.1 h with rfl | h
    · exact latches_keep tx t _ _ (by rw [evGet_latch, if_pos rfl])
    · exact ih _ h

theorem mem_byClass (b : Blk) (ss : List Nat) (s : Nat) : s ∈ byClass b ss ↔ s ∈ ss := by
  simp [byClass]

/-- Sources raised together are all latched, and no latch is lost. -/
theorem raiseTx_latches (ss : List Nat) (tx : Option (Nat × Nat × Nat)) (b : Blk) (s : Nat)
    (h : s ∈ ss ∨ (evGet b s).latch = true) : (evGet (raiseTx ss tx b) s).latch = true := by
  unfold raiseTx
  split
  · next hs => rcases h with h | h; · rw [hs] at h; cases h
               exact h
  · dsimp only
    refine latches_keep none _ _ _ ?_
    have h1 : (evGet ((byClass b ss).foldl (latch tx) b) s).latch = true := by
      rcases h with h | h
      · exact latches_mem tx _ _ _ ((mem_byClass b ss s).2 h)
      · exact latches_keep tx _ _ _ h
    have h2 : ∀ c : Blk, c.ev.tab = ((byClass b ss).foldl (latch tx) b).ev.tab → (evGet c s).latch = true := by
      intro c hc
      rw [evGet_of_tab hc]
      exact h1
    refine h2 _ ?_
    repeat' split
    all_goals simp

theorem flushLate_latches (b : Blk) (s : Nat) (h : (evGet b s).latch = true) : (evGet (flushLate b) s).latch = true :=
  raiseTx_latches _ _ _ _ (Or.inr h)

/-- A source raised is latched, and no latch is lost. -/
theorem raiseAll_latches (ss : List Nat) (b : Blk) (s : Nat) (h : s ∈ ss ∨ (evGet b s).latch = true) :
    (evGet (raiseAll ss b) s).latch = true := flushLate_latches _ _ (raiseTx_latches _ _ _ _ h)

@[simp] theorem raise_latches (s : Nat) (b : Blk) : (evGet (raise s b) s).latch = true :=
  raiseAll_latches _ _ _ (Or.inl (List.mem_singleton.2 rfl))

theorem raise_keeps (s s' : Nat) (b : Blk) (h : (evGet b s').latch = true) : (evGet (raise s b) s').latch = true :=
  raiseAll_latches _ _ _ (Or.inr h)

/-! ### A raise that has no reaction -/

/-- `b` with its event records, registers, NVM queue, trigger conditions, trace and UDP state replaced. -/
def Blk.events (b : Blk) (v : EvSt) (r : Tbl Nat) (n : NvmSt) (g : TrigSt) (o : List Out) (e : EthSt) (l : GlewSt) : Blk :=
  { b with ev := v, regs := r, nvm := n, trig := g, sent := o, eth := e, glew := l }

/-- `c` differs from `b` in event records, registers of pages FCAP, NVM and ETH, NVM queue, trigger conditions, links and trace
only, and has the same sources still to be raised. -/
def EventOnly (b c : Blk) : Prop :=
  ∃ v r n g o e l, c = b.events v r n g o e l ∧ v.late = b.ev.late ∧ ∀ f : Fld, f.apart → r.get f.rst f.key = b.regs.get f.rst f.key

theorem EventOnly.refl (b : Blk) : EventOnly b b :=
  ⟨b.ev, b.regs, b.nvm, b.trig, b.sent, b.eth, b.glew, rfl, rfl, fun _ _ => rfl⟩

theorem EventOnly.trans {b c d : Blk} (h : EventOnly b c) (g : EventOnly c d) : EventOnly b d := by
  obtain ⟨v, r, n, k, o, e, l, rfl, h2, h3⟩ := h
  obtain ⟨v', r', n', k', o', e', l', rfl, g2, g3⟩ := g
  exact ⟨v', r', n', k', o', e', l', rfl, g2.trans h2, fun f hf => (g3 f hf).trans (h3 f hf)⟩

theorem EventOnly.getF {b c : Blk} (h : EventOnly b c) (f : Fld) (hf : f.apart) : getF c f = getF b f := by
  obtain ⟨v, r, n, k, o, e, l, rfl, h2, h3⟩ := h
  exact h3 f hf

theorem trigOnce_only (k typ arg : Nat) (b : Blk) : EventOnly b (trigOnce k typ arg b) := by
  unfold trigOnce
  split
  · exact ⟨_, _, _, _, _, _, _, rfl, rfl, fun _ _ => rfl⟩
  · exact EventOnly.refl _

theorem setF_only (f : Fld) (v : Nat) (b : Blk) (h : ¬ f.apart) : EventOnly b (setF f v b) := by
  refine ⟨_, _, _, _, _, _, _, rfl, rfl, fun g hg => ?_⟩
  have hne : g.key ≠ f.key := fun e => h (by unfold Fld.apart at *; rw [← e]; exact hg)
  exact Tbl.get_set_ne _ _ _ _ _ _ hne

theorem signalMsix_only (v : Nat) (b : Blk) : EventOnly b (signalMsix v b) := by
  unfold signalMsix
  dsimp only
  split
  · refine setF_only _ _ _ fun h => ?_
    rcases Nat.mod_two_eq_zero_or_one (v / 32) with h2 | h2
    · exact h.2.1 (by rw [h2])
    · exact h.2.2 (by rw [h2])
  · exact ⟨_, _, _, _, _, _, _, rfl, rfl, fun _ _ => rfl⟩

theorem queueCell_only (d : Port) (typ : Nat) (ws : List Nat) (b : Blk) : EventOnly b (queueCell d typ ws b) := by
  cases d <;> exact ⟨_, _, _, _, _, _, _, rfl, rfl, fun _ _ => rfl⟩

theorem signalVec_only (v : Nat) (b : Blk) : EventOnly b (signalVec v b) := by
  unfold signalVec
  dsimp only
  repeat' split
  · exact EventOnly.trans ⟨_, _, _, _, _, _, _, rfl, rfl, fun _ _ => rfl⟩ (signalMsix_only _ _)
  all_goals first
    | exact EventOnly.refl _
    | exact ⟨_, _, _, _, _, _, _, rfl, rfl, fun _ _ => rfl⟩

theorem incF_only (f : Fld) (b : Blk) (h : ¬ f.apart) : EventOnly b (incF f b) := setF_only _ _ _ h

theorem setFlag_only (f : Fld) (v : Bool) (b : Blk) (h : ¬ f.apart) : EventOnly b (setFlag f v b) := setF_only _ _ _ h

theorem nvmRecord_only (k s c d : Nat) (b : Blk) : EventOnly b (nvmRecord k s c d b) := by
  unfold nvmRecord
  exact EventOnly.trans ⟨_, _, _, _, _, _, _, rfl, rfl, fun _ _ => rfl⟩ (setFlag_only _ _ _ (by unfold Fld.apart; decide))

theorem capture_only (s c : Nat) (tx : Option (Nat × Nat × Nat)) (b : Blk) : EventOnly b (capture s c tx b) := by
  unfold capture
  split
  · exact EventOnly.refl _
  · split
    · have h := (setFlag_only Reg.FCAP.STAT.MERGED true b (by unfold Fld.apart; decide)).trans
        (incF_only Reg.FCAP.STAT.MERGE_CNT _ (by unfold Fld.apart; decide))
      dsimp only
      split
      · exact h.trans (setF_only _ _ _ (by unfold Fld.apart; decide))
      · exact h.trans (setF_only _ _ _ (by unfold Fld.apart; decide))
    · dsimp only
      have h := ((((((((setFlag_only Reg.FCAP.STAT.VALID true b (by unfold Fld.apart; decide)).trans
        (setF_only Reg.FCAP.SRC.SOURCE s _ (by unfold Fld.apart; decide))).trans
        (setF_only Reg.FCAP.SRC.CLASS c _ (by unfold Fld.apart; decide))).trans
        (setF_only Reg.FCAP.SRC.MASTER (tx.getD (7, 0, 0)).1 _ (by unfold Fld.apart; decide))).trans
        (setF_only Reg.FCAP.SRC.ACCESS (tx.getD (7, 0, 0)).2.1 _ (by unfold Fld.apart; decide))).trans
        (setF_only Reg.FCAP.ADDR.ADDR (tx.getD (7, 0, 0)).2.2 _ (by unfold Fld.apart; decide))).trans
        (setF_only Reg.FCAP.T_NS.NS (stampWords b b.time.ns).1 _ (by unfold Fld.apart; decide))).trans
        (setF_only Reg.FCAP.T_SLO.SEC (stampWords b b.time.ns).2.1 _ (by unfold Fld.apart; decide)))
      exact h.trans (setF_only _ _ _ (by unfold Fld.apart; decide))

theorem sendUdp_only (p : Peer) (typ : Nat) (ws : List Word) (b : Blk) : EventOnly b (sendUdp p typ ws b) :=
  ⟨_, _, _, _, _, _, _, rfl, rfl, fun _ _ => rfl⟩

theorem tellEvent_only (ws : List Word) (x : List Sub × Blk) (s : Sub) : EventOnly x.2 (tellEvent ws x s).2 := by
  have h : ∀ p : Fin 2, ¬ (Reg.ETH.CNT_DROP.TELEM p.val).apart := by
    unfold Fld.apart
    decide
  unfold tellEvent
  dsimp only
  repeat' split
  all_goals first
    | exact sendUdp_only _ _ _ _
    | exact incF_only _ _ (h _)
    | exact EventOnly.refl _

theorem sendCell_only (d : Port) (typ dest : Nat) (bc : Bool) (arg : Nat) (ws : List Nat) (b : Blk) :
    EventOnly b (sendCell d typ dest bc arg ws b) := by
  unfold sendCell
  split
  · exact queueCell_only _ _ _ _
  · exact EventOnly.refl _

theorem tellEvents_only (ws : List Word) (l : List Sub) (x : List Sub × Blk) :
    EventOnly x.2 (l.foldl (tellEvent ws) x).2 := by
  induction l generalizing x with
  | nil => exact EventOnly.refl _
  | cons y t ih => exact (tellEvent_only ws x y).trans (ih _)

theorem announceEvent_only (s c : Nat) (b : Blk) : EventOnly b (announceEvent s c b) := by
  unfold announceEvent
  dsimp only
  split
  · exact EventOnly.refl _
  · have key : ∀ x : List Sub × Blk, EventOnly x.2 { x.2 with eth := { x.2.eth with subs := x.1 } } :=
      fun x => ⟨_, _, _, _, _, _, _, rfl, rfl, fun _ _ => rfl⟩
    split
    · exact ((tellEvents_only _ _ ([], b)).trans (key _)).trans (sendCell_only _ _ _ _ _ _ _)
    · exact (tellEvents_only _ _ ([], b)).trans (key _)

/-- Latching a source changes event records, registers of pages FCAP, NVM and ETH, NVM queue, trigger conditions, links and
trace only. -/
theorem latch_only (tx : Option (Nat × Nat × Nat)) (b : Blk) (s : Nat) : EventOnly b (latch tx b s) := by
  unfold latch
  dsimp only
  refine EventOnly.trans ?_ (announceEvent_only _ _ _)
  have h0 : ∀ r : EvRec, EventOnly b (evSet s r b) := fun r => ⟨_, _, _, _, _, _, _, rfl, rfl, fun _ _ => rfl⟩
  have h1 : ∀ (p : Prop) [Decidable p] (c : Blk), EventOnly b c → EventOnly b (if p then
      signalVec (vecOfGroup (s / 32)) c else c) := by
    intro p _ c h
    split
    · exact h.trans (signalVec_only _ _)
    · exact h
  have h4 : ∀ (p : Prop) [Decidable p] (v q : Nat) (c : Blk), EventOnly b c → EventOnly b (if p then
      nvmRecord 6 v q 0 { c with ev := { c.ev with lastLog := some c.q } } else c) := by
    intro p _ v q c h
    split
    · exact (h.trans ⟨_, _, _, _, _, _, _, rfl, rfl, fun _ _ => rfl⟩).trans (nvmRecord_only _ _ _ _ _)
    · exact h
  apply h4
  refine EventOnly.trans ?_ (capture_only _ _ _ _)
  apply h1
  exact (h0 _).trans (trigOnce_only _ 5 s _)

/-- A raise of a class below SAFE with nothing waiting to be raised latches its source and has no reaction (R350). -/
theorem raise_mild (s : Nat) (b : Blk) (h : (evGet b s).cls < 3) (hl : b.ev.late = []) : raise s b = latch none b s := by
  have h1 : raiseTx [s] none b = latch none b s := by
    have hc : topClass b [s] = (evGet b s).cls := by simp [topClass]
    have hb : byClass b [s] = [s] := by simp [byClass]
    have h2 : ∀ c : Blk, topClass c [] = 0 := fun c => rfl
    have h3 : ¬ 3 ≤ topClass b [s] := by omega
    have h4 : ¬ 3 ≤ max (topClass b [s]) 0 := by omega
    have h5 : ¬ 4 ≤ max (topClass b [s]) 0 := by omega
    have h6 : ¬ 4 ≤ topClass b [s] := by omega
    simp [raiseTx, hb, h3, h2, h6]
  unfold raise raiseAll
  rw [h1]
  unfold flushLate
  have hv : (latch none b s).ev.late = [] := by
    obtain ⟨v, r, n, g, o, e, l, h6, h7, -⟩ := latch_only none b s
    rw [h6]
    exact h7.trans hl
  rw [hv]
  simp only [raiseTx, if_true]
  have h9 : ∀ c : Blk, c.ev.late = [] → { c with ev := { c.ev with late := [] } } = c := by
    intro c h
    rw [← h]
  exact h9 _ hv

end Sys2Proof.Machine
end

