-- ==== Sys2Proof/Laws/Frame.lean ====
section
/-!
SUPPORT. What the operations leave alone: one lemma per operation says that it changes no byte of the table memories
(`_mem`), or, where it may change live bytes, that it changes no byte of the shadow copies (`_shadow`). An operation that
takes a part as an argument takes the same of that part as a premise.
-/
set_option autoImplicit false

namespace Sys2Proof.Machine

@[simp] theorem foldl_mem {α : Type} (l : List α) (g : Blk → α → Blk) (b : Blk)
    (h : ∀ b x, (g b x).shadow = b.shadow ∧ (g b x).live = b.live) :
    (l.foldl g b).shadow = b.shadow ∧ (l.foldl g b).live = b.live := by
  induction l generalizing b with
  | nil => exact ⟨rfl, rfl⟩
  | cons x t ih => rw [List.foldl_cons, (ih _).1, (ih _).2]; exact h b x
@[simp] theorem foldl_fst_mem {α β : Type} (l : List α) (g : Blk × β → α → Blk × β) (s : Blk × β)
    (h : ∀ s x, (g s x).1.shadow = s.1.shadow ∧ (g s x).1.live = s.1.live) :
    (l.foldl g s).1.shadow = s.1.shadow ∧ (l.foldl g s).1.live = s.1.live := by
  induction l generalizing s with
  | nil => exact ⟨rfl, rfl⟩
  | cons x t ih => rw [List.foldl_cons, (ih _).1, (ih _).2]; exact h s x
@[simp] theorem foldl_snd_mem {α β : Type} (l : List α) (g : β × Blk → α → β × Blk) (s : β × Blk)
    (h : ∀ s x, (g s x).2.shadow = s.2.shadow ∧ (g s x).2.live = s.2.live) :
    (l.foldl g s).2.shadow = s.2.shadow ∧ (l.foldl g s).2.live = s.2.live := by
  induction l generalizing s with
  | nil => exact ⟨rfl, rfl⟩
  | cons x t ih => rw [List.foldl_cons, (ih _).1, (ih _).2]; exact h s x
@[simp] theorem foldl_shadow {α : Type} (l : List α) (g : Blk → α → Blk) (b : Blk) (h : ∀ b x, (g b x).shadow = b.shadow) :
    (l.foldl g b).shadow = b.shadow := by
  induction l generalizing b with
  | nil => rfl
  | cons x t ih => rw [List.foldl_cons, ih, h]
@[simp] theorem foldl_fst_shadow {α β : Type} (l : List α) (g : Blk × β → α → Blk × β) (s : Blk × β)
    (h : ∀ s x, (g s x).1.shadow = s.1.shadow) : (l.foldl g s).1.shadow = s.1.shadow := by
  induction l generalizing s with
  | nil => rfl
  | cons x t ih => rw [List.foldl_cons, ih, h]
@[simp] theorem foldl_snd_shadow {α β : Type} (l : List α) (g : β × Blk → α → β × Blk) (s : β × Blk)
    (h : ∀ s x, (g s x).2.shadow = s.2.shadow) : (l.foldl g s).2.shadow = s.2.shadow := by
  induction l generalizing s with
  | nil => rfl
  | cons x t ih => rw [List.foldl_cons, ih, h]
@[simp] theorem ite_shadow (c : Prop) [Decidable c] (x y : Blk) : (if c then x else y).shadow = if c then x.shadow else
    y.shadow := by
  split <;> rfl
@[simp] theorem ite_live (c : Prop) [Decidable c] (x y : Blk) : (if c then x else y).live = if c then x.live else y.live := by
  split <;> rfl
@[simp] theorem ite_fst {α β : Type} (c : Prop) [Decidable c] (x y : α × β) :
    (if c then x else y).1 = if c then x.1 else y.1 := by split <;> rfl
@[simp] theorem ite_snd {α β : Type} (c : Prop) [Decidable c] (x y : α × β) :
    (if c then x else y).2 = if c then x.2 else y.2 := by split <;> rfl
@[simp] theorem setChan_mem (c : Nat) (x : ChanSt) (b : Blk) : (setChan c x b).shadow = b.shadow ∧
    (setChan c x b).live = b.live := by
  unfold setChan
  simp
@[simp] theorem setF_mem (f : Fld) (v : Nat) (b : Blk) : (setF f v b).shadow = b.shadow ∧ (setF f v b).live = b.live
    := by
  unfold setF
  simp
@[simp] theorem setFlag_mem (f : Fld) (v : Bool) (b : Blk) : (setFlag f v b).shadow = b.shadow ∧ (setFlag f v b).live
    = b.live := by
  unfold setFlag
  simp
@[simp] theorem injectEcc_mem (t : Nat) (live : Bool) (a : Nat) (b : Blk) : (injectEcc t live a b).2.shadow = b.shadow
    ∧ (injectEcc t live a b).2.live = b.live := by
  unfold injectEcc
  simp
@[simp] theorem healed_mem (live : Bool) (lo : Nat) (hi : Nat) (b : Blk) : (healed live lo hi b).shadow = b.shadow ∧
    (healed live lo hi b).live = b.live := by
  unfold healed
  simp [*]
@[simp] theorem putRec_shadow (hdr : Nat) (ws : List Nat) (b : Blk) : (putRec hdr ws b).shadow = b.shadow := by
  unfold putRec
  simp [*]
@[simp] theorem lose_mem (c : Nat) (n : Nat) (fst : Nat × Nat) (lst : Nat × Nat) (b : Blk) :
    (lose c n fst lst b).shadow = b.shadow ∧ (lose c n fst lst b).live = b.live := by
  unfold lose
  simp
@[simp] theorem losePart_mem (b : Blk) (c : Nat) : (losePart b c).shadow = b.shadow ∧ (losePart b c).live = b.live :=
    by
  unfold losePart
  simp
@[simp] theorem trigOnce_mem (k : Nat) (typ : Nat) (arg : Nat) (b : Blk) : (trigOnce k typ arg b).shadow = b.shadow ∧
    (trigOnce k typ arg b).live = b.live := by
  unfold trigOnce
  simp
@[simp] theorem evSet_mem (s : Nat) (r : EvRec) (b : Blk) : (evSet s r b).shadow = b.shadow ∧ (evSet s r b).live =
    b.live := by
  unfold evSet
  simp
@[simp] theorem send_mem (o : Out) (b : Blk) : (send o b).shadow = b.shadow ∧ (send o b).live = b.live := by
  unfold send
  simp
@[simp] theorem signalMsix_mem (v : Nat) (b : Blk) : (signalMsix v b).shadow = b.shadow ∧ (signalMsix v b).live =
    b.live := by
  unfold signalMsix
  simp
@[simp] theorem signalVec_mem (v : Nat) (b : Blk) : (signalVec v b).shadow = b.shadow ∧ (signalVec v b).live = b.live
    := by
  unfold signalVec
  simp
@[simp] theorem incF_mem (f : Fld) (b : Blk) : (incF f b).shadow = b.shadow ∧ (incF f b).live = b.live := by
  unfold incF
  simp
@[simp] theorem capture_mem (s : Nat) (c : Nat) (tx : Option (Nat × Nat × Nat)) (b : Blk) : (capture s c tx b).shadow
    = b.shadow ∧ (capture s c tx b).live = b.live := by
  unfold capture
  simp
@[simp] theorem nvmRecord_mem (kind : Nat) (src : Nat) (cls : Nat) (detail : Nat) (b : Blk) :
    (nvmRecord kind src cls detail b).shadow = b.shadow ∧ (nvmRecord kind src cls detail b).live = b.live := by
  unfold nvmRecord
  simp
@[simp] theorem sendUdp_mem (p : Peer) (typ : Nat) (body : List Word) (b : Blk) : (sendUdp p typ body b).shadow =
    b.shadow ∧ (sendUdp p typ body b).live = b.live := by
  unfold sendUdp
  simp
@[simp] theorem tellEvent_mem (ws : List Word) (x : List Sub × Blk) (s : Sub) : (tellEvent ws x s).2.shadow =
    x.2.shadow ∧ (tellEvent ws x s).2.live = x.2.live := by
  unfold tellEvent
  simp
@[simp] theorem setPort_mem (d : Port) (x : PortSt) (b : Blk) : (setPort d x b).shadow = b.shadow ∧
    (setPort d x b).live = b.live := by
  unfold setPort
  repeat' (first | (simp; done) | split)
@[simp] theorem queueCell_mem (d : Port) (typ : Nat) (ws : List Nat) (b : Blk) : (queueCell d typ ws b).shadow =
    b.shadow ∧ (queueCell d typ ws b).live = b.live := by
  unfold queueCell
  simp
@[simp] theorem sendCell_mem (d : Port) (typ : Nat) (dest : Nat) (bcast : Bool) (arg : Nat) (ws : List Nat) (b : Blk)
    : (sendCell d typ dest bcast arg ws b).shadow = b.shadow ∧ (sendCell d typ dest bcast arg ws b).live = b.live :=
    by
  unfold sendCell
  simp
@[simp] theorem announceEvent_mem (s : Nat) (c : Nat) (b : Blk) : (announceEvent s c b).shadow = b.shadow ∧
    (announceEvent s c b).live = b.live := by
  unfold announceEvent
  simp
@[simp] theorem latch_mem (tx : Option (Nat × Nat × Nat)) (b : Blk) (s : Nat) : (latch tx b s).shadow = b.shadow ∧
    (latch tx b s).live = b.live := by
  unfold latch
  simp
@[simp] theorem setElem_mem (e : Nat) (x : Elem) (b : Blk) : (setElem e x b).shadow = b.shadow ∧ (setElem e x b).live
    = b.live := by
  unfold setElem
  simp
@[simp] theorem updElem_mem (e : Nat) (f : Elem → Elem) (b : Blk) : (updElem e f b).shadow = b.shadow ∧
    (updElem e f b).live = b.live := by
  unfold updElem
  simp
@[simp] theorem updElems_mem (es : List Nat) (f : Nat → Elem → Elem) (b : Blk) : (updElems es f b).shadow = b.shadow ∧
    (updElems es f b).live = b.live := by
  unfold updElems
  simp
@[simp] theorem emptyFreeze_mem (b : Blk) : (emptyFreeze b).shadow = b.shadow ∧ (emptyFreeze b).live = b.live := by
  unfold emptyFreeze
  simp
@[simp] theorem clearArms_mem (b : Blk) : (clearArms b).shadow = b.shadow ∧ (clearArms b).live = b.live := by
  unfold clearArms
  simp
@[simp] theorem disarm_mem (b : Blk) : (disarm b).shadow = b.shadow ∧ (disarm b).live = b.live := by
  unfold disarm
  simp
@[simp] theorem show2pc_mem (seq : Word) (res : Nat) (member : Nat) (code : Nat) (b : Blk) :
    (show2pc seq res member code b).shadow = b.shadow ∧ (show2pc seq res member code b).live = b.live := by
  unfold show2pc
  simp
@[simp] theorem sendDown3_mem (typ : Nat) (seq : Word) (ws : List Word) (b : Blk) : (sendDown3 typ seq ws b).shadow =
    b.shadow ∧ (sendDown3 typ seq ws b).live = b.live := by
  unfold sendDown3
  simp
@[simp] theorem showQueue_mem (b : Blk) : (showQueue b).shadow = b.shadow ∧ (showQueue b).live = b.live := by
  unfold showQueue
  simp
@[simp] theorem sendUp3_mem (typ : Nat) (seq : Word) (ws : List Word) (b : Blk) : (sendUp3 typ seq ws b).shadow =
    b.shadow ∧ (sendUp3 typ seq ws b).live = b.live := by
  unfold sendUp3
  simp
@[simp] theorem raiseLate_mem (s : Nat) (b : Blk) : (raiseLate s b).shadow = b.shadow ∧ (raiseLate s b).live = b.live
    := by
  unfold raiseLate
  simp
@[simp] theorem addCpl_mem (ring : Bool) (ws : List Word) (b : Blk) : (addCpl ring ws b).shadow = b.shadow ∧
    (addCpl ring ws b).live = b.live := by
  unfold addCpl
  simp
@[simp] theorem postRecord_mem (ring : Bool) (peer : Option Peer) (msg : Word) (ws : List Word) (b : Blk) :
    (postRecord ring peer msg ws b).shadow = b.shadow ∧ (postRecord ring peer msg ws b).live = b.live := by
  unfold postRecord
  repeat' (first | (simp; done) | split)
@[simp] theorem dropFrame_mem (i : Nat) (c : Nat) (b : Blk) : (dropFrame i c b).shadow = b.shadow ∧
    (dropFrame i c b).live = b.live := by
  unfold dropFrame
  repeat' (first | (simp; done) | split)
@[simp] theorem withdrawFrom_mem (i : Nat) (c : Nat) (c' : Nat) (b : Blk) : (withdrawFrom i c c' b).shadow = b.shadow
    ∧ (withdrawFrom i c c' b).live = b.live := by
  unfold withdrawFrom
  repeat' (first | (simp; done) | split)
@[simp] theorem withdrawAll_mem (b : Blk) : (withdrawAll b).shadow = b.shadow ∧ (withdrawAll b).live = b.live := by
  unfold withdrawAll
  simp
@[simp] theorem setMode_mem (m : Mode) (b : Blk) : (setMode m b).shadow = b.shadow ∧ (setMode m b).live = b.live := by
  unfold setMode
  simp
@[simp] theorem enterMode_mem (m : Mode) (b : Blk) : (enterMode m b).shadow = b.shadow ∧ (enterMode m b).live = b.live
    := by
  unfold enterMode
  simp
@[simp] theorem lifeAdd_mem (w : Nat) (n : Nat) (b : Blk) : (lifeAdd w n b).shadow = b.shadow ∧ (lifeAdd w n b).live =
    b.live := by
  unfold lifeAdd
  simp
@[simp] theorem nvmCounters_mem (b : Blk) : (nvmCounters b).shadow = b.shadow ∧ (nvmCounters b).live = b.live := by
  unfold nvmCounters
  simp
@[simp] theorem setBank_mem (n : Nat) (x : Bank) (b : Blk) : (setBank n x b).shadow = b.shadow ∧ (setBank n x b).live
    = b.live := by
  unfold setBank
  simp
@[simp] theorem clearBanks_mem (b : Blk) : (clearBanks b).shadow = b.shadow ∧ (clearBanks b).live = b.live := by
  unfold clearBanks
  simp
@[simp] theorem dropReq_mem (b : Blk) : (dropReq b).shadow = b.shadow ∧ (dropReq b).live = b.live := by
  unfold dropReq
  simp
@[simp] theorem shutdownActions_mem (s : Nat) (b : Blk) : (shutdownActions s b).shadow = b.shadow ∧
    (shutdownActions s b).live = b.live := by
  unfold shutdownActions
  simp
@[simp] theorem safeActions_mem (b : Blk) : (safeActions b).shadow = b.shadow ∧ (safeActions b).live = b.live := by
  unfold safeActions
  simp
@[simp] theorem raiseTx_mem (ss : List Nat) (tx : Option (Nat × Nat × Nat)) (b : Blk) : (raiseTx ss tx b).shadow =
    b.shadow ∧ (raiseTx ss tx b).live = b.live := by
  unfold raiseTx
  simp
@[simp] theorem flushLate_mem (b : Blk) : (flushLate b).shadow = b.shadow ∧ (flushLate b).live = b.live := by
  unfold flushLate
  simp
@[simp] theorem raiseAll_mem (ss : List Nat) (b : Blk) : (raiseAll ss b).shadow = b.shadow ∧ (raiseAll ss b).live =
    b.live := by
  unfold raiseAll
  simp
@[simp] theorem raise_mem (s : Nat) (b : Blk) : (raise s b).shadow = b.shadow ∧ (raise s b).live = b.live := by
  unfold raise
  simp
@[simp] theorem enterDrop_mem (b : Blk) : (enterDrop b).shadow = b.shadow ∧ (enterDrop b).live = b.live := by
  unfold enterDrop
  simp
@[simp] theorem holdRec_mem (hdr : Nat) (ws : List Nat) (b : Blk) : (holdRec hdr ws b).shadow = b.shadow ∧
    (holdRec hdr ws b).live = b.live := by
  unfold holdRec
  simp [*]
@[simp] theorem dueRec_shadow (hdr : Nat) (ws : List Nat) (b : Blk) : (dueRec hdr ws b).shadow = b.shadow := by
  unfold dueRec
  simp [*]
@[simp] theorem putSync_shadow (b : Blk) : (putSync b).shadow = b.shadow := by
  unfold putSync
  simp
@[simp] theorem dueSync_shadow (b : Blk) : (dueSync b).shadow = b.shadow := by
  unfold dueSync
  simp
@[simp] theorem acqStepped_shadow (b : Blk) : (acqStepped b).shadow = b.shadow := by
  unfold acqStepped
  simp
@[simp] theorem flushData_shadow (b : Blk) (c : Nat) : (flushData b c).shadow = b.shadow := by
  unfold flushData
  simp
@[simp] theorem streamSample_shadow (c : Nat) (s : Samp) (b : Blk) : (streamSample c s b).shadow = b.shadow := by
  unfold streamSample
  simp
@[simp] theorem chanSample_shadow (c : Nat) (s : Samp) (b : Blk) : (chanSample c s b).shadow = b.shadow := by
  unfold chanSample
  simp
@[simp] theorem takeFree_mem (b : Blk) : (takeFree b).2.shadow = b.shadow ∧ (takeFree b).2.live = b.live := by
  unfold takeFree
  simp
@[simp] theorem reduceGroup_mem (red : Nat) (x : ChanSt) (b : Blk) : (reduceGroup red x b).2.shadow = b.shadow ∧
    (reduceGroup red x b).2.live = b.live := by
  unfold reduceGroup
  repeat' (first | (simp; done) | split)
@[simp] theorem chanFeed_shadow (c : Nat) (idx : Nat) (q : Nat) (lat : Nat) (v : Int) (code : Nat) (void : Bool)
    (b : Blk) : (chanFeed c idx q lat v code void b).shadow = b.shadow := by
  unfold chanFeed
  simp
@[simp] theorem outFeed_shadow (j : Nat) (c : Nat) (b : Blk) : (outFeed j c b).shadow = b.shadow := by
  unfold outFeed
  simp
@[simp] theorem acqOuts_shadow (k : Nat) (b : Blk) : (acqOuts k b).shadow = b.shadow := by
  unfold acqOuts
  simp
@[simp] theorem acqFrame_shadow (e : Nat) (j : Nat) (c : Nat × Option Nat) (d : Option Int) (b : Blk) :
    (acqFrame e j c d b).shadow = b.shadow := by
  unfold acqFrame
  simp
@[simp] theorem acqSlot_mem (e : Nat) (b : Blk) : (acqSlot e b).shadow = b.shadow ∧ (acqSlot e b).live = b.live := by
  unfold acqSlot
  simp
@[simp] theorem acqTick_shadow (n : Nat) (b : Blk) : (acqTick n b).shadow = b.shadow := by
  unfold acqTick
  repeat' (first | (simp; done) | split | dsimp only | refine foldl_mem _ _ _ (fun _ _ => ?_) | refine foldl_shadow _ _ _ (fun _ _ => ?_))
@[simp] theorem endMeas_shadow (short : Bool) (b : Blk) (c : Nat) : (endMeas short b c).shadow = b.shadow := by
  unfold endMeas
  repeat' (first | (simp; done) | split)
@[simp] theorem startMeas_shadow (t : Nat) (stamp : Nat) (origin : Nat) (stop : Option Nat) (b : Blk) :
    (startMeas t stamp origin stop b).shadow = b.shadow := by
  unfold startMeas
  simp
@[simp] theorem closeMeas_mem (z : Nat) (b : Blk) : (closeMeas z b).shadow = b.shadow ∧ (closeMeas z b).live = b.live
    := by
  unfold closeMeas
  simp
@[simp] theorem acqStart_shadow (b : Blk) : (acqStart b).shadow = b.shadow := by
  unfold acqStart
  simp
@[simp] theorem acqRunDo_mem (v : Word) (b : Blk) : (acqRunDo v b).shadow = b.shadow ∧ (acqRunDo v b).live = b.live :=
    by
  unfold acqRunDo
  simp
@[simp] theorem chanEnable_mem (c : Nat) (v : Word) (b : Blk) : (chanEnable c v b).shadow = b.shadow ∧
    (chanEnable c v b).live = b.live := by
  unfold chanEnable
  simp
@[simp] theorem toEdge_mem (x : Nat) (b : Blk) : (toEdge x b).shadow = b.shadow ∧ (toEdge x b).live = b.live := by
  unfold toEdge
  simp
@[simp] theorem atQ_mem (t : Nat) (f : Blk → Blk) (b : Blk)
    (hf : ∀ y0, (f y0).shadow = y0.shadow ∧ (f y0).live = y0.live) : (atQ t f b).shadow = b.shadow ∧ (atQ t f b).live
    = b.live := by
  unfold atQ
  simp [*]
@[simp] theorem atQ_shadow (t : Nat) (f : Blk → Blk) (b : Blk) (h : ∀ b, (f b).shadow = b.shadow) : (atQ t f b).shadow
    = b.shadow := by
  unfold atQ
  simp [*]
@[simp] theorem acqFlush_shadow (c : Nat) (b : Blk) : (acqFlush c b).shadow = b.shadow := by
  unfold acqFlush
  simp
@[simp] theorem putGap_shadow (b : Blk) : (putGap b).shadow = b.shadow := by
  unfold putGap
  simp
@[simp] theorem acqResume_shadow (b : Blk) : (acqResume b).shadow = b.shadow := by
  unfold acqResume
  simp
@[simp] theorem syncRecord_shadow (b : Blk) : (syncRecord b).shadow = b.shadow := by
  unfold syncRecord
  simp
@[simp] theorem i2cWrite_mem (bs : List Byte) (b : Blk) : (i2cWrite bs b).shadow = b.shadow ∧ (i2cWrite bs b).live =
    b.live := by
  unfold i2cWrite
  repeat' (first | (simp; done) | split)
@[simp] theorem i2cRead_mem (n : Nat) (b : Blk) : (i2cRead n b).shadow = b.shadow ∧ (i2cRead n b).live = b.live := by
  unfold i2cRead
  simp
@[simp] theorem setRaw_mem (s : Nat) (v : Bool) (b : Blk) : (setRaw s v b).shadow = b.shadow ∧ (setRaw s v b).live =
    b.live := by
  unfold setRaw
  simp
@[simp] theorem raiseIf_mem (p : Bool) (s : Nat) (b : Blk) : (raiseIf p s b).shadow = b.shadow ∧ (raiseIf p s b).live
    = b.live := by
  unfold raiseIf
  simp
@[simp] theorem selectIr_mem (ir : Nat) (v : Nat) (b : Blk) : (selectIr ir v b).shadow = b.shadow ∧
    (selectIr ir v b).live = b.live := by
  unfold selectIr
  simp
@[simp] theorem resendImage_mem (b : Blk) : (resendImage b).shadow = b.shadow ∧ (resendImage b).live = b.live := by
  unfold resendImage
  simp
@[simp] theorem showTables_mem (b : Blk) : (showTables b).shadow = b.shadow ∧ (showTables b).live = b.live := by
  unfold showTables
  simp
@[simp] theorem copyLive_shadow (lo : Nat) (hi : Nat) (b : Blk) : (copyLive lo hi b).shadow = b.shadow := by
  unfold copyLive
  simp [*]
@[simp] theorem takeElements_shadow (b : Blk) : (takeElements b).shadow = b.shadow := by
  unfold takeElements
  simp
@[simp] theorem xtCrcDone_mem (b : Blk) : (xtCrcDone b).shadow = b.shadow ∧ (xtCrcDone b).live = b.live := by
  unfold xtCrcDone
  simp
@[simp] theorem takeCrosstalk_shadow (b : Blk) : (takeCrosstalk b).shadow = b.shadow := by
  unfold takeCrosstalk
  simp
@[simp] theorem takeShapes_shadow (b : Blk) : (takeShapes b).shadow = b.shadow := by
  unfold takeShapes
  simp
@[simp] theorem takeClass_mem (c : Nat) (b : Blk) : (takeClass c b).shadow = b.shadow ∧ (takeClass c b).live = b.live
    := by
  unfold takeClass
  simp
@[simp] theorem takeSlot_shadow (s : Nat) (b : Blk) : (takeSlot s b).shadow = b.shadow := by
  unfold takeSlot
  simp
@[simp] theorem takeOffsets_shadow (n : Nat) (b : Blk) : (takeOffsets n b).shadow = b.shadow := by
  unfold takeOffsets
  simp
@[simp] theorem takeRtds_mem (b : Blk) : (takeRtds b).shadow = b.shadow ∧ (takeRtds b).live = b.live := by
  unfold takeRtds
  simp
@[simp] theorem takeProgram_shadow (b : Blk) : (takeProgram b).shadow = b.shadow := by
  unfold takeProgram
  simp
@[simp] theorem leaveBoot_mem (b : Blk) : (leaveBoot b).shadow = b.shadow ∧ (leaveBoot b).live = b.live := by
  unfold leaveBoot
  simp
@[simp] theorem orphan_mem (m : Nat) (r : Burst) (b : Blk) : (orphan m r b).shadow = b.shadow ∧ (orphan m r b).live =
    b.live := by
  unfold orphan
  simp
@[simp] theorem masterReset_mem (m : Nat) (x : MstReset) (b : Blk) : (masterReset m x b).shadow = b.shadow ∧
    (masterReset m x b).live = b.live := by
  unfold masterReset
  simp
@[simp] theorem setPortState_mem (d : Port) (v : Nat) (b : Blk) : (setPortState d v b).shadow = b.shadow ∧
    (setPortState d v b).live = b.live := by
  unfold setPortState
  repeat' (first | simp | split)
@[simp] theorem passCell_mem (x : Cell) (take : Blk → Blk) (b : Blk)
    (htake : ∀ y0, (take y0).shadow = y0.shadow ∧ (take y0).live = y0.live) : (passCell x take b).shadow = b.shadow ∧
    (passCell x take b).live = b.live := by
  unfold passCell
  simp [*]
@[simp] theorem setFrame_mem (i : Nat) (f : Frame) (b : Blk) : (setFrame i f b).shadow = b.shadow ∧
    (setFrame i f b).live = b.live := by
  unfold setFrame
  simp
@[simp] theorem refuseBroken_mem (late : Frame → Bool) (b : Blk) : (refuseBroken late b).shadow = b.shadow ∧
    (refuseBroken late b).live = b.live := by
  unfold refuseBroken
  repeat' (first | (simp; done) | split | dsimp only | refine foldl_mem _ _ _ (fun _ _ => ?_))
@[simp] theorem memberTick_mem (b : Blk) : (memberTick b).shadow = b.shadow ∧ (memberTick b).live = b.live := by
  unfold memberTick
  repeat' (first | (simp; done) | split | dsimp only)
@[simp] theorem resendVmeas_mem (b : Blk) : (resendVmeas b).shadow = b.shadow ∧ (resendVmeas b).live = b.live := by
  unfold resendVmeas
  simp
@[simp] theorem closeLink_mem (b : Blk) (d : Port) : (closeLink b d).shadow = b.shadow ∧ (closeLink b d).live = b.live
    := by
  unfold closeLink
  simp
@[simp] theorem sendTime_mem (b : Blk) (d : Port) : (sendTime b d).shadow = b.shadow ∧ (sendTime b d).live = b.live :=
    by
  unfold sendTime
  simp
@[simp] theorem glewTick_mem (b : Blk) : (glewTick b).shadow = b.shadow ∧ (glewTick b).live = b.live := by
  unfold glewTick
  simp
@[simp] theorem membersLost_mem (ks : List Nat) (b : Blk) : (membersLost ks b).shadow = b.shadow ∧
    (membersLost ks b).live = b.live := by
  unfold membersLost
  simp
@[simp] theorem cascSplit_mem (k : Nat) (b : Blk) : (cascSplit k b).shadow = b.shadow ∧ (cascSplit k b).live = b.live
    := by
  unfold cascSplit
  simp
@[simp] theorem masterCut_mem (b : Blk) : (masterCut b).shadow = b.shadow ∧ (masterCut b).live = b.live := by
  unfold masterCut
  simp
@[simp] theorem enterHoldover_mem (change : Bool) (b : Blk) : (enterHoldover change b).shadow = b.shadow ∧
    (enterHoldover change b).live = b.live := by
  unfold enterHoldover
  simp
@[simp] theorem memberCut_mem (b : Blk) : (memberCut b).shadow = b.shadow ∧ (memberCut b).live = b.live := by
  unfold memberCut
  simp
@[simp] theorem startPort_mem (b : Blk) (d : Port) : (startPort b d).shadow = b.shadow ∧ (startPort b d).live = b.live
    := by
  unfold startPort
  simp
theorem ite_app {c : Prop} [Decidable c] {f g : Blk → Blk} (x : Blk) : (if c then f else g) x = if c then f x else g x
    := by
  split <;> rfl
@[simp] theorem dropPort_mem (d : Port) (b : Blk) : (dropPort d b).shadow = b.shadow ∧ (dropPort d b).live = b.live :=
    by
  unfold dropPort
  cases d <;> simp [ite_app]
@[simp] theorem portDown_mem (d : Port) (b : Blk) : (portDown d b).shadow = b.shadow ∧ (portDown d b).live = b.live :=
    by
  have h : ∀ (c : Prop) [Decidable c] (f g : Blk → Blk) (x : Blk), (if c then f else g) x = if c then f x else g x := by
    intro c _ f g x; split <;> rfl
  cases d <;> simp [portDown, h]
@[simp] theorem leaveRun_mem (d : Port) (y : MstReset) (b : Blk) : (leaveRun d y b).shadow = b.shadow ∧
    (leaveRun d y b).live = b.live := by
  unfold leaveRun
  simp
@[simp] theorem badCell_mem (d : Port) (isTime : Bool) (y : MstReset) (b : Blk) : (badCell d isTime y b).shadow =
    b.shadow ∧ (badCell d isTime y b).live = b.live := by
  unfold badCell
  simp
@[simp] theorem onCell_mem (typ : Nat) (x : Cell) (take : Blk → Blk) (b : Blk)
    (htake : ∀ y0, (take y0).shadow = y0.shadow ∧ (take y0).live = y0.live) : (onCell typ x take b).shadow = b.shadow
    ∧ (onCell typ x take b).live = b.live := by
  unfold onCell
  simp [*]
@[simp] theorem glewCfgDo_mem (v : Word) (b : Blk) : (glewCfgDo v b).shadow = b.shadow ∧ (glewCfgDo v b).live = b.live
    := by
  unfold glewCfgDo
  simp
@[simp] theorem idCell_mem (x : Cell) (b : Blk) : (idCell x b).shadow = b.shadow ∧ (idCell x b).live = b.live := by
  unfold idCell
  simp
@[simp] theorem portRun_mem (d : Port) (b : Blk) : (portRun d b).shadow = b.shadow ∧ (portRun d b).live = b.live := by
  unfold portRun
  repeat' (first | (simp; done) | split)
@[simp] theorem measureDone_mem (d : Port) (b : Blk) : (measureDone d b).shadow = b.shadow ∧ (measureDone d b).live =
    b.live := by
  unfold measureDone
  repeat' (first | (simp; done) | split)
@[simp] theorem cellCrc_mem (x : Cell) (isTime : Bool) (y : MstReset) (b : Blk) : (cellCrc x isTime y b).shadow =
    b.shadow ∧ (cellCrc x isTime y b).live = b.live := by
  unfold cellCrc
  simp
@[simp] theorem timeCell_mem (x : TimeCell) (b : Blk) : (timeCell x b).shadow = b.shadow ∧ (timeCell x b).live =
    b.live := by
  unfold timeCell
  simp
@[simp] theorem lockStep_mem (o : Int) (b : Blk) : (lockStep o b).shadow = b.shadow ∧ (lockStep o b).live = b.live :=
    by
  unfold lockStep
  simp
@[simp] theorem anchor_mem (b : Blk) : (anchor b).shadow = b.shadow ∧ (anchor b).live = b.live := by
  unfold anchor
  simp
@[simp] theorem addLocal_mem (d : Int) (b : Blk) : (addLocal d b).shadow = b.shadow ∧ (addLocal d b).live = b.live :=
    by
  unfold addLocal
  simp
@[simp] theorem applyStep_shadow (d : Int) (b : Blk) : (applyStep d b).shadow = b.shadow := by
  unfold applyStep
  simp
@[simp] theorem stepLocal_shadow (d : Int) (b : Blk) : (stepLocal d b).shadow = b.shadow := by
  unfold stepLocal
  simp
@[simp] theorem slew_mem (o : Int) (nom : Nat) (b : Blk) : (slew o nom b).shadow = b.shadow ∧ (slew o nom b).live =
    b.live := by
  unfold slew
  simp
@[simp] theorem offsetUpdate_shadow (o : Int) (nom : Nat) (force : Bool) (b : Blk) :
    (offsetUpdate o nom force b).shadow = b.shadow := by
  unfold offsetUpdate
  simp
@[simp] theorem glewOffsetUpdate_shadow (b : Blk) : (glewOffsetUpdate b).shadow = b.shadow := by
  unfold glewOffsetUpdate
  simp
@[simp] theorem statusCell_mem (x : Cell) (b : Blk) : (statusCell x b).shadow = b.shadow ∧ (statusCell x b).live =
    b.live := by
  unfold statusCell
  simp
@[simp] theorem memberLost_mem (k : Nat) (b : Blk) : (memberLost k b).shadow = b.shadow ∧ (memberLost k b).live =
    b.live := by
  unfold memberLost
  repeat' (first | (simp; done) | split | dsimp only)
@[simp] theorem ledgerCell_mem (x : Cell) (b : Blk) : (ledgerCell x b).shadow = b.shadow ∧ (ledgerCell x b).live =
    b.live := by
  unfold ledgerCell
  simp
@[simp] theorem abortFrame_mem (i : Nat) (member : Nat) (code : Nat) (b : Blk) : (abortFrame i member code b).shadow =
    b.shadow ∧ (abortFrame i member code b).live = b.live := by
  unfold abortFrame
  repeat' (first | simp | split)
@[simp] theorem tryCommit_mem (b : Blk) : (tryCommit b).shadow = b.shadow ∧ (tryCommit b).live = b.live := by
  unfold tryCommit
  repeat' (first | (simp; done) | split | dsimp only)
@[simp] theorem readyCell_mem (x : Cell) (b : Blk) : (readyCell x b).shadow = b.shadow ∧ (readyCell x b).live = b.live
    := by
  refine onCell_mem _ _ _ _ fun b => ?_
  dsimp only
  cases (if isMember b then none else frameWith b (pw x 1)) with
  | none => simp
  | some i => cases h : b.sched.queue[i]? <;> simp [h]
@[simp] theorem readyTimeout_mem (b : Blk) : (readyTimeout b).shadow = b.shadow ∧ (readyTimeout b).live = b.live := by
  unfold readyTimeout
  repeat' (first | (simp; done) | split | dsimp only)
@[simp] theorem summaryCell_mem (x : Cell) (b : Blk) : (summaryCell x b).shadow = b.shadow ∧ (summaryCell x b).live =
    b.live := by
  unfold summaryCell
  repeat' (first | simp | split | dsimp only | refine foldl_mem _ _ _ (fun _ _ => ?_) | refine foldl_shadow _ _ _ (fun _ _ => ?_) | refine onCell_mem _ _ _ _ (fun _ => ?_))
@[simp] theorem eventCell_mem (x : Cell) (b : Blk) : (eventCell x b).shadow = b.shadow ∧ (eventCell x b).live = b.live
    := by
  unfold eventCell
  simp
@[simp] theorem mevtRead_mem (m : Master) (b : Blk) : (mevtRead m b).shadow = b.shadow ∧ (mevtRead m b).live = b.live
    := by
  unfold mevtRead
  repeat' (first | (simp; done) | split)
@[simp] theorem frameCell_mem (x : Cell) (b : Blk) : (frameCell x b).shadow = b.shadow ∧ (frameCell x b).live = b.live
    := by
  unfold frameCell
  simp
@[simp] theorem fillStates_mem (i : Nat) (ws : Option (Tbl (List Word))) (f : Frame) (b : Blk) :
    (fillStates i ws f b).shadow = b.shadow ∧ (fillStates i ws f b).live = b.live := by
  unfold fillStates
  simp
@[simp] theorem statesCell_mem (x : Cell) (b : Blk) : (statesCell x b).shadow = b.shadow ∧ (statesCell x b).live =
    b.live := by
  refine onCell_mem _ _ _ _ fun b => ?_
  dsimp only
  cases (if isMember b then filling b else none) with
  | none => simp
  | some i => cases h : b.sched.queue[i]? <;> simp [h]
@[simp] theorem nochangeCell_mem (x : Cell) (b : Blk) : (nochangeCell x b).shadow = b.shadow ∧ (nochangeCell x b).live
    = b.live := by
  unfold nochangeCell
  repeat' (first | simp | split | dsimp only | refine foldl_mem _ _ _ (fun _ _ => ?_) | refine foldl_shadow _ _ _ (fun _ _ => ?_) | refine onCell_mem _ _ _ _ (fun _ => ?_))
@[simp] theorem commitCell_mem (x : Cell) (b : Blk) : (commitCell x b).shadow = b.shadow ∧ (commitCell x b).live =
    b.live := by
  unfold commitCell
  repeat' (first | simp | split | dsimp only | refine foldl_mem _ _ _ (fun _ _ => ?_) | refine foldl_shadow _ _ _ (fun _ _ => ?_) | refine onCell_mem _ _ _ _ (fun _ => ?_))
@[simp] theorem abortCell_mem (x : Cell) (b : Blk) : (abortCell x b).shadow = b.shadow ∧ (abortCell x b).live = b.live
    := by
  unfold abortCell
  repeat' (first | (simp; done) | split | dsimp only | refine foldl_mem _ _ _ (fun _ _ => ?_) | refine foldl_shadow _ _ _ (fun _ _ => ?_) | refine onCell_mem _ _ _ _ (fun _ => ?_))
@[simp] theorem ctrlPauseClr_mem (x : Cell) (b : Blk) : (ctrlPauseClr x b).shadow = b.shadow ∧ (ctrlPauseClr x b).live
    = b.live := by
  unfold ctrlPauseClr
  simp
@[simp] theorem unfreeze_mem (was : Bool) (now : Bool) (n : Nat) (b : Blk) : (unfreeze was now n b).shadow = b.shadow
    ∧ (unfreeze was now n b).live = b.live := by
  unfold unfreeze
  simp
@[simp] theorem extinctionCheck_shadow (e : Nat) (j : Nat) (ca : BitVec 14) (cb : BitVec 14) (b : Blk) :
    (extinctionCheck e j ca cb b).shadow = b.shadow := by
  unfold extinctionCheck
  simp
@[simp] theorem decodeErr_mem (m : Master) (write : Bool) (a : Nat) (b : Blk) : (decodeErr m write a b).shadow =
    b.shadow ∧ (decodeErr m write a b).live = b.live := by
  unfold decodeErr
  simp
@[simp] theorem drvEnDo_mem (n : Nat) (v : Word) (b : Blk) : (drvEnDo n v b).shadow = b.shadow ∧ (drvEnDo n v b).live
    = b.live := by
  unfold drvEnDo
  simp
@[simp] theorem clearLatches_mem (base : Nat) (n : Nat) (v : Word) (b : Blk) : (clearLatches base n v b).shadow =
    b.shadow ∧ (clearLatches base n v b).live = b.live := by
  unfold clearLatches
  simp
@[simp] theorem writeMasks_mem (base : Nat) (n : Nat) (v : Word) (b : Blk) : (writeMasks base n v b).shadow = b.shadow
    ∧ (writeMasks base n v b).live = b.live := by
  unfold writeMasks
  simp
@[simp] theorem forceDo_mem (base : Nat) (n : Nat) (v : Word) (b : Blk) : (forceDo base n v b).shadow = b.shadow ∧
    (forceDo base n v b).live = b.live := by
  unfold forceDo
  simp
@[simp] theorem commitDo_mem (page : Nat) (v : Word) (b : Blk) : (commitDo page v b).shadow = b.shadow ∧
    (commitDo page v b).live = b.live := by
  unfold commitDo
  simp
@[simp] theorem headDo_mem (g : Pg) (i : Nat) (page : Nat) (off : Nat) (v : Word) (b : Blk) :
    (headDo g i page off v b).shadow = b.shadow ∧ (headDo g i page off v b).live = b.live := by
  unfold headDo
  repeat' (first | (simp; done) | split)
@[simp] theorem modeReqDo_mem (v : Word) (b : Blk) : (modeReqDo v b).shadow = b.shadow ∧ (modeReqDo v b).live = b.live
    := by
  unfold modeReqDo
  simp
@[simp] theorem rstDo_mem (b : Blk) : (rstDo b).shadow = b.shadow ∧ (rstDo b).live = b.live := by
  unfold rstDo
  simp
@[simp] theorem showSelected_mem (m : Option (Nat × Foreign)) (fresh : Bool) (b : Blk) :
    (showSelected m fresh b).shadow = b.shadow ∧ (showSelected m fresh b).live = b.live := by
  unfold showSelected
  repeat' (first | (simp; done) | split)
@[simp] theorem timeCfgDo_mem (v : Word) (b : Blk) : (timeCfgDo v b).shadow = b.shadow ∧ (timeCfgDo v b).live = b.live
    := by
  unfold timeCfgDo
  simp
@[simp] theorem nextStep_mem (b : Blk) : (nextStep b).shadow = b.shadow ∧ (nextStep b).live = b.live := by
  unfold nextStep
  simp
@[simp] theorem setGoDo_shadow (v : Word) (b : Blk) : (setGoDo v b).shadow = b.shadow := by
  unfold setGoDo
  simp
@[simp] theorem adjDo_shadow (v : Word) (b : Blk) : (adjDo v b).shadow = b.shadow := by
  unfold adjDo
  simp
@[simp] theorem pauseClrDo_mem (v : Word) (b : Blk) : (pauseClrDo v b).shadow = b.shadow ∧ (pauseClrDo v b).live =
    b.live := by
  unfold pauseClrDo
  simp
@[simp] theorem ppsLow_mem (b : Blk) : (ppsLow b).shadow = b.shadow ∧ (ppsLow b).live = b.live := by
  unfold ppsLow
  simp
@[simp] theorem ppsOutDo_mem (v : Word) (b : Blk) : (ppsOutDo v b).shadow = b.shadow ∧ (ppsOutDo v b).live = b.live :=
    by
  unfold ppsOutDo
  simp
@[simp] theorem setPtp_mem (p : Nat) (x : PtpSt) (b : Blk) : (setPtp p x b).shadow = b.shadow ∧ (setPtp p x b).live =
    b.live := by
  unfold setPtp
  simp
@[simp] theorem ptpSelect_mem (b : Blk) : (ptpSelect b).shadow = b.shadow ∧ (ptpSelect b).live = b.live := by
  unfold ptpSelect
  repeat' (first | (simp; done) | split)
@[simp] theorem ptpCfgDo_mem (p : Nat) (v : Word) (b : Blk) : (ptpCfgDo p v b).shadow = b.shadow ∧
    (ptpCfgDo p v b).live = b.live := by
  unfold ptpCfgDo
  simp
@[simp] theorem setOverdrawn_mem (v : Bool) (b : Blk) : (setOverdrawn v b).shadow = b.shadow ∧ (setOverdrawn v b).live
    = b.live := by
  unfold setOverdrawn
  simp
@[simp] theorem budgetDo_mem (v : Word) (b : Blk) : (budgetDo v b).shadow = b.shadow ∧ (budgetDo v b).live = b.live :=
    by
  unfold budgetDo
  simp
@[simp] theorem cancelFrame_mem (peer : Option Peer) (msg : Word) (seq : Word) (b : Blk) :
    (cancelFrame peer msg seq b).shadow = b.shadow ∧ (cancelFrame peer msg seq b).live = b.live := by
  unfold cancelFrame
  repeat' (first | (simp; done) | split | dsimp only)
@[simp] theorem writeMark_mem (c : Nat) (v : Nat) (b : Blk) : (writeMark c v b).shadow = b.shadow ∧
    (writeMark c v b).live = b.live := by
  unfold writeMark
  simp
@[simp] theorem retireClrDo_mem (v : Word) (b : Blk) : (retireClrDo v b).shadow = b.shadow ∧ (retireClrDo v b).live =
    b.live := by
  unfold retireClrDo
  simp
@[simp] theorem eccNote_mem (dbl : Bool) (w : EccWord) (b : Blk) : (eccNote dbl w b).shadow = b.shadow ∧
    (eccNote dbl w b).live = b.live := by
  unfold eccNote
  simp
@[simp] theorem foundSingle_mem (w : EccWord) (b : Blk) : (foundSingle w b).shadow = b.shadow ∧ (foundSingle w b).live
    = b.live := by
  unfold foundSingle
  simp
@[simp] theorem spoilLive_shadow (a : Nat) (b : Blk) : (spoilLive a b).shadow = b.shadow := by
  unfold spoilLive
  simp
@[simp] theorem foundDouble_shadow (w : EccWord) (b : Blk) : (foundDouble w b).shadow = b.shadow := by
  unfold foundDouble
  simp
@[simp] theorem eccFind_shadow (tx : EccWord → Option (Nat × Nat × Nat)) (mine : EccWord → Bool) (b : Blk) :
    (eccFind tx mine b).shadow = b.shadow := by
  unfold eccFind
  simp
@[simp] theorem eccData_shadow (mine : EccWord → Bool) (b : Blk) : (eccData mine b).shadow = b.shadow := by
  unfold eccData
  simp
@[simp] theorem routeTryDo_shadow (v : Word) (b : Blk) : (routeTryDo v b).shadow = b.shadow := by
  unfold routeTryDo
  simp
@[simp] theorem cntClrDo_mem (v : Word) (b : Blk) : (cntClrDo v b).shadow = b.shadow ∧ (cntClrDo v b).live = b.live :=
    by
  unfold cntClrDo
  simp
@[simp] theorem reactDo_mem (w : Nat) (v : Word) (b : Blk) : (reactDo w v b).shadow = b.shadow ∧ (reactDo w v b).live
    = b.live := by
  unfold reactDo
  simp
@[simp] theorem fcapClearDo_mem (v : Word) (b : Blk) : (fcapClearDo v b).shadow = b.shadow ∧ (fcapClearDo v b).live =
    b.live := by
  unfold fcapClearDo
  simp
@[simp] theorem aliveCfgDo_mem (v : Word) (b : Blk) : (aliveCfgDo v b).shadow = b.shadow ∧ (aliveCfgDo v b).live =
    b.live := by
  unfold aliveCfgDo
  simp
@[simp] theorem kickDo_mem (v : Word) (b : Blk) : (kickDo v b).shadow = b.shadow ∧ (kickDo v b).live = b.live := by
  unfold kickDo
  simp
@[simp] theorem storeFields_mem (page : Nat) (off : Nat) (v : Word) (fs : List FD) (b : Blk) :
    (storeFields page off v fs b).shadow = b.shadow ∧ (storeFields page off v fs b).live = b.live := by
  unfold storeFields
  repeat' (first | (simp; done) | split | dsimp only | refine foldl_mem _ _ _ (fun _ _ => ?_))
@[simp] theorem holdF_mem (f : Fld) (b : Blk) : (holdF f b).shadow = b.shadow ∧ (holdF f b).live = b.live := by
  unfold holdF
  simp
@[simp] theorem holdWord_mem (off : Nat) (fs : List FD) (b : Blk) : (holdWord off fs b).shadow = b.shadow ∧
    (holdWord off fs b).live = b.live := by
  unfold holdWord
  simp
@[simp] theorem reincludeDo_mem (i : Nat) (v : Word) (b : Blk) : (reincludeDo i v b).shadow = b.shadow ∧
    (reincludeDo i v b).live = b.live := by
  unfold reincludeDo
  simp
@[simp] theorem shutClrDo_mem (v : Word) (b : Blk) : (shutClrDo v b).shadow = b.shadow ∧ (shutClrDo v b).live = b.live
    := by
  unfold shutClrDo
  simp
@[simp] theorem keyDo_mem (v : Word) (b : Blk) : (keyDo v b).shadow = b.shadow ∧ (keyDo v b).live = b.live := by
  unfold keyDo
  simp
@[simp] theorem zeroF_mem (fs : List Fld) (b : Blk) : (zeroF fs b).shadow = b.shadow ∧ (zeroF fs b).live = b.live :=
    by
  unfold zeroF
  simp
@[simp] theorem xbarClearDo_mem (v : Word) (b : Blk) : (xbarClearDo v b).shadow = b.shadow ∧ (xbarClearDo v b).live =
    b.live := by
  unfold xbarClearDo
  simp
@[simp] theorem setFree_mem (f : Fld) (b : Blk) : (setFree f b).shadow = b.shadow ∧ (setFree f b).live = b.live := by
  unfold setFree
  simp
@[simp] theorem latStop_mem (b : Blk) : (latStop b).shadow = b.shadow ∧ (latStop b).live = b.live := by
  unfold latStop
  simp
@[simp] theorem histClear_mem (h : Nat) (b : Blk) : (histClear h b).shadow = b.shadow ∧ (histClear h b).live = b.live
    := by
  unfold histClear
  repeat' (first | (simp [*]; done) | split)
@[simp] theorem monCtlDo_mem (v : Word) (b : Blk) : (monCtlDo v b).shadow = b.shadow ∧ (monCtlDo v b).live = b.live :=
    by
  unfold monCtlDo
  simp
@[simp] theorem monCfgDo_mem (h : Nat) (change : Bool) (b : Blk) : (monCfgDo h change b).shadow = b.shadow ∧
    (monCfgDo h change b).live = b.live := by
  unfold monCfgDo
  simp [*]
@[simp] theorem chainArm_mem (arm : Bool) (b : Blk) : (chainArm arm b).shadow = b.shadow ∧ (chainArm arm b).live =
    b.live := by
  unfold chainArm
  simp
@[simp] theorem putMark_shadow (k : Nat) (stamp : Nat) (m : Mark) (b : Blk) : (putMark k stamp m b).shadow = b.shadow
    := by
  unfold putMark
  simp
@[simp] theorem closeWindow_shadow (k : Nat) (cut : Bool) (b : Blk) : (closeWindow k cut b).shadow = b.shadow := by
  unfold closeWindow
  repeat' (first | (simp; done) | split)
@[simp] theorem closeEndless_shadow (k : Nat) (b : Blk) : (closeEndless k b).shadow = b.shadow := by
  unfold closeEndless
  simp
@[simp] theorem armAct_shadow (k : Nat) (id : Nat) (b : Blk) : (armAct k id b).shadow = b.shadow := by
  unfold armAct
  simp
@[simp] theorem disarmAct_shadow (k : Nat) (m : Mark) (b : Blk) : (disarmAct k m b).shadow = b.shadow := by
  unfold disarmAct
  simp
@[simp] theorem disarmCmd_shadow (k : Nat) (b : Blk) : (disarmCmd k b).shadow = b.shadow := by
  unfold disarmCmd
  simp
@[simp] theorem trigActDo_shadow (v : Word) (b : Blk) : (trigActDo v b).shadow = b.shadow := by
  unfold trigActDo
  simp
@[simp] theorem cmdCfgDo_mem (v : Word) (b : Blk) : (cmdCfgDo v b).shadow = b.shadow ∧ (cmdCfgDo v b).live = b.live :=
    by
  unfold cmdCfgDo
  simp
@[simp] theorem qspiDo_mem (v : Word) (b : Blk) : (qspiDo v b).shadow = b.shadow ∧ (qspiDo v b).live = b.live := by
  unfold qspiDo
  simp
@[simp] theorem msixCtlDo_mem (n : Nat) (v : Word) (b : Blk) : (msixCtlDo n v b).shadow = b.shadow ∧
    (msixCtlDo n v b).live = b.live := by
  unfold msixCtlDo
  simp
@[simp] theorem showSubs_mem (b : Blk) : (showSubs b).shadow = b.shadow ∧ (showSubs b).live = b.live := by
  unfold showSubs
  simp
@[simp] theorem keepSubs_mem (p : Sub → Bool) (b : Blk) : (keepSubs p b).shadow = b.shadow ∧ (keepSubs p b).live =
    b.live := by
  unfold keepSubs
  simp
@[simp] theorem portReset_mem (p : Nat) (x : MstReset) (b : Blk) : (portReset p x b).shadow = b.shadow ∧
    (portReset p x b).live = b.live := by
  unfold portReset
  simp
@[simp] theorem ethCfgDo_mem (p : Nat) (v : Word) (fs : List FD) (b : Blk) : (ethCfgDo p v fs b).shadow = b.shadow ∧
    (ethCfgDo p v fs b).live = b.live := by
  unfold ethCfgDo
  simp
@[simp] theorem diagClearDo_mem (e : Nat) (v : Word) (b : Blk) : (diagClearDo e v b).shadow = b.shadow ∧
    (diagClearDo e v b).live = b.live := by
  unfold diagClearDo
  simp
@[simp] theorem setRole_mem (e : Nat) (role : Nat) (of : Nat) (copy : Bool) (b : Blk) :
    (setRole e role of copy b).shadow = b.shadow ∧ (setRole e role of copy b).live = b.live := by
  unfold setRole
  simp
@[simp] theorem setEngRt_mem (e : Nat) (r : EngRt) (b : Blk) : (setEngRt e r b).shadow = b.shadow ∧
    (setEngRt e r b).live = b.live := by
  unfold setEngRt
  simp
@[simp] theorem startCopy_mem (e : Nat) (role : Nat) (of : Nat) (t : Nat) (lone : Nat) (b : Blk) :
    (startCopy e role of t lone b).shadow = b.shadow ∧ (startCopy e role of t lone b).live = b.live := by
  unfold startCopy
  simp
@[simp] theorem showPool_mem (b : Blk) : (showPool b).shadow = b.shadow ∧ (showPool b).live = b.live := by
  unfold showPool
  simp
@[simp] theorem queueMigration_mem (l : Nat) (dest : Nat) (t : Nat) (cause : Nat) (b : Blk) :
    (queueMigration l dest t cause b).shadow = b.shadow ∧ (queueMigration l dest t cause b).live = b.live := by
  unfold queueMigration
  simp
@[simp] theorem chkMigrateDo_mem (v : Word) (b : Blk) : (chkMigrateDo v b).shadow = b.shadow ∧ (chkMigrateDo v b).live
    = b.live := by
  unfold chkMigrateDo
  repeat' (first | (simp; done) | split)
@[simp] theorem drvCfgDo_mem (n : Nat) (v : Word) (b : Blk) : (drvCfgDo n v b).shadow = b.shadow ∧
    (drvCfgDo n v b).live = b.live := by
  unfold drvCfgDo
  simp
@[simp] theorem rearmDo_mem (n : Nat) (v : Word) (b : Blk) : (rearmDo n v b).shadow = b.shadow ∧ (rearmDo n v b).live
    = b.live := by
  unfold rearmDo
  simp
@[simp] theorem mtrPeakDo_mem (n : Nat) (v : Word) (b : Blk) : (mtrPeakDo n v b).shadow = b.shadow ∧
    (mtrPeakDo n v b).live = b.live := by
  unfold mtrPeakDo
  simp
@[simp] theorem spanDo_mem (n : Nat) (i : Nat) (v : Word) (b : Blk) : (spanDo n i v b).shadow = b.shadow ∧
    (spanDo n i v b).live = b.live := by
  unfold spanDo
  simp
@[simp] theorem hostCodeDo_mem (n : Nat) (r : Nat) (v : Word) (b : Blk) : (hostCodeDo n r v b).shadow = b.shadow ∧
    (hostCodeDo n r v b).live = b.live := by
  unfold hostCodeDo
  simp
@[simp] theorem launchShadowDo_mem (n : Nat) (r : Nat) (v : Word) (b : Blk) : (launchShadowDo n r v b).shadow =
    b.shadow ∧ (launchShadowDo n r v b).live = b.live := by
  unfold launchShadowDo
  simp
@[simp] theorem armDo_mem (n : Nat) (i : Nat) (v : Word) (b : Blk) : (armDo n i v b).shadow = b.shadow ∧
    (armDo n i v b).live = b.live := by
  unfold armDo
  simp
@[simp] theorem snsFirstDo_mem (n : Nat) (v : Word) (b : Blk) : (snsFirstDo n v b).shadow = b.shadow ∧
    (snsFirstDo n v b).live = b.live := by
  unfold snsFirstDo
  simp
@[simp] theorem loopCmdDo_mem (v : Word) (b : Blk) : (loopCmdDo v b).shadow = b.shadow ∧ (loopCmdDo v b).live = b.live
    := by
  unfold loopCmdDo
  simp
@[simp] theorem lclassFirstDo_mem (v : Word) (b : Blk) : (lclassFirstDo v b).shadow = b.shadow ∧
    (lclassFirstDo v b).live = b.live := by
  unfold lclassFirstDo
  simp
theorem ite_some {c : Prop} [Decidable c] {x : Blk} {o : Option Blk} {y : Blk} (h : (if c then some x else o) = some y) :
    x = y ∨ o = some y := by
  split at h
  · exact .inl (Option.some.inj h)
  · exact .inr h
theorem planeDo_shadow {g : Pg} {i off : Nat} {v : Word} {b c : Blk} (h : planeDo g i off v b = some c) : c.shadow =
    b.shadow := by
  unfold planeDo at h
  repeat' split at h
  all_goals first | cases h; done | (cases h; simp)
theorem pcieDo_shadow {off : Nat} {v : Word} {b c : Blk} (h : pcieDo off v b = some c) : c.shadow = b.shadow := by
  unfold pcieDo at h
  repeat' split at h
  all_goals first | cases h; done | (cases h; simp)
theorem serviceDo_shadow {g : Pg} {i off : Nat} {v : Word} {fs : List FD} {b c : Blk}
    (h : serviceDo g i off v fs b = some c) : c.shadow = b.shadow := by
  unfold serviceDo at h
  repeat' split at h
  all_goals first | cases h; done | (cases h; simp) | exact pcieDo_shadow h
theorem arrayDo_shadow {g : Pg} {i off : Nat} {v : Word} {b c : Blk} (h : arrayDo g i off v b = some c) : c.shadow =
    b.shadow := by
  unfold arrayDo at h
  repeat' split at h
  all_goals first | cases h; done | (cases h; simp)
@[simp] theorem regDo_shadow (g : Pg) (i : Nat) (page : Nat) (off : Nat) (v : Word) (b : Blk) :
    (regDo g i page off v b).shadow = b.shadow := by
  unfold regDo
  split
  · simp
  · cases h : planeDo g i off v b with
    | some c => simpa [h] using planeDo_shadow h
    | none => cases h2 : serviceDo g i off v ((g.fields i off).getD []) b with
      | some c => simpa [h, h2] using serviceDo_shadow h2
      | none => cases h3 : arrayDo g i off v b with
        | some c => simpa [h, h2, h3] using arrayDo_shadow h3
        | none => simp [h, h2, h3]
@[simp] theorem cancelAck_mem (g : Pg) (off : Nat) (v : Word) (b : Blk) : (cancelAck g off v b).shadow = b.shadow ∧
    (cancelAck g off v b).live = b.live := by
  unfold cancelAck
  simp
@[simp] theorem reject_mem (p : Nat) (off : Nat) (code : Nat) (m : Master) (b : Blk) : (reject p off code m b).shadow
    = b.shadow ∧ (reject p off code m b).live = b.live := by
  unfold reject
  simp
@[simp] theorem hostWrite_shadow (m : Master) (a : Nat) (v : Word) (b : Blk) : (hostWrite m a v b).shadow = b.shadow
    := by
  unfold hostWrite
  repeat' (first | (simp; done) | split)
@[simp] theorem pageWrite_shadow (page : Nat) (off : Nat) (v : Word) (b : Blk) : (pageWrite page off v b).shadow =
    b.shadow := by
  unfold pageWrite
  simp
@[simp] theorem ethCfgWrite_shadow (p : Nat) (v : Word) (x : MstReset) (b : Blk) : (ethCfgWrite p v x b).shadow =
    b.shadow := by
  unfold ethCfgWrite
  simp
@[simp] theorem glewCfgWrite_shadow (v : Word) (x : MstReset) (b : Blk) : (glewCfgWrite v x b).shadow = b.shadow := by
  unfold glewCfgWrite
  simp
@[simp] theorem takeCommit_mem (page : Nat) (j : Nat) (p : Bool) (f : Blk → Blk) (b : Blk)
    (hf : ∀ y0, (f y0).shadow = y0.shadow ∧ (f y0).live = y0.live) : (takeCommit page j p f b).shadow = b.shadow ∧
    (takeCommit page j p f b).live = b.live := by
  unfold takeCommit
  simp [*]
@[simp] theorem takeCommit_shadow (page j : Nat) (p : Bool) (f : Blk → Blk) (b : Blk)
    (h : ∀ b, (f b).shadow = b.shadow) : (takeCommit page j p f b).shadow = b.shadow := by
  unfold takeCommit
  simp [*]
@[simp] theorem commitBoundary_shadow (b : Blk) : (commitBoundary b).shadow = b.shadow := by
  simp [commitBoundary]
@[simp] theorem endModulators_mem (b : Blk) : (endModulators b).2.shadow = b.shadow ∧ (endModulators b).2.live =
    b.live := by
  unfold endModulators
  simp
@[simp] theorem meterBanks_mem (b : Blk) : (meterBanks b).1.shadow = b.shadow ∧ (meterBanks b).1.live = b.live := by
  unfold meterBanks
  simp
@[simp] theorem limitEpisodes_mem (lim : List Nat) (b : Blk) : (limitEpisodes lim b).shadow = b.shadow ∧
    (limitEpisodes lim b).live = b.live := by
  unfold limitEpisodes
  simp
@[simp] theorem hostRowsIn_mem (n : Nat) (rows : List Nat) (b : Blk) : (hostRowsIn n rows b).shadow = b.shadow ∧
    (hostRowsIn n rows b).live = b.live := by
  unfold hostRowsIn
  simp
@[simp] theorem powerDownBank_mem (t : Nat) (n : Nat) (b : Blk) : (powerDownBank t n b).shadow = b.shadow ∧
    (powerDownBank t n b).live = b.live := by
  unfold powerDownBank
  simp
@[simp] theorem releaseBank_mem (n : Nat) (b : Blk) : (releaseBank n b).shadow = b.shadow ∧ (releaseBank n b).live =
    b.live := by
  unfold releaseBank
  simp
theorem rearmed_mem (c : Prop) [Decidable c] (n : Nat) (k : Bank) (b : Blk) :
    (if c then hostRowsIn n k.hostRows b else b).shadow = b.shadow ∧
    (if c then hostRowsIn n k.hostRows b else b).live = b.live := by
  split <;> simp
@[simp] theorem bankBoundary_mem (t n : Nat) (b : Blk) :
    (bankBoundary t n b).shadow = b.shadow ∧ (bankBoundary t n b).live = b.live := by
  unfold bankBoundary
  repeat' (first | (simp; done) | split | dsimp only)
@[simp] theorem transfers_mem (t : Nat) (b : Blk) : (transfers t b).shadow = b.shadow ∧ (transfers t b).live = b.live
    := by
  unfold transfers
  simp
@[simp] theorem biasBoundary_mem (t : Nat) (n : Nat) (b : Blk) : (biasBoundary t n b).shadow = b.shadow ∧
    (biasBoundary t n b).live = b.live := by
  unfold biasBoundary
  simp
@[simp] theorem driveBoundary_mem (t : Nat) (b : Blk) : (driveBoundary t b).shadow = b.shadow ∧
    (driveBoundary t b).live = b.live := by
  unfold driveBoundary
  simp
@[simp] theorem trmIlim_mem (e : Nat) (b : Blk) : (trmIlim e b).shadow = b.shadow ∧ (trmIlim e b).live = b.live := by
  unfold trmIlim
  simp
@[simp] theorem spanSwitch_mem (e : Nat) (b : Blk) : (spanSwitch e b).shadow = b.shadow ∧ (spanSwitch e b).live =
    b.live := by
  unfold spanSwitch
  repeat' (first | (simp; done) | split)
@[simp] theorem spanSequenceDone_mem (n : Nat) (b : Blk) : (spanSequenceDone n b).shadow = b.shadow ∧
    (spanSequenceDone n b).live = b.live := by
  unfold spanSequenceDone
  simp
@[simp] theorem clrNAssert_mem (b : Blk) : (clrNAssert b).shadow = b.shadow ∧ (clrNAssert b).live = b.live := by
  unfold clrNAssert
  simp
@[simp] theorem clrNRelease_mem (b : Blk) : (clrNRelease b).shadow = b.shadow ∧ (clrNRelease b).live = b.live := by
  unfold clrNRelease
  simp
@[simp] theorem diag_mem (f : Nat → Fld) (e : Nat) (b : Blk) : (diag f e b).shadow = b.shadow ∧ (diag f e b).live =
    b.live := by
  unfold diag
  simp
@[simp] theorem diagAll_mem (f : Nat → Fld) (g : Nat) (b : Blk) : (diagAll f g b).shadow = b.shadow ∧
    (diagAll f g b).live = b.live := by
  unfold diagAll
  simp
@[simp] theorem diagOf_mem (f : Nat → Fld) (u : Eng) (b : Blk) : (diagOf f u b).shadow = b.shadow ∧
    (diagOf f u b).live = b.live := by
  unfold diagOf
  repeat' (first | simp | split)
@[simp] theorem addrErr_mem (u : Eng) (b : Blk) : (addrErr u b).shadow = b.shadow ∧ (addrErr u b).live = b.live := by
  unfold addrErr
  simp
@[simp] theorem accSat_mem (u : Eng) (b : Blk) : (accSat u b).shadow = b.shadow ∧ (accSat u b).live = b.live := by
  unfold accSat
  simp
@[simp] theorem storeState_mem (e : Nat) (st : LoopState) (x : Blk × Dp) : (storeState e st x).1.shadow = x.1.shadow ∧
    (storeState e st x).1.live = x.1.live := by
  unfold storeState
  simp
@[simp] theorem storeSlot_shadow (e : Nat) (a : Nat) (v : Half) (x : Blk × Dp) : (storeSlot e a v x).1.shadow =
    x.1.shadow := by
  unfold storeSlot
  simp
@[simp] theorem store_shadow (u : Eng) (a : Nat) (v : Half) (x : Blk × Dp) : (store u a v x).1.shadow = x.1.shadow :=
    by
  unfold store
  repeat' (first | (simp; done) | split)
@[simp] theorem storeAll_shadow (u : Eng) (a : Nat) (vs : List Half) (x : Blk × Dp) : (storeAll u a vs x).1.shadow =
    x.1.shadow := by
  unfold storeAll
  repeat' (first | (simp; done) | split)
@[simp] theorem outCodes_mem (u : Eng) (h : Half) (t : Half) (b : Blk) : (outCodes u h t b).shadow = b.shadow ∧
    (outCodes u h t b).live = b.live := by
  unfold outCodes
  repeat' (first | (simp [*]; done) | split)
@[simp] theorem doWr_shadow (u : Eng) (x : Blk × Dp) (w : Wr) : (doWr u x w).1.shadow = x.1.shadow := by
  unfold doWr
  repeat' (first | (simp; done) | split)
@[simp] theorem bundle_shadow (u : Eng) (syls : List Instr) (x : Blk × Dp) : (bundle u syls x).1.shadow = x.1.shadow
    := by
  unfold bundle
  simp
@[simp] theorem bundles_shadow (u : Eng) (bs : List (List Instr)) (x : Blk × Dp) : (bundles u bs x).1.shadow =
    x.1.shadow := by
  unfold bundles
  simp
@[simp] theorem repeatRun_mem (u : Eng) (is : List (List Instr)) (n : Nat) (x : Blk × Dp) :
    (repeatRun u is n x).1.shadow = x.1.shadow := by
  induction n generalizing x with
  | zero => rfl
  | succ n ih => rw [repeatRun, ih]; simp
@[simp] theorem issueSlot_shadow (e : Fin 4608) (i : Instr) (b : Blk) : (issueSlot e i b).shadow = b.shadow := by
  unfold issueSlot
  simp
@[simp] theorem plannerBundle_shadow (p : Fin 8) (is : List Instr) (b : Blk) : (plannerBundle p is b).shadow =
    b.shadow := by
  unfold plannerBundle
  simp
@[simp] theorem issuePlanner_shadow (p : Fin 8) (i : Instr) (b : Blk) : (issuePlanner p i b).shadow = b.shadow := by
  unfold issuePlanner
  simp
@[simp] theorem ethUp_mem (p : Nat) (b : Blk) : (ethUp p b).shadow = b.shadow ∧ (ethUp p b).live = b.live := by
  unfold ethUp
  simp
@[simp] theorem ptpFault_mem (p : Nat) (b : Blk) : (ptpFault p b).shadow = b.shadow ∧ (ptpFault p b).live = b.live :=
    by
  unfold ptpFault
  simp
@[simp] theorem ethLoss_mem (p : Nat) (x : MstReset) (b : Blk) : (ethLoss p x b).shadow = b.shadow ∧
    (ethLoss p x b).live = b.live := by
  unfold ethLoss
  simp
@[simp] theorem dropFrameRx_mem (p : Nat) (b : Blk) : (dropFrameRx p b).shadow = b.shadow ∧ (dropFrameRx p b).live =
    b.live := by
  unfold dropFrameRx
  simp
@[simp] theorem arp_mem (p : Nat) (ip : Word) (b : Blk) : (arp p ip b).shadow = b.shadow ∧ (arp p ip b).live = b.live
    := by
  unfold arp
  simp
@[simp] theorem icmp_mem (p : Nat) (ip : Word) (data : List Byte) (b : Blk) : (icmp p ip data b).shadow = b.shadow ∧
    (icmp p ip data b).live = b.live := by
  unfold icmp
  simp
@[simp] theorem discarded_mem (p : Nat) (overflow : Bool) (frame : List Byte) (b : Blk) :
    (discarded p overflow frame b).shadow = b.shadow ∧ (discarded p overflow frame b).live = b.live := by
  unfold discarded
  simp
@[simp] theorem takeSeq_mem (q : Word) (b : Blk) : (takeSeq q b).shadow = b.shadow ∧ (takeSeq q b).live = b.live := by
  unfold takeSeq
  simp
@[simp] theorem sendError_mem (x : UdpMsg) (code : Nat) (detail : Nat) (seq : Word) (b : Blk) :
    (sendError x code detail seq b).shadow = b.shadow ∧ (sendError x code detail seq b).live = b.live := by
  unfold sendError
  simp
@[simp] theorem onUdp_mem (typ : Nat) (x : UdpMsg) (act : Blk → Blk) (b : Blk)
    (hact : ∀ y0, (act y0).shadow = y0.shadow ∧ (act y0).live = y0.live) : (onUdp typ x act b).shadow = b.shadow ∧
    (onUdp typ x act b).live = b.live := by
  unfold onUdp
  simp [*]
@[simp] theorem rejectedMsg_mem (x : UdpMsg) (b : Blk) : (rejectedMsg x b).shadow = b.shadow ∧ (rejectedMsg x b).live
    = b.live := by
  unfold rejectedMsg
  simp
@[simp] theorem query_mem (what : Nat) (x : UdpMsg) (answer : Blk → List Word) (b : Blk) :
    (query what x answer b).shadow = b.shadow ∧ (query what x answer b).live = b.live := by
  unfold query
  simp
@[simp] theorem subscription_mem (en : Bool) (x : UdpMsg) (f : Blk → Blk) (b : Blk)
    (hf : ∀ y0, (f y0).shadow = y0.shadow ∧ (f y0).live = y0.live) : (subscription en x f b).shadow = b.shadow ∧
    (subscription en x f b).live = b.live := by
  unfold subscription
  simp [*]
@[simp] theorem subExpired_mem (i : Nat) (b : Blk) : (subExpired i b).shadow = b.shadow ∧ (subExpired i b).live =
    b.live := by
  unfold subExpired
  repeat' (first | (simp; done) | split)
@[simp] theorem telemetry_mem (i : Nat) (b : Blk) : (telemetry i b).shadow = b.shadow ∧ (telemetry i b).live = b.live
    := by
  unfold telemetry
  repeat' (first | (simp; done) | split)
@[simp] theorem msixHoldoffEnd_mem (v : Nat) (b : Blk) : (msixHoldoffEnd v b).shadow = b.shadow ∧
    (msixHoldoffEnd v b).live = b.live := by
  unfold msixHoldoffEnd
  simp
@[simp] theorem aliveTick_mem (b : Blk) : (aliveTick b).shadow = b.shadow ∧ (aliveTick b).live = b.live := by
  unfold aliveTick
  simp
@[simp] theorem aliveToggle_mem (b : Blk) : (aliveToggle b).shadow = b.shadow ∧ (aliveToggle b).live = b.live := by
  unfold aliveToggle
  simp
@[simp] theorem watchdog_mem (b : Blk) : (watchdog b).shadow = b.shadow ∧ (watchdog b).live = b.live := by
  unfold watchdog
  simp
@[simp] theorem nvmStore_mem (w : NvmWrite) (b : Blk) : (nvmStore w b).shadow = b.shadow ∧ (nvmStore w b).live =
    b.live := by
  unfold nvmStore
  simp
@[simp] theorem nvmNext_mem (b : Blk) : (nvmNext b).shadow = b.shadow ∧ (nvmNext b).live = b.live := by
  unfold nvmNext
  simp
@[simp] theorem nvmRetry_mem (w : NvmWrite) (t : List NvmWrite) (b : Blk) : (nvmRetry w t b).shadow = b.shadow ∧
    (nvmRetry w t b).live = b.live := by
  unfold nvmRetry
  simp
@[simp] theorem nvmWriteDone_mem (ok : Bool) (b : Blk) : (nvmWriteDone ok b).shadow = b.shadow ∧
    (nvmWriteDone ok b).live = b.live := by
  unfold nvmWriteDone
  repeat' (first | (simp; done) | split)
@[simp] theorem nvmCounterWrite_mem (b : Blk) : (nvmCounterWrite b).shadow = b.shadow ∧ (nvmCounterWrite b).live =
    b.live := by
  unfold nvmCounterWrite
  simp
@[simp] theorem nvmTick_mem (mw : Nat) (b : Blk) : (nvmTick mw b).shadow = b.shadow ∧ (nvmTick mw b).live = b.live :=
    by
  unfold nvmTick
  simp
@[simp] theorem scanShow_mem (n : Nat) (newest : Nat) (life : Tbl Nat) (inn : Nat → Bool) (b : Blk) :
    (scanShow n newest life inn b).shadow = b.shadow ∧ (scanShow n newest life inn b).live = b.live := by
  unfold scanShow
  simp
@[simp] theorem nvmScan_mem (b : Blk) : (nvmScan b).shadow = b.shadow ∧ (nvmScan b).live = b.live := by
  unfold nvmScan
  exact scanShow_mem _ _ _ _ _
@[simp] theorem closeWindows_mem (b : Blk) : (closeWindows b).shadow = b.shadow ∧ (closeWindows b).live = b.live := by
  unfold closeWindows
  simp
@[simp] theorem deliveryWindowClose_mem (b : Blk) : (deliveryWindowClose b).shadow = b.shadow ∧
    (deliveryWindowClose b).live = b.live := by
  unfold deliveryWindowClose
  repeat' (first | simp | split)
@[simp] theorem dlogPut_mem (w : Nat × Nat) (b : Blk) : (dlogPut w b).shadow = b.shadow ∧ (dlogPut w b).live = b.live
    := by
  unfold dlogPut
  simp
@[simp] theorem histRange_mem (lo : Fld) (hi : Fld) (n : Nat) (b : Blk) : (histRange lo hi n b).shadow = b.shadow ∧
    (histRange lo hi n b).live = b.live := by
  unfold histRange
  simp [*]
@[simp] theorem histAdd_mem (h : Nat) (bin : Fld) (b : Blk) : (histAdd h bin b).shadow = b.shadow ∧
    (histAdd h bin b).live = b.live := by
  unfold histAdd
  simp [*]
@[simp] theorem monSettle_mem (t : Nat) (b : Blk) : (monSettle t b).shadow = b.shadow ∧ (monSettle t b).live = b.live
    := by
  unfold monSettle
  simp
@[simp] theorem completeFrame_mem (f : Frame) (b : Blk) : (completeFrame f b).shadow = b.shadow ∧
    (completeFrame f b).live = b.live := by
  unfold completeFrame
  simp
@[simp] theorem completionEvent_mem (b : Blk) : (completionEvent b).shadow = b.shadow ∧ (completionEvent b).live =
    b.live := by
  unfold completionEvent
  repeat' (first | (simp; done) | split)
@[simp] theorem strobe_mem (f : Frame) (b : Blk) : (strobe f b).shadow = b.shadow ∧ (strobe f b).live = b.live := by
  unfold strobe
  generalize (List.replicate 4608 false) = r
  simp
@[simp] theorem strobeDue_mem (b : Blk) : (strobeDue b).shadow = b.shadow ∧ (strobeDue b).live = b.live := by
  unfold strobeDue
  repeat' (first | simp | split)
@[simp] theorem settleEarlier_mem (b : Blk) : (settleEarlier b).shadow = b.shadow ∧ (settleEarlier b).live = b.live :=
    by
  unfold settleEarlier
  refine (foldl_mem _ _ _ fun b _ => ?_).imp (·.trans ?_) (·.trans ?_)
  · cases h : b.sched.queue.head? <;> simp
  · simp
  · simp
@[simp] theorem loadBytes_mem (f : Frame) (b : Blk) : (loadBytes f b).shadow = b.shadow ∧ (loadBytes f b).live =
    b.live := by
  unfold loadBytes
  simp
@[simp] theorem loadMembers_mem (f : Frame) (b : Blk) : (loadMembers f b).shadow = b.shadow ∧ (loadMembers f b).live =
    b.live := by
  unfold loadMembers
  simp
@[simp] theorem lifeAdd64_mem (w : Nat) (b : Blk) : (lifeAdd64 w b).shadow = b.shadow ∧ (lifeAdd64 w b).live = b.live
    := by
  unfold lifeAdd64
  simp
@[simp] theorem launch_mem (f : Frame) (b : Blk) : (launch f b).shadow = b.shadow ∧ (launch f b).live = b.live := by
  unfold launch
  simp
@[simp] theorem noCommit_mem (f : Frame) (b : Blk) : (noCommit f b).shadow = b.shadow ∧ (noCommit f b).live = b.live
    := by
  unfold noCommit
  simp
@[simp] theorem suppress_mem (f : Frame) (b : Blk) : (suppress f b).shadow = b.shadow ∧ (suppress f b).live = b.live
    := by
  unfold suppress
  simp
@[simp] theorem matched_mem (f : Frame) (b : Blk) : (matched f b).shadow = b.shadow ∧ (matched f b).live = b.live :=
    by
  unfold matched
  simp
@[simp] theorem comparatorMatch_mem (b : Blk) : (comparatorMatch b).shadow = b.shadow ∧ (comparatorMatch b).live =
    b.live := by
  unfold comparatorMatch
  repeat' (first | (simp; done) | split)
@[simp] theorem lclassFirst_mem (e : Nat) (i : Nat) (b : Blk) : (lclassFirst e i b).shadow = b.shadow ∧
    (lclassFirst e i b).live = b.live := by
  unfold lclassFirst
  simp
@[simp] theorem countFreeze_mem (was : Bool) (now : Bool) (b : Blk) : (countFreeze was now b).shadow = b.shadow ∧
    (countFreeze was now b).live = b.live := by
  unfold countFreeze
  simp
@[simp] theorem flipDone_mem (r : SlotRes) (b : Blk) (g : Nat) (s : Nat) : (flipDone r b g s).shadow = b.shadow ∧
    (flipDone r b g s).live = b.live := by
  unfold flipDone
  simp
@[simp] theorem failEngine_mem (e : Nat) (cause : Nat) (b : Blk) : (failEngine e cause b).shadow = b.shadow ∧
    (failEngine e cause b).live = b.live := by
  unfold failEngine
  simp
@[simp] theorem toSelfTest_mem (e : Nat) (b : Blk) : (toSelfTest e b).shadow = b.shadow ∧ (toSelfTest e b).live =
    b.live := by
  unfold toSelfTest
  simp
@[simp] theorem endConfirm_mem (c : Confirm) (b : Blk) : (endConfirm c b).shadow = b.shadow ∧ (endConfirm c b).live =
    b.live := by
  unfold endConfirm
  simp
@[simp] theorem vote_mem (g : Nat) (s : Nat) (c : Confirm) (r : SlotRes) (b : Blk) : (vote g s c r b).2.shadow =
    b.shadow ∧ (vote g s c r b).2.live = b.live := by
  unfold vote
  simp
@[simp] theorem recordMismatch_mem (e : Nat) (other : Nat) (slot : Nat) (what : Nat) (wtick : Nat) (b : Blk) :
    (recordMismatch e other slot what wtick b).shadow = b.shadow ∧ (recordMismatch e other slot what wtick b).live =
    b.live := by
  unfold recordMismatch
  simp
@[simp] theorem mismatch_mem (g : Nat) (n : Nat) (s : Nat) (what : Nat) (b : Blk) : (mismatch g n s what b).shadow =
    b.shadow ∧ (mismatch g n s what b).live = b.live := by
  unfold mismatch
  repeat' (first | (simp; done) | split | dsimp only)
@[simp] theorem checkSlot_mem (g s : Nat) (r : SlotRes) (b : Blk) :
    (checkSlot g s r b).2.shadow = b.shadow ∧ (checkSlot g s r b).2.live = b.live := by
  unfold checkSlot
  repeat' (first | (simp; done) | split | dsimp only)
@[simp] theorem slotOut_mem (g s e : Nat) (r : SlotRes) (b : Blk) :
    (slotOut g s e r b).shadow = b.shadow ∧ (slotOut g s e r b).live = b.live := by
  unfold slotOut
  dsimp only
  split <;> simp
@[simp] theorem countCmd_mem (e : Nat) (x0 : Elem) (x1 : Elem) (b : Blk) : (countCmd e x0 x1 b).shadow = b.shadow ∧
    (countCmd e x0 x1 b).live = b.live := by
  unfold countCmd
  repeat' (first | (simp; done) | split)
@[simp] theorem countOcc_mem (g : Nat) (n : Nat) (b : Blk) : (countOcc g n b).shadow = b.shadow ∧
    (countOcc g n b).live = b.live := by
  unfold countOcc
  simp
@[simp] theorem countOccs_mem (g : Nat) (n : Nat) (b : Blk) : (countOccs g n b).shadow = b.shadow ∧
    (countOccs g n b).live = b.live := by
  unfold countOccs
  simp
@[simp] theorem dropParked_mem (e : Nat) (b : Blk) : (dropParked e b).shadow = b.shadow ∧ (dropParked e b).live =
    b.live := by
  unfold dropParked
  simp
@[simp] theorem slotAfter_mem (g : Nat) (s : Nat) (e : Nat) (x0 : Elem) (x1 : Elem) (r : Sl) (b : Blk) :
    (slotAfter g s e x0 x1 r b).shadow = b.shadow ∧ (slotAfter g s e x0 x1 r b).live = b.live := by
  unfold slotAfter
  simp
@[simp] theorem slotRom_shadow (g : Nat) (s : Nat) (e : Nat) (b : Blk) : (slotRom g s e b).shadow = b.shadow := by
  unfold slotRom
  simp
@[simp] theorem runBundle_shadow (l : Tbl Byte) (u : Eng) (start : Nat) (x : (Blk × Dp) × Nat) (i : Nat) :
    (runBundle l u start x i).1.1.shadow = x.1.1.shadow := by
  unfold runBundle
  simp
@[simp] theorem runProgram_shadow (b : Blk) (e : Fin 4608) : (runProgram b e).1.1.shadow = b.shadow := by
  have h : ∀ (l : List Nat) (x : (Blk × Dp) × Nat) (m : Tbl Byte) (n : Nat),
      (l.foldl (runBundle m (.slot e) n) x).1.1.shadow = x.1.1.shadow := by
    intro l
    induction l with
    | nil => intros; rfl
    | cons i t ih => intro x m n; rw [List.foldl_cons, ih]; simp [runBundle]
  simp [runProgram, h]
@[simp] theorem slotHost_shadow (g : Nat) (s : Nat) (e : Fin 4608) (b : Blk) : (slotHost g s e b).shadow = b.shadow :=
    by
  unfold slotHost
  simp
@[simp] theorem standbySlot_mem (g : Nat) (s : Nat) (b : Blk) : (standbySlot g s b).shadow = b.shadow ∧
    (standbySlot g s b).live = b.live := by
  unfold standbySlot
  simp
@[simp] theorem eccSlot_shadow (g : Nat) (e : Nat) (b : Blk) : (eccSlot g e b).shadow = b.shadow := by
  unfold eccSlot
  simp
@[simp] theorem engineSlot_shadow (g : Nat) (s : Nat) (b : Blk) : (engineSlot g s b).shadow = b.shadow := by
  by_cases h : 64 * s + logicalOf b g < 4608 <;> simp [engineSlot, h]
@[simp] theorem requestBoundary_mem (b : Blk) : (requestBoundary b).shadow = b.shadow ∧ (requestBoundary b).live =
    b.live := by
  unfold requestBoundary
  repeat' (first | (simp; done) | split)
@[simp] theorem shutExit_mem (b : Blk) : (shutExit b).shadow = b.shadow ∧ (shutExit b).live = b.live := by
  unfold shutExit
  simp
@[simp] theorem modeBoundary_mem (b : Blk) : (modeBoundary b).shadow = b.shadow ∧ (modeBoundary b).live = b.live := by
  unfold modeBoundary
  simp
@[simp] theorem freezeFall_mem (b : Blk) : (freezeFall b).shadow = b.shadow ∧ (freezeFall b).live = b.live := by
  unfold freezeFall
  simp
@[simp] theorem freezeRise_mem (b : Blk) : (freezeRise b).shadow = b.shadow ∧ (freezeRise b).live = b.live := by
  unfold freezeRise
  simp
@[simp] theorem resetPins_mem (b : Blk) : (resetPins b).shadow = b.shadow ∧ (resetPins b).live = b.live := by
  unfold resetPins
  simp
@[simp] theorem bootScan_mem (b : Blk) : (bootScan b).shadow = b.shadow ∧ (bootScan b).live = b.live := by
  unfold bootScan
  simp
@[simp] theorem leaveReset_mem (x : StrapIn) (b : Blk) : (leaveReset x b).shadow = b.shadow ∧ (leaveReset x b).live =
    b.live := by
  unfold leaveReset
  simp
@[simp] theorem corePllLock_mem (x : StrapIn) (b : Blk) : (corePllLock x b).shadow = b.shadow ∧ (corePllLock x b).live
    = b.live := by
  unfold corePllLock
  simp
@[simp] theorem softResetEnd_mem (x : StrapIn) (b : Blk) : (softResetEnd x b).shadow = b.shadow ∧
    (softResetEnd x b).live = b.live := by
  unfold softResetEnd
  simp
@[simp] theorem bootTest_mem (failed : List (Fin 68)) (e : Nat) (b : Blk) : (bootTest failed e b).shadow = b.shadow ∧
    (bootTest failed e b).live = b.live := by
  unfold bootTest
  simp
@[simp] theorem bootMigrate_mem (l : Nat) (b : Blk) : (bootMigrate l b).shadow = b.shadow ∧ (bootMigrate l b).live =
    b.live := by
  unfold bootMigrate
  repeat' (first | (simp; done) | split)
@[simp] theorem bootSelftest_mem (failed : List (Fin 68)) (b : Blk) : (bootSelftest failed b).shadow = b.shadow ∧
    (bootSelftest failed b).live = b.live := by
  unfold bootSelftest
  simp
@[simp] theorem monOcc_mem (n : Nat) (b : Blk) : (monOcc n b).shadow = b.shadow ∧ (monOcc n b).live = b.live := by
  unfold monOcc
  simp
@[simp] theorem monEps_mem (n : Nat) (b : Blk) : (monEps n b).shadow = b.shadow ∧ (monEps n b).live = b.live := by
  unfold monEps
  simp
@[simp] theorem latRead_mem (off : Nat) (v : Nat) (b : Blk) : (latRead off v b).2.shadow = b.shadow ∧
    (latRead off v b).2.live = b.live := by
  unfold latRead
  simp
@[simp] theorem idleEdge_mem (b : Blk) : (idleEdge b).shadow = b.shadow ∧ (idleEdge b).live = b.live := by
  unfold idleEdge
  simp
@[simp] theorem cmdStop_mem (cause : Nat) (b : Blk) : (cmdStop cause b).shadow = b.shadow ∧ (cmdStop cause b).live =
    b.live := by
  unfold cmdStop
  simp
@[simp] theorem cmdAdvance_mem (b : Blk) : (cmdAdvance b).shadow = b.shadow ∧ (cmdAdvance b).live = b.live := by
  unfold cmdAdvance
  simp
@[simp] theorem wrongLength_mem (ws : List Word) (b : Blk) : (wrongLength ws b).shadow = b.shadow ∧
    (wrongLength ws b).live = b.live := by
  unfold wrongLength
  simp
@[simp] theorem cmdFetch_mem (x : RingEntry) (b : Blk) : (cmdFetch x b).shadow = b.shadow ∧ (cmdFetch x b).live =
    b.live := by
  unfold cmdFetch
  simp
@[simp] theorem cmdTimeout_mem (b : Blk) : (cmdTimeout b).shadow = b.shadow ∧ (cmdTimeout b).live = b.live := by
  unfold cmdTimeout
  simp
@[simp] theorem cplSignal_mem (b : Blk) : (cplSignal b).shadow = b.shadow ∧ (cplSignal b).live = b.live := by
  unfold cplSignal
  simp
@[simp] theorem cplWrite_mem (b : Blk) : (cplWrite b).shadow = b.shadow ∧ (cplWrite b).live = b.live := by
  unfold cplWrite
  repeat' (first | (simp; done) | split)
@[simp] theorem cplHoldoff_mem (b : Blk) : (cplHoldoff b).shadow = b.shadow ∧ (cplHoldoff b).live = b.live := by
  unfold cplHoldoff
  simp
@[simp] theorem acqCopy_shadow (ok : Bool) (b : Blk) : (acqCopy ok b).shadow = b.shadow := by
  unfold acqCopy
  simp
@[simp] theorem pcieUp_mem (speed : Nat) (width : Nat) (b : Blk) : (pcieUp speed width b).shadow = b.shadow ∧
    (pcieUp speed width b).live = b.live := by
  unfold pcieUp
  simp
@[simp] theorem functionReset_mem (x : MstReset) (b : Blk) : (functionReset x b).shadow = b.shadow ∧
    (functionReset x b).live = b.live := by
  unfold functionReset
  simp
@[simp] theorem pcieDown_mem (x : MstReset) (b : Blk) : (pcieDown x b).shadow = b.shadow ∧ (pcieDown x b).live =
    b.live := by
  unfold pcieDown
  simp
@[simp] theorem pcieReset_mem (x : MstReset) (b : Blk) : (pcieReset x b).shadow = b.shadow ∧ (pcieReset x b).live =
    b.live := by
  unfold pcieReset
  simp
@[simp] theorem configWrite_mem (r : FnReg) (ws : List WrWord) (b : Blk) : (configWrite r ws b).shadow = b.shadow ∧
    (configWrite r ws b).live = b.live := by
  unfold configWrite
  simp
@[simp] theorem busMasterWrite_mem (on : Bool) (b : Blk) : (busMasterWrite on b).shadow = b.shadow ∧
    (busMasterWrite on b).live = b.live := by
  unfold busMasterWrite
  simp
@[simp] theorem flashPut_mem (a : Nat) (n : Nat) (f : Nat → Byte) (b : Blk) : (flashPut a n f b).shadow = b.shadow ∧
    (flashPut a n f b).live = b.live := by
  unfold flashPut
  simp
@[simp] theorem qspiDone_mem (ok : Bool) (b : Blk) : (qspiDone ok b).shadow = b.shadow ∧ (qspiDone ok b).live = b.live
    := by
  unfold qspiDone
  repeat' (first | (simp; done) | split)
@[simp] theorem putHalf_mem (host : Bool) (a : Nat) (v : Nat) (b : Blk) : (putHalf host a v b).shadow = b.shadow ∧
    (putHalf host a v b).live = b.live := by
  unfold putHalf
  simp [*]
@[simp] theorem putWord_mem (e : Nat) (w : Nat) (v : Nat) (b : Blk) : (putWord e w v b).shadow = b.shadow ∧
    (putWord e w v b).live = b.live := by
  unfold putWord
  simp
@[simp] theorem setShadow_mem (e : Nat) (h : Nat) (t : Nat) (b : Blk) : (setShadow e h t b).shadow = b.shadow ∧
    (setShadow e h t b).live = b.live := by
  unfold setShadow
  simp [*]
@[simp] theorem planMoved_mem (d1 : Nat) (seq : Word) (w : Byte) (ff : Int) (e : Nat) (x : Blk × PlanOut) :
    (planMoved d1 seq w ff e x).1.shadow = x.1.shadow ∧ (planMoved d1 seq w ff e x).1.live = x.1.live := by
  unfold planMoved
  simp
@[simp] theorem planNeighbour_mem (ff : Int) (e : Nat) (x : Blk × PlanOut) : (planNeighbour ff e x).1.shadow =
    x.1.shadow ∧ (planNeighbour ff e x).1.live = x.1.live := by
  unfold planNeighbour
  simp
@[simp] theorem planElem_mem (d1 : Nat) (seq : Word) (w : Byte) (ff : Int) (e : Nat) (x : Blk × PlanOut) :
    (planElem d1 seq w ff e x).1.shadow = x.1.shadow ∧ (planElem d1 seq w ff e x).1.live = x.1.live := by
  unfold planElem
  repeat' (first | simp | split)
@[simp] theorem planAll_mem (d1 : Nat) (seq : Word) (ws : List Byte) (b : Blk) : (planAll d1 seq ws b).1.shadow =
    b.shadow ∧ (planAll d1 seq ws b).1.live = b.live := by
  unfold planAll
  simp
@[simp] theorem complete_mem (m : Master) (codes : List Nat) (b : Blk) : (complete m codes b).shadow = b.shadow ∧
    (complete m codes b).live = b.live := by
  unfold complete
  simp
@[simp] theorem nowNsRead_mem (m : Master) (b : Blk) : (nowNsRead m b).shadow = b.shadow ∧ (nowNsRead m b).live =
    b.live := by
  unfold nowNsRead
  simp
@[simp] theorem regRead_mem (m : Master) (code : Nat) (w : Nat) (b : Blk) : (regRead m code w b).shadow = b.shadow ∧
    (regRead m code w b).live = b.live := by
  unfold regRead
  simp
@[simp] theorem tableRead_shadow (m : Master) (t : Nat) (a : Nat) (n : Nat) (b : Blk) : (tableRead m t a n b).shadow =
    b.shadow := by
  unfold tableRead
  simp
@[simp] theorem storeRead_mem (m : Master) (a : Nat) (n : Nat) (b : Blk) : (storeRead m a n b).shadow = b.shadow ∧
    (storeRead m a n b).live = b.live := by
  unfold storeRead
  simp
@[simp] theorem readRefused_mem (m : Master) (a : Nat) (n : Nat) (b : Blk) : (readRefused m a n b).shadow = b.shadow ∧
    (readRefused m a n b).live = b.live := by
  unfold readRefused
  simp
@[simp] theorem busRead_shadow (m : Master) (a : Nat) (n : Nat) (b : Blk) : (busRead m a n b).shadow = b.shadow := by
  unfold busRead
  repeat' (first | (simp; done) | split)
@[simp] theorem releaseStandbys_mem (g : Nat) (dest : Nat) (b : Blk) : (releaseStandbys g dest b).shadow = b.shadow ∧
    (releaseStandbys g dest b).live = b.live := by
  unfold releaseStandbys
  simp
@[simp] theorem migrate_mem (m : Migration) (b : Blk) : (migrate m b).shadow = b.shadow ∧ (migrate m b).live = b.live
    := by
  cases h : serverOf b m.logical <;> simp [migrate, h]
@[simp] theorem checkWindowStart_mem (b : Blk) : (checkWindowStart b).shadow = b.shadow ∧ (checkWindowStart b).live =
    b.live := by
  unfold checkWindowStart
  split
  · dsimp only
    split
    · refine (foldl_mem _ _ _ fun b x => ?_).imp (·.trans ?_) (·.trans ?_)
      · split
        · split <;> simp
        · simp
      · simp
      · simp
    · simp
  · simp
@[simp] theorem comparePhaseStart_mem (b : Blk) : (comparePhaseStart b).shadow = b.shadow ∧ (comparePhaseStart b).live
    = b.live := by
  unfold comparePhaseStart
  simp
@[simp] theorem confirmationStart_mem (b : Blk) : (confirmationStart b).shadow = b.shadow ∧ (confirmationStart b).live
    = b.live := by
  unfold confirmationStart
  simp
@[simp] theorem confirmationEnd_mem (b : Blk) : (confirmationEnd b).shadow = b.shadow ∧ (confirmationEnd b).live =
    b.live := by
  unfold confirmationEnd
  simp
@[simp] theorem selftestSegmentEnd_mem (e : Nat) (agree : Bool) (b : Blk) : (selftestSegmentEnd e agree b).shadow =
    b.shadow ∧ (selftestSegmentEnd e agree b).live = b.live := by
  unfold selftestSegmentEnd
  simp
@[simp] theorem distributeTo_mem (f : Frame) (k : Nat) (b : Blk) : (distributeTo f k b).shadow = b.shadow ∧
    (distributeTo f k b).live = b.live := by
  unfold distributeTo
  repeat' (first | (simp; done) | split)
@[simp] theorem distribute_mem (f : Frame) (b : Blk) : (distribute f b).shadow = b.shadow ∧ (distribute f b).live =
    b.live := by
  unfold distribute
  simp
@[simp] theorem solveDirect_mem (i : Nat) (b : Blk) : (solveDirect i b).shadow = b.shadow ∧ (solveDirect i b).live =
    b.live := by
  unfold solveDirect
  repeat' (first | (simp; done) | split)
@[simp] theorem solveDirects_mem (b : Blk) : (solveDirects b).shadow = b.shadow ∧ (solveDirects b).live = b.live := by
  unfold solveDirects
  simp
@[simp] theorem showLast_mem (ws : List Word) (r : Nat × Nat) (b : Blk) : (showLast ws r b).shadow = b.shadow ∧
    (showLast ws r b).live = b.live := by
  unfold showLast
  simp
@[simp] theorem admitFrame_mem (a : Arrival) (b : Blk) : (admitFrame a b).shadow = b.shadow ∧ (admitFrame a b).live =
    b.live := by
  unfold admitFrame
  simp
@[simp] theorem frameAdmission_mem (b : Blk) : (frameAdmission b).shadow = b.shadow ∧ (frameAdmission b).live = b.live
    := by
  unfold frameAdmission
  repeat' (first | (simp; done) | split)
@[simp] theorem routeSolve_shadow (b : Blk) : (routeSolve b).shadow = b.shadow := by
  unfold routeSolve
  repeat' (first | (simp; done) | split | dsimp only)
@[simp] theorem setNext_mem (ws : List Byte) (b : Blk) : (setNext ws b).shadow = b.shadow ∧ (setNext ws b).live =
    b.live := by
  unfold setNext
  simp
@[simp] theorem showSolved_mem (size : Nat) (r : Solved) (b : Blk) : (showSolved size r b).shadow = b.shadow ∧
    (showSolved size r b).live = b.live := by
  unfold showSolved
  simp
@[simp] theorem solveFrame_mem (i : Nat) (f : Frame) (b : Blk) : (solveFrame i f b).shadow = b.shadow ∧
    (solveFrame i f b).live = b.live := by
  unfold solveFrame
  simp
@[simp] theorem trySolve_mem (b : Blk) : (trySolve b).shadow = b.shadow ∧ (trySolve b).live = b.live := by
  unfold trySolve
  simp
@[simp] theorem routeSolveDone_mem (b : Blk) : (routeSolveDone b).shadow = b.shadow ∧ (routeSolveDone b).live = b.live
    := by
  unfold routeSolveDone
  cases b.sched.trySlot with
  | some s => simp
  | none =>
    dsimp only
    cases h : b.sched.queue[(b.sched.queue.takeWhile fun f => f.stage != .solving).length]? <;> simp [h]
@[simp] theorem planRead_shadow (i : Nat) (f : Frame) (b : Blk) : (planRead i f b).shadow = b.shadow := by
  unfold planRead
  simp
@[simp] theorem planLate_shadow (b : Blk) : (planLate b).shadow = b.shadow := by
  unfold planLate
  repeat' (first | (simp; done) | split | dsimp only)
@[simp] theorem planStart_shadow (b : Blk) : (planStart b).shadow = b.shadow := by
  unfold planStart
  repeat' (first | (simp; done) | split | dsimp only)
@[simp] theorem planComplete_shadow (b : Blk) : (planComplete b).shadow = b.shadow := by
  unfold planComplete
  repeat' (first | (simp; done) | split | dsimp only)
@[simp] theorem showDis_mem (o : VoteOut) (b : Blk) : (showDis o b).shadow = b.shadow ∧ (showDis o b).live = b.live :=
    by
  unfold showDis
  simp
@[simp] theorem showConfig_mem (b : Blk) : (showConfig b).shadow = b.shadow ∧ (showConfig b).live = b.live := by
  unfold showConfig
  simp
@[simp] theorem retire_mem (c : Nat) (b : Blk) : (retire c b).shadow = b.shadow ∧ (retire c b).live = b.live := by
  unfold retire
  simp
@[simp] theorem seqHalt_mem (b : Blk) : (seqHalt b).shadow = b.shadow ∧ (seqHalt b).live = b.live := by
  unfold seqHalt
  simp
@[simp] theorem armFrame_mem (i : Nat) (f : Frame) (b : Blk) : (armFrame i f b).shadow = b.shadow ∧
    (armFrame i f b).live = b.live := by
  unfold armFrame
  simp
@[simp] theorem sequencerVote_mem (v : VoteIn) (b : Blk) : (sequencerVote v b).shadow = b.shadow ∧
    (sequencerVote v b).live = b.live := by
  unfold sequencerVote
  repeat' (first | (simp; done) | split | dsimp only)
@[simp] theorem meterMillisecond_mem (b : Blk) : (meterMillisecond b).shadow = b.shadow ∧ (meterMillisecond b).live =
    b.live := by
  unfold meterMillisecond
  simp
@[simp] theorem snsFirst_mem (n : Nat) (i : Nat) (cause : Nat) (b : Blk) : (snsFirst n i cause b).shadow = b.shadow ∧
    (snsFirst n i cause b).live = b.live := by
  unfold snsFirst
  simp
@[simp] theorem inputFrozen_mem (i : Nat) (b : Blk) : (inputFrozen i b).shadow = b.shadow ∧ (inputFrozen i b).live =
    b.live := by
  unfold inputFrozen
  simp
@[simp] theorem ditherWindowEnd_mem (e : Nat) (b : Blk) : (ditherWindowEnd e b).shadow = b.shadow ∧
    (ditherWindowEnd e b).live = b.live := by
  unfold ditherWindowEnd
  simp
@[simp] theorem biasFault_mem (n : Nat) (b : Blk) : (biasFault n b).shadow = b.shadow ∧ (biasFault n b).live = b.live
    := by
  unfold biasFault
  simp
@[simp] theorem rtdT_mem (i : Nat) (r : Nat) (b : Blk) : (rtdT i r b).2.shadow = b.shadow ∧ (rtdT i r b).2.live =
    b.live := by
  unfold rtdT
  simp
@[simp] theorem readings_mem (x : HkIn) (b : Blk) : (readings x b).2.shadow = b.shadow ∧ (readings x b).2.live =
    b.live := by
  unfold readings
  simp
@[simp] theorem roundView_mem (b : Blk) : (roundView b).shadow = b.shadow ∧ (roundView b).live = b.live :=
  foldl_mem _ _ _ fun _ _ => setF_mem _ _ _
@[simp] theorem roundOver_mem (b : Blk) : (roundOver b).shadow = b.shadow ∧ (roundOver b).live = b.live := by
  unfold roundOver
  simp
@[simp] theorem showSensor_mem (b0 : Blk) (ts : List Int) (k : Nat) (s : List Nat × Blk) :
    (showSensor b0 ts k s).2.shadow = s.2.shadow ∧ (showSensor b0 ts k s).2.live = s.2.live := by
  unfold showSensor
  simp
@[simp] theorem lvlRound_mem (b0 : Blk) (ph : Die) (r : Nat) (t : Int) (k : Nat) (b : Blk) :
    (lvlRound b0 ph r t k b).shadow = b.shadow ∧ (lvlRound b0 ph r t k b).live = b.live := by
  unfold lvlRound
  simp
@[simp] theorem showRegion_mem (ph : Die) (r : Nat) (t : Option (Int × Nat × Bool)) (empty : Bool) (b : Blk) :
    (showRegion ph r t empty b).shadow = b.shadow ∧ (showRegion ph r t empty b).live = b.live := by
  unfold showRegion
  repeat' (first | (simp; done) | split)
@[simp] theorem showHot_mem (ph : Die) (rs : List (Nat × Int)) (b : Blk) : (showHot ph rs b).shadow = b.shadow ∧
    (showHot ph rs b).live = b.live := by
  unfold showHot
  repeat' (first | (simp; done) | split)
@[simp] theorem lvlTake_mem (b0 : Blk) (ts : List Int) (ph : Die) (b : Blk) (r : Nat) : (lvlTake b0 ts ph b r).shadow
    = b.shadow ∧ (lvlTake b0 ts ph b r).live = b.live := by
  unfold lvlTake
  repeat' (first | simp | split)
@[simp] theorem dieRound_mem (b0 : Blk) (ts : List Int) (ph : Die) (s : List Nat × Blk) :
    (dieRound b0 ts ph s).2.shadow = s.2.shadow ∧ (dieRound b0 ts ph s).2.live = s.2.live := by
  simp [dieRound]
@[simp] theorem limitRequest_mem (b : Blk) : (limitRequest b).shadow = b.shadow ∧ (limitRequest b).live = b.live := by
  unfold limitRequest
  simp
@[simp] theorem supplyRound_mem (c : Nat) (v : Nat) (s : List Nat × Blk) : (supplyRound c v s).2.shadow = s.2.shadow ∧
    (supplyRound c v s).2.live = s.2.live := by
  unfold supplyRound
  repeat' (first | (simp; done) | split)
@[simp] theorem showSupply_mem (b : Blk) : (showSupply b).shadow = b.shadow ∧ (showSupply b).live = b.live := by
  unfold showSupply
  simp
@[simp] theorem railRound_mem (n v : Nat) (s : List Nat × Blk) :
    (railRound n v s).2.shadow = s.2.shadow ∧ (railRound n v s).2.live = s.2.live := by
  unfold railRound
  repeat' (first | (simp; done) | split)
@[simp] theorem showPower_mem (vs : List Nat) (b : Blk) : (showPower vs b).shadow = b.shadow ∧ (showPower vs b).live =
    b.live := by
  unfold showPower
  simp
@[simp] theorem housekeepingRound_mem (x : HkIn) (b : Blk) : (housekeepingRound x b).shadow = b.shadow ∧
    (housekeepingRound x b).live = b.live := by
  unfold housekeepingRound
  simp
@[simp] theorem topsatFirst_mem (b : Blk) : (topsatFirst b).shadow = b.shadow ∧ (topsatFirst b).live = b.live := by
  unfold topsatFirst
  simp
@[simp] theorem occBoundary_mem (n : Nat) (b : Blk) : (occBoundary n b).shadow = b.shadow ∧ (occBoundary n b).live =
    b.live := by
  unfold occBoundary
  simp
@[simp] theorem epsBoundary_mem (n : Nat) (b : Blk) : (epsBoundary n b).shadow = b.shadow ∧ (epsBoundary n b).live =
    b.live := by
  unfold epsBoundary
  simp
@[simp] theorem countBoundary_mem (b : Blk) : (countBoundary b).shadow = b.shadow ∧ (countBoundary b).live = b.live :=
    by
  unfold countBoundary
  simp
@[simp] theorem halfLive_shadow (b : Blk) (x : Nat × PendHalf) : (halfLive b x).shadow = b.shadow := by
  unfold halfLive
  simp
@[simp] theorem pendBoundary_shadow (b : Blk) : (pendBoundary b).shadow = b.shadow := by
  unfold pendBoundary
  simp
@[simp] theorem migrateBoundary_mem (b : Blk) : (migrateBoundary b).shadow = b.shadow ∧ (migrateBoundary b).live =
    b.live := by
  unfold migrateBoundary
  simp
@[simp] theorem epsLockBoundary_mem (b : Blk) : (epsLockBoundary b).shadow = b.shadow ∧ (epsLockBoundary b).live =
    b.live := by
  unfold epsLockBoundary
  simp
@[simp] theorem parkRows_mem (b : Blk) (c : LoopCmd) : (parkRows b c).shadow = b.shadow ∧ (parkRows b c).live = b.live
    := by
  unfold parkRows
  simp
@[simp] theorem cmdBoundary_mem (b : Blk) : (cmdBoundary b).shadow = b.shadow ∧ (cmdBoundary b).live = b.live := by
  unfold cmdBoundary
  repeat' (first | simp | split)
@[simp] theorem dithBoundary_mem (b : Blk) : (dithBoundary b).shadow = b.shadow ∧ (dithBoundary b).live = b.live := by
  unfold dithBoundary
  simp
@[simp] theorem purgeOnce_mem (b : Blk) : (purgeOnce b).shadow = b.shadow ∧ (purgeOnce b).live = b.live := by
  unfold purgeOnce
  simp
@[simp] theorem tickClose_mem (t : TickIn) (b : Blk) : (tickClose t b).1.shadow = b.shadow ∧ (tickClose t b).1.live =
    b.live := by
  unfold tickClose
  simp
@[simp] theorem tickTurn_shadow (b : Blk) : (tickTurn b).shadow = b.shadow := by
  unfold tickTurn
  simp
@[simp] theorem flushAll_shadow (b : Blk) : (flushAll b).shadow = b.shadow := by
  unfold flushAll
  simp [*]
@[simp] theorem closeDue_shadow (k : Nat) (b : Blk) : (closeDue k b).shadow = b.shadow := by
  unfold closeDue
  repeat' (first | simp | split)
@[simp] theorem endAll_shadow (cs : List (Nat × Bool)) (b : Blk) : (endAll cs b).shadow = b.shadow := by
  unfold endAll
  simp [*]
@[simp] theorem acqStop_shadow (b : Blk) : (acqStop b).shadow = b.shadow := by
  unfold acqStop
  simp
@[simp] theorem acqBoundary_shadow (b : Blk) : (acqBoundary b).shadow = b.shadow := by
  unfold acqBoundary
  repeat' (first | (simp; done) | split)
@[simp] theorem tickBoundary_shadow (t : TickIn) (b : Blk) : (tickBoundary t b).shadow = b.shadow := by
  unfold tickBoundary
  simp
@[simp] theorem deferredStep_shadow (b : Blk) : (deferredStep b).shadow = b.shadow := by
  unfold deferredStep
  repeat' (first | (simp; done) | split)
@[simp] theorem ptpTake_mem (p : Nat) (x : PtpMsg) (b : Blk) (f : Blk → Blk)
    (hf : ∀ y0, (f y0).shadow = y0.shadow ∧ (f y0).live = y0.live) : (ptpTake p x b f).shadow = b.shadow ∧
    (ptpTake p x b f).live = b.live := by
  unfold ptpTake
  simp [*]
@[simp] theorem ptpTake_shadow (p : Nat) (x : PtpMsg) (b : Blk) (f : Blk → Blk) (h : ∀ b, (f b).shadow = b.shadow) :
    (ptpTake p x b f).shadow = b.shadow := by
  unfold ptpTake
  simp [*]
@[simp] theorem sendPtp_mem (p : Nat) (kind : Nat) (ws : List Nat) (b : Blk) : (sendPtp p kind ws b).shadow = b.shadow
    ∧ (sendPtp p kind ws b).live = b.live := by
  unfold sendPtp
  simp
@[simp] theorem announceDo_mem (p : Nat) (x : PtpMsg) (b : Blk) : (announceDo p x b).shadow = b.shadow ∧
    (announceDo p x b).live = b.live := by
  unfold announceDo
  simp
@[simp] theorem forgetParent_mem (p : Nat) (b : Blk) : (forgetParent p b).shadow = b.shadow ∧ (forgetParent p b).live
    = b.live := by
  unfold forgetParent
  simp
@[simp] theorem announceTimeout_mem (p : Nat) (b : Blk) : (announceTimeout p b).shadow = b.shadow ∧
    (announceTimeout p b).live = b.live := by
  unfold announceTimeout
  repeat' (first | simp | split)
@[simp] theorem syncDone_shadow (p : Nat) (t1 : Int) (t2 : Int) (b : Blk) : (syncDone p t1 t2 b).shadow = b.shadow :=
    by
  unfold syncDone
  simp
@[simp] theorem syncDo_shadow (p : Nat) (x : PtpMsg) (b : Blk) : (syncDo p x b).shadow = b.shadow := by
  unfold syncDo
  simp
@[simp] theorem followUpDo_shadow (p : Nat) (x : PtpMsg) (b : Blk) : (followUpDo p x b).shadow = b.shadow := by
  unfold followUpDo
  repeat' (first | simp | split | dsimp only | refine foldl_mem _ _ _ (fun _ _ => ?_) | refine foldl_shadow _ _ _ (fun _ _ => ?_) | refine onCell_mem _ _ _ _ (fun _ => ?_) | refine ptpTake_mem _ _ _ _ (fun _ => ?_) | refine ptpTake_shadow _ _ _ _ (fun _ => ?_))
@[simp] theorem setDelay_mem (p : Nat) (d2 : Int) (s : PtpSt) (b : Blk) : (setDelay p d2 s b).shadow = b.shadow ∧
    (setDelay p d2 s b).live = b.live := by
  unfold setDelay
  simp
@[simp] theorem stampOf_mem (p : Nat) (x : EgressIn) (s : PtpSt) (b : Blk) (f : PtpSt → Blk → Blk)
    (hf : ∀ y0 y1, (f y0 y1).shadow = y1.shadow ∧ (f y0 y1).live = y1.live) : (stampOf p x s b f).shadow = b.shadow ∧
    (stampOf p x s b f).live = b.live := by
  unfold stampOf
  simp [*]
@[simp] theorem transmit_mem (p : Nat) (x : EgressIn) (b : Blk) (f : PtpSt → Blk → Blk)
    (hf : ∀ y0 y1, (f y0 y1).shadow = y1.shadow ∧ (f y0 y1).live = y1.live) : (transmit p x b f).shadow = b.shadow ∧
    (transmit p x b f).live = b.live := by
  unfold transmit
  simp [*]
@[simp] theorem faultyStamp_mem (p : Nat) (x : EgressIn) (b : Blk) : (faultyStamp p x b).shadow = b.shadow ∧
    (faultyStamp p x b).live = b.live := by
  unfold faultyStamp
  simp
@[simp] theorem delayReqDo_mem (p : Nat) (x : EgressIn) (b : Blk) : (delayReqDo p x b).shadow = b.shadow ∧
    (delayReqDo p x b).live = b.live := by
  unfold delayReqDo
  simp
@[simp] theorem delayRespDo_mem (p : Nat) (x : PtpMsg) (b : Blk) : (delayRespDo p x b).shadow = b.shadow ∧
    (delayRespDo p x b).live = b.live := by
  unfold delayRespDo
  repeat' (first | (simp; done) | split | dsimp only | refine foldl_mem _ _ _ (fun _ _ => ?_) | refine foldl_shadow _ _ _ (fun _ _ => ?_) | refine onCell_mem _ _ _ _ (fun _ => ?_) | refine ptpTake_mem _ _ _ _ (fun _ => ?_))
@[simp] theorem pdelayReqDo_mem (p : Nat) (x : PtpMsg) (g : EgressIn) (b : Blk) : (pdelayReqDo p x g b).shadow =
    b.shadow ∧ (pdelayReqDo p x g b).live = b.live := by
  unfold pdelayReqDo
  simp
@[simp] theorem pdelayIntervalDo_mem (p : Nat) (x : EgressIn) (b : Blk) : (pdelayIntervalDo p x b).shadow = b.shadow ∧
    (pdelayIntervalDo p x b).live = b.live := by
  unfold pdelayIntervalDo
  simp
@[simp] theorem pdelayRespDo_mem (p : Nat) (x : PtpMsg) (b : Blk) : (pdelayRespDo p x b).shadow = b.shadow ∧
    (pdelayRespDo p x b).live = b.live := by
  refine ptpTake_mem _ _ _ _ fun b => ?_
  dsimp only
  cases h : (ptpSt b p).preq <;> simp [h]
@[simp] theorem pdelayFollowDo_mem (p : Nat) (x : PtpMsg) (b : Blk) : (pdelayFollowDo p x b).shadow = b.shadow ∧
    (pdelayFollowDo p x b).live = b.live := by
  unfold pdelayFollowDo
  repeat' (first | (simp; done) | split | dsimp only | refine foldl_mem _ _ _ (fun _ _ => ?_) | refine foldl_shadow _ _ _ (fun _ _ => ?_) | refine onCell_mem _ _ _ _ (fun _ => ?_) | refine ptpTake_mem _ _ _ _ (fun _ => ?_))
@[simp] theorem ptpRecover_mem (p : Nat) (b : Blk) : (ptpRecover p b).shadow = b.shadow ∧ (ptpRecover p b).live =
    b.live := by
  unfold ptpRecover
  repeat' (first | (simp; done) | split)
@[simp] theorem ppsInEdge_shadow (b : Blk) : (ppsInEdge b).shadow = b.shadow := by
  unfold ppsInEdge
  generalize (2 ^ 48 * 1000000000 : Nat) = q
  simp
@[simp] theorem ppsTimeout_mem (b : Blk) : (ppsTimeout b).shadow = b.shadow ∧ (ppsTimeout b).live = b.live := by
  unfold ppsTimeout
  repeat' (first | simp | split)
@[simp] theorem ppsOutRise_mem (b : Blk) : (ppsOutRise b).shadow = b.shadow ∧ (ppsOutRise b).live = b.live := by
  unfold ppsOutRise
  simp
@[simp] theorem ppsOutFall_mem (b : Blk) : (ppsOutFall b).shadow = b.shadow ∧ (ppsOutFall b).live = b.live := by
  unfold ppsOutFall
  simp
@[simp] theorem openWindow_shadow (q : Nat) (t : Nat) (origin : Nat) (b : Blk) : (openWindow q t origin b).shadow =
    b.shadow := by
  unfold openWindow
  simp
@[simp] theorem trigger_shadow (k : Nat) (v : Nat) (x : Nat) (frm : Nat) (dest : Nat) (b : Blk) :
    (trigger k v x frm dest b).shadow = b.shadow := by
  unfold trigger
  simp
@[simp] theorem armInstant_shadow (b : Blk) : (armInstant b).shadow = b.shadow := by
  unfold armInstant
  repeat' (first | (simp; done) | split)
@[simp] theorem countActs_mem (w : Nat) (b : Blk) : (countActs w b).shadow = b.shadow ∧ (countActs w b).live = b.live
    := by
  unfold countActs
  simp
@[simp] theorem timerActs_mem (k : Nat) (w : Nat) (b : Blk) : (timerActs k w b).shadow = b.shadow ∧
    (timerActs k w b).live = b.live := by
  unfold timerActs
  simp
@[simp] theorem entryMove_shadow (k : Nat) (x : Nat) (b : Blk) : (entryMove k x b).shadow = b.shadow := by
  unfold entryMove
  simp
@[simp] theorem entryMark_shadow (k : Nat) (x : Nat) (v : Nat) (frm : Nat) (b : Blk) : (entryMark k x v frm b).shadow
    = b.shadow := by
  unfold entryMark
  simp
@[simp] theorem entryCounts_mem (k : Nat) (x : Nat) (b : Blk) : (entryCounts k x b).shadow = b.shadow ∧
    (entryCounts k x b).live = b.live := by
  unfold entryCounts
  simp
@[simp] theorem takeEntry_shadow (k : Nat) (x : Nat) (b : Blk) : (takeEntry k x b).shadow = b.shadow := by
  unfold takeEntry
  simp
@[simp] theorem triggerTransition_shadow (b : Blk) : (triggerTransition b).shadow = b.shadow := by
  unfold triggerTransition
  repeat' (first | (simp; done) | split | dsimp only)
@[simp] theorem timerDone_mem (i : Nat) (b : Blk) : (timerDone i b).shadow = b.shadow ∧ (timerDone i b).live = b.live
    := by
  unfold timerDone
  simp
@[simp] theorem trigPinEdge_mem (rising : Bool) (b : Blk) : (trigPinEdge rising b).shadow = b.shadow ∧
    (trigPinEdge rising b).live = b.live := by
  unfold trigPinEdge
  simp
@[simp] theorem trigPulseEnd_mem (b : Blk) : (trigPulseEnd b).shadow = b.shadow ∧ (trigPulseEnd b).live = b.live := by
  unfold trigPulseEnd
  repeat' (first | (simp; done) | split)
@[simp] theorem windowEnd_shadow (b : Blk) : (windowEnd b).shadow = b.shadow := by
  unfold windowEnd
  repeat' (first | simp | split)
@[simp] theorem trigArmCell_mem (id : Nat) (w1 : Nat) (w2 : Nat) (b : Blk) : (trigArmCell id w1 w2 b).shadow =
    b.shadow ∧ (trigArmCell id w1 w2 b).live = b.live := by
  unfold trigArmCell
  simp
@[simp] theorem stepTransition_shadow (b : Blk) : (stepTransition b).shadow = b.shadow := by
  unfold stepTransition
  repeat' (first | (simp; done) | split)
@[simp] theorem trigFireCell_shadow (src : Nat) (id : Nat) (w1 : Nat) (w2 : Nat) (b : Blk) :
    (trigFireCell src id w1 w2 b).shadow = b.shadow := by
  unfold trigFireCell
  simp
@[simp] theorem ctxHalves_mem (host : Bool) (hs : List (Nat × Nat)) (b : Blk) :
    (ctxHalves host hs b).shadow = b.shadow ∧ (ctxHalves host hs b).live = b.live :=
  foldl_mem _ _ _ fun _ _ => putHalf_mem _ _ _ _
@[simp] theorem spoilPending_mem (host : Bool) (a : Nat) (b : Blk) : (spoilPending host a b).shadow = b.shadow ∧
    (spoilPending host a b).live = b.live := by
  unfold spoilPending
  simp [*]
@[simp] theorem contextDo_mem (m : Master) (a : Nat) (ps : List (Nat × Byte)) (b : Blk) : (contextDo m a ps b).shadow
    = b.shadow ∧ (contextDo m a ps b).live = b.live := by
  unfold contextDo
  simp
@[simp] theorem healedBytes_mem (ps : List (Nat × Byte)) (b : Blk) : (healedBytes ps b).shadow = b.shadow ∧
    (healedBytes ps b).live = b.live := by
  unfold healedBytes
  simp
@[simp] theorem partialWrite_mem (m : Master) (a : Nat) (b : Blk) : (partialWrite m a b).shadow = b.shadow ∧
    (partialWrite m a b).live = b.live := by
  unfold partialWrite
  repeat' (first | (simp; done) | split)
@[simp] theorem splitWrite_shadow (m : Master) (a : Nat) (ws : List WrWord) (b : Blk) :
    (splitWrite m a ws b).shadow = b.shadow := by
  fun_induction splitWrite m a ws b with
  | case1 => rfl
  | case2 a b w t ih => rw [ih]; (repeat' split) <;> simp
@[simp] theorem storeWrite_mem (a : Nat) (ps : List (Nat × Byte)) (b : Blk) : (storeWrite a ps b).shadow = b.shadow ∧
    (storeWrite a ps b).live = b.live := by
  unfold storeWrite
  simp
@[simp] theorem scrubPass_shadow (x : ScrubIn) (b : Blk) : (scrubPass x b).shadow = b.shadow := by
  unfold scrubPass
  simp
@[simp] theorem eccWriteback_mem (b : Blk) : (eccWriteback b).shadow = b.shadow ∧ (eccWriteback b).live = b.live := by
  unfold eccWriteback
  simp
end Sys2Proof.Machine
end

