-- ==== Sys2Proof/Laws/Engine.lean ====
section
/-!
SUPPORT. What a syllable does where it is carried out: its writes in order, on the datapath of its engine.
-/
set_option autoImplicit false

namespace Sys2Proof.Machine

@[simp] theorem engLeft_withDp (u : Eng) (dp : Dp) (b : Blk) : engLeft u (withDp u dp b) = dp := by
  cases u with
  | slot e => exact Tbl.get_set_same _ _ _ _
  | planner p => exact Tbl.get_set_same _ _ _ _

@[simp] theorem withDp_mem (u : Eng) (dp : Dp) (b : Blk) :
    (withDp u dp b).shadow = b.shadow ∧ (withDp u dp b).live = b.live := by
  cases u <;> exact ⟨rfl, rfl⟩

/-- Where no word with an error is among those read, a read finds nothing. -/
theorem eccData_none (mine : EccWord → Bool) (b : Blk) (h : ∀ w, w ∈ b.xb.single ∨ w ∈ b.xb.double → mine w = false) :
    eccData mine b = b := by
  have h1 : b.xb.single.filter mine = [] := List.filter_eq_nil_iff.2 fun w hw => by simp [h w (.inl hw)]
  have h2 : b.xb.double.filter mine = [] := List.filter_eq_nil_iff.2 fun w hw => by simp [h w (.inr hw)]
  unfold eccData eccFind
  simp [h1, h2]

/-- The writes of a syllable, carried out one after the other on the datapath of its engine. -/
def issued (u : Eng) (i : Instr) (b : Blk) : Blk × Dp :=
  (sylWr ⟨b, engDp u b, u⟩ i).foldl (doWr u) (b, engDp u b)

/-- A syllable that is carried out makes its writes and counts its bundle (R166, R192). -/
theorem issue_ready (u : Eng) (i : Instr) (s : State) (hr : engReady u s.b = true) (hw : i.wf = true) :
    issue u i s = .next { s with
      b := withDp u { (issued u i s.b).2 with issued := (issued u i s.b).2.issued + 1 } (issued u i s.b).1 } := by
  have hr2 : engRuns u s.b = true ∧ (engDp u s.b).skip = 0 := by
    simpa [engReady] using hr
  obtain ⟨h1, h2⟩ := hr2
  unfold issue
  rw [if_pos hw]
  cases u with
  | slot e =>
    simp only [engRuns, Bool.and_eq_true, bne_iff_ne, Option.isSome_iff_ne_none, ne_eq] at h1
    simp only [engDp] at h2
    simp [issueSlot, bundle, issued, engDp, withDp, h1, h2]
  | planner p =>
    simp only [engRuns, engDp, Bool.and_eq_true, bne_iff_ne, beq_iff_eq, ne_eq] at h1
    simp only [engDp] at h2
    have h3 : eccData (fun w => decide (w.mem.val = 12 ∧ w.unit.val = p.val)) s.b = s.b :=
      eccData_none _ _ fun w hw => by
        have := List.all_eq_true.1 h1.2.2 w (List.mem_append.2 hw)
        simpa [imp_iff_not_or] using this
    simp only [issuePlanner, plannerBundle, if_neg h1.1, h3]
    simp [bundle, issued, engDp, withDp, h1, h2]

end Sys2Proof.Machine
end

