-- ==== Sys2Proof/Laws/PerInstr.lean ====
section
/-!
SUPPORT. The family SyllablesKeepShadows: what an engine carries out is never a command that can change a shadow copy
(R408: engines reach live copies only). One lemma for each constructor.
-/
set_option autoImplicit false

namespace Sys2Proof.Laws.SyllablesKeepShadows

open Sys2Proof Sys2Proof.Machine

/-- A syllable is no command that can change a shadow copy. -/
def Statement (i : Instr) : Prop := (engineOfCmd i).isSome = true → changesShadow i = false

theorem registerWrite (m : Master) (a : WrTo) (ws : List WrWord) : Statement (.registerWrite m a ws) := fun h => absurd h Bool.false_ne_true
theorem errCountClear (m : Master) (page : Fin 512) (v : Word) : Statement (.errCountClear m page v) := fun _ => rfl
theorem loopTick (t : TickIn) : Statement (.loopTick t) := fun h => absurd h Bool.false_ne_true
theorem engineSlot (e : Fin 68) (sl : Fin 72) : Statement (.engineSlot e sl) := fun _ => rfl
theorem nop (u : Eng) (k : Fin 4) (md : BitVec 2) (a c : MacLane) : Statement (.nop u k md a c) := fun _ => rfl
theorem mac (u : Eng) (k : Fin 4) (md : BitVec 2) (a c : MacLane) : Statement (.mac u k md a c) := fun _ => rfl
theorem msu (u : Eng) (k : Fin 4) (md : BitVec 2) (a c : MacLane) : Statement (.msu u k md a c) := fun _ => rfl
theorem mul (u : Eng) (k : Fin 4) (md : BitVec 2) (a c : MacLane) : Statement (.mul u k md a c) := fun _ => rfl
theorem mova (u : Eng) (k : Fin 4) (md : BitVec 2) (a c : MacLane) : Statement (.mova u k md a c) := fun _ => rfl
theorem addx (u : Eng) (k : Fin 4) (md : BitVec 2) (a c : MacLane) : Statement (.addx u k md a c) := fun _ => rfl
theorem aop (u : Eng) (k : Fin 4) (md : BitVec 2) (a c : MacLane) : Statement (.aop u k md a c) := fun _ => rfl
theorem sha (u : Eng) (k : Fin 4) (md : BitVec 2) (a c : MacLane) : Statement (.sha u k md a c) := fun _ => rfl
theorem ftapm (u : Eng) (k : Fin 4) (md : BitVec 2) (a c : MacLane) : Statement (.ftapm u k md a c) := fun _ => rfl
theorem clamp (u : Eng) (k : Fin 4) (md : BitVec 2) (a c : MacLane) : Statement (.clamp u k md a c) := fun _ => rfl
theorem cmpsel (u : Eng) (k : Fin 4) (md : BitVec 2) (a c : MacLane) : Statement (.cmpsel u k md a c) := fun _ => rfl
theorem norm (u : Eng) (k : Fin 4) (md : BitVec 2) (a c : MacLane) : Statement (.norm u k md a c) := fun _ => rfl
theorem rcp (u : Eng) (k : Fin 4) (md : BitVec 2) (a c : MacLane) : Statement (.rcp u k md a c) := fun _ => rfl
theorem satd (u : Eng) (k : Fin 4) (md : BitVec 2) (a c : MacLane) : Statement (.satd u k md a c) := fun _ => rfl
theorem controlNop (u : Eng) : Statement (.controlNop u) := fun _ => rfl
theorem ld (u : Eng) (d : Fin 32) (p : Fin 8) (m : BitVec 6) : Statement (.ld u d p m) := fun _ => rfl
theorem ldw (u : Eng) (d : Fin 32) (p : Fin 8) (m : BitVec 6) : Statement (.ldw u d p m) := fun _ => rfl
theorem ldv (u : Eng) (d : Fin 32) (p : Fin 8) (m : BitVec 6) : Statement (.ldv u d p m) := fun _ => rfl
theorem lda (u : Eng) (a : Fin 8) (p : Fin 8) (m : BitVec 6) : Statement (.lda u a p m) := fun _ => rfl
theorem std (u : Eng) (d : Fin 32) (p : Fin 8) (m : BitVec 6) : Statement (.std u d p m) := fun _ => rfl
theorem stw (u : Eng) (d : Fin 32) (p : Fin 8) (m : BitVec 6) : Statement (.stw u d p m) := fun _ => rfl
theorem stv (u : Eng) (d : Fin 32) (p : Fin 8) (m : BitVec 6) : Statement (.stv u d p m) := fun _ => rfl
theorem sta (u : Eng) (a : Fin 8) (p : Fin 8) (m : BitVec 6) : Statement (.sta u a p m) := fun _ => rfl
theorem stS (u : Eng) (a : Fin 8) (sh : Fin 32) (rm : Rnd) (uns : Bool) (toMem : Bool) (d : Fin 32) (p : Fin 8) (m : BitVec 6) : Statement (.stS u a sh rm uns toMem d p m) := fun _ => rfl
theorem movi (u : Eng) (d : Fin 32) (imm : Half) : Statement (.movi u d imm) := fun _ => rfl
theorem alu (u : Eng) (d x y : Fin 32) (fn : AluFn) : Statement (.alu u d x y fn) := fun _ => rfl
theorem alui (u : Eng) (d x : Fin 32) (fn : AluFn) (imm : BitVec 12) : Statement (.alui u d x fn imm) := fun _ => rfl
theorem cmpd (u : Eng) (f : Fin 8) (cond : Cond) (uns : Bool) (x y : Fin 32) : Statement (.cmpd u f cond uns x y) := fun _ => rfl
theorem flog (u : Eng) (f : Fin 8) (fn : FlagFn) (fa fb : Fin 8) : Statement (.flog u f fn fa fb) := fun _ => rfl
theorem skip (u : Eng) (f : Fin 8) (neg : Bool) (n : Fin 16) (alw : Bool) : Statement (.skip u f neg n alw) := fun _ => rfl
theorem setp (u : Eng) (reg : PtrReg) (x : Fin 8) (imm : BitVec 12) : Statement (.setp u reg x imm) := fun _ => rfl
theorem pwlin (u : Eng) (d x y : Fin 32) (p : Fin 8) : Statement (.pwlin u d x y p) := fun _ => rfl
theorem pha (u : Eng) (d : Fin 32) (src : Bool) (k : Fin 8) : Statement (.pha u d src k) := fun _ => rfl
theorem out (u : Eng) (dh dt : Fin 32) : Statement (.out u dh dt) := fun _ => rfl
theorem sel (u : Eng) (d x y : Fin 32) (f : Fin 8) : Statement (.sel u d x y f) := fun _ => rfl
theorem rep (u : Eng) (n : Fin 32) (count : Fin 4097) : Statement (.rep u n count) := fun _ => rfl
theorem extinctionCheck (e : Fin 4608) (j : Fin 8) (rawA rawB : BitVec 14) : Statement (.extinctionCheck e j rawA rawB) := fun _ => rfl
theorem inputFrozen (x : Fin 9216) : Statement (.inputFrozen x) := fun _ => rfl
theorem ditherWindowEnd (e : Fin 4608) : Statement (.ditherWindowEnd e) := fun _ => rfl
theorem biasFault (n : Fin 9) : Statement (.biasFault n) := fun _ => rfl
theorem trmIlim (e : Fin 4608) : Statement (.trmIlim e) := fun _ => rfl
theorem meterMillisecond : Statement .meterMillisecond := fun _ => rfl
theorem frameAdmission : Statement .frameAdmission := fun _ => rfl
theorem routeSolve : Statement .routeSolve := fun _ => rfl
theorem routeSolveDone : Statement .routeSolveDone := fun _ => rfl
theorem planStart : Statement .planStart := fun _ => rfl
theorem planComplete : Statement .planComplete := fun _ => rfl
theorem sequencerVote (c : VoteIn) : Statement (.sequencerVote c) := fun _ => rfl
theorem comparatorMatch : Statement .comparatorMatch := fun _ => rfl
theorem deliveryWindowClose : Statement .deliveryWindowClose := fun _ => rfl
theorem completionEvent : Statement .completionEvent := fun _ => rfl
theorem schedCancel (v : Word) : Statement (.schedCancel v) := fun _ => rfl
theorem budgetWrite (v : Word) : Statement (.budgetWrite v) := fun _ => rfl
theorem retireClr (v : Word) : Statement (.retireClr v) := fun _ => rfl
theorem fabricCommit (v : Word) : Statement (.fabricCommit v) := fun _ => rfl
theorem routeCommit (v : Word) : Statement (.routeCommit v) := fun _ => rfl
theorem routeTry (v : Word) : Statement (.routeTry v) := fun _ => rfl
theorem planCommitXt : Statement .planCommitXt := fun _ => rfl
theorem planCommitStep : Statement .planCommitStep := fun _ => rfl
theorem lclassCommit (v : Word) : Statement (.lclassCommit v) := fun _ => rfl
theorem snsCommitOfs (n : Fin 9) : Statement (.snsCommitOfs n) := fun _ => rfl
theorem snsCommitRtd : Statement .snsCommitRtd := fun _ => rfl
theorem progCommit : Statement .progCommit := fun _ => rfl
theorem tableWrite (m : Master) (a : Nat) (bytes : List (Option Byte)) : Statement (.tableWrite m a bytes) := fun h => absurd h Bool.false_ne_true
theorem contextWrite (m : Master) (a : Nat) (bytes : List (Option Byte)) : Statement (.contextWrite m a bytes) := fun h => absurd h Bool.false_ne_true
theorem xtCrcDone : Statement .xtCrcDone := fun _ => rfl
theorem xtShWrite (v : Word) : Statement (.xtShWrite v) := fun _ => rfl
theorem epsLockWrite (v : Word) : Statement (.epsLockWrite v) := fun _ => rfl
theorem dlogRpWrite (v : Word) : Statement (.dlogRpWrite v) := fun _ => rfl
theorem dlogLostClear : Statement .dlogLostClear := fun _ => rfl
theorem openLoops (scope : Fin 4) (target : BitVec 13) : Statement (.openLoops scope target) := fun _ => rfl
theorem closeLoops (scope : Fin 4) (target : BitVec 13) : Statement (.closeLoops scope target) := fun _ => rfl
theorem park (scope : Fin 4) (target : BitVec 13) : Statement (.park scope target) := fun _ => rfl
theorem lclassFirstClear : Statement .lclassFirstClear := fun _ => rfl
theorem diagClear (e : Fin 68) : Statement (.diagClear e) := fun _ => rfl
theorem railChange (n : Fin 18) (v : Word) : Statement (.railChange n v) := fun _ => rfl
theorem spanWrite (n : Fin 18) (x : Fin 8) (v : Word) : Statement (.spanWrite n x v) := fun _ => rfl
theorem spanSwitch (e : Fin 4608) : Statement (.spanSwitch e) := fun _ => rfl
theorem spanSequenceDone (n : Fin 18) : Statement (.spanSequenceDone n) := fun _ => rfl
theorem drvEnWrite (n : Fin 18) (v : Word) : Statement (.drvEnWrite n v) := fun _ => rfl
theorem rearm (n : Fin 18) : Statement (.rearm n) := fun _ => rfl
theorem mtrPeakClear (n : Fin 18) : Statement (.mtrPeakClear n) := fun _ => rfl
theorem hostCodeWrite (n : Fin 18) (row : Fin 256) (v : Word) : Statement (.hostCodeWrite n row v) := fun _ => rfl
theorem launchShadowWrite (m : Master) (n : Fin 18) (off : BitVec 12) (v : Word) : Statement (.launchShadowWrite m n off v) := fun _ => rfl
theorem clrNAssert : Statement .clrNAssert := fun _ => rfl
theorem pdBiasChange (n : Fin 9) (v : Word) : Statement (.pdBiasChange n v) := fun _ => rfl
theorem snsFirstClear (n : Fin 9) : Statement (.snsFirstClear n) := fun _ => rfl
theorem timeCfgWrite (v : Word) : Statement (.timeCfgWrite v) := fun _ => rfl
theorem incrWrite (v : Word) : Statement (.incrWrite v) := fun _ => rfl
theorem setGo (v : Word) : Statement (.setGo v) := fun _ => rfl
theorem adj (v : Word) : Statement (.adj v) := fun _ => rfl
theorem deferredStep : Statement .deferredStep := fun _ => rfl
theorem pauseClr : Statement .pauseClr := fun _ => rfl
theorem nowNsRead (x : ReadReq) : Statement (.nowNsRead x) := fun _ => rfl
theorem ppsInEdge : Statement .ppsInEdge := fun _ => rfl
theorem ppsTimeout : Statement .ppsTimeout := fun _ => rfl
theorem ppsOutRise : Statement .ppsOutRise := fun _ => rfl
theorem ppsOutFall : Statement .ppsOutFall := fun _ => rfl
theorem sync (p : Fin 2) (x : PtpMsg) : Statement (.sync p x) := fun _ => rfl
theorem followUp (p : Fin 2) (x : PtpMsg) : Statement (.followUp p x) := fun _ => rfl
theorem delayResp (p : Fin 2) (x : PtpMsg) : Statement (.delayResp p x) := fun _ => rfl
theorem pdelayReq (p : Fin 2) (x : PdelayReqIn) : Statement (.pdelayReq p x) := fun _ => rfl
theorem pdelayResp (p : Fin 2) (x : PtpMsg) : Statement (.pdelayResp p x) := fun _ => rfl
theorem pdelayRespFollowUp (p : Fin 2) (x : PtpMsg) : Statement (.pdelayRespFollowUp p x) := fun _ => rfl
theorem pdelayReqInterval (p : Fin 2) (x : EgressIn) : Statement (.pdelayReqInterval p x) := fun _ => rfl
theorem announce (p : Fin 2) (x : PtpMsg) : Statement (.announce p x) := fun _ => rfl
theorem announceReceiptTimeout (p : Fin 2) : Statement (.announceReceiptTimeout p) := fun _ => rfl
theorem ptpPortRecover (p : Fin 2) : Statement (.ptpPortRecover p) := fun _ => rfl
theorem arpRequest (p : Fin 2) (ip : Word) : Statement (.arpRequest p ip) := fun _ => rfl
theorem icmpEcho (p : Fin 2) (ip : Word) (data : List Byte) : Statement (.icmpEcho p ip data) := fun _ => rfl
theorem schedule (x : UdpMsg) : Statement (.schedule x) := fun _ => rfl
theorem cancel (x : UdpMsg) : Statement (.cancel x) := fun _ => rfl
theorem querySummary (x : UdpMsg) : Statement (.querySummary x) := fun _ => rfl
theorem queryFrame (x : UdpMsg) : Statement (.queryFrame x) := fun _ => rfl
theorem subscribe (x : UdpMsg) : Statement (.subscribe x) := fun _ => rfl
theorem unsubscribe (x : UdpMsg) : Statement (.unsubscribe x) := fun _ => rfl
theorem subExpired (x : Fin 4) : Statement (.subExpired x) := fun _ => rfl
theorem telemetrySummary (x : Fin 4) : Statement (.telemetrySummary x) := fun _ => rfl
theorem ethLinkLoss (p : Fin 2) (x : MstReset) : Statement (.ethLinkLoss p x) := fun _ => rfl
theorem ethCfgWrite (p : Fin 2) (v : Word) (x : MstReset) : Statement (.ethCfgWrite p v x) := fun _ => rfl
theorem cmdTailWrite (v : Word) : Statement (.cmdTailWrite v) := fun _ => rfl
theorem cmdEntryFetch (x : RingEntry) : Statement (.cmdEntryFetch x) := fun _ => rfl
theorem cmdCfgWrite (v : Word) : Statement (.cmdCfgWrite v) := fun _ => rfl
theorem completionRecordWrite : Statement .completionRecordWrite := fun _ => rfl
theorem cplSignalHoldoffEnd : Statement .cplSignalHoldoffEnd := fun _ => rfl
theorem cplRpWrite (v : Word) : Statement (.cplRpWrite v) := fun _ => rfl
theorem acqStreamCopy (ok : Bool) : Statement (.acqStreamCopy ok) := fun _ => rfl
theorem pcieLinkDown (x : MstReset) : Statement (.pcieLinkDown x) := fun _ => rfl
theorem pcieHotReset (x : MstReset) : Statement (.pcieHotReset x) := fun _ => rfl
theorem functionLevelReset (x : MstReset) : Statement (.functionLevelReset x) := fun _ => rfl
theorem busMasterDisable : Statement .busMasterDisable := fun _ => rfl
theorem msixHoldoffEnd (vec : Fin 32) : Statement (.msixHoldoffEnd vec) := fun _ => rfl
theorem qspiRead : Statement .qspiRead := fun _ => rfl
theorem qspiProgram : Statement .qspiProgram := fun _ => rfl
theorem erase4k : Statement .erase4k := fun _ => rfl
theorem erase64k : Statement .erase64k := fun _ => rfl
theorem qspiOpDone (ok : Bool) : Statement (.qspiOpDone ok) := fun _ => rfl
theorem i2cWrite (bytes : List Byte) : Statement (.i2cWrite bytes) := fun _ => rfl
theorem i2cRead (n : Nat) : Statement (.i2cRead n) := fun _ => rfl
theorem i2cTimeout : Statement .i2cTimeout := fun _ => rfl
theorem extest : Statement .extest := fun _ => rfl
theorem idcode : Statement .idcode := fun _ => rfl
theorem samplePreload (pins load : BitVec 35) : Statement (.samplePreload pins load) := fun _ => rfl
theorem highz : Statement .highz := fun _ => rfl
theorem jtagClamp : Statement .jtagClamp := fun _ => rfl
theorem bypass : Statement .bypass := fun _ => rfl
theorem tapReset : Statement .tapReset := fun _ => rfl
theorem glewCfgWrite (x : GlewCfgIn) : Statement (.glewCfgWrite x) := fun _ => rfl
theorem linkLockRetry (d : Port) : Statement (.linkLockRetry d) := fun _ => rfl
theorem laneAlign (d : Port) : Statement (.laneAlign d) := fun _ => rfl
theorem deskewDone (d : Port) : Statement (.deskewDone d) := fun _ => rfl
theorem idCell (x : Cell) : Statement (.idCell x) := fun _ => rfl
theorem measureDone (d : Port) : Statement (.measureDone d) := fun _ => rfl
theorem bitLockLoss (d : Port) (x : MstReset) : Statement (.bitLockLoss d x) := fun _ => rfl
theorem timeCell (x : TimeCell) : Statement (.timeCell x) := fun _ => rfl
theorem glewOffsetUpdate : Statement .glewOffsetUpdate := fun _ => rfl
theorem statusCell (x : Cell) : Statement (.statusCell x) := fun _ => rfl
theorem memberLost (k : Fin 8) : Statement (.memberLost k) := fun _ => rfl
theorem frameCell (x : Cell) : Statement (.frameCell x) := fun _ => rfl
theorem states (x : Cell) : Statement (.states x) := fun _ => rfl
theorem nochange (x : Cell) : Statement (.nochange x) := fun _ => rfl
theorem ready (x : Cell) : Statement (.ready x) := fun _ => rfl
theorem readyTimeout : Statement .readyTimeout := fun _ => rfl
theorem commitCell (x : Cell) : Statement (.commitCell x) := fun _ => rfl
theorem abortCell (x : Cell) : Statement (.abortCell x) := fun _ => rfl
theorem summary (x : Cell) : Statement (.summary x) := fun _ => rfl
theorem eventCell (x : Cell) : Statement (.eventCell x) := fun _ => rfl
theorem ledger (x : Cell) : Statement (.ledger x) := fun _ => rfl
theorem ctrlPauseClr (x : Cell) : Statement (.ctrlPauseClr x) := fun _ => rfl
theorem trigArm (x : Cell) : Statement (.trigArm x) := fun _ => rfl
theorem trigFire (x : Cell) : Statement (.trigFire x) := fun _ => rfl
theorem mevtRead (m : Master) : Statement (.mevtRead m) := fun _ => rfl
theorem acqRun : Statement .acqRun := fun _ => rfl
theorem acqStop : Statement .acqStop := fun _ => rfl
theorem acqRpWrite (v : Word) : Statement (.acqRpWrite v) := fun _ => rfl
theorem acqFlush (c : Fin 32) : Statement (.acqFlush c) := fun _ => rfl
theorem acqResume : Statement .acqResume := fun _ => rfl
theorem syncRecord : Statement .syncRecord := fun _ => rfl
theorem arm : Statement .arm := fun _ => rfl
theorem disarm : Statement .disarm := fun _ => rfl
theorem force : Statement .force := fun _ => rfl
theorem armInstant : Statement .armInstant := fun _ => rfl
theorem triggerTransition : Statement .triggerTransition := fun _ => rfl
theorem timerDone (x : Fin 4) : Statement (.timerDone x) := fun _ => rfl
theorem trigPinEdge (rising : Bool) : Statement (.trigPinEdge rising) := fun _ => rfl
theorem trigPulseEnd : Statement .trigPulseEnd := fun _ => rfl
theorem windowEnd : Statement .windowEnd := fun _ => rfl
theorem measDone (c : Fin 32) : Statement (.measDone c) := fun _ => rfl
theorem eventLatchClear (m : Master) (a : Nat) (v : Word) : Statement (.eventLatchClear m a v) := fun _ => rfl
theorem evtCntClr : Statement .evtCntClr := fun _ => rfl
theorem evtForce (page : Fin 512) (v : Word) : Statement (.evtForce page v) := fun _ => rfl
theorem reactTableWrite (w : Fin 288) (v : Word) : Statement (.reactTableWrite w v) := fun _ => rfl
theorem reactLock : Statement .reactLock := fun _ => rfl
theorem fcapClear : Statement .fcapClear := fun _ => rfl
theorem aliveToggle : Statement .aliveToggle := fun _ => rfl
theorem watchdog : Statement .watchdog := fun _ => rfl
theorem kick (v : Word) : Statement (.kick v) := fun _ => rfl
theorem aliveCfgWrite (v : Word) : Statement (.aliveCfgWrite v) := fun _ => rfl
theorem checkWindowStart : Statement .checkWindowStart := fun _ => rfl
theorem comparePhaseStart : Statement .comparePhaseStart := fun _ => rfl
theorem confirmationStart : Statement .confirmationStart := fun _ => rfl
theorem confirmationEnd : Statement .confirmationEnd := fun _ => rfl
theorem selftestSegmentEnd (e : Fin 68) (agree : Bool) : Statement (.selftestSegmentEnd e agree) := fun _ => rfl
theorem chkMigrate (v : Word) : Statement (.chkMigrate v) := fun _ => rfl
theorem nvmWriteDone (ok : Bool) : Statement (.nvmWriteDone ok) := fun _ => rfl
theorem nvmCounterWrite : Statement .nvmCounterWrite := fun _ => rfl
theorem keyProg (v : Word) : Statement (.keyProg v) := fun _ => rfl
theorem engFlip (v : Word) : Statement (.engFlip v) := fun _ => rfl
theorem seqFlip (v : Word) : Statement (.seqFlip v) := fun _ => rfl
theorem eccInject (v : Word) : Statement (.eccInject v) := fun _ => rfl
theorem adcHold (v : Word) : Statement (.adcHold v) := fun _ => rfl
theorem stFail (v : Word) : Statement (.stFail v) := fun _ => rfl
theorem housekeepingRound (x : HkIn) : Statement (.housekeepingRound x) := fun _ => rfl
theorem shutClr : Statement .shutClr := fun _ => rfl
theorem sensorReinclude (x : Fin 3) (v : Word) : Statement (.sensorReinclude x v) := fun _ => rfl
theorem scrubPass (x : ScrubIn) : Statement (.scrubPass x) := fun _ => rfl
theorem eccWriteback : Statement .eccWriteback := fun _ => rfl
theorem xbarClearOrphan : Statement .xbarClearOrphan := fun _ => rfl
theorem xbarClearDec : Statement .xbarClearDec := fun _ => rfl
theorem xbarClearEcc : Statement .xbarClearEcc := fun _ => rfl
theorem monClear (v : Word) : Statement (.monClear v) := fun _ => rfl
theorem modeReqIdle : Statement .modeReqIdle := fun _ => rfl
theorem modeReqCalibrate : Statement .modeReqCalibrate := fun _ => rfl
theorem modeReqOpenHold : Statement .modeReqOpenHold := fun _ => rfl
theorem modeReqTrack : Statement .modeReqTrack := fun _ => rfl
theorem modeReqSafe : Statement .modeReqSafe := fun _ => rfl
theorem modeReqOther (code : BitVec 4) : Statement (.modeReqOther code) := fun _ => rfl
theorem freezeNFall : Statement .freezeNFall := fun _ => rfl
theorem freezeNRise : Statement .freezeNRise := fun _ => rfl
theorem softReset : Statement .softReset := fun _ => rfl
theorem softResetEnd (x : StrapIn) : Statement (.softResetEnd x) := fun _ => rfl
theorem powerOnReset : Statement .powerOnReset := fun h => absurd h Bool.false_ne_true
theorem powerOnResetRelease : Statement .powerOnResetRelease := fun _ => rfl
theorem resetNAssert : Statement .resetNAssert := fun h => absurd h Bool.false_ne_true
theorem resetNRelease : Statement .resetNRelease := fun _ => rfl
theorem refclkLoss : Statement .refclkLoss := fun h => absurd h Bool.false_ne_true
theorem corePllLockLoss : Statement .corePllLockLoss := fun h => absurd h Bool.false_ne_true
theorem corePllLock (x : StrapIn) : Statement (.corePllLock x) := fun _ => rfl
theorem serdesPllLock (k : Serdes) : Statement (.serdesPllLock k) := fun _ => rfl
theorem bootSelftestDone (failed : List (Fin 68)) : Statement (.bootSelftestDone failed) := fun _ => rfl
theorem bootComplete (x : BootIn) : Statement (.bootComplete x) := fun h => absurd h Bool.false_ne_true
theorem clrNRelease : Statement .clrNRelease := fun _ => rfl
theorem ethLinkUp (p : Fin 2) : Statement (.ethLinkUp p) := fun _ => rfl
theorem pcieLinkUp (speed : BitVec 3) (width : BitVec 3) : Statement (.pcieLinkUp speed width) := fun _ => rfl
theorem serdesPllLockLoss (k : Serdes) : Statement (.serdesPllLockLoss k) := fun _ => rfl
theorem refclkPresent : Statement .refclkPresent := fun _ => rfl
theorem busMasterEnable : Statement .busMasterEnable := fun _ => rfl
theorem completionTimeout : Statement .completionTimeout := fun _ => rfl
theorem cellCrc (x : CrcCell) (isTime : Bool) : Statement (.cellCrc x isTime) := fun _ => rfl
theorem discardedFrame (p : Fin 2) (x : RxFrame) : Statement (.discardedFrame p x) := fun _ => rfl
theorem rejectedMessage (x : UdpMsg) : Statement (.rejectedMessage x) := fun _ => rfl
theorem delayReq (p : Fin 2) (x : EgressIn) : Statement (.delayReq p x) := fun _ => rfl
theorem aerError (correctable : Bool) : Statement (.aerError correctable) := fun _ => rfl

end Sys2Proof.Laws.SyllablesKeepShadows
end

