-- ==== Sys2Proof/Laws/Sound.lean ====
section
/-!
SUPPORT. Every operation keeps the canonical form of the table memories: `_liveWf` for the live copies where an operation
may change live bytes only, `_sound` for both copies where it may change shadow bytes too.
-/
set_option autoImplicit false

namespace Sys2Proof.Machine

@[simp] theorem wf_ite (c : Prop) [Decidable c] (x y : Tbl Byte) :
    Memory.wf (if c then x else y) = if c then Memory.wf x else Memory.wf y := by split <;> rfl
@[simp] theorem foldl_liveWf {α : Type} (l : List α) (g : Blk → α → Blk) (b : Blk) (hs : Memory.wf b.shadow = true)
    (hl : Memory.wf b.live = true) (hg : ∀ b x, (g b x).shadow = b.shadow)
    (hg2 : ∀ b x, Memory.wf b.shadow = true → Memory.wf b.live = true → Memory.wf (g b x).live = true) :
    Memory.wf (l.foldl g b).live = true := by
  induction l generalizing b with
  | nil => exact hl
  | cons x t ih => exact ih (g b x) ((hg b x).symm ▸ hs) (hg2 b x hs hl)
@[simp] theorem foldl_fst_liveWf {α β : Type} (l : List α) (g : Blk × β → α → Blk × β) (s : Blk × β)
    (hs : Memory.wf s.1.shadow = true) (hl : Memory.wf s.1.live = true) (hg : ∀ s x, (g s x).1.shadow = s.1.shadow)
    (hg2 : ∀ s x, Memory.wf s.1.shadow = true → Memory.wf s.1.live = true → Memory.wf (g s x).1.live = true) :
    Memory.wf (l.foldl g s).1.live = true := by
  induction l generalizing s with
  | nil => exact hl
  | cons x t ih => exact ih (g s x) ((hg s x).symm ▸ hs) (hg2 s x hs hl)
@[simp] theorem putRec_liveWf (hdr : Nat) (ws : List Nat) (b : Blk) (hs : Memory.wf b.shadow = true)
    (hl : Memory.wf b.live = true) : Memory.wf (putRec hdr ws b).live = true := by
  unfold putRec
  simp [*]
@[simp] theorem dueRec_liveWf (hdr : Nat) (ws : List Nat) (b : Blk) (hs : Memory.wf b.shadow = true)
    (hl : Memory.wf b.live = true) : Memory.wf (dueRec hdr ws b).live = true := by
  unfold dueRec
  simp [*]
@[simp] theorem putSync_liveWf (b : Blk) (hs : Memory.wf b.shadow = true) (hl : Memory.wf b.live = true) : Memory.wf
    (putSync b).live = true := by
  unfold putSync
  simp [*]
@[simp] theorem dueSync_liveWf (b : Blk) (hs : Memory.wf b.shadow = true) (hl : Memory.wf b.live = true) : Memory.wf
    (dueSync b).live = true := by
  unfold dueSync
  simp [*]
@[simp] theorem acqStepped_liveWf (b : Blk) (hs : Memory.wf b.shadow = true) (hl : Memory.wf b.live = true) :
    Memory.wf (acqStepped b).live = true := by
  unfold acqStepped
  simp [*]
@[simp] theorem flushData_liveWf (b : Blk) (c : Nat) (hs : Memory.wf b.shadow = true) (hl : Memory.wf b.live = true) :
    Memory.wf (flushData b c).live = true := by
  unfold flushData
  simp [*]
@[simp] theorem streamSample_liveWf (c : Nat) (s : Samp) (b : Blk) (hs : Memory.wf b.shadow = true)
    (hl : Memory.wf b.live = true) : Memory.wf (streamSample c s b).live = true := by
  unfold streamSample
  simp [*]
@[simp] theorem chanSample_liveWf (c : Nat) (s : Samp) (b : Blk) (hs : Memory.wf b.shadow = true)
    (hl : Memory.wf b.live = true) : Memory.wf (chanSample c s b).live = true := by
  unfold chanSample
  simp [*]
@[simp] theorem chanFeed_liveWf (c : Nat) (idx : Nat) (q : Nat) (lat : Nat) (v : Int) (code : Nat) (void : Bool)
    (b : Blk) (hs : Memory.wf b.shadow = true) (hl : Memory.wf b.live = true) : Memory.wf
    (chanFeed c idx q lat v code void b).live = true := by
  unfold chanFeed
  simp [*]
@[simp] theorem outFeed_liveWf (j : Nat) (c : Nat) (b : Blk) (hs : Memory.wf b.shadow = true)
    (hl : Memory.wf b.live = true) : Memory.wf (outFeed j c b).live = true := by
  unfold outFeed
  simp [*]
@[simp] theorem acqOuts_liveWf (k : Nat) (b : Blk) (hs : Memory.wf b.shadow = true) (hl : Memory.wf b.live = true) :
    Memory.wf (acqOuts k b).live = true := by
  unfold acqOuts
  repeat' (first | (simp [*]; done) | split | dsimp only | refine foldl_liveWf _ _ _ (by simp [*]) (by simp [*]) (fun _ _ => by simp) (fun _ _ _ _ => ?_))
@[simp] theorem acqFrame_liveWf (e : Nat) (j : Nat) (c : Nat × Option Nat) (d : Option Int) (b : Blk)
    (hs : Memory.wf b.shadow = true) (hl : Memory.wf b.live = true) : Memory.wf (acqFrame e j c d b).live = true := by
  unfold acqFrame
  repeat' (first | (simp [*]; done) | split | dsimp only | refine foldl_liveWf _ _ _ (by simp [*]) (by simp [*]) (fun _ _ => by simp) (fun _ _ _ _ => ?_))
@[simp] theorem acqTick_liveWf (n : Nat) (b : Blk) (hs : Memory.wf b.shadow = true) (hl : Memory.wf b.live = true) :
    Memory.wf (acqTick n b).live = true := by
  unfold acqTick
  refine foldl_liveWf _ _ _ hs hl (fun b c => ?_) (fun b c hs hl => ?_)
  · repeat' (first | (simp; done) | split)
  · repeat' (first | (simp [*]; done) | split)
@[simp] theorem endMeas_liveWf (short : Bool) (b : Blk) (c : Nat) (hs : Memory.wf b.shadow = true)
    (hl : Memory.wf b.live = true) : Memory.wf (endMeas short b c).live = true := by
  unfold endMeas
  repeat' (first | (simp [*]; done) | split)
@[simp] theorem startMeas_liveWf (t : Nat) (stamp : Nat) (origin : Nat) (stop : Option Nat) (b : Blk)
    (hs : Memory.wf b.shadow = true) (hl : Memory.wf b.live = true) : Memory.wf (startMeas t stamp origin stop b).live
    = true := by
  unfold startMeas
  repeat' (first | (simp [*]; done) | split | dsimp only | refine foldl_liveWf _ _ _ (by simp [*]) (by simp [*]) (fun _ _ => by simp) (fun _ _ _ _ => ?_))
@[simp] theorem acqStart_liveWf (b : Blk) (hs : Memory.wf b.shadow = true) (hl : Memory.wf b.live = true) : Memory.wf
    (acqStart b).live = true := by
  unfold acqStart
  simp [*]
@[simp] theorem atQ_liveWf (t : Nat) (f : Blk → Blk) (b : Blk) (hf : ∀ y0, (f y0).shadow = y0.shadow)
    (hf2 : ∀ y0, Memory.wf y0.shadow = true → Memory.wf y0.live = true → Memory.wf (f y0).live = true)
    (hs : Memory.wf b.shadow = true) (hl : Memory.wf b.live = true) : Memory.wf (atQ t f b).live = true := by
  unfold atQ
  simp [*]
@[simp] theorem acqFlush_liveWf (c : Nat) (b : Blk) (hs : Memory.wf b.shadow = true) (hl : Memory.wf b.live = true) :
    Memory.wf (acqFlush c b).live = true := by
  unfold acqFlush
  split
  · exact hl
  · exact atQ_liveWf _ _ _ (fun _ => flushData_shadow _ _) (fun _ hs hl => flushData_liveWf _ _ hs hl) hs hl
@[simp] theorem putGap_liveWf (b : Blk) (hs : Memory.wf b.shadow = true) (hl : Memory.wf b.live = true) : Memory.wf
    (putGap b).live = true := by
  unfold putGap
  simp [*]
@[simp] theorem acqResume_liveWf (b : Blk) (hs : Memory.wf b.shadow = true) (hl : Memory.wf b.live = true) : Memory.wf
    (acqResume b).live = true := by
  unfold acqResume
  split
  · have h1 := putGap_liveWf (setFlag Reg.ACQ.STAT.DROPPING false b) (by simp [*]) (by simp [*])
    exact putSync_liveWf _ (by simp [*])
      (foldl_liveWf _ _ _ (by simp [*]) (by simp [*]) (fun _ _ => by simp) (fun _ _ _ _ => by simp [*]))
  · exact hl
@[simp] theorem syncRecord_liveWf (b : Blk) (hs : Memory.wf b.shadow = true) (hl : Memory.wf b.live = true) :
    Memory.wf (syncRecord b).live = true := by
  unfold syncRecord
  simp [*]
@[simp] theorem copyLive_liveWf (lo hi : Nat) (b : Blk) (h : lo ≤ hi) (hs : Memory.wf b.shadow = true)
    (hl : Memory.wf b.live = true) : Memory.wf (copyLive lo hi b).live = true := by
  unfold copyLive
  simp [*]
@[simp] theorem takeElements_liveWf (b : Blk) (hs : Memory.wf b.shadow = true) (hl : Memory.wf b.live = true) :
    Memory.wf (takeElements b).live = true := by
  unfold takeElements
  simp [*]
@[simp] theorem takeCrosstalk_liveWf (b : Blk) (hs : Memory.wf b.shadow = true) (hl : Memory.wf b.live = true) :
    Memory.wf (takeCrosstalk b).live = true := by
  unfold takeCrosstalk
  simp [*]
@[simp] theorem takeShapes_liveWf (b : Blk) (hs : Memory.wf b.shadow = true) (hl : Memory.wf b.live = true) :
    Memory.wf (takeShapes b).live = true := by
  unfold takeShapes
  simp [*]
@[simp] theorem takeSlot_liveWf (s : Nat) (b : Blk) (hs : Memory.wf b.shadow = true) (hl : Memory.wf b.live = true) :
    Memory.wf (takeSlot s b).live = true := by
  unfold takeSlot
  simp [*]
@[simp] theorem takeOffsets_liveWf (n : Nat) (b : Blk) (hs : Memory.wf b.shadow = true) (hl : Memory.wf b.live = true)
    : Memory.wf (takeOffsets n b).live = true := by
  unfold takeOffsets
  simp [*]
@[simp] theorem takeProgram_liveWf (b : Blk) (hs : Memory.wf b.shadow = true) (hl : Memory.wf b.live = true) :
    Memory.wf (takeProgram b).live = true := by
  unfold takeProgram
  simp [*]
@[simp] theorem passCell_liveWf (x : Cell) (take : Blk → Blk) (b : Blk) (htake : ∀ y0, (take y0).shadow = y0.shadow)
    (htake2 : ∀ y0, Memory.wf y0.shadow = true → Memory.wf y0.live = true → Memory.wf (take y0).live = true)
    (hs : Memory.wf b.shadow = true) (hl : Memory.wf b.live = true) : Memory.wf (passCell x take b).live = true := by
  unfold passCell
  simp [*]
@[simp] theorem onCell_liveWf (typ : Nat) (x : Cell) (take : Blk → Blk) (b : Blk) (htake : ∀ b, (take b).shadow = b.shadow)
    (htake2 : ∀ b, Memory.wf b.shadow = true → Memory.wf b.live = true → Memory.wf (take b).live = true)
    (hs : Memory.wf b.shadow = true) (hl : Memory.wf b.live = true) : Memory.wf (onCell typ x take b).live = true := by
  unfold onCell
  split
  · exact hl
  · split
    · simp [*]
    · split
      · exact passCell_liveWf x take b htake htake2 hs hl
      · exact hl
@[simp] theorem applyStep_liveWf (d : Int) (b : Blk) (hs : Memory.wf b.shadow = true) (hl : Memory.wf b.live = true) :
    Memory.wf (applyStep d b).live = true := by
  unfold applyStep
  simp [*]
@[simp] theorem stepLocal_liveWf (d : Int) (b : Blk) (hs : Memory.wf b.shadow = true) (hl : Memory.wf b.live = true) :
    Memory.wf (stepLocal d b).live = true := by
  unfold stepLocal
  simp [*]
@[simp] theorem offsetUpdate_liveWf (o : Int) (nom : Nat) (force : Bool) (b : Blk) (hs : Memory.wf b.shadow = true)
    (hl : Memory.wf b.live = true) : Memory.wf (offsetUpdate o nom force b).live = true := by
  unfold offsetUpdate
  simp [*]
@[simp] theorem glewOffsetUpdate_liveWf (b : Blk) (hs : Memory.wf b.shadow = true) (hl : Memory.wf b.live = true) :
    Memory.wf (glewOffsetUpdate b).live = true := by
  unfold glewOffsetUpdate
  simp [*]
@[simp] theorem extinctionCheck_liveWf (e : Nat) (j : Nat) (ca : BitVec 14) (cb : BitVec 14) (b : Blk)
    (hs : Memory.wf b.shadow = true) (hl : Memory.wf b.live = true) : Memory.wf (extinctionCheck e j ca cb b).live =
    true := by
  unfold extinctionCheck
  simp [*]
@[simp] theorem setGoDo_liveWf (v : Word) (b : Blk) (hs : Memory.wf b.shadow = true) (hl : Memory.wf b.live = true) :
    Memory.wf (setGoDo v b).live = true := by
  unfold setGoDo
  simp [*]
@[simp] theorem adjDo_liveWf (v : Word) (b : Blk) (hs : Memory.wf b.shadow = true) (hl : Memory.wf b.live = true) :
    Memory.wf (adjDo v b).live = true := by
  unfold adjDo
  simp [*]
@[simp] theorem spoilLive_liveWf (a : Nat) (b : Blk) (hs : Memory.wf b.shadow = true) (hl : Memory.wf b.live = true) :
    Memory.wf (spoilLive a b).live = true := by
  unfold spoilLive
  simp [*]
@[simp] theorem foundDouble_liveWf (w : EccWord) (b : Blk) (hs : Memory.wf b.shadow = true)
    (hl : Memory.wf b.live = true) : Memory.wf (foundDouble w b).live = true := by
  unfold foundDouble
  simp [*]
@[simp] theorem eccFind_liveWf (tx : EccWord → Option (Nat × Nat × Nat)) (mine : EccWord → Bool) (b : Blk)
    (hs : Memory.wf b.shadow = true) (hl : Memory.wf b.live = true) : Memory.wf (eccFind tx mine b).live = true := by
  unfold eccFind
  repeat' (first | (simp [*]; done) | split | dsimp only | refine foldl_liveWf _ _ _ (by simp [*]) (by simp [*]) (fun _ _ => by simp) (fun _ _ _ _ => ?_))
@[simp] theorem eccData_liveWf (mine : EccWord → Bool) (b : Blk) (hs : Memory.wf b.shadow = true)
    (hl : Memory.wf b.live = true) : Memory.wf (eccData mine b).live = true := by
  unfold eccData
  simp [*]
@[simp] theorem routeTryDo_liveWf (v : Word) (b : Blk) (hs : Memory.wf b.shadow = true) (hl : Memory.wf b.live = true)
    : Memory.wf (routeTryDo v b).live = true := by
  unfold routeTryDo
  simp [*]
@[simp] theorem putMark_liveWf (k : Nat) (stamp : Nat) (m : Mark) (b : Blk) (hs : Memory.wf b.shadow = true)
    (hl : Memory.wf b.live = true) : Memory.wf (putMark k stamp m b).live = true := by
  unfold putMark
  simp [*]
@[simp] theorem closeWindow_liveWf (k : Nat) (cut : Bool) (b : Blk) (hs : Memory.wf b.shadow = true)
    (hl : Memory.wf b.live = true) : Memory.wf (closeWindow k cut b).live = true := by
  unfold closeWindow
  repeat' (first | (simp [*]; done) | split)
@[simp] theorem closeEndless_liveWf (k : Nat) (b : Blk) (hs : Memory.wf b.shadow = true)
    (hl : Memory.wf b.live = true) : Memory.wf (closeEndless k b).live = true := by
  unfold closeEndless
  simp [*]
@[simp] theorem armAct_liveWf (k : Nat) (id : Nat) (b : Blk) (hs : Memory.wf b.shadow = true)
    (hl : Memory.wf b.live = true) : Memory.wf (armAct k id b).live = true := by
  unfold armAct
  simp [*]
@[simp] theorem disarmAct_liveWf (k : Nat) (m : Mark) (b : Blk) (hs : Memory.wf b.shadow = true)
    (hl : Memory.wf b.live = true) : Memory.wf (disarmAct k m b).live = true := by
  unfold disarmAct
  simp [*]
@[simp] theorem disarmCmd_liveWf (k : Nat) (b : Blk) (hs : Memory.wf b.shadow = true) (hl : Memory.wf b.live = true) :
    Memory.wf (disarmCmd k b).live = true := by
  unfold disarmCmd
  simp [*]
@[simp] theorem trigActDo_liveWf (v : Word) (b : Blk) (hs : Memory.wf b.shadow = true) (hl : Memory.wf b.live = true)
    : Memory.wf (trigActDo v b).live = true := by
  unfold trigActDo
  simp [*]
@[simp] theorem regDo_liveWf (g : Pg) (i page off : Nat) (v : Word) (b : Blk) (hs : Memory.wf b.shadow = true)
    (hl : Memory.wf b.live = true) : Memory.wf (regDo g i page off v b).live = true := by
  have hp : ∀ c, planeDo g i off v b = some c → Memory.wf c.live = true := by
    intro c h
    unfold planeDo at h
    split at h <;> (repeat' split at h) <;> first
      | (cases h; done)
      | (cases h; simp [*])
  have hv : ∀ fs c, serviceDo g i off v fs b = some c → Memory.wf c.live = true := by
    intro fs c h
    unfold serviceDo at h
    split at h <;> (try unfold pcieDo at h) <;> (repeat' split at h) <;> first
      | (cases h; done)
      | (cases h; simp [*])
  have ha : Memory.wf ((arrayDo g i off v b).getD (storeFields page off v ((g.fields i off).getD []) b)).live = true := by
    unfold arrayDo
    repeat' (first | simp [*] | split)
  unfold regDo
  split
  · simp [*]
  · dsimp only
    split
    · next h => exact hp _ h
    · split
      · next h => exact hv _ _ h
      · exact ha
@[simp] theorem hostWrite_liveWf (m : Master) (a : Nat) (v : Word) (b : Blk) (hs : Memory.wf b.shadow = true)
    (hl : Memory.wf b.live = true) : Memory.wf (hostWrite m a v b).live = true := by
  unfold hostWrite
  repeat' (first | (simp [*]; done) | split)
@[simp] theorem pageWrite_liveWf (page : Nat) (off : Nat) (v : Word) (b : Blk) (hs : Memory.wf b.shadow = true)
    (hl : Memory.wf b.live = true) : Memory.wf (pageWrite page off v b).live = true := by
  unfold pageWrite
  simp [*]
@[simp] theorem ethCfgWrite_liveWf (p : Nat) (v : Word) (x : MstReset) (b : Blk) (hs : Memory.wf b.shadow = true)
    (hl : Memory.wf b.live = true) : Memory.wf (ethCfgWrite p v x b).live = true := by
  unfold ethCfgWrite
  simp [*]
@[simp] theorem glewCfgWrite_liveWf (v : Word) (x : MstReset) (b : Blk) (hs : Memory.wf b.shadow = true)
    (hl : Memory.wf b.live = true) : Memory.wf (glewCfgWrite v x b).live = true := by
  unfold glewCfgWrite
  simp [*]
@[simp] theorem takeCommit_liveWf (page : Nat) (j : Nat) (p : Bool) (f : Blk → Blk) (b : Blk)
    (hf : ∀ y0, (f y0).shadow = y0.shadow)
    (hf2 : ∀ y0, Memory.wf y0.shadow = true → Memory.wf y0.live = true → Memory.wf (f y0).live = true)
    (hs : Memory.wf b.shadow = true) (hl : Memory.wf b.live = true) : Memory.wf (takeCommit page j p f b).live = true
    := by
  unfold takeCommit
  simp [*]
@[simp] theorem takeCommitAll_liveWf (page : Nat) (p : Nat → Blk → Bool) (f : Nat → Blk → Blk) (n : Nat) (b : Blk)
    (hf : ∀ i b, (f i b).shadow = b.shadow)
    (hg : ∀ i b, Memory.wf b.shadow = true → Memory.wf b.live = true → Memory.wf (f i b).live = true)
    (hs : Memory.wf b.shadow = true) (hl : Memory.wf b.live = true) :
    Memory.wf ((List.range n).foldl (fun b i => takeCommit page i (p i b) (f i) b) b).live = true :=
  foldl_liveWf _ _ _ hs hl (fun _ _ => by simp [hf]) (fun _ i hs hl => takeCommit_liveWf _ _ _ _ _ (hf i) (hg i) hs hl)
@[simp] theorem commitBoundary_liveWf (b : Blk) (hs : Memory.wf b.shadow = true) (hl : Memory.wf b.live = true) :
    Memory.wf (commitBoundary b).live = true := by
  have h1 := takeCommit_liveWf 0xC 0 (!planToCompletion b) takeElements b (by simp) (by intros; simp [*]) hs hl
  have h2 := takeCommit_liveWf 0xA 0 (!planToCompletion b) takeCrosstalk _ (by simp) (by intros; simp [*]) (by simp [hs]) h1
  have h3 := takeCommit_liveWf 0xA 1 (!planToCompletion b) takeShapes _ (by simp) (by intros; simp [*]) (by simp [hs]) h2
  have h4 := takeCommitAll_liveWf 0xB (fun s b => !slotNamed b s) takeSlot 32 _ (by simp) (by intros; simp [*]) (by simp [hs]) h3
  have h5 := takeCommitAll_liveWf 0xC0 (fun _ _ => true) takeClass 16 _ (by simp) (by intros; simp [*]) (by simp [hs]) h4
  have h6 := foldl_liveWf (List.range 9) (fun b n => takeCommit (0xA0 + n) 0 true (takeOffsets n) b) _ (by simp [hs]) h5 (fun _ _ => by simp) (fun _ n hs hl => takeCommit_liveWf _ _ _ _ _ (by simp) (by intros; simp [*]) hs hl)
  have h7 := takeCommit_liveWf 0xA0 1 true takeRtds _ (by simp) (by intros; simp [*]) (by simp [hs]) h6
  exact takeCommit_liveWf 0x20 0 true takeProgram _ (by simp) (by intros; simp [*]) (by simp [hs]) h7
@[simp] theorem storeSlot_liveWf (e : Nat) (a : Nat) (v : Half) (x : Blk × Dp) (hs : Memory.wf x.1.shadow = true)
    (hl : Memory.wf x.1.live = true) : Memory.wf (storeSlot e a v x).1.live = true := by
  unfold storeSlot
  simp [*]
@[simp] theorem store_liveWf (u : Eng) (a : Nat) (v : Half) (x : Blk × Dp) (hs : Memory.wf x.1.shadow = true)
    (hl : Memory.wf x.1.live = true) : Memory.wf (store u a v x).1.live = true := by
  unfold store
  repeat' (first | (simp [*]; done) | split)
@[simp] theorem storeAll_liveWf (u : Eng) (a : Nat) (vs : List Half) (x : Blk × Dp) (hs : Memory.wf x.1.shadow = true)
    (hl : Memory.wf x.1.live = true) : Memory.wf (storeAll u a vs x).1.live = true := by
  unfold storeAll
  split
  · next e =>
    have h := foldl_fst_liveWf vs.zipIdx (fun x (v : Half × Nat) => if writable (a + v.2) then storeSlot e.val (a + v.2) v.1 x else x) x hs hl
      (fun _ _ => by split <;> simp) (fun _ _ hs hl => by split <;> simp [*])
    dsimp only
    split
    · exact h
    · simpa using h
  · exact foldl_fst_liveWf _ _ _ hs hl (fun _ _ => by simp) (fun _ _ hs hl => store_liveWf _ _ _ _ hs hl)
@[simp] theorem doWr_liveWf (u : Eng) (x : Blk × Dp) (w : Wr) (hs : Memory.wf x.1.shadow = true)
    (hl : Memory.wf x.1.live = true) : Memory.wf (doWr u x w).1.live = true := by
  unfold doWr
  repeat' (first | (simp [*]; done) | split)
@[simp] theorem bundle_liveWf (u : Eng) (syls : List Instr) (x : Blk × Dp) (hs : Memory.wf x.1.shadow = true)
    (hl : Memory.wf x.1.live = true) : Memory.wf (bundle u syls x).1.live = true := by
  unfold bundle
  split
  · exact hl
  · exact foldl_fst_liveWf _ _ _ hs hl (fun _ _ => by simp) (fun _ _ hs hl => doWr_liveWf _ _ _ hs hl)
@[simp] theorem bundles_liveWf (u : Eng) (is : List (List Instr)) (x : Blk × Dp) (hs : Memory.wf x.1.shadow = true) (hl : Memory.wf x.1.live = true) : Memory.wf (bundles u is x).1.live = true :=
  foldl_fst_liveWf _ _ _ hs hl (fun _ _ => by simp) (fun _ _ hs hl => bundle_liveWf _ _ _ hs hl)
@[simp] theorem issueSlot_liveWf (e : Fin 4608) (i : Instr) (b : Blk) (hs : Memory.wf b.shadow = true)
    (hl : Memory.wf b.live = true) : Memory.wf (issueSlot e i b).live = true := by
  unfold issueSlot
  simp [*]
@[simp] theorem repeatRun_liveWf (u : Eng) (is : List (List Instr)) (n : Nat) (x : Blk × Dp)
    (hs : Memory.wf x.1.shadow = true) (hl : Memory.wf x.1.live = true) : Memory.wf (repeatRun u is n x).1.live = true
    := by
  induction n generalizing x with
  | zero => exact hl
  | succ n ih => exact ih _ (by simp [hs]) (bundles_liveWf u is x hs hl)
@[simp] theorem plannerBundle_liveWf (p : Fin 8) (is : List Instr) (b : Blk) (hs : Memory.wf b.shadow = true)
    (hl : Memory.wf b.live = true) : Memory.wf (plannerBundle p is b).live = true := by
  unfold plannerBundle
  split
  · exact hl
  · generalize hc : eccData _ b = c
    have h := bundle_liveWf (.planner p) is (c, c.dpP.get Dp.reset p.val) (by simp [← hc, hs]) (by simp [← hc, hs, hl])
    have g : (bundle (.planner p) is (c, c.dpP.get Dp.reset p.val)).1.shadow = b.shadow := by simp [← hc]
    dsimp only
    repeat' split
    · exact h
    · exact repeatRun_liveWf _ _ _ _ (by rw [g]; exact hs) h
    · exact h
@[simp] theorem issuePlanner_liveWf (p : Fin 8) (i : Instr) (b : Blk) (hs : Memory.wf b.shadow = true) (hl : Memory.wf b.live = true) : Memory.wf (issuePlanner p i b).live = true :=
  plannerBundle_liveWf p [i] b hs hl
@[simp] theorem onUdp_liveWf (typ : Nat) (x : UdpMsg) (act : Blk → Blk) (b : Blk)
    (hact : ∀ y0, (act y0).shadow = y0.shadow)
    (hact2 : ∀ y0, Memory.wf y0.shadow = true → Memory.wf y0.live = true → Memory.wf (act y0).live = true)
    (hs : Memory.wf b.shadow = true) (hl : Memory.wf b.live = true) : Memory.wf (onUdp typ x act b).live = true := by
  unfold onUdp
  simp [*]
@[simp] theorem query_liveWf (what : Nat) (x : UdpMsg) (answer : Blk → List Word) (b : Blk)
    (hs : Memory.wf b.shadow = true) (hl : Memory.wf b.live = true) : Memory.wf (query what x answer b).live = true :=
    by
  unfold query
  simp [*]
@[simp] theorem subscription_liveWf (en : Bool) (x : UdpMsg) (f : Blk → Blk) (b : Blk) (hf : ∀ b, (f b).shadow = b.shadow)
    (hg : ∀ b, Memory.wf b.shadow = true → Memory.wf b.live = true → Memory.wf (f b).live = true) (hs : Memory.wf b.shadow = true) (hl : Memory.wf b.live = true) : Memory.wf (subscription en x f b).live = true := by
  unfold subscription
  split
  · exact hl
  · refine onUdp_liveWf _ _ _ _ (fun b => ?_) (fun b hs hl => ?_) hs hl
    · split <;> simp [hf]
    · split
      · simp [*]
      · simp [hg b hs hl]
@[simp] theorem cwSet_wf (e w v : Nat) (m : Tbl Byte) (h : Memory.wf m = true) : Memory.wf (cwSet e w v m) = true :=
    by
  unfold cwSet
  simp [*]
theorem foldl_cwSet_wf {α : Type} (e : Nat) (g : α → Nat × Nat) (l : List α) (m : Tbl Byte) (h : Memory.wf m = true) :
    Memory.wf (l.foldl (fun m x => cwSet e (g x).1 (g x).2 m) m) = true := by
  induction l generalizing m with
  | nil => exact h
  | cons x t ih => exact ih _ (cwSet_wf _ _ _ _ h)
@[simp] theorem writeCx_wf (e : Nat) (c : Cx) (m : Tbl Byte) (h : Memory.wf m = true) : Memory.wf (writeCx e c m) =
    true := by
  unfold writeCx
  generalize ([c.hLast + c.tLast * 65536, _, _, _, _, _, _, _, _, _, _, _, _, _, _] : List Nat) = ws
  have h1 := foldl_cwSet_wf e (fun x : Nat × Nat => (x.2, x.1)) ws.zipIdx m h
  have h2 := foldl_cwSet_wf e (fun i : Nat => (32 + i, 0)) (List.range 8) _ h1
  refine wrB_wf _ _ _ (wrB_wf _ _ _ ?_)
  exact h2
@[simp] theorem pushRings_wf (q : SlIn) (p : Nat) (m : Tbl Byte) (h : Memory.wf m = true) : Memory.wf (pushRings q p m) = true :=
  cwSet_wf _ _ _ _ (cwSet_wf _ _ _ _ h)
@[simp] theorem slotRom_liveWf (g s e : Nat) (b : Blk) (hs : Memory.wf b.shadow = true) (hl : Memory.wf b.live = true)
    : Memory.wf (slotRom g s e b).live = true := by
  unfold slotRom
  simp [hl]
@[simp] theorem runBundle_liveWf (l : Tbl Byte) (u : Eng) (start : Nat) (x : (Blk × Dp) × Nat) (i : Nat)
    (hs : Memory.wf x.1.1.shadow = true) (hl : Memory.wf x.1.1.live = true) : Memory.wf
    (runBundle l u start x i).1.1.live = true := by
  unfold runBundle
  simp [*]
@[simp] theorem runProgram_liveWf (b : Blk) (e : Fin 4608) (hs : Memory.wf b.shadow = true)
    (hl : Memory.wf b.live = true) : Memory.wf (runProgram b e).1.1.live = true := by
  have key : ∀ (l : List Nat) (x : (Blk × Dp) × Nat), Memory.wf x.1.1.shadow = true → Memory.wf x.1.1.live = true →
      Memory.wf (l.foldl (runBundle b.live (.slot e) (progEntry b.live (e.val / 64))) x).1.1.live = true := by
    intro l
    induction l with
    | nil => intro x _ hl; exact hl
    | cons i t ih => intro x hs hl; exact ih _ (by simp [hs]) (runBundle_liveWf _ _ _ _ _ hs hl)
  unfold runProgram
  dsimp only
  exact key _ _ hs hl
@[simp] theorem slotHost_liveWf (g : Nat) (s : Nat) (e : Fin 4608) (b : Blk) (hs : Memory.wf b.shadow = true)
    (hl : Memory.wf b.live = true) : Memory.wf (slotHost g s e b).live = true := by
  unfold slotHost
  simp [*]
@[simp] theorem eccSlot_liveWf (g : Nat) (e : Nat) (b : Blk) (hs : Memory.wf b.shadow = true)
    (hl : Memory.wf b.live = true) : Memory.wf (eccSlot g e b).live = true := by
  unfold eccSlot
  simp [*]
@[simp] theorem engineSlot_liveWf (g : Nat) (s : Nat) (b : Blk) (hs : Memory.wf b.shadow = true)
    (hl : Memory.wf b.live = true) : Memory.wf (engineSlot g s b).live = true := by
  unfold engineSlot
  repeat' (first | (simp [*]; done) | split | dsimp only)
@[simp] theorem acqCopy_liveWf (ok : Bool) (b : Blk) (hs : Memory.wf b.shadow = true) (hl : Memory.wf b.live = true) :
    Memory.wf (acqCopy ok b).live = true := by
  unfold acqCopy
  simp [*]
@[simp] theorem tableRead_liveWf (m : Master) (t : Nat) (a : Nat) (n : Nat) (b : Blk) (hs : Memory.wf b.shadow = true)
    (hl : Memory.wf b.live = true) : Memory.wf (tableRead m t a n b).live = true := by
  unfold tableRead
  simp [*]
@[simp] theorem busRead_liveWf (m : Master) (a : Nat) (n : Nat) (b : Blk) (hs : Memory.wf b.shadow = true)
    (hl : Memory.wf b.live = true) : Memory.wf (busRead m a n b).live = true := by
  unfold busRead
  repeat' (first | (simp [*]; done) | split)
@[simp] theorem routeSolve_liveWf (b : Blk) (hs : Memory.wf b.shadow = true) (hl : Memory.wf b.live = true) :
    Memory.wf (routeSolve b).live = true := by
  unfold routeSolve
  repeat' (first | (simp [*]; done) | split | dsimp only)
@[simp] theorem planRead_liveWf (i : Nat) (f : Frame) (b : Blk) (hs : Memory.wf b.shadow = true)
    (hl : Memory.wf b.live = true) : Memory.wf (planRead i f b).live = true := by
  unfold planRead
  simp [*]
@[simp] theorem planLate_liveWf (b : Blk) (hs : Memory.wf b.shadow = true) (hl : Memory.wf b.live = true) : Memory.wf
    (planLate b).live = true := by
  unfold planLate
  repeat' (first | (simp [*]; done) | split | dsimp only)
@[simp] theorem planStart_liveWf (b : Blk) (hs : Memory.wf b.shadow = true) (hl : Memory.wf b.live = true) : Memory.wf
    (planStart b).live = true := by
  unfold planStart
  repeat' (first | (simp [*]; done) | split | dsimp only)
@[simp] theorem planComplete_liveWf (b : Blk) (hs : Memory.wf b.shadow = true) (hl : Memory.wf b.live = true) :
    Memory.wf (planComplete b).live = true := by
  unfold planComplete
  repeat' (first | (simp [*]; done) | split | dsimp only)
@[simp] theorem halfLive_liveWf (b : Blk) (x : Nat × PendHalf) (hs : Memory.wf b.shadow = true)
    (hl : Memory.wf b.live = true) : Memory.wf (halfLive b x).live = true := by
  unfold halfLive
  simp [*]
@[simp] theorem pendBoundary_liveWf (b : Blk) (hs : Memory.wf b.shadow = true) (hl : Memory.wf b.live = true) : Memory.wf (pendBoundary b).live = true :=
  foldl_liveWf _ halfLive _ hs hl (fun _ _ => by simp) (fun _ _ hs hl => halfLive_liveWf _ _ hs hl)
@[simp] theorem tickTurn_liveWf (b : Blk) (hs : Memory.wf b.shadow = true) (hl : Memory.wf b.live = true) : Memory.wf
    (tickTurn b).live = true := by
  unfold tickTurn
  simp [*]
@[simp] theorem flushAll_liveWf (b : Blk) (hs : Memory.wf b.shadow = true) (hl : Memory.wf b.live = true) : Memory.wf
    (flushAll b).live = true := by
  unfold flushAll
  split
  · exact hl
  · exact foldl_liveWf _ _ _ hs hl (fun _ _ => by simp) (fun _ _ hs hl => by simp [hs, hl])
@[simp] theorem closeDue_liveWf (k : Nat) (b : Blk) (hs : Memory.wf b.shadow = true) (hl : Memory.wf b.live = true) :
    Memory.wf (closeDue k b).live = true := by
  unfold closeDue
  repeat' (first | simp [*] | split)
@[simp] theorem endAll_liveWf (cs : List (Nat × Bool)) (b : Blk) (hs : Memory.wf b.shadow = true)
    (hl : Memory.wf b.live = true) : Memory.wf (endAll cs b).live = true := by
  exact foldl_liveWf _ _ _ hs hl (fun _ _ => by simp) (fun _ _ hs hl => by simp [hs, hl])
@[simp] theorem acqStop_liveWf (b : Blk) (hs : Memory.wf b.shadow = true) (hl : Memory.wf b.live = true) : Memory.wf
    (acqStop b).live = true := by
  have h1 := flushAll_liveWf (closeDue b.now b) (by simp [hs]) (closeDue_liveWf _ _ hs hl)
  have h2 := endAll_liveWf (measGoing (flushAll (closeDue b.now b))) (closeWindow b.now true (flushAll (closeDue b.now b)))
    (by simp [hs]) (closeWindow_liveWf _ _ _ (by simp [hs]) h1)
  unfold acqStop
  split
  · have h3 := fun t m => putMark_liveWf b.now t m _ (by simp [hs]) h2
    simp only [setFlag_mem]
    exact h3 _ _
  · exact hl
@[simp] theorem acqBoundary_liveWf (b : Blk) (hs : Memory.wf b.shadow = true) (hl : Memory.wf b.live = true) :
    Memory.wf (acqBoundary b).live = true := by
  unfold acqBoundary
  repeat' (first | (simp [*]; done) | split)
@[simp] theorem tickBoundary_liveWf (t : TickIn) (b : Blk) (hs : Memory.wf b.shadow = true)
    (hl : Memory.wf b.live = true) : Memory.wf (tickBoundary t b).live = true := by
  have h0 := acqOuts_liveWf b.now b hs hl
  have h1 := acqTick_liveWf b.tick (tickClose t (acqOuts b.now b)).1 (by simp [hs]) (by simp [h0])
  have h2 := pendBoundary_liveWf _ (by simp [hs]) (commitBoundary_liveWf _ (by simp [hs]) h1)
  have h3 := tickTurn_liveWf _ (by simp [hs]) h2
  have h4 := acqBoundary_liveWf (purgeOnce (tickTurn (pendBoundary (commitBoundary (acqTick b.tick (tickClose t (acqOuts b.now b)).1))))) (by simp [hs]) (by simpa using h3)
  unfold tickBoundary
  simpa only [nvmTick_mem, aliveTick_mem, strobeDue_mem, glewTick_mem] using h4
@[simp] theorem deferredStep_liveWf (b : Blk) (hs : Memory.wf b.shadow = true) (hl : Memory.wf b.live = true) :
    Memory.wf (deferredStep b).live = true := by
  unfold deferredStep
  repeat' (first | (simp [*]; done) | split)
@[simp] theorem ptpTake_liveWf (p : Nat) (x : PtpMsg) (b : Blk) (f : Blk → Blk) (hf : ∀ y0, (f y0).shadow = y0.shadow)
    (hf2 : ∀ y0, Memory.wf y0.shadow = true → Memory.wf y0.live = true → Memory.wf (f y0).live = true)
    (hs : Memory.wf b.shadow = true) (hl : Memory.wf b.live = true) : Memory.wf (ptpTake p x b f).live = true := by
  unfold ptpTake
  simp [*]
@[simp] theorem syncDone_liveWf (p : Nat) (t1 : Int) (t2 : Int) (b : Blk) (hs : Memory.wf b.shadow = true)
    (hl : Memory.wf b.live = true) : Memory.wf (syncDone p t1 t2 b).live = true := by
  unfold syncDone
  simp [*]
@[simp] theorem syncDo_liveWf (p : Nat) (x : PtpMsg) (b : Blk) (hs : Memory.wf b.shadow = true)
    (hl : Memory.wf b.live = true) : Memory.wf (syncDo p x b).live = true := by
  unfold syncDo
  refine ptpTake_liveWf _ _ _ _ (fun b => ?_) (fun b hs hl => ?_) hs hl
  · simp
  · dsimp only
    simp [*]
@[simp] theorem followUpDo_liveWf (p : Nat) (x : PtpMsg) (b : Blk) (hs : Memory.wf b.shadow = true)
    (hl : Memory.wf b.live = true) : Memory.wf (followUpDo p x b).live = true := by
  unfold followUpDo
  refine ptpTake_liveWf _ _ _ _ (fun b => ?_) (fun b hs hl => ?_) hs hl
  · repeat' (first | simp | split)
  · repeat' (first | simp [*] | split)
@[simp] theorem stampOf_liveWf (p : Nat) (x : EgressIn) (s : PtpSt) (b : Blk) (f : PtpSt → Blk → Blk)
    (hf : ∀ y0 y1, (f y0 y1).shadow = y1.shadow)
    (hf2 : ∀ y0 y1, Memory.wf y1.shadow = true → Memory.wf y1.live = true → Memory.wf (f y0 y1).live = true)
    (hs : Memory.wf b.shadow = true) (hl : Memory.wf b.live = true) : Memory.wf (stampOf p x s b f).live = true := by
  unfold stampOf
  simp [*]
@[simp] theorem transmit_liveWf (p : Nat) (x : EgressIn) (b : Blk) (f : PtpSt → Blk → Blk) (hf : ∀ s b, (f s b).shadow = b.shadow)
    (hf2 : ∀ s b, Memory.wf b.shadow = true → Memory.wf b.live = true → Memory.wf (f s b).live = true)
    (hs : Memory.wf b.shadow = true) (hl : Memory.wf b.live = true) : Memory.wf (transmit p x b f).live = true :=
  stampOf_liveWf p x _ b f hf hf2 hs hl
@[simp] theorem ppsInEdge_liveWf (b : Blk) (hs : Memory.wf b.shadow = true) (hl : Memory.wf b.live = true) : Memory.wf
    (ppsInEdge b).live = true := by
  unfold ppsInEdge
  generalize (2 ^ 48 * 1000000000 : Nat) = q
  dsimp only
  simp [*]
@[simp] theorem openWindow_liveWf (q : Nat) (t : Nat) (origin : Nat) (b : Blk) (hs : Memory.wf b.shadow = true)
    (hl : Memory.wf b.live = true) : Memory.wf (openWindow q t origin b).live = true := by
  unfold openWindow
  simp [*]
@[simp] theorem trigger_liveWf (k : Nat) (v : Nat) (x : Nat) (frm : Nat) (dest : Nat) (b : Blk)
    (hs : Memory.wf b.shadow = true) (hl : Memory.wf b.live = true) : Memory.wf (trigger k v x frm dest b).live = true
    := by
  unfold trigger
  simp [*]
@[simp] theorem armInstant_liveWf (b : Blk) (hs : Memory.wf b.shadow = true) (hl : Memory.wf b.live = true) :
    Memory.wf (armInstant b).live = true := by
  unfold armInstant
  repeat' (first | (simp [*]; done) | split)
@[simp] theorem entryMove_liveWf (k : Nat) (x : Nat) (b : Blk) (hs : Memory.wf b.shadow = true)
    (hl : Memory.wf b.live = true) : Memory.wf (entryMove k x b).live = true := by
  unfold entryMove
  simp [*]
@[simp] theorem entryMark_liveWf (k : Nat) (x : Nat) (v : Nat) (frm : Nat) (b : Blk) (hs : Memory.wf b.shadow = true)
    (hl : Memory.wf b.live = true) : Memory.wf (entryMark k x v frm b).live = true := by
  unfold entryMark
  simp [*]
@[simp] theorem takeEntry_liveWf (k x : Nat) (b : Blk) (hs : Memory.wf b.shadow = true) (hl : Memory.wf b.live = true)
    : Memory.wf (takeEntry k x b).live = true := by
  have h1 := entryMove_liveWf k x b hs hl
  have h2 := entryMark_liveWf k x (Mark.plain 5 k b).mask (getF b Reg.TRIG.STAT.STATE) _ (by simp [hs]) h1
  unfold takeEntry
  dsimp only
  split
  · exact disarmAct_liveWf _ _ _ (by simp [hs]) (by simpa using h2)
  · simpa using h2
@[simp] theorem triggerTransition_liveWf (b : Blk) (hs : Memory.wf b.shadow = true) (hl : Memory.wf b.live = true) :
    Memory.wf (triggerTransition b).live = true := by
  unfold triggerTransition
  repeat' (first | (simp [*]; done) | split | dsimp only)
@[simp] theorem windowEnd_liveWf (b : Blk) (hs : Memory.wf b.shadow = true) (hl : Memory.wf b.live = true) : Memory.wf
    (windowEnd b).live = true := by
  unfold windowEnd
  split
  · exact atQ_liveWf _ _ _ (fun _ => by simp) (fun _ hs hl => by simp [*]) hs hl
  · exact hl
@[simp] theorem stepTransition_liveWf (b : Blk) (hs : Memory.wf b.shadow = true) (hl : Memory.wf b.live = true) :
    Memory.wf (stepTransition b).live = true := by
  unfold stepTransition
  repeat' (first | (simp [*]; done) | split)
@[simp] theorem trigFireCell_liveWf (src : Nat) (id : Nat) (w1 : Nat) (w2 : Nat) (b : Blk)
    (hs : Memory.wf b.shadow = true) (hl : Memory.wf b.live = true) : Memory.wf (trigFireCell src id w1 w2 b).live =
    true := by
  have h0 := acqOuts_liveWf b.now b hs hl
  have h1 : Memory.wf (stepTransition (closeDue b.now (trigOnce b.now 9 0 (acqOuts b.now b)))).live = true :=
    stepTransition_liveWf _ (by simp [hs]) (closeDue_liveWf _ _ (by simp [hs]) (by simp [h0]))
  have g1 : Memory.wf (stepTransition (closeDue b.now (trigOnce b.now 9 0 (acqOuts b.now b)))).shadow = true := by simp [hs]
  unfold trigFireCell
  split
  · generalize hc : closeDue b.now (trigOnce b.now 9 0 (acqOuts b.now b)) = c at h1 g1
    dsimp only
    generalize stepTransition c = d at h1 g1
    split
    · exact putMark_liveWf _ _ _ _ g1 h1
    · exact openWindow_liveWf _ _ _ _ (by simp [g1]) (putMark_liveWf _ _ _ _ g1 h1)
  · exact hl
@[simp] theorem splitWrite_liveWf (m : Master) (a : Nat) (ws : List WrWord) (b : Blk) (hs : Memory.wf b.shadow = true)
    (hl : Memory.wf b.live = true) : Memory.wf (splitWrite m a ws b).live = true := by
  induction ws generalizing a b with
  | nil => exact hl
  | cons w t ih =>
    unfold splitWrite
    refine ih _ _ ?_ ?_
    · simp [*]
    · simp [*]
@[simp] theorem scrubPass_liveWf (x : ScrubIn) (b : Blk) (hs : Memory.wf b.shadow = true)
    (hl : Memory.wf b.live = true) : Memory.wf (scrubPass x b).live = true := by
  unfold scrubPass
  repeat' (first | (simp [*]; done) | split | dsimp only | refine foldl_liveWf _ _ _ (by simp [*]) (by simp [*]) (fun _ _ => by simp) (fun _ _ _ _ => ?_))

/-! ### What a write, an image and a reset make of both copies -/

theorem sound_iff (b : Blk) : b.sound = true ↔ Memory.wf b.shadow = true ∧ Memory.wf b.live = true := by
  simp [Blk.sound]

/-- A part that changes no byte of the table memories. -/
theorem sound_of_mem {b c : Blk} (h : c.shadow = b.shadow ∧ c.live = b.live) (hb : b.sound = true) : c.sound = true := by
  simpa [sound_iff, h.1, h.2] using hb

/-- A part that changes live bytes only. -/
theorem sound_of_live {b c : Blk} (h : c.shadow = b.shadow)
    (hl : Memory.wf b.shadow = true → Memory.wf b.live = true → Memory.wf c.live = true) (hb : b.sound = true) :
    c.sound = true := by
  rw [sound_iff] at *
  exact ⟨h ▸ hb.1, hl hb.1 hb.2⟩

theorem tableDo_sound (t a : Nat) (ps : List (Nat × Byte)) (b : Blk) (h : b.sound = true) :
    (tableDo t a ps b).sound = true := by
  have h1 := (sound_iff _).1 (sound_of_mem (healedBytes_mem ps b) h)
  unfold tableDo
  dsimp only
  refine sound_of_mem (injectEcc_mem _ _ _ _) ?_
  rw [sound_iff]
  repeat' split
  all_goals simp_all

theorem windowWrite_sound (m : Master) (a : Nat) (bytes : List (Option Byte)) (b : Blk) (h : b.sound = true) :
    (windowWrite m a bytes b).sound = true := by
  unfold windowWrite
  split
  · exact h
  · split
    · exact sound_of_mem (decodeErr_mem _ _ _ _) h
    · dsimp only
      repeat' split
      · exact sound_of_mem (reject_mem _ _ _ _ _) h
      · exact sound_of_mem (contextDo_mem _ _ _ _) h
      · exact tableDo_sound _ _ _ _ h

theorem splitWrite_sound (m : Master) (a : Nat) (ws : List WrWord) (b : Blk) (h : b.sound = true) :
    (splitWrite m a ws b).sound = true :=
  sound_of_live (splitWrite_shadow _ _ _ _) (splitWrite_liveWf _ _ _ _) h

theorem hostWrite_sound (m : Master) (a : Nat) (v : Word) (b : Blk) (h : b.sound = true) : (hostWrite m a v b).sound = true :=
  sound_of_live (hostWrite_shadow _ _ _ _) (hostWrite_liveWf _ _ _ _) h

theorem dataWindow_sound (n a : Nat) (bs : List Byte) (b : Blk) (h : b.sound = true) : (dataWindow n a bs b).sound = true := by
  induction n generalizing a bs b with
  | zero => exact h
  | succ n ih =>
    unfold dataWindow
    split
    · exact h
    · exact ih _ _ _ (windowWrite_sound _ _ _ _ h)

theorem dataRegs_sound (a : Nat) (ws : List Word) (b : Blk) (h : b.sound = true) : (dataRegs a ws b).sound = true := by
  induction ws generalizing a b with
  | nil => exact h
  | cons v t ih => exact ih _ _ (hostWrite_sound _ _ _ _ h)

theorem regsSection_sound (ws : List Word) (b c : Blk) (h : b.sound = true) (hc : regsSection ws b = some c) :
    c.sound = true := by
  induction ws, b using regsSection.induct with
  | case1 a v t b ha ih =>
    rw [regsSection, if_pos ha] at hc
    exact ih (hostWrite_sound _ _ _ _ h) hc
  | case2 a v t b ha =>
    rw [regsSection, if_neg ha] at hc
    cases hc
  | case3 t b ht =>
    rw [regsSection] at hc
    · cases hc; exact h
    · exact ht

theorem loadSection_sound (typ dest : Nat) (bs : List Byte) (l m : Loading) (h : l.b.sound = true)
    (hm : loadSection typ dest bs l = .ok m) : m.b.sound = true := by
  unfold loadSection at hm
  split at hm
  · split at hm
    · cases hm
      unfold dataSection
      dsimp only
      split
      · exact dataRegs_sound _ _ _ h
      · exact dataWindow_sound _ _ _ _ h
    · cases hm
  · split at hm
    · cases hm
    · split at hm
      · next hr => cases hm; exact regsSection_sound _ _ _ h hr
      · cases hm
  · split at hm
    · cases hm
    · split at hm
      · cases hm; exact sound_of_mem ⟨rfl, rfl⟩ h
      · cases hm
  · cases hm

theorem except_bind_ok {ε α β : Type} (x : Except ε α) (f : α → Except ε β) (y : β) (h : x.bind f = .ok y) :
    ∃ a, x = .ok a ∧ f a = .ok y := by
  cases x with
  | error e => cases h
  | ok a => exact ⟨a, rfl, h⟩

theorem loadSections_sound (base len n k pos : Nat) (l m : Loading) (h : l.b.sound = true)
    (hm : loadSections base len n k pos l = .ok m) : m.b.sound = true := by
  induction n generalizing k pos l with
  | zero =>
    unfold loadSections at hm
    split at hm
    · cases hm; exact h
    · cases hm
  | succ n ih =>
    rw [loadSections] at hm
    dsimp only at hm
    repeat' split at hm
    all_goals first
      | (cases hm)
      | skip
    obtain ⟨l2, h2, hm⟩ := except_bind_ok _ _ _ hm
    refine ih _ _ l2 ?_ hm
    generalize hr : loadSection _ _ _ _ = r at h2
    cases r with
    | error c => cases h2
    | ok l3 => cases h2; exact loadSection_sound _ _ _ _ _ h hr

theorem bootCommit_sound (w : Bool) (errs : List Nat) (f : Blk → Blk) (b c : Blk) (hf : ∀ b, b.sound = true → (f b).sound = true)
    (h : b.sound = true) (hc : bootCommit w errs f b = some c) : c.sound = true := by
  unfold bootCommit at hc
  repeat' split at hc
  · cases hc; exact h
  · cases hc
  · cases hc; exact hf b h

theorem bootCommits_sound (w : Nat → Bool) (errs : Nat → Blk → List Nat) (f : Nat → Blk → Blk) (n : Nat) (b c : Blk)
    (hf : ∀ i b, b.sound = true → (f i b).sound = true) (h : b.sound = true) (hc : bootCommits w errs f n b = some c) :
    c.sound = true := by
  have key : ∀ (l : List Nat) (o : Option Blk), (∀ b ∈ o, b.sound = true) →
      ∀ c ∈ l.foldl (fun o i => o.bind fun b => bootCommit (w i) (errs i b) (f i) b) o, c.sound = true := by
    intro l
    induction l with
    | nil => intro o ho; exact ho
    | cons i t ih =>
      intro o ho
      refine ih _ fun c hc => ?_
      obtain ⟨d, hd, he⟩ := Option.bind_eq_some_iff.1 (Option.mem_def.1 hc)
      exact bootCommit_sound _ _ _ _ _ (hf i) (ho d hd) he
  exact key _ _ (fun d hd => by cases hd; exact h) c hc

theorem bootTables_sound (l : Loading) (c : Blk) (h : l.b.sound = true) (hc : bootTables l = some c) : c.sound = true := by
  unfold bootTables at hc
  obtain ⟨b1, h1, hc⟩ := Option.bind_eq_some_iff.1 hc
  obtain ⟨b2, h2, hc⟩ := Option.bind_eq_some_iff.1 hc
  obtain ⟨b3, h3, hc⟩ := Option.bind_eq_some_iff.1 hc
  obtain ⟨b4, h4, hc⟩ := Option.bind_eq_some_iff.1 hc
  obtain ⟨b5, h5, hc⟩ := Option.bind_eq_some_iff.1 hc
  obtain ⟨b6, h6, hc⟩ := Option.bind_eq_some_iff.1 hc
  obtain ⟨b7, h7, hc⟩ := Option.bind_eq_some_iff.1 hc
  have s1 := bootCommit_sound _ _ _ _ _ (fun b => sound_of_live (takeElements_shadow b) (takeElements_liveWf b)) h h1
  have s2 := bootCommit_sound _ _ _ _ _ (fun b => sound_of_live (takeCrosstalk_shadow b) (takeCrosstalk_liveWf b))
    (sound_of_mem (xtCrcDone_mem _) s1) h2
  have s3 := bootCommit_sound _ _ _ _ _ (fun b => sound_of_live (takeShapes_shadow b) (takeShapes_liveWf b)) s2 h3
  have s4 := bootCommits_sound _ _ _ _ _ _ (fun i b => sound_of_mem (takeClass_mem i b)) s3 h4
  have s5 := bootCommits_sound _ _ _ _ _ _ (fun i b => sound_of_live (takeSlot_shadow i b) (takeSlot_liveWf i b)) s4 h5
  have s6 := bootCommits_sound _ _ _ _ _ _ (fun i b => sound_of_live (takeOffsets_shadow i b) (takeOffsets_liveWf i b)) s5 h6
  have s7 := bootCommit_sound _ _ _ _ _ (fun b => sound_of_mem (takeRtds_mem b)) s6 h7
  exact bootCommit_sound _ _ _ _ _ (fun b => sound_of_live (takeProgram_shadow b) (takeProgram_liveWf b)) s7 hc

theorem loadImage_sound (base : Nat) (b c : Blk) (h : b.sound = true) (hc : loadImage base b = .ok c) : c.sound = true := by
  unfold loadImage at hc
  dsimp only at hc
  repeat' split at hc
  · cases hc
  · cases hc
  · obtain ⟨l, hl, hc⟩ := except_bind_ok _ _ _ hc
    have h1 := loadSections_sound _ _ _ _ _ _ _ h hl
    generalize hr : bootTables l = r at hc
    cases r with
    | none => cases hc
    | some d => cases hc; exact sound_of_mem (setF_mem _ _ _) (bootTables_sound _ _ h1 hr)

theorem tryImage_sound (r base : Nat) (a : Bool) (b : Blk) (h : b.sound = true) : (tryImage r base a b).sound = true := by
  unfold tryImage
  split
  · exact h
  · cases hi : (if a then loadImage base b else .error (7, 0)) with
    | error e => exact sound_of_mem (by simp [imageResult]) h
    | ok c =>
      refine sound_of_mem (setF_mem _ _ _) ?_
      split at hi
      · exact loadImage_sound _ _ _ h hi
      · cases hi

theorem bootLoad_sound (x : BootIn) (b : Blk) (h : b.sound = true) : (bootLoad x b).sound = true := by
  unfold bootLoad
  repeat' split
  · exact tryImage_sound _ _ _ _ (tryImage_sound _ _ _ _ h)
  · exact tryImage_sound _ _ _ _ (tryImage_sound _ _ _ _ h)
  · exact h

theorem bootComplete_sound (x : BootIn) (b : Blk) (h : b.sound = true) : (bootComplete x b).sound = true := by
  unfold bootComplete
  split
  · exact h
  · exact sound_of_mem (leaveBoot_mem _) (sound_of_mem (setF_mem _ _ _)
      (sound_of_mem (masterReset_mem _ _ _) (bootLoad_sound x b h)))

theorem reset_sound : Blk.reset.sound = true := rfl

theorem controllerReset_sound (c : Nat) (b : Blk) : (controllerReset c b).sound = true := by
  have h : (controllerReset c b).shadow = [] ∧ (controllerReset c b).live = [] := by
    unfold controllerReset
    simp [Blk.reset]
  simp [sound_iff, h.1, h.2, Memory.wf, Tbl.wf, Tbl.rising, Tbl.risingFrom]

theorem assertReset_sound (c : Nat) (b : Blk) (h : b.sound = true) : (assertReset c b).sound = true := by
  unfold assertReset
  split
  · exact h
  · exact controllerReset_sound c b

theorem loopTick_sound (t : TickIn) (b : Blk) (h : b.sound = true) : (loopTick t b).sound = true := by
  unfold loopTick
  split
  · exact h
  · dsimp only
    split
    · exact controllerReset_sound _ _
    · exact sound_of_live (tickBoundary_shadow t _) (tickBoundary_liveWf t _) (sound_of_mem (toEdge_mem 250 b) h)

end Sys2Proof.Machine
end

