-- ==== Sys2Proof/Laws/Tick.lean ====
section
/-!
SUPPORT. The tick counter: no operation of a loop tick's boundary changes it but the boundary itself, which counts it on.
-/
set_option autoImplicit false

namespace Sys2Proof.Machine

@[simp] theorem foldl_tick {α : Type} (l : List α) (g : Blk → α → Blk) (b : Blk) (h : ∀ b x, (g b x).tick = b.tick) :
    (l.foldl g b).tick = b.tick := by
  induction l generalizing b with
  | nil => rfl
  | cons x t ih => rw [List.foldl_cons, ih, h]
@[simp] theorem foldl_fst_tick {α β : Type} (l : List α) (g : Blk × β → α → Blk × β) (s : Blk × β)
    (h : ∀ s x, (g s x).1.tick = s.1.tick) : (l.foldl g s).1.tick = s.1.tick := by
  induction l generalizing s with
  | nil => rfl
  | cons x t ih => rw [List.foldl_cons, ih, h]
@[simp] theorem foldl_snd_tick {α β : Type} (l : List α) (g : β × Blk → α → β × Blk) (s : β × Blk)
    (h : ∀ s x, (g s x).2.tick = s.2.tick) : (l.foldl g s).2.tick = s.2.tick := by
  induction l generalizing s with
  | nil => rfl
  | cons x t ih => rw [List.foldl_cons, ih, h]
@[simp] theorem ite_tick (c : Prop) [Decidable c] (x y : Blk) : (if c then x else y).tick = if c then x.tick else y.tick := by
  split <;> rfl

@[simp] theorem setChan_tick (c : Nat) (x : ChanSt) (b : Blk) : (setChan c x b).tick = b.tick := by
  unfold setChan
  simp
@[simp] theorem injectEcc_tick (t : Nat) (live : Bool) (a : Nat) (b : Blk) : (injectEcc t live a b).2.tick = b.tick :=
    by
  unfold injectEcc
  simp
@[simp] theorem healed_tick (live : Bool) (lo : Nat) (hi : Nat) (b : Blk) : (healed live lo hi b).tick = b.tick := by
  unfold healed
  simp [*]
@[simp] theorem putRec_tick (hdr : Nat) (ws : List Nat) (b : Blk) : (putRec hdr ws b).tick = b.tick := by
  unfold putRec
  simp [*]
@[simp] theorem lose_tick (c : Nat) (n : Nat) (fst : Nat × Nat) (lst : Nat × Nat) (b : Blk) :
    (lose c n fst lst b).tick = b.tick := by
  unfold lose
  simp
@[simp] theorem losePart_tick (b : Blk) (c : Nat) : (losePart b c).tick = b.tick := by
  unfold losePart
  simp
@[simp] theorem trigOnce_tick (k : Nat) (typ : Nat) (arg : Nat) (b : Blk) : (trigOnce k typ arg b).tick = b.tick := by
  unfold trigOnce
  simp
@[simp] theorem signalMsix_tick (v : Nat) (b : Blk) : (signalMsix v b).tick = b.tick := by
  unfold signalMsix
  simp
@[simp] theorem signalVec_tick (v : Nat) (b : Blk) : (signalVec v b).tick = b.tick := by
  unfold signalVec
  simp
@[simp] theorem capture_tick (s : Nat) (c : Nat) (tx : Option (Nat × Nat × Nat)) (b : Blk) : (capture s c tx b).tick =
    b.tick := by
  unfold capture
  simp
@[simp] theorem nvmRecord_tick (kind : Nat) (src : Nat) (cls : Nat) (detail : Nat) (b : Blk) :
    (nvmRecord kind src cls detail b).tick = b.tick := by
  unfold nvmRecord
  simp
@[simp] theorem sendUdp_tick (p : Peer) (typ : Nat) (body : List Word) (b : Blk) : (sendUdp p typ body b).tick =
    b.tick := by
  unfold sendUdp
  simp
@[simp] theorem tellEvent_tick (ws : List Word) (x : List Sub × Blk) (s : Sub) : (tellEvent ws x s).2.tick = x.2.tick
    := by
  unfold tellEvent
  simp
@[simp] theorem setPort_tick (d : Port) (x : PortSt) (b : Blk) : (setPort d x b).tick = b.tick := by
  unfold setPort
  repeat' (first | (simp; done) | split)
@[simp] theorem queueCell_tick (d : Port) (typ : Nat) (ws : List Nat) (b : Blk) : (queueCell d typ ws b).tick = b.tick
    := by
  unfold queueCell
  simp
@[simp] theorem sendCell_tick (d : Port) (typ : Nat) (dest : Nat) (bcast : Bool) (arg : Nat) (ws : List Nat) (b : Blk)
    : (sendCell d typ dest bcast arg ws b).tick = b.tick := by
  unfold sendCell
  simp
@[simp] theorem announceEvent_tick (s : Nat) (c : Nat) (b : Blk) : (announceEvent s c b).tick = b.tick := by
  unfold announceEvent
  simp
@[simp] theorem latch_tick (tx : Option (Nat × Nat × Nat)) (b : Blk) (s : Nat) : (latch tx b s).tick = b.tick := by
  unfold latch
  simp
@[simp] theorem updElems_tick (es : List Nat) (f : Nat → Elem → Elem) (b : Blk) : (updElems es f b).tick = b.tick :=
    by
  unfold updElems
  simp
@[simp] theorem emptyFreeze_tick (b : Blk) : (emptyFreeze b).tick = b.tick := by
  unfold emptyFreeze
  simp
@[simp] theorem clearArms_tick (b : Blk) : (clearArms b).tick = b.tick := by
  unfold clearArms
  simp
@[simp] theorem disarm_tick (b : Blk) : (disarm b).tick = b.tick := by
  unfold disarm
  simp
@[simp] theorem show2pc_tick (seq : Word) (res : Nat) (member : Nat) (code : Nat) (b : Blk) :
    (show2pc seq res member code b).tick = b.tick := by
  unfold show2pc
  simp
@[simp] theorem sendDown3_tick (typ : Nat) (seq : Word) (ws : List Word) (b : Blk) : (sendDown3 typ seq ws b).tick =
    b.tick := by
  unfold sendDown3
  simp
@[simp] theorem showQueue_tick (b : Blk) : (showQueue b).tick = b.tick := by
  unfold showQueue
  simp
@[simp] theorem sendUp3_tick (typ : Nat) (seq : Word) (ws : List Word) (b : Blk) : (sendUp3 typ seq ws b).tick =
    b.tick := by
  unfold sendUp3
  simp
@[simp] theorem addCpl_tick (ring : Bool) (ws : List Word) (b : Blk) : (addCpl ring ws b).tick = b.tick := by
  unfold addCpl
  simp
@[simp] theorem postRecord_tick (ring : Bool) (peer : Option Peer) (msg : Word) (ws : List Word) (b : Blk) :
    (postRecord ring peer msg ws b).tick = b.tick := by
  unfold postRecord
  repeat' (first | (simp; done) | split)
@[simp] theorem dropFrame_tick (i : Nat) (c : Nat) (b : Blk) : (dropFrame i c b).tick = b.tick := by
  unfold dropFrame
  repeat' (first | (simp; done) | split)
@[simp] theorem withdrawFrom_tick (i : Nat) (c : Nat) (c' : Nat) (b : Blk) : (withdrawFrom i c c' b).tick = b.tick :=
    by
  unfold withdrawFrom
  repeat' (first | (simp; done) | split)
@[simp] theorem withdrawAll_tick (b : Blk) : (withdrawAll b).tick = b.tick := by
  unfold withdrawAll
  simp
@[simp] theorem setMode_tick (m : Mode) (b : Blk) : (setMode m b).tick = b.tick := by
  unfold setMode
  simp
@[simp] theorem enterMode_tick (m : Mode) (b : Blk) : (enterMode m b).tick = b.tick := by
  unfold enterMode
  simp
@[simp] theorem nvmCounters_tick (b : Blk) : (nvmCounters b).tick = b.tick := by
  unfold nvmCounters
  simp
@[simp] theorem clearBanks_tick (b : Blk) : (clearBanks b).tick = b.tick := by
  unfold clearBanks
  simp
@[simp] theorem dropReq_tick (b : Blk) : (dropReq b).tick = b.tick := by
  unfold dropReq
  simp
@[simp] theorem shutdownActions_tick (s : Nat) (b : Blk) : (shutdownActions s b).tick = b.tick := by
  unfold shutdownActions
  simp
@[simp] theorem safeActions_tick (b : Blk) : (safeActions b).tick = b.tick := by
  unfold safeActions
  simp
@[simp] theorem raiseTx_tick (ss : List Nat) (tx : Option (Nat × Nat × Nat)) (b : Blk) : (raiseTx ss tx b).tick =
    b.tick := by
  unfold raiseTx
  simp
@[simp] theorem flushLate_tick (b : Blk) : (flushLate b).tick = b.tick := by
  unfold flushLate
  simp
@[simp] theorem raiseAll_tick (ss : List Nat) (b : Blk) : (raiseAll ss b).tick = b.tick := by
  unfold raiseAll
  simp
@[simp] theorem raise_tick (s : Nat) (b : Blk) : (raise s b).tick = b.tick := by
  unfold raise
  simp
@[simp] theorem enterDrop_tick (b : Blk) : (enterDrop b).tick = b.tick := by
  unfold enterDrop
  simp
@[simp] theorem holdRec_tick (hdr : Nat) (ws : List Nat) (b : Blk) : (holdRec hdr ws b).tick = b.tick := by
  unfold holdRec
  simp [*]
@[simp] theorem dueRec_tick (hdr : Nat) (ws : List Nat) (b : Blk) : (dueRec hdr ws b).tick = b.tick := by
  unfold dueRec
  simp [*]
@[simp] theorem putSync_tick (b : Blk) : (putSync b).tick = b.tick := by
  unfold putSync
  simp
@[simp] theorem dueSync_tick (b : Blk) : (dueSync b).tick = b.tick := by
  unfold dueSync
  simp
@[simp] theorem flushData_tick (b : Blk) (c : Nat) : (flushData b c).tick = b.tick := by
  unfold flushData
  simp
@[simp] theorem streamSample_tick (c : Nat) (s : Samp) (b : Blk) : (streamSample c s b).tick = b.tick := by
  unfold streamSample
  simp
@[simp] theorem chanSample_tick (c : Nat) (s : Samp) (b : Blk) : (chanSample c s b).tick = b.tick := by
  unfold chanSample
  simp
@[simp] theorem takeFree_tick (b : Blk) : (takeFree b).2.tick = b.tick := by
  unfold takeFree
  simp
@[simp] theorem reduceGroup_tick (red : Nat) (x : ChanSt) (b : Blk) : (reduceGroup red x b).2.tick = b.tick := by
  unfold reduceGroup
  repeat' (first | (simp; done) | split)
@[simp] theorem chanFeed_tick (c : Nat) (idx : Nat) (q : Nat) (lat : Nat) (v : Int) (code : Nat) (void : Bool)
    (b : Blk) : (chanFeed c idx q lat v code void b).tick = b.tick := by
  unfold chanFeed
  simp
@[simp] theorem outFeed_tick (j : Nat) (c : Nat) (b : Blk) : (outFeed j c b).tick = b.tick := by
  unfold outFeed
  simp
@[simp] theorem acqOuts_tick (k : Nat) (b : Blk) : (acqOuts k b).tick = b.tick := by
  unfold acqOuts
  simp
@[simp] theorem acqTick_tick (n : Nat) (b : Blk) : (acqTick n b).tick = b.tick := by
  unfold acqTick
  repeat' (first | (simp; done) | split | dsimp only | refine foldl_tick _ _ _ (fun _ _ => ?_))
@[simp] theorem endMeas_tick (short : Bool) (b : Blk) (c : Nat) : (endMeas short b c).tick = b.tick := by
  unfold endMeas
  repeat' (first | (simp; done) | split)
@[simp] theorem closeMeas_tick (z : Nat) (b : Blk) : (closeMeas z b).tick = b.tick := by
  unfold closeMeas
  simp
@[simp] theorem acqStart_tick (b : Blk) : (acqStart b).tick = b.tick := by
  unfold acqStart
  simp
@[simp] theorem toEdge_tick (x : Nat) (b : Blk) : (toEdge x b).tick = b.tick := by
  unfold toEdge
  simp
@[simp] theorem setRaw_tick (s : Nat) (v : Bool) (b : Blk) : (setRaw s v b).tick = b.tick := by
  unfold setRaw
  simp
@[simp] theorem raiseIf_tick (p : Bool) (s : Nat) (b : Blk) : (raiseIf p s b).tick = b.tick := by
  unfold raiseIf
  simp
@[simp] theorem resendImage_tick (b : Blk) : (resendImage b).tick = b.tick := by
  unfold resendImage
  simp
@[simp] theorem showTables_tick (b : Blk) : (showTables b).tick = b.tick := by
  unfold showTables
  simp
@[simp] theorem copyLive_tick (lo : Nat) (hi : Nat) (b : Blk) : (copyLive lo hi b).tick = b.tick := by
  unfold copyLive
  simp [*]
@[simp] theorem takeElements_tick (b : Blk) : (takeElements b).tick = b.tick := by
  unfold takeElements
  simp
@[simp] theorem takeCrosstalk_tick (b : Blk) : (takeCrosstalk b).tick = b.tick := by
  unfold takeCrosstalk
  simp
@[simp] theorem takeShapes_tick (b : Blk) : (takeShapes b).tick = b.tick := by
  unfold takeShapes
  simp
@[simp] theorem takeClass_tick (c : Nat) (b : Blk) : (takeClass c b).tick = b.tick := by
  unfold takeClass
  simp
@[simp] theorem takeSlot_tick (s : Nat) (b : Blk) : (takeSlot s b).tick = b.tick := by
  unfold takeSlot
  simp
@[simp] theorem takeOffsets_tick (n : Nat) (b : Blk) : (takeOffsets n b).tick = b.tick := by
  unfold takeOffsets
  simp
@[simp] theorem takeRtds_tick (b : Blk) : (takeRtds b).tick = b.tick := by
  unfold takeRtds
  simp
@[simp] theorem takeProgram_tick (b : Blk) : (takeProgram b).tick = b.tick := by
  unfold takeProgram
  simp
@[simp] theorem setFrame_tick (i : Nat) (f : Frame) (b : Blk) : (setFrame i f b).tick = b.tick := by
  unfold setFrame
  simp
@[simp] theorem refuseBroken_tick (late : Frame → Bool) (b : Blk) : (refuseBroken late b).tick = b.tick := by
  unfold refuseBroken
  repeat' (first | (simp; done) | split | dsimp only | refine foldl_tick _ _ _ (fun _ _ => ?_))
@[simp] theorem memberTick_tick (b : Blk) : (memberTick b).tick = b.tick := by
  unfold memberTick
  repeat' (first | (simp; done) | split | dsimp only)
@[simp] theorem closeLink_tick (b : Blk) (d : Port) : (closeLink b d).tick = b.tick := by
  unfold closeLink
  simp
@[simp] theorem sendTime_tick (b : Blk) (d : Port) : (sendTime b d).tick = b.tick := by
  unfold sendTime
  simp
@[simp] theorem glewTick_tick (b : Blk) : (glewTick b).tick = b.tick := by
  unfold glewTick
  simp
@[simp] theorem eccNote_tick (dbl : Bool) (w : EccWord) (b : Blk) : (eccNote dbl w b).tick = b.tick := by
  unfold eccNote
  simp
@[simp] theorem foundSingle_tick (w : EccWord) (b : Blk) : (foundSingle w b).tick = b.tick := by
  unfold foundSingle
  simp
@[simp] theorem spoilLive_tick (a : Nat) (b : Blk) : (spoilLive a b).tick = b.tick := by
  unfold spoilLive
  simp
@[simp] theorem foundDouble_tick (w : EccWord) (b : Blk) : (foundDouble w b).tick = b.tick := by
  unfold foundDouble
  simp
@[simp] theorem eccFind_tick (tx : EccWord → Option (Nat × Nat × Nat)) (mine : EccWord → Bool) (b : Blk) :
    (eccFind tx mine b).tick = b.tick := by
  unfold eccFind
  simp
@[simp] theorem eccData_tick (mine : EccWord → Bool) (b : Blk) : (eccData mine b).tick = b.tick := by
  unfold eccData
  simp
@[simp] theorem putMark_tick (k : Nat) (stamp : Nat) (m : Mark) (b : Blk) : (putMark k stamp m b).tick = b.tick := by
  unfold putMark
  simp
@[simp] theorem closeWindow_tick (k : Nat) (cut : Bool) (b : Blk) : (closeWindow k cut b).tick = b.tick := by
  unfold closeWindow
  repeat' (first | (simp; done) | split)
@[simp] theorem setRole_tick (e : Nat) (role : Nat) (of : Nat) (copy : Bool) (b : Blk) :
    (setRole e role of copy b).tick = b.tick := by
  unfold setRole
  simp
@[simp] theorem setEngRt_tick (e : Nat) (r : EngRt) (b : Blk) : (setEngRt e r b).tick = b.tick := by
  unfold setEngRt
  simp
@[simp] theorem showPool_tick (b : Blk) : (showPool b).tick = b.tick := by
  unfold showPool
  simp
@[simp] theorem hostCodeDo_tick (n : Nat) (r : Nat) (v : Word) (b : Blk) : (hostCodeDo n r v b).tick = b.tick := by
  unfold hostCodeDo
  simp
@[simp] theorem reject_tick (p : Nat) (off : Nat) (code : Nat) (m : Master) (b : Blk) : (reject p off code m b).tick =
    b.tick := by
  unfold reject
  simp
@[simp] theorem takeCommit_tick (page : Nat) (j : Nat) (p : Bool) (f : Blk → Blk) (b : Blk)
    (hf : ∀ y0, (f y0).tick = y0.tick) : (takeCommit page j p f b).tick = b.tick := by
  unfold takeCommit
  simp [*]
@[simp] theorem commitBoundary_tick (b : Blk) : (commitBoundary b).tick = b.tick := by
  unfold commitBoundary
  simp
@[simp] theorem endModulators_tick (b : Blk) : (endModulators b).2.tick = b.tick := by
  unfold endModulators
  simp
@[simp] theorem meterBanks_tick (b : Blk) : (meterBanks b).1.tick = b.tick := by
  unfold meterBanks
  simp
@[simp] theorem limitEpisodes_tick (lim : List Nat) (b : Blk) : (limitEpisodes lim b).tick = b.tick := by
  unfold limitEpisodes
  simp
@[simp] theorem hostRowsIn_tick (n : Nat) (rows : List Nat) (b : Blk) : (hostRowsIn n rows b).tick = b.tick := by
  unfold hostRowsIn
  simp
@[simp] theorem powerDownBank_tick (t : Nat) (n : Nat) (b : Blk) : (powerDownBank t n b).tick = b.tick := by
  unfold powerDownBank
  simp
@[simp] theorem releaseBank_tick (n : Nat) (b : Blk) : (releaseBank n b).tick = b.tick := by
  unfold releaseBank
  simp
@[simp] theorem bankBoundary_tick (t : Nat) (n : Nat) (b : Blk) : (bankBoundary t n b).tick = b.tick := by
  unfold bankBoundary
  repeat' (first | (simp; done) | split | dsimp only)
@[simp] theorem transfers_tick (t : Nat) (b : Blk) : (transfers t b).tick = b.tick := by
  unfold transfers
  simp
@[simp] theorem biasBoundary_tick (t : Nat) (n : Nat) (b : Blk) : (biasBoundary t n b).tick = b.tick := by
  unfold biasBoundary
  simp
@[simp] theorem driveBoundary_tick (t : Nat) (b : Blk) : (driveBoundary t b).tick = b.tick := by
  unfold driveBoundary
  simp
@[simp] theorem aliveTick_tick (b : Blk) : (aliveTick b).tick = b.tick := by
  unfold aliveTick
  simp
@[simp] theorem nvmTick_tick (mw : Nat) (b : Blk) : (nvmTick mw b).tick = b.tick := by
  unfold nvmTick
  simp
@[simp] theorem histRange_tick (lo : Fld) (hi : Fld) (n : Nat) (b : Blk) : (histRange lo hi n b).tick = b.tick := by
  unfold histRange
  simp [*]
@[simp] theorem histAdd_tick (h : Nat) (bin : Fld) (b : Blk) : (histAdd h bin b).tick = b.tick := by
  unfold histAdd
  simp [*]
@[simp] theorem strobe_tick (f : Frame) (b : Blk) : (strobe f b).tick = b.tick := by
  unfold strobe
  generalize (List.replicate 4608 false) = r
  simp
@[simp] theorem strobeDue_tick (b : Blk) : (strobeDue b).tick = b.tick := by
  unfold strobeDue
  repeat' (first | simp | split)
@[simp] theorem toSelfTest_tick (e : Nat) (b : Blk) : (toSelfTest e b).tick = b.tick := by
  unfold toSelfTest
  simp
@[simp] theorem requestBoundary_tick (b : Blk) : (requestBoundary b).tick = b.tick := by
  unfold requestBoundary
  repeat' (first | (simp; done) | split)
@[simp] theorem shutExit_tick (b : Blk) : (shutExit b).tick = b.tick := by
  unfold shutExit
  simp
@[simp] theorem modeBoundary_tick (b : Blk) : (modeBoundary b).tick = b.tick := by
  unfold modeBoundary
  simp
@[simp] theorem monOcc_tick (n : Nat) (b : Blk) : (monOcc n b).tick = b.tick := by
  unfold monOcc
  simp
@[simp] theorem monEps_tick (n : Nat) (b : Blk) : (monEps n b).tick = b.tick := by
  unfold monEps
  simp
@[simp] theorem putHalf_tick (host : Bool) (a : Nat) (v : Nat) (b : Blk) : (putHalf host a v b).tick = b.tick := by
  unfold putHalf
  simp [*]
@[simp] theorem putWord_tick (e : Nat) (w : Nat) (v : Nat) (b : Blk) : (putWord e w v b).tick = b.tick := by
  unfold putWord
  simp
@[simp] theorem setShadow_tick (e : Nat) (h : Nat) (t : Nat) (b : Blk) : (setShadow e h t b).tick = b.tick := by
  unfold setShadow
  simp [*]
@[simp] theorem planMoved_tick (d1 : Nat) (seq : Word) (w : Byte) (ff : Int) (e : Nat) (x : Blk × PlanOut) :
    (planMoved d1 seq w ff e x).1.tick = x.1.tick := by
  unfold planMoved
  simp
@[simp] theorem planNeighbour_tick (ff : Int) (e : Nat) (x : Blk × PlanOut) : (planNeighbour ff e x).1.tick = x.1.tick
    := by
  unfold planNeighbour
  simp
@[simp] theorem planElem_tick (d1 : Nat) (seq : Word) (w : Byte) (ff : Int) (e : Nat) (x : Blk × PlanOut) :
    (planElem d1 seq w ff e x).1.tick = x.1.tick := by
  unfold planElem
  repeat' (first | simp | split)
@[simp] theorem planAll_tick (d1 : Nat) (seq : Word) (ws : List Byte) (b : Blk) : (planAll d1 seq ws b).1.tick =
    b.tick := by
  unfold planAll
  simp
@[simp] theorem releaseStandbys_tick (g : Nat) (dest : Nat) (b : Blk) : (releaseStandbys g dest b).tick = b.tick := by
  unfold releaseStandbys
  simp
@[simp] theorem migrate_tick (m : Migration) (b : Blk) : (migrate m b).tick = b.tick := by
  unfold migrate
  repeat' (first | (simp; done) | split | dsimp only)
@[simp] theorem planRead_tick (i : Nat) (f : Frame) (b : Blk) : (planRead i f b).tick = b.tick := by
  unfold planRead
  simp
@[simp] theorem planLate_tick (b : Blk) : (planLate b).tick = b.tick := by
  unfold planLate
  repeat' (first | (simp; done) | split | dsimp only)
@[simp] theorem snsFirst_tick (n : Nat) (i : Nat) (cause : Nat) (b : Blk) : (snsFirst n i cause b).tick = b.tick := by
  unfold snsFirst
  simp
@[simp] theorem topsatFirst_tick (b : Blk) : (topsatFirst b).tick = b.tick := by
  unfold topsatFirst
  simp
@[simp] theorem occBoundary_tick (n : Nat) (b : Blk) : (occBoundary n b).tick = b.tick := by
  unfold occBoundary
  simp
@[simp] theorem epsBoundary_tick (n : Nat) (b : Blk) : (epsBoundary n b).tick = b.tick := by
  unfold epsBoundary
  simp
@[simp] theorem countBoundary_tick (b : Blk) : (countBoundary b).tick = b.tick := by
  unfold countBoundary
  simp
@[simp] theorem halfLive_tick (b : Blk) (x : Nat × PendHalf) : (halfLive b x).tick = b.tick := by
  unfold halfLive
  simp
@[simp] theorem pendBoundary_tick (b : Blk) : (pendBoundary b).tick = b.tick := by
  unfold pendBoundary
  simp
@[simp] theorem migrateBoundary_tick (b : Blk) : (migrateBoundary b).tick = b.tick := by
  unfold migrateBoundary
  simp
@[simp] theorem epsLockBoundary_tick (b : Blk) : (epsLockBoundary b).tick = b.tick := by
  unfold epsLockBoundary
  simp
@[simp] theorem parkRows_tick (b : Blk) (c : LoopCmd) : (parkRows b c).tick = b.tick := by
  unfold parkRows
  simp
@[simp] theorem cmdBoundary_tick (b : Blk) : (cmdBoundary b).tick = b.tick := by
  unfold cmdBoundary
  repeat' (first | simp | split)
@[simp] theorem dithBoundary_tick (b : Blk) : (dithBoundary b).tick = b.tick := by
  unfold dithBoundary
  simp
@[simp] theorem purgeOnce_tick (b : Blk) : (purgeOnce b).tick = b.tick := by
  unfold purgeOnce
  simp
@[simp] theorem tickTurn_tick (b : Blk) : (tickTurn b).tick = b.tick := by
  unfold tickTurn
  simp
@[simp] theorem flushAll_tick (b : Blk) : (flushAll b).tick = b.tick := by
  unfold flushAll
  simp
@[simp] theorem closeDue_tick (k : Nat) (b : Blk) : (closeDue k b).tick = b.tick := by
  unfold closeDue
  repeat' (first | simp | split)
@[simp] theorem endAll_tick (cs : List (Nat × Bool)) (b : Blk) : (endAll cs b).tick = b.tick := by
  unfold endAll
  simp
@[simp] theorem acqStop_tick (b : Blk) : (acqStop b).tick = b.tick := by
  unfold acqStop
  simp
@[simp] theorem acqBoundary_tick (b : Blk) : (acqBoundary b).tick = b.tick := by
  unfold acqBoundary
  repeat' (first | (simp; done) | split)

theorem tickClose_tick (t : TickIn) (b : Blk) : (tickClose t b).1.tick = b.tick + 1 := by
  unfold tickClose
  simp

/-- A tick's boundary counts the tick (R30). -/
theorem tickBoundary_tick (t : TickIn) (b : Blk) : (tickBoundary t b).tick = b.tick + 1 := by
  unfold tickBoundary
  simp [tickClose_tick]

/-- LOOP_TICK counts the tick wherever the clock runs and no soft reset begins (R30, R462). -/
theorem loopTick_tick (t : TickIn) (b : Blk) (hr : b.sys.mode ≠ .reset) (hs : b.sys.softReq = false ∨ b.sys.mode = .shutdown) :
    (loopTick t b).tick = b.tick + 1 := by
  have h : ¬ ((toEdge 250 b).sys.softReq = true ∧ (toEdge 250 b).sys.mode ≠ .shutdown) := by
    rintro ⟨h1, h2⟩
    rcases hs with hs | hs
    · exact absurd h1 (by simp [toEdge, hs])
    · exact h2 hs
  unfold loopTick
  rw [if_neg hr]
  simp only [h, if_false]
  rw [tickBoundary_tick]
  rfl

end Sys2Proof.Machine
end

