-- ==== Sys2Proof/Laws/Write.lean ====
section
/-!
SUPPORT. A register write said once: where no condition rejects it, it is the register's own effect (R476, R482, R484).
-/
set_option autoImplicit false

namespace Sys2Proof.Machine

/-- The checks of a register beyond alignment, reserved bits and BOOT. -/
def ownErrs (m : Master) (g : Pg) (i off : Nat) (v : Word) (b : Blk) : List Nat :=
  if off < 0x40 then headErrs g i off v b else planeErrs g off v b ++ serviceErrs g off v b ++ arrayErrs m g i off v b

/-- Outside RESET and BOOT an aligned write with its reserved bits 0 that the register's own checks pass takes effect. -/
theorem hostWrite_hears (m : Master) (a mask : Nat) (g : Pg) (i : Nat) (v : Word) (b : Blk) (hp : pgOf (a / 4096) = some (g, i))
    (hm : m ≠ .m4) (ha : a % 4096 % 4 = 0) (hr : g.reserved i (a % 4096 / 4 * 4) = mask) (h : hears mask v b = true)
    (he : ownErrs m g i (a % 4096) v b = []) : hostWrite m a v b = regDo g i (a / 4096) (a % 4096) v b := by
  simp only [hears, Blk.heard, Bool.and_eq_true, bne_iff_ne, ne_eq, beq_iff_eq] at h
  obtain ⟨⟨h1, h2⟩, h3⟩ := h
  have hb : bootErrs m (a / 4096 * 4096 + a % 4096) b = [] := by simp [bootErrs, codeIf, h2]
  have hc : regErrs m g i (a / 4096) (a % 4096) v b = [] := by
    unfold ownErrs at he
    unfold regErrs
    rw [hr, h3, hb, he]
    simp [codeIf, ha]
  simp [hostWrite, h1, hm, hp, hc, firstCode, codeOrder]

/-- A write in RESET changes nothing (R494). -/
theorem hostWrite_reset (m : Master) (a : Nat) (v : Word) (b : Blk) (h : b.sys.mode = .reset) : hostWrite m a v b = b := by
  simp [hostWrite, h]

end Sys2Proof.Machine
end

