-- ==== Sys2Proof/Tests/Slice0.lean ====
section
/-!
SUPPORT. The model's own tests: for each statement with hypotheses one witness that meets them, ill-formed commands that
the checks refuse, and values that the spec states.
-/
set_option autoImplicit false

namespace Sys2Proof.Tests

open Sys2Proof Sys2Proof.Machine

/-- The block after reset, in mode `m`, with the listed fields set. -/
def blk (m : Mode) (ps : List (Fld × Nat)) : Blk := setFs ps { Blk.reset with sys := { Blk.reset.sys with mode := m } }

/-- A slot's engine is ready, and every form is well formed at the edge of its operands' range (M2 is a slot's last MAC, M3 a
planner's). -/
theorem witness_LaneArithmeticWritesAccumulators :
    engReady (.slot 4607) (blk .idle []) = true ∧ engReady (.planner 7) (blk .track []) = true ∧
    (Instr.mac (.slot 4607) 2 3 ⟨7, 31, 31⟩ ⟨0, 0, 0⟩).wf = true ∧ (Instr.msu (.planner 7) 3 0 ⟨7, 31, 31⟩ ⟨7, 31, 31⟩).wf = true ∧
    (Instr.mul (.slot 0) 0 1 ⟨1, 31, 0⟩ ⟨2, 0, 31⟩).wf = true ∧ (Instr.mova (.slot 0) 1 2 ⟨1, 31, 0⟩ ⟨1, 30, 0⟩).wf = true ∧
    (Instr.addx (.slot 0) 1 3 ⟨7, 31, 0⟩ ⟨0, 30, 0⟩).wf = true ∧ (Instr.aop (.slot 0) 2 3 ⟨0, 7, 0⟩ ⟨1, 7, 0⟩).wf = true ∧
    (Instr.sha (.slot 0) 2 1 ⟨0, 7, 31⟩ ⟨1, 7, 31⟩).wf = true ∧ (Instr.clamp (.slot 0) 0 0 ⟨0, 7, 7⟩ ⟨1, 7, 7⟩).wf = true := by
  decide

theorem witness_LaneTestsWriteFlagsAndRegisters :
    engReady (.slot 0) (blk .idle []) = true ∧ (Instr.cmpsel (.slot 0) 2 3 ⟨0, 7, 7⟩ ⟨1, 7, 7⟩).wf = true ∧
    (Instr.norm (.slot 0) 2 0 ⟨0, 7, 31⟩ ⟨1, 7, 31⟩).wf = true ∧ (Instr.rcp (.slot 0) 2 0 ⟨7, 31, 0⟩ ⟨6, 31, 0⟩).wf = true ∧
    (Instr.satd (.slot 0) 2 3 ⟨7, 0, 31⟩ ⟨6, 0, 30⟩).wf = true := by decide

theorem witness_FilterTapMovesSamplesAndNopsWriteNothing :
    engReady (.slot 0) (blk .idle []) = true ∧ (Instr.ftapm (.slot 0) 2 3 ⟨0, 7, 6⟩ ⟨7, 5, 4⟩).wf = true ∧
    (Instr.nop (.slot 0) 2 0 ⟨0, 0, 0⟩ ⟨0, 0, 0⟩).wf = true := by decide

/-- A mapped address for LD, and aligned pairs and eights of mapped ones. -/
theorem witness_LoadsFillRegistersAndMoveThePointer :
    engReady (.slot 0) (blk .idle []) = true ∧ (Instr.ldw (.slot 0) 30 7 31).wf = true ∧ (Instr.ldv (.slot 0) 24 7 32).wf = true ∧
    (let dp := engDp (.slot 0) (blk .idle [])
     (readMem (blk .idle []) dp (.slot 0) (dp.rP (.slot 0) 0)).2 = true ∧
     ∀ i < 8, (readMem (blk .idle []) dp (.slot 0) (dp.rP (.slot 0) 0 / 8 * 8 + i)).2 = true) := by decide

theorem witness_StoresReachThePointerOnly :
    engReady (.slot 0) (blk .idle []) = true ∧ (Instr.stw (.slot 0) 30 0 1).wf = true ∧ (Instr.stv (.slot 0) 24 0 8).wf = true ∧
    (Instr.stS (.slot 0) 7 24 .rne false true 31 7 0).wf = true ∧ (Instr.stS (.slot 0) 7 24 .rha true false 31 7 0).wf = true ∧
    (0x7F < 0x80 ∧ 0x100 ≤ 0x17F ∧ 0x17F < 0x180) ∧ writable 0x80 = false ∧ writable 0x180 = false := by decide

theorem witness_ScalarSyllablesWriteOneRegister :
    engReady (.slot 0) (blk .idle []) = true ∧ engReady (.planner 0) (blk .idle []) = true ∧
    (let dp := engDp (.planner 0) (blk .idle [])
     ∀ j < 32, (readMem (blk .idle []) dp (.planner 0) (dp.rP (.planner 0) 7 + j)).2 = true) := by decide

theorem witness_ControlSyllablesSkipOutputAndRepeat :
    (Instr.skip (.slot 0) 7 true 12 false).wf = true ∧ (Instr.skip (.slot 0) 0 false 1 true).wf = true ∧
    engReady (.slot 4607) (blk .idle []) = true ∧ engReady (.slot 4607) (blk .calibrate []) = true ∧
    (Instr.rep (.planner 0) 31 4096).wf = true ∧ engReady (.planner 0) (blk .idle []) = true := by decide

/-- A slot and a planner engine in the middle of a SKIP; RESET; an element whose engine serves nothing. -/
theorem witness_SuppressedBundlesAndResetRunNothing :
    (let b := { blk .idle [] with dpS := Tbl.set [] Dp.reset 0 { Dp.reset with skip := 12 } }
     engineOfCmd (.out (.slot 0) 0 0) = some (.slot 0) ∧ (Instr.out (.slot 0) 0 0).wf = true ∧
     (engineOf b 0).isSome = true ∧ 0 < (engDp (.slot 0) b).skip) ∧
    (let b := { blk .idle [] with dpP := Tbl.set [] Dp.reset 7 { Dp.reset with skip := 1 } }
     (Instr.rep (.planner 7) 1 1).wf = true ∧ (engDp (.planner 7) b).repN = 0 ∧ 0 < (engDp (.planner 7) b).skip) ∧
    State.reset.b.sys.mode = .reset ∧ engineOf (blk .idle [(Reg.ENG.SERVE.SERVING 0, 0)]) 0 = none ∧
    234 ≤ ({ blk .idle [] with edge := 234 }).edge := by decide

/-- Ties: half a unit between an even and an odd value. -/
theorem witness_RoundingIsAsTheModeSays :
    2 * (roundShift .rne 3 1 * 2 - 3).natAbs = 2 ^ 1 ∧ 2 * (roundShift .rha (-3) 1 * 2 + 3).natAbs = 2 ^ 1 := by decide

theorem witness_SchedulingRegistersTakeTheirWrites :
    (hears 0xE000E000 0x1F400000 (blk .idle []) = true ∧ (0x1F401F40 : Word).bits 0 13 ≤ (0x1F401F40 : Word).bits 16 13 ∧
      (0x1F401F40 : Word).bits 16 13 ≤ 8000) ∧
    (hears 0xFFFF0000 65534 (blk .track []) = true ∧ 1 ≤ (1 : Word).bits 0 16 ∧ (65534 : Word).bits 0 16 ≤ 65534) ∧
    (hears 0xFFFFFFF8 4 (blk .idle []) = true ∧ (4 : Word).bits 0 3 ≤ 4) ∧
    (let b := blk .idle [(Reg.PLAN.DLOG_WP.WP, 0), (Reg.PLAN.DLOG_RP.RP, 511)]
     hears 0xFFFFFE00 0 b = true ∧ ((0 : Word).bits 0 9 + 512 - getF b Reg.PLAN.DLOG_RP.RP) % 512 ≤
       (getF b Reg.PLAN.DLOG_WP.WP + 512 - getF b Reg.PLAN.DLOG_RP.RP) % 512) ∧
    (blk .idle []).heard = true := by decide
theorem no_touched_records : touchedRecs [] = [] := by simp [touchedRecs, Tbl.inside, dedupAdj]

/-- Each page with nothing pending: the fabric page with its shadow untouched, class 15, and a mode in which a quiet commit is
taken. A ROUTE commit that selects no slot meets its conditions. -/
theorem witness_CommitsMarkTheirUnitsPending :
    let b := blk .openHold [(Reg.PLAN.XT_CRC.CRC, Blk.reset.xtCrc)]
    b.heard = true ∧ b.sys.mode ∈ [Mode.idle, .calibrate, .openHold] ∧
    (1 : Word).toNat &&& 0xFFFFFFFE = 0 ∧ (∀ j < 32, (1 : Word).bit j = true → flag b (Reg.HDR.pend 0xC j) = false) ∧
    badRecs b.shadow = [] ∧ damaged b 0 0x90000 = false ∧
    (∀ e ∈ touchedRecs b.shadow ++ touchedRecs b.live, loopClass b.shadow e ≠ loopClass b.live e → closed b e = false) ∧
    (∀ k < 32, (0 : Word).bit k = true → slotBad b.shadow k = false) ∧
    flag b Reg.PLAN.XT_STAT.CRC_BUSY = false ∧ b.xtCrc = getF b Reg.PLAN.XT_CRC.CRC ∧
    (∀ k < 64, rdH b.shadow (0x248000 + 512 * k + 510) = 4096) ∧
    (0x8000 : Word).toNat &&& 0xFFFF0000 = 0 ∧ classBad b 15 = false ∧ classChanged b 15 = false ∧
    flag b (Reg.HDR.pend 0xA8 0) = false ∧ flag b (Reg.HDR.pend 0xA0 1) = false ∧
    anyClosed b b.listed = false ∧ (progCheck b.shadow).1 = 0 :=
  ⟨by decide, by decide, by decide, by decide, congrArg (List.filter _) no_touched_records, by decide,
    (no_touched_records ▸ fun _ h => absurd h (List.not_mem_nil) :
      ∀ e ∈ touchedRecs [] ++ touchedRecs [], loopClass [] e ≠ loopClass [] e → closed _ e = false),
    by decide, by decide, by decide, by decide, by decide, by decide, by decide, by decide, by decide, by decide, by decide⟩

/-- A run of `n` bytes of 0xFF from `a` on, before other entries. -/
def ffRun (a : Nat) : Nat → Tbl Byte → Tbl Byte
  | 0, t => t
  | n + 1, t => ffRun a n ((a + n, 0xFF) :: t)

theorem ffRun_find (a n : Nat) (t : Tbl Byte) (k : Nat) :
    (ffRun a n t).find k = if a ≤ k ∧ k < a + n then some 0xFF else t.find k := by
  induction n generalizing t with
  | zero => rw [if_neg (by omega)]; rfl
  | succ n ih =>
    rw [ffRun, ih, Tbl.find]
    by_cases h : a ≤ k ∧ k < a + n
    · rw [if_pos h, if_pos ⟨h.1, by omega⟩]
    · rw [if_neg h]
      by_cases h2 : k = a + n
      · rw [if_pos h2, if_pos (by omega)]
      · rw [if_neg h2, if_neg (by omega)]

/-- The CRC register after `n` bytes of 0xFF. -/
def crcOnes : Nat → Nat → Nat
  | 0, c => c
  | n + 1, c => crcOnes n (crcByte c 0xFF)

theorem crcOnes_add (m n c : Nat) : crcOnes (m + n) c = crcOnes n (crcOnes m c) := by
  induction m generalizing c with
  | zero => rw [Nat.zero_add]; rfl
  | succ m ih => rw [Nat.succ_add, crcOnes, crcOnes, ih]

theorem foldl_ones (n c : Nat) : (List.replicate n (0xFF : Byte)).foldl crcByte c = crcOnes n c := by
  induction n generalizing c with
  | zero => rfl
  | succ n ih => rw [List.replicate_succ, List.foldl_cons, ih, crcOnes]

/-- Slot 31 with every entry 0xFFFF (no port assigned), 512 ports and its CRC. -/
def blankSlot : Tbl Byte := ffRun 0x29F000 1024 [(0x2A01F8, 0xF4), (0x2A01F9, 0xFF), (0x2A01FA, 0x3A), (0x2A01FB, 0xB8)]

theorem blankSlot_byte (i : Nat) (h : i < 1024) : rdB blankSlot (0x29F000 + i) = 0xFF := by
  unfold rdB Tbl.get blankSlot
  rw [ffRun_find, if_pos ⟨by omega, by omega⟩]
  rfl

theorem blankSlot_bytes : rdBytes blankSlot 0x29F000 1024 = List.replicate 1024 0xFF := by
  rw [List.eq_replicate_iff]
  refine ⟨by simp [rdBytes], fun x h => ?_⟩
  simp only [rdBytes, List.mem_map, List.mem_range] at h
  obtain ⟨i, hi, rfl⟩ := h
  exact blankSlot_byte i hi

theorem blankSlot_entries : slotEntries blankSlot 31 512 = List.replicate 512 0xFFFF := by
  rw [List.eq_replicate_iff]
  refine ⟨by simp [slotEntries], fun x h => ?_⟩
  simp only [slotEntries, List.mem_map, List.mem_range] at h
  obtain ⟨i, hi, rfl⟩ := h
  have h1 := blankSlot_byte (2 * i) (by omega)
  have h2 := blankSlot_byte (2 * i + 1) (by omega)
  unfold rdH
  rw [← Nat.add_assoc] at h2
  simp only [Nat.reduceMul, Nat.reduceAdd] at h1 h2 ⊢
  rw [h1, h2]
  rfl
theorem crcOnes_1024 : crcOnes 1024 0xFFFFFFFF = 1204092939 := by
  have h1 : crcOnes 128 0xFFFFFFFF = 2597497779 := by decide +kernel
  have h2 : crcOnes 128 2597497779 = 22501342 := by decide +kernel
  have h3 : crcOnes 128 22501342 = 1827065832 := by decide +kernel
  have h4 : crcOnes 128 1827065832 = 1115962464 := by decide +kernel
  have h5 : crcOnes 128 1115962464 = 3794872012 := by decide +kernel
  have h6 : crcOnes 128 3794872012 = 104969987 := by decide +kernel
  have h7 : crcOnes 128 104969987 = 2507513984 := by decide +kernel
  have h8 : crcOnes 128 2507513984 = 1204092939 := by decide +kernel
  rw [show 1024 = 128 + (128 + (128 + (128 + (128 + (128 + (128 + 128)))))) from rfl, crcOnes_add, h1, crcOnes_add, h2,
    crcOnes_add, h3, crcOnes_add, h4, crcOnes_add, h5, crcOnes_add, h6, crcOnes_add, h7, h8]

theorem witness_CommitsMarkTheirUnitsPending_slot : slotBad blankSlot 31 = false := by
  have hz : slotSize blankSlot 31 = 0 := by
    unfold slotSize rdW rdH rdB Tbl.get blankSlot
    simp only [ffRun_find]
    decide +kernel
  have hc : rdW blankSlot (0x2A0000 + 16 * 31 + 8) = 0xB83AFFF4 := by
    unfold rdW rdH rdB Tbl.get blankSlot
    simp only [ffRun_find]
    decide +kernel
  have hp : permValid 512 (slotEntries blankSlot 31 512) = true := by
    rw [blankSlot_entries]
    have hf : (List.replicate 512 0xFFFF).filter (fun x : Nat => x != 0xFFFF) = [] := by
      rw [List.filter_replicate]; rfl
    simp only [permValid, hf, List.all_replicate, List.mergeSort_nil]
    decide
  have hb : crc32 (rdBytes blankSlot 0x29F000 1024) = 0xB83AFFF4 := by
    rw [blankSlot_bytes, crc32, foldl_ones, crcOnes_1024]
    decide +kernel
  unfold slotBad
  rw [hz, hc]
  simp only [portsOf, Nat.reduceMul, Nat.reduceAdd, Nat.reducePow]
  rw [hb, hp]
  decide

theorem witness_LoopCommandsAndClearingWrites :
    ((blk .track []).heard = true ∧ flag (blk .track []) Reg.LCLASS.CMD_STAT.BUSY = false ∧ targetOk 0 4607 = true ∧
      targetOk 1 17 = true ∧ targetOk 2 15 = true ∧ targetOk 3 0 = true ∧ Mode.track.working = true ∧
      elementErrs (blk .track []) 1 4607 = [] ∧ elementErrs (blk .track []) 3 4607 = []) ∧
    elementErrs (setBank 17 { (blk .track []).bank 17 with released := true, cleared := false } (blk .track [])) 2 4607 = [] ∧
    (pgOf 0x1F).isSome = true ∧ (0xFFFF : Word).toNat &&& 0xFFFF0000 = 0 := by decide

theorem witness_TimeRegistersTakeTheirWrites :
    (hears 0xFFFFFFF0 3 (blk .openHold []) = true ∧ flag (blk .openHold []) Reg.GLEW.CFG.EN = false ∧
      (blk .openHold []).sys.mode ∈ [Mode.idle, .calibrate, .openHold]) ∧
    (hears 0xFFFFFFF0 4 (blk .idle [(Reg.GLEW.ID.CASC_ID, 7)]) = true ∧ isMember (blk .idle [(Reg.GLEW.ID.CASC_ID, 7)]) = true) ∧
    getF (blk .idle [(Reg.TIME.CFG.SRC, 1)]) Reg.TIME.CFG.SRC = 1 ∧
    (0x3FF7CED9 ≤ (0x3FF7CED9 : Word).toNat ∧ (0x40083127 : Word).toNat ≤ 0x40083127 ∧ getF (blk .idle []) Reg.TIME.CFG.SRC = 0) ∧
    isMember (blk .idle []) = false := by decide

/-- A frame in the queue: SEQ 1, launch at `t`, at stage `g`. -/
def frm (t : Nat) (g : Stage) : Frame where
  kind := 1
  slot := 0
  seq := 1
  settle := 64
  launch := t
  payload := []
  peer := none
  ta := 0
  tp := 0
  sFree := 0
  pEnd := 0
  rel := 0
  stage := g
  states := []
  members := []
  armSet := []
  wasParked := []
  planStart := 0
  t0 := 0
  ready := []
  refused := false
  sums := []
  keep := false
  solveStart := 0
  plan := []
  commit := false
  casc := false
  cells := []

/-- The block with frames in its queue. -/
def queued (fs : List Frame) (b : Blk) : Blk := { b with sched := { b.sched with queue := fs } }

/-- A free clock; an armed frame whose comparator is 1,999 ns away from the next edge; a deferred step; edges of PPS_IN in and out
of the window; three seconds without one; a second that begins in this tick; a pulse that is over. -/
theorem witness_StepsOfTheClockAndPulsesPerSecond :
    let b := blk .idle [(Reg.TIME.SET_SLO.SEC, 1)]
    let at_ := fun ns : Nat => { b with time := { b.time with ns := ns } }
    (hears 0xFFFFFFFE 1 b = true ∧ (1 : Word).bit 0 = true ∧ getF b Reg.TIME.CFG.SRC = 0 ∧ b.time.defer = none ∧
      toCompare (toEdge 1 b) = none ∧ local28 (toEdge 1 b) ≠ 1000000000 * 2 ^ 28) ∧
    toCompare (toEdge 1 (queued [frm 2043 .armed] b)) = some (1999 * 2 ^ 28) ∧
    (let d := { b with time := { b.time with defer := some (1000 * 2 ^ 28) } }
     toCompare d = none ∧ d.sys.mode ≠ .reset ∧ deferEdge d ≤ 250 * (d.tick + 1)) ∧
    ((at_ 100000011).time.ns - 12 = 99999999 ∧ (at_ 100000011).time.ppsSec = none) ∧ (at_ 100000012).time.ns - 12 = 100000000 ∧
    ((at_ 11).time.ns + (2 ^ 48 * 1000000000 - 12)) % (2 ^ 48 * 1000000000) = 2 ^ 48 * 1000000000 - 1 ∧
    (let d := { setF Reg.TIME.CFG.SRC 3 b with tick := 3000000, time := { b.time with ppsSeen := some 0 } }
     getF d Reg.TIME.CFG.SRC = 3 ∧ flag d Reg.TIME.STAT.HOLDOVER = false ∧ d.due 12000000000 = true) ∧
    (let d := setF Reg.TIME.PPS_OUT.EN 1 (at_ 999999000)
     flag d Reg.TIME.PPS_OUT.EN = true ∧ d.time.ppsOut = false ∧
     d.edge + ceilDiv (1000000000 * 2 ^ 28 - (d.time.ns * 2 ^ 28 + d.time.frac)) (getF d Reg.TIME.INCR.INCR) = 250) ∧
    (let d := { b with time := { b.time with ppsOut := true } }
     d.time.ppsOut = true ∧ d.due d.time.ppsEnd = true) := by decide

theorem witness_OffsetUpdatesSteerTheClock :
    (-2147483648 : Int) ≤ 20000 ∧ (20000 : Int).natAbs ≤ getF (blk .idle []) Reg.TIME.STEP_THR.THR ∧
    getF (blk .idle []) Reg.TIME.STEP_THR.THR < (20001 : Int).natAbs ∧ flag (blk .idle []) Reg.TIME.CFG.SERVO_HOST = false ∧
    flag (blk .idle [(Reg.TIME.CFG.SERVO_HOST, 1)]) Reg.TIME.CFG.SERVO_HOST = true := by decide

/-- A message in form of domain 0 from clock 1, sequenceId 5. -/
def ptpMsg (two : Bool) : PtpMsg where
  version := 2
  minor := 1
  udp := false
  tags := []
  logIntv := 1
  domain := 0
  src := ⟨1, 1⟩
  seqId := 5
  twoStep := two
  origin := 1000
  corr := 0
  forUs := true
  prio1 := 1
  quality := 1
  prio2 := 1
  gm := 1
  steps := 254

/-- Port 1 selected and following clock 1, with the port's own record. -/
def ptpBlk (q : PtpSt) : Blk :=
  let b := blk .idle [(Reg.TIME.CFG.SRC, 1), (Reg.PTP.CFG.EN 1, 1), (Reg.PTP.STATE.PORT_STATE 1, 9), (Reg.PTP.STATE.SELECTED 1, 1)]
  setPtp 1 q { b with time := { b.time with master := some (1, ⟨1, 1⟩, 1) } }

theorem witness_SyncAndDelayMessagesMeasureTheMaster :
    (let b := ptpBlk { PtpSt.reset with sync := some (5, 0, 0) }
     ptpHears 1 (ptpMsg true) b = true ∧ fromParent b 1 (ptpMsg false) = true ∧ (ptpSt b 1).sync = some (5, 0, 0) ∧
     (-7 ≤ (ptpMsg true).logIntv ∧ (ptpMsg true).logIntv ≤ 1) ∧
     ptpHears 1 { ptpMsg true with logIntv := 2 } b = true ∧ ¬ (2 : Int) ≤ 1) ∧
    (ptpOn (ptpBlk PtpSt.reset) 1 = true ∧ ptpHears 1 { ptpMsg true with version := 1 } (ptpBlk PtpSt.reset) = false ∧
      ptpHears 1 { ptpMsg true with udp := true } (ptpBlk PtpSt.reset) = false ∧
      ptpHears 1 { ptpMsg true with tags := [0] } (ptpBlk PtpSt.reset) = false ∧
      ptpHears 1 { ptpMsg true with domain := 255 } (ptpBlk PtpSt.reset) = false) ∧
    (flag (ptpBlk PtpSt.reset) (Reg.PTP.CFG.MECH 1) = false ∧ isSelected (ptpBlk PtpSt.reset) 1 = true) ∧
    (let b := ptpBlk { PtpSt.reset with dreq := some (5, 0), last := some (0, 0) }
     (ptpSt b 1).dreq = some (5, 0) ∧ (ptpSt b 1).last = some (0, 0) ∧ fromParent b 1 (ptpMsg false) = true) ∧
    (let b := setF (Reg.PTP.CFG.MECH 1) 1 (ptpBlk { PtpSt.reset with preq := some (5, 0), presp := some (5, 0, 0, 0) })
     flag b (Reg.PTP.CFG.MECH 1) = true ∧ (ptpSt b 1).preq = some (5, 0) ∧ (ptpSt b 1).presp = some (5, 0, 0, 0) ∧
     ptpHears 1 (ptpMsg false) b = true) := by decide

theorem witness_AnnounceMessagesChooseTheMaster :
    (let b := ptpBlk PtpSt.reset
     ptpHears 1 (ptpMsg false) b = true ∧ b.time.master = some (1, ⟨1, 1⟩, 1) ∧ isSelected b 1 = true) ∧
    (let f : Foreign := ⟨1, 1, 1, 1, 254, ⟨1, 1⟩, 4000000000, 2, 0, 0⟩
     let b := { ptpBlk { PtpSt.reset with foreign := [f] } with tick := 3000000 }
     (bestMaster b).isSome = true ∧ (ptpSt b 1).foreign.find? (isParent b 1) = some f ∧
     b.due (f.last + getF b (Reg.PTP.INTV.ANN_TO 1) * f.intv) = true ∧ qualified b 1 f = true) ∧
    (let b := setF (Reg.ETH.STAT.LINK 1) 1 (setF (Reg.PTP.STATE.PORT_STATE 1) 2 (ptpBlk { PtpSt.reset with recoverAt := some 3984 }))
     getF b (Reg.PTP.STATE.PORT_STATE 1) = 2 ∧ flag b (Reg.ETH.STAT.LINK 1) = true ∧ b.due 3984 = true) := by decide

/-- RESET; a tick of a working mode; a soft reset that waits, outside SHUTDOWN and in it. -/
theorem witness_LoopTickCountsTheTick :
    Blk.reset.sys.mode = .reset ∧ ((blk .track []).sys.mode ≠ .reset ∧ (blk .track []).sys.softReq = false) ∧
    (let b := { blk .idle [] with sys := { (blk .idle []).sys with softReq := true } }
     b.sys.softReq = true ∧ b.sys.mode ≠ .shutdown) := by decide

theorem witness_PendingCommitsBecomeLiveAtTheBoundary :
    (let b := blk .idle [(Reg.HDR.pend 0xC 0, 1), (Reg.HDR.pend 0xA 0, 1), (Reg.HDR.pend 0xA 1, 1), (Reg.HDR.pend 0xB 31, 1),
       (Reg.HDR.pend 0xC0 15, 1), (Reg.HDR.pend 0xA8 0, 1), (Reg.HDR.pend 0x20 0, 1)]
     b.sound = true ∧ planToCompletion b = false ∧ flag b (Reg.HDR.pend 0xC 0) = true ∧ flag b (Reg.HDR.pend 0xA 0) = true ∧
     flag b (Reg.HDR.pend 0xA 1) = true ∧ flag b (Reg.HDR.pend 0xB 31) = true ∧ slotNamed b 31 = false ∧
     flag b (Reg.HDR.pend 0xC0 15) = true ∧ flag b (Reg.HDR.pend 0xA8 0) = true ∧ flag b (Reg.HDR.pend 0x20 0) = true) ∧
    planToCompletion (queued [frm 0 .planning] (blk .track [])) = true ∧
    (∀ p, ∀ j < 32, flag (blk .idle []) (Reg.HDR.pend p j) = false) :=
  ⟨by decide, by decide, fun p j _ => by simp [flag, getF, blk, setFs, Blk.reset, Reg.HDR.pend, Fld.mk', Tbl.get, Tbl.find]⟩

/-- The last slot of engine 0 on its instant, served; an engine that serves nothing; a slot already run in this tick. -/
theorem witness_EngineSlotServesItsElementOnce :
    (let c := (blk .track []).atEdge (52 * 71)
     c.edge < 234 ∧ serving c 0 = true ∧ 64 * 71 + logicalOf c 0 < 4608 ∧ (c.elem (64 * 71 + logicalOf c 0)).lp.slotTick ≤ c.tick ∧
     isRom (eccSlot 0 4544 c).live = true) ∧
    (let c := (blk .track []).atEdge 0
     serving c 67 = false ∧ failedEng c 67 = false ∧ (engRt c 67).nextSlot ≤ 72 * c.tick) ∧
    (let c := (blk .track [(Reg.ENG.HEALTH.FAILED 67, 1)]).atEdge 0
     serving c 67 = false ∧ failedEng c 67 = true) ∧
    234 ≤ (({ blk .track [] with edge := 234 }).atEdge (52 * 71)).edge := by decide
/-- A slot's element in loop state `t`, as program 3.2 takes it up. -/
def slotAt (t : LoopState) : Sl :=
  let x := (blk .track []).elem 0
  { x := { x with lp := { x.lp with st := t } }, c := readCx [] 0, ev := [], ent := .none, out := none, unarm := false, sats := 0 }

theorem witness_EachStateHasItsLaw :
    (slotAt .parked).x.lp.st = .parked ∧ (slotAt .dark).x.lp.st = .dark ∧ (slotAt .fault).x.lp.st = .fault ∧
    (slotAt .transit).x.lp.st = .transit := by decide

/-- Element `e` changed in a block. -/
def withElem (e : Nat) (f : Elem → Elem) (b : Blk) : Blk := setElem e (f (b.elem e)) b

/-- The first sample of a tick, and the eighth. -/
theorem witness_ChecksCompareAndAreRecordedInOrder :
    (blk .track []).sys.mode ≠ .reset ∧ ((blk .track []).elem 4607).sns.cur.chk.length = 0 ∧
    ((withElem 0 (fun x => { x with sns := { x.sns with cur := { x.sns.cur with chk := [1, 1, 1, 1, 1, 1, 1] } } })
      (blk .track [])).elem 0).sns.cur.chk.length = 7 ∧
    (((0x04 : Byte).toNat % 4 = 0 ∧ (0x04 : Byte).toNat / 4 % 2 = 1) ∧ (0x09 : Byte).toNat % 4 = 1 ∧ (0 : Byte).toNat / 8 % 2 ≠ 1) ∧
    (let x := (blk .track []).elem 0
     let lit := { x with sns := { x.sns with a := { x.sns.a with corr := 1000, frame := 1 }, b := { x.sns.b with frame := 1 } } }
     checkFrame (blk .track []) 0 0 0x04 lit = (1, some 0) ∧ checkFrame (blk .track []) 0 0 0x05 lit = (0, some 65534) ∧
     checkFrame (blk .track []) 0 0 0x04 x = (2, none)) := by decide

theorem witness_MonitorFaultsAreShownAndRaised :
    (blk .track []).sys.mode ≠ .reset ∧
    (let b := withElem 4607 (fun x => { x with sns := { x.sns with b := { x.sns.b with same := 256 } } }) (blk .track [])
     let y := (b.elem (9215 / 2)).sns.b
     getF b (Reg.SNS.FRZ.N_FREEZE (snsPage (9215 / 2))) ≤ y.same ∧ y.frozen = false) ∧
    (let b := { blk .track [] with tick := 1024 }
     b.tick % 1024 = 0 ∧ (b.elem 0).sns.win.ended < b.tick) ∧
    (evGet (blk .track []) 844).raw = false ∧ (evGet (setRaw 844 true (blk .track [])) 844).raw = true := by decide

theorem witness_BankRegistersTakeTheirWrites :
    (hears 0xFFFFFFF8 7 (blk .idle []) = true ∧ bankClosed (blk .idle []) 17 = false) ∧
    (hears 0xFFFFFFFE 0 (blk .idle []) = true ∧ (blk .calibrate []).sys.clrLow = false ∧
      (blk .calibrate []).sys.mode ∈ [Mode.idle, .calibrate, .openHold]) ∧
    (∀ e, e / 32 = 8 * 17 + 7 → (0x80000000 : Word).bit (e % 32) ≠
      (natBits (getF (blk .idle []) (Reg.DRV.SPAN.SPAN 17 7)) (e % 32) 1 == 1) →
      closed (blk .idle []) e = false ∧ ((blk .idle []).bank 17).cleared = false ∧ ((blk .idle []).elem e).drv.seq = none) ∧
    ((0xBFC : BitVec 12).toNat % 4 = 0 ∧ (0xC1C : BitVec 12).toNat < 0xC20 ∧ (blk .boot []).sys.mode ≠ .reset) ∧
    (hears 0xFFFFFFE0 0x12 (blk .idle []) = true ∧ (0x12 : Word).bits 0 2 ≠ 3 ∧ (0x12 : Word).bits 3 2 ≠ 3 ∧
      bankClosed (blk .idle []) 16 = false) :=
  ⟨by decide +kernel, by decide, fun _ _ _ => ⟨rfl, rfl, rfl⟩,
   by decide +kernel, by decide +kernel⟩

theorem witness_SpanSequencesAndTheClearPin :
    let q : SpanSeq := { start := 1, src := 0, kept := 9, switched := false }
    let b := { withElem 4607 (fun x => { x with drv := { x.drv with seq := some q } }) (blk .idle []) with tick := 2 }
    let d := { withElem 4607 (fun x => { x with drv := { x.drv with seq := some { q with switched := true } } }) (blk .idle []) with
      tick := 3 }
    ((b.elem 4607).drv.seq = some q ∧ q.start + 1 ≤ b.tick ∧ q.switched = false) ∧
    (4607 ∈ d.listed ∧ bankOf 4607 = 17 ∧ (d.elem 4607).drv.seq = some { q with switched := true } ∧ q.start + 2 ≤ d.tick) ∧
    (blk .idle []).sys.clrLow = false ∧ (blk .idle []).sys.mode ≠ .reset ∧
    (let k := { (blk .idle []).bank 17 with released := true, cleared := false }
     k.released = true ∧ k.cleared = false) := by decide

/-- TRACK with every bank released. -/
def tracking (ps : List (Fld × Nat)) : Blk :=
  { blk .track ps with banks := (List.range 18).map fun n => (n, { (blk .track []).bank n with released := true }) }

/-- A direct element frame for element 0, launched 100,000 ns after reset. -/
def directFrame : List Word := [0x10003, 1, 64, 100000, 0, 0, 0, 0, 0x10000]

/-- A frame that every check passes, and one of KIND 0 that fails the first. -/
theorem witness_ArrivalsAreEvaluatedInOrder :
    (let a : Arrival := { stamp := 7, peer := none, msg := 0, words := directFrame }
     let z : Arrival := { stamp := 9, peer := none, msg := 0, words := List.replicate 8 0 }
     nextArrival [z, a] = some (1, a) ∧ nextArrival [z] = some (0, z)) ∧
    (admissionResult (tracking []) directFrame = (0, 0) ∧ ∀ x ∈ admissionChecks (tracking []) directFrame, x.2.1 = false) ∧
    (admissionChecks (tracking []) (List.replicate 8 0))[0]? = some (1, true, 4) ∧
    (admissionResult (tracking []) (List.replicate 8 0)).1 ≠ 0 := by decide +kernel

/-- A frame that waits for the solver, one whose solve is due, a trial whose solve is due, and frames before and in planning. -/
theorem witness_FramesAreSolvedAndPlanned :
    (let b := queued [frm 0 .queued] (blk .track [])
     b.sched.queue[0]? = some (frm 0 .queued) ∧ 0 = (b.sched.queue.takeWhile fun f => !f.unsolved).length ∧ solverFree b = true) ∧
    (let b := { queued [frm 0 .solving] (blk .track []) with tick := 100 }
     0 = (b.sched.queue.takeWhile fun f => f.stage != .solving).length ∧ b.sched.trySlot = none ∧
     b.due ((frm 0 .solving).solveStart + 4 * tSolve (getF b Reg.FABRIC.CFG.SIZE)) = true) ∧
    (let b := { blk .idle [] with tick := 100, sched := { (blk .idle []).sched with trySlot := some 31 } }
     b.sched.trySlot ≠ none ∧ b.due (b.sched.tryStart + 4 * tSolve b.sched.trySize) = true) ∧
    (let b := queued [frm 0 .launched, frm 1 .solved] (blk .track [])
     b.sched.queue[1]? = some (frm 1 .solved) ∧ 1 = firstUnlaunched b ∧ b.sched.relTick ≤ b.tick ∧ anyTransit b = false ∧
     anyTransit (withElem 4607 (fun x => { x with lp := { x.lp with st := .transit } }) b) = true) ∧
    ((frm 0 .planning).moves = false ∧ ({ frm 0 .planning with states := [0x10] }).moves = true) ∧
    (let b := queued [frm 0 .launched, frm 1 .planning] (blk .track [])
     1 = (b.sched.queue.takeWhile fun f => f.stage != .planning).length ∧ (frm 1 .planning).plan = [] ∧
     ({ frm 1 .planning with plan := [0, 0, 0, 0] }).plan ≠ []) := by decide

/-- A channel that answers with no difference. -/
def chanIn (c : CmdDiff) : ChanIn := { present := true, cmd := c, words := [] }

theorem witness_TheVoteArmsRetiresOrHalts :
    (let b := queued [frm 0 .planned] (blk .track [(Reg.SEQ.STAT.IN_I, 1), (Reg.SEQ.STAT.IN_L, 1), (Reg.SEQ.STAT.IN_P, 1)])
     b.sched.queue[firstUnlaunched b]? = some (frm 0 .planned) ∧ getF b Reg.SEQ.STAT.CONFIG ≠ 2 ∧
     flag b Reg.FTEST.SEQ_FLIP.GO = false ∧ inService b 0 = true ∧ inService b 1 = true ∧ inService b 2 = true) ∧
    (let b := queued [frm 0 .planned] (blk .track [(Reg.SEQ.STAT.IN_I, 0), (Reg.SEQ.STAT.IN_L, 1), (Reg.SEQ.STAT.IN_P, 1)])
     inService b 0 = false ∧ inService b 1 = true ∧ inService b 2 = true) := by decide

theorem witness_TheComparatorLaunchesTheArmedFrame :
    (let b := queued [frm 1035 .armed] (blk .track [])
     b.sched.queue[firstUnlaunched b]? = some (frm 1035 .armed) ∧ (frm 1035 .armed).casc = false ∧ chainN b = 0 ∧
     b.sys.frozenLow = false ∧ matchEdges b 1035 = 249 ∧
     matchEdges { setF Reg.TIME.CFG.FMT 1 b with time := { b.time with ns := 2 ^ 31 + 995 } } 1035 = 2 ^ 29 ∧
     ({ frm 1035 .armed with casc := true, commit := true }).commit = true) ∧
    ((∀ k < 18, bankShut (tracking []) k = false) ∧ (tracking []).ev.late = [] ∧
      (let b := withElem 4607 (fun x => { x with drv := { x.drv with arm := true } }) (tracking [])
       (b.elem 4607).drv.arm = true ∧ (b.elem 4607).drv.seq = none) ∧
      natBits (({ frm 0 .armed with states := [0x10] }).states.getD 0 0).toNat 4 1 = 1) := by decide

theorem witness_WindowsCloseAndFramesComplete :
    (let b := withElem 0 (fun x => { x with trk := some (newTracker (frm 0 .launched) .tracking) }) (blk .track [])
     openEnds { b with tick := 8 } = [8000] ∧ ({ b with tick := 8 }).due 8000 = true) ∧
    (let f := frm 0 .launched
     let b := { queued [f] (blk .track []) with tick := 8 }
     b.sched.queue.head? = some f ∧ frameEnded b f (trackersOf b f) = true ∧ b.due (closingInstant f (trackersOf b f)) = true ∧
     f.casc = false ∧ chainN b = 0) := by decide

theorem witness_MeterCancelAndTrialCommands :
    (let b := { blk .idle [] with tick := 1000 }
     b.tick % 1000 = 0 ∧ b.tick ≠ b.sched.msTick ∧ b.sys.mode ≠ .reset) ∧
    (let b := queued [frm 1001 .queued] (blk .track [])
     frameWith b 1 = some 0 ∧ b.sched.queue[0]? = some (frm 1001 .queued) ∧ b.time.ns + 1000 < (frm 1001 .queued).launch) ∧
    (hears 0xFFFFFFF8 7 (blk .idle []) = true ∧ hears 0xFFFFFFF8 0 (blk .track []) = true) ∧
    (let b := { blk .idle [] with permDone := [31] }
     hears 0x7FFFFFE0 0x8000001F b = true ∧ (0x8000001F : Word).bit 31 = true ∧ (0x8000001F : Word).bits 0 5 ∈ b.permDone ∧
     slotSize b.live ((0x8000001F : Word).bits 0 5) = getF b Reg.FABRIC.CFG.SIZE) := by decide
/-- The rings of the smallest size, with the tail at its farthest. -/
theorem witness_RingRegistersTakeTheirWrites :
    let b := blk .boot [(Reg.PCIE.CMD_CFG.EN, 1), (Reg.PCIE.CMD_CFG.LOG2SIZE, 4), (Reg.PCIE.CPL_CFG.LOG2SIZE, 12),
      (Reg.PCIE.CPL_WP.WP, 4096)]
    b.sys.mode ≠ .reset ∧
    ((16 : Word).toNat &&& 0xFFFFE000 = 0 ∧ ringMod b Reg.PCIE.CMD_CFG.LOG2SIZE = 32 ∧
      ((16 : Word).bits 0 13 % 32 + 32 - getF b Reg.PCIE.CMD_HEAD.HEAD % 32) % 32 ≤ 32 / 2) ∧
    ((9 : Word).toNat &&& 0xFFFFFFE0 = 0 ∧ (9 : Word).bits 1 4 = 4 ∧ (9 : Word).bits 1 4 = getF b Reg.PCIE.CMD_CFG.LOG2SIZE) ∧
    ((24 : Word).toNat &&& 0xFFFFFFE0 = 0 ∧ (24 : Word).bits 1 4 = 12) ∧
    (ringMod b Reg.PCIE.CPL_CFG.LOG2SIZE = 8192 ∧ ((4096 : Word).bits 0 13 % 8192 + 8192 - 0) % 8192 ≤
      (getF b Reg.PCIE.CPL_WP.WP % 8192 + 8192 - getF b Reg.PCIE.CPL_RP.RP % 8192) % 8192) := by decide

/-- The block with the host link's own record changed. -/
def hosted (f : HostSt → HostSt) (b : Blk) : Blk := { b with host := f b.host }

/-- A command ring with an entry, entries of each kind, a completion record and room for it, a signal that is due, and a record of the
acquisition buffer with just enough room in the host's ring. -/
theorem witness_TheRingsMoveTheirEntries :
    (let b := hosted (fun h => { h with busMaster := true }) (blk .track [(Reg.PCIE.CMD_CFG.EN, 1), (Reg.PCIE.CMD_TAIL.TAIL, 1)])
     cmdWaits b = true ∧ 2 ≤ cplFree b ∧
     (let x : RingEntry := { entry := [32, 0, 0, 0], frame := 2 :: List.replicate 7 0, err := 0 }
      entryFault x = false ∧ (x.entry.headD 0).bits 0 18 = 32 + payloadBytes (cmdAdvance b) x.frame) ∧
     (let x : RingEntry := { entry := [36, 0, 0, 0], frame := 2 :: List.replicate 7 0, err := 0 }
      entryFault x = false ∧ descReserved x.frame = false ∧ (x.entry.headD 0).bits 0 18 ≠ 32 + payloadBytes (cmdAdvance b) x.frame) ∧
     entryFault { entry := [31, 0, 0, 0], frame := [], err := 0 } = true) ∧
    (let b := hosted (fun h => { h with busMaster := true, cplDue := true }) (blk .track [(Reg.PCIE.CPL_CFG.EN, 1)])
     ({ b with sched := { b.sched with recs := [[1]] } }).sched.recs = [[1]] ∧ dmaOn b Reg.PCIE.CPL_CFG.EN = true ∧
     (getF b Reg.PCIE.CPL_WP.WP + ringMod b Reg.PCIE.CPL_CFG.LOG2SIZE - getF b Reg.PCIE.CPL_RP.RP)
       % ringMod b Reg.PCIE.CPL_CFG.LOG2SIZE ≠ ringMod b Reg.PCIE.CPL_CFG.LOG2SIZE / 2 ∧
     b.host.cplDue = true ∧ ({ b with tick := 1000 }).due (b.host.cplSig.getD 0 + cplGap b) = true) ∧
    (let b := hosted (fun h => { h with busMaster := true }) (blk .track [(Reg.PCIE.ACQ_CFG.EN, 1), (Reg.ACQ.CFG.DRAIN, 1),
       (Reg.ACQ.WP.WP, 1), (Reg.PCIE.ACQ_WP.WP, 65536 - 32)])
     dmaOn b Reg.PCIE.ACQ_CFG.EN = true ∧ flag b Reg.ACQ.CFG.DRAIN = true ∧ 0 < acqUsed b ∧
     (getF b Reg.PCIE.ACQ_WP.WP + 2 * acqRing b - getF b Reg.PCIE.ACQ_RP.RP % (2 * acqRing b)) % (2 * acqRing b) + 32 ≤ acqRing b) := by
  decide

theorem witness_TheLinkComesAndGoes :
    (let b := { blk .idle [] with sys := { (blk .idle []).sys with resetPor := false, resetPin := false, refOk := true } }
     canTrain b = true) ∧
    (let b := blk .idle [(Reg.PCIE.LINK.SPEED, 4), (Reg.PCIE.LINK.WIDTH, 4)]
     linkUp b = true) ∧
    ({ waiting := 3, bursts := [] } : MstReset).bursts = [] ∧
    ((1 : BitVec 4).getLsbD 0 = true ∧ ((3 : Word).bits 0 2 = 0 ∨ (3 : Word).bits 0 2 = 3)) ∧
    ¬ ((1 : BitVec 4).getLsbD 0 = true ∧ ((1 : Word).bits 0 2 = 0 ∨ (1 : Word).bits 0 2 = 3)) ∧
    (hosted (fun h => { h with d3 := true }) (blk .idle [])).host.d3 = true ∧
    natBits (getF (blk .idle []) (Reg.PCIE.MSIX_TABLE.W (4 * 63 + 3))) 0 1 ≠
      natBits (getF (blk .idle [(Reg.PCIE.MSIX_TABLE.W (4 * 63 + 3),
        1 - natBits (getF (blk .idle []) (Reg.PCIE.MSIX_TABLE.W (4 * 63 + 3))) 0 1)]) (Reg.PCIE.MSIX_TABLE.W (4 * 63 + 3))) 0 1 ∧
    (let b := { blk .idle [] with tick := 1000, ev := { (blk .idle []).ev with due := [31] } }
     31 ∈ b.ev.due ∧ b.due ((b.ev.lastMsg.find 31).getD 0 + getF b Reg.EVT.CFG.HOLDOFF * 4000) = true) := by decide

theorem witness_FlashBoardManagementAndTap :
    (let b := blk .idle [(Reg.PCIE.QSPI_ADDR.ADDR, 0xFF0000)]
     b.heard = true ∧ flag b Reg.PCIE.QSPI_STAT.BUSY = false ∧ getF b Reg.PCIE.QSPI_ADDR.ADDR % 65536 = 0) ∧
    (hosted (fun h => { h with qspi := some (2, 0xFFFF00) }) (blk .idle [])).host.qspi = some (2, 0xFFFF00) ∧
    ({ blk .idle [] with sys := { (blk .idle []).sys with resetPin := false } }).sys.resetPin = false := by decide

theorem witness_ScrubbingAndMonitorClears :
    (blk .boot []).sys.mode ≠ .reset ∧ eccInLive ⟨1, false, 0, 0⟩ = false ∧ eccInLive ⟨6, true, 0, 0x10000008⟩ = true ∧
    (0 < eccOff ⟨6, true, 0, 0x10000008⟩ + 8 ∧ eccOff ⟨6, true, 0, 0x10000008⟩ < 9) ∧
    hears 0xFFFFF0F0 0xF0F (blk .idle []) = true := by decide

/-- A page of no target, M4 on a page it has no path to, and writes that meet each check in turn: code 0 where none fails, 5 before 4,
and 4 before the rest. -/
theorem witness_RegisterWritesAreCheckedInOrder :
    (blk .idle []).sys.mode ≠ .reset ∧ (0x1000000 ≤ 0xFFFFFFF ∧ 0xFFFFFFF < 0x10000000) ∧ 0xFFFFF8 + 4 < 0x1000000 ∧
    pgOf 0xFFF = none ∧ Master.m3 ≠ .m4 ∧ (7 : BitVec 4) ≠ 15 ∧ (pgOf (0x19040 / 4096)).isSome = true ∧
    histOn (blk .idle [(Reg.MON.CTL.EN, 0)]) 3 = false ∧ 0x8041 % 4 + 3 ≤ 4 ∧
    pgOf 0x08 = some (.sched, 0) ∧
    firstCode (regErrs .m0 .sched 0 0x08 0x40 512 (blk .idle [])) = 0 ∧
    firstCode (regErrs .m0 .sched 0 0x08 0x42 0xFFFFFFFF (blk .idle [])) = 5 ∧
    (5 ∉ regErrs .m0 .sched 0 0x08 0x40 0x80000000 (blk .idle []) ∧ (0x80000000 : Word).toNat &&& Pg.reserved .sched 0 0x40 ≠ 0) ∧
    firstCode (regErrs .m0 .sched 0 0x08 0x40 31 (blk .idle [])) = 1 := by decide

/-- An element record, an unmapped hole, an address that the commit holds, and a pair of halves of a context. -/
theorem witness_WindowWritesReachTheirCopies :
    ((bar2Target 0xF000000 4).filter (mayRead .m0) = none ∧ (bar2Target 0x8FFFC 4).filter (mayRead .m3) = some 1 ∧
      ({ blk .idle [] with xb := { (blk .idle []).xb with double := [⟨1, false, 0, 0x1008FFF8⟩] } }).xb.double.any
        (beatWord 1 false 0x8FFF0 0x90000) = true) ∧
    ((blk .idle []).sys.mode ≠ .reset ∧ (bar2Target 0x8FFFC 4).filter (mayWrite .m0) = some 1 ∧
      firstCode (windowErrs .m0 0x8FFFC (strobed 0x8FFFC [none, some 0, none, some 0]) (blk .idle [])) = 0 ∧ isContext 0x8FFFC = false ∧
      flag (blk .idle []) Reg.FTEST.ECC.GO = false) ∧
    ((bar2Target 0xF000000 4).filter (mayWrite .m0) = none) ∧
    firstCode (windowErrs .m0 0 (strobed 0 [some 0, some 0, some 0, some 0]) (blk .idle [(Reg.HDR.pend 0xC 0, 1)])) = 3 ∧
    (let a := ctxAddr 4607 62
     isContext a = true ∧ (bar2Target a 4).filter (mayWrite .m0) = some 4 ∧
     windowErrs .m0 a (strobed a [some 1, some 2, some 3, some 4]) (blk .idle []) = []) := by
  decide

theorem witness_TheCrosstalkCrcCoversTheTable :
    (blk .idle [(Reg.PLAN.XT_STAT.CRC_BUSY, 1)]).sound = true ∧
    flag (blk .idle [(Reg.PLAN.XT_STAT.CRC_BUSY, 1)]) Reg.PLAN.XT_STAT.CRC_BUSY = true := by decide

/-- Sources of class WARN at the ends of the numbers, before and after a capture. -/
theorem witness_RaisesAreLatchedCountedAndCaptured :
    (blk .idle []).mild [1132] ∧ (evGet (blk .idle []) 1132).cls ≠ 0 ∧ flag (blk .idle []) Reg.FCAP.STAT.VALID = false ∧
    flag (blk .idle [(Reg.FCAP.STAT.VALID, 1)]) Reg.FCAP.STAT.VALID = true ∧ (blk .idle []).mild [0] ∧ (evGet (blk .idle []) 0).cls ≠ 0 ∧
    (blk .idle []).mild [1119] ∧ (evGet (blk .idle []) 1119).cls = 0 := by
  refine ⟨⟨by decide, rfl⟩, by decide, by decide, by decide, ⟨by decide, rfl⟩, by decide, ⟨by decide, rfl⟩, by decide⟩

/-- Sources that are SAFE and SHUTDOWN by the default classes. -/
theorem witness_ReactionsLeaveTheWorkingModes :
    ((blk .track []).sys.mode ∉ [Mode.reset, .boot, .shutdown] ∧ (evGet (blk .track []) 1129).cls = 3) ∧
    ((blk .boot []).sys.mode ∉ [Mode.reset, .shutdown] ∧ (evGet (blk .boot []) 898).cls = 4) ∧
    (blk .boot []).ev.late = [] := by decide
/-- The block with its event unit changed. -/
def evented (f : EvSt → EvSt) (b : Blk) : Blk := { b with ev := f b.ev }

theorem witness_EventCommandsAndTheWatchdog :
    (pgOf 0x1D = some (.pcie, 0) ∧ (1 : Word).toNat &&& Pg.reserved .pcie 0 0x14 = 0 ∧
      (0xFFFFFFFF : Word).toNat &&& Pg.reserved .evt 0 (0x100 + 4 * 35) = 0) ∧
    ((1 : Word).toNat &&& Pg.reserved .pcie 0 0x1C = 0 ∧ (blk .factoryTest []).sys.mode = .factoryTest ∧ (blk .idle []).heard = true) ∧
    ((0x04040404 : Word).toNat &&& 0xF0F0F0F0 = 0 ∧ (∀ j < 4, (0x04040404 : Word).bits (8 * j) 3 < 5) ∧
      (0x04040404 : Word).bits 16 3 = 4 ∧ flag (blk .idle []) Reg.REACT.CTL.LOCK = false ∧
      flag (blk .idle [(Reg.REACT.CTL.LOCK, 1)]) Reg.REACT.CTL.LOCK = true ∧ flag (blk .idle []) reactWritten = false) ∧
    ({ blk .idle [] with glew := { (blk .idle []).glew with mevt := [(1151, 4, 7)] } }).glew.mevt = (1151, 4, 7) :: [] ∧
    (let b := evented (fun v => { v with aliveN := 100 }) (blk .track [])
     100 ≤ b.ev.aliveN ∧ latchedClass b [3, 4] = false ∧ flag b Reg.ALIVE.CFG.WD_EN = false) ∧
    (let b := { blk .track [(Reg.ALIVE.CFG.WD_EN, 1)] with tick := 100000 }
     flag b Reg.ALIVE.CFG.WD_EN = true ∧ b.ev.wdDone = false ∧
     b.due (b.ev.wdStart + getF b Reg.ALIVE.CFG.WD_MS * 4000000) = true ∧ hears 0xFFFFFFFE 1 b = true) ∧
    (hears 0xFFFE0000 0x1D4C1 (blk .idle []) = true ∧ (0x1D4C1 : Word).bits 1 16 = 60000 ∧ (2 : Word).bits 1 16 = 1) := by decide

/-- The four standbys of a healthy block; a window that starts at tick 1,000; a confirmation before and at its end; a serving engine
that is voted on; self-test at its last segment; a standby that takes over. -/
theorem witness_StandbysCheckAndReplaceEngines :
    (let b := { blk .track [(Reg.ENG.CHK_CFG.ROT_EN, 1)] with tick := 1000 }
     b.tick % 1000 = 0 ∧ b.red.wnd ≠ b.tick + 1 ∧ flag b Reg.ENG.CHK_CFG.ROT_EN = true ∧ (standbys b)[3]? = some 67 ∧
     (engRt b 67).lone = 0 ∧ serverOf b (((standbys b).length * (b.tick / 1000) + 3) % 64) = some 7) ∧
    (let c : Confirm := { serving := 63, s1 := 64, s2 := 65, start := 5, decided := false }
     let b := { blk .track [] with tick := 5, red := { (blk .track []).red with confirm := [c] } }
     b.red.confirm = [] ++ c :: [] ∧ c.start ≤ b.tick ∧ roleOf b c.s1 ≠ 3 ∧ c.serving < 68 ∧ c.decided = false ∧
     let d := setFs [(Reg.ENG.CHK_STAT.ROLE 64, 3), (Reg.ENG.CHK_STAT.ROLE 65, 3)] { b with tick := 2000 }
     roleOf d c.s1 = 3 ∧ (engRt d c.s1).t0 + 9 + getF d Reg.ENG.CHK_CFG.CONFIRM ≤ d.tick ∧ failedEng d 64 = false ∧
     serving d 65 = false ∧ votes d 63 = some c) ∧
    (let x : SlotRes := { codes := none, writes := [], state := none }
     let y : SlotRes := { codes := none, writes := [(0, 1)], state := none }
     x ≠ y) ∧
    (hears 0x7FFFFFC0 0x8000003F (blk .track []) = true ∧ (0x8000003F : Word).bit 31 = true ∧ (blk .track []).red.confirm = [] ∧
      standbys (blk .track []) = [64, 65, 66, 67]) ∧
    (selfTesting (blk .track []) 67 = true ∧ flag (blk .track []) Reg.FTEST.ST_FAIL.GO = false ∧
      (engRt (blk .track []) 67).segment ≠ 63 ∧ (engRt (blk .track []) 67).failRun = 0 ∧
      (engRt (setEngRt 67 { engRt (blk .track []) 67 with segment := 63, failRun := 1 } (blk .track [])) 67).segment = 63) ∧
    (serverOf (blk .track []) 63 ≠ some 67 ∧ (evGet (blk .track []) (8 * 67 + 6)).cls < 3 ∧ (evGet (blk .track []) 1128).cls < 3 ∧
      (evGet (blk .track []) (8 * 67 + 5)).cls < 3 ∧ (blk .track []).ev.late = []) := by decide +kernel

theorem witness_NvmWritesAndInjections :
    (let w : NvmWrite := { addr := 0x3FF0, bytes := [1, 2], wearIx := 0, log := false, retry := true }
     let b := { blk .idle [] with nvm := { (blk .idle []).nvm with queue := [w] } }
     b.nvm.queue = w :: [] ∧ flag b Reg.FTEST.ECC.GO = false ∧ w.retry = true ∧ b.mild [1130]) ∧
    (let w : NvmWrite := { addr := 0x400, bytes := List.replicate 32 0, wearIx := 0, log := true, retry := false }
     w.bytes.length = 32 ∧ w.log = true ∧ w.retry = false) ∧
    (let b := { blk .idle [] with nvm := { (blk .idle []).nvm with powered := 3600000000 }
                                  sys := { (blk .idle []).sys with leftIdle := true } }
     b.sys.leftIdle = true ∧ 3600000000 ≤ b.nvm.powered) ∧
    (hears 0xFFFFFFFE 1 (blk .idle []) = true ∧ flag (blk .idle []) Reg.NVM.STAT.KEY_SET = false) ∧
    ((0x8003FFFF : Word).toNat &&& 0x7FFC0000 = 0 ∧ (0x80001FFF : Word).toNat &&& 0x7FFFE000 = 0 ∧
      (0x8000001F : Word).toNat &&& 0x7FFFFFE0 = 0 ∧ (0x40003FFF : Word).toNat &&& 0xBFFFC000 = 0 ∧
      (0x80000003 : Word).toNat &&& 0x7FFFFFFC = 0) := by
  refine ⟨⟨rfl, by decide, rfl, by decide, rfl⟩, by decide, by decide, by decide, by decide⟩

/-- A round that is due, with a sensor at its eighth bad reading; levels at their thresholds; the last sensors of each word; a
SHUTDOWN whose causes are over. -/
theorem witness_HousekeepingWatchesTheDies :
    (let b := { blk .track [(Reg.THERM.SENSOR.BAD 87, 7)] with tick := 1000 }
     let x : HkIn := { diodes := List.replicate 24 2500, rtds := List.replicate 64 0, supplies := List.replicate 40 0 }
     1000 * (b.hk.rounds + 1) ≤ b.tick ∧ excludedS b 87 = false ∧ outOfRange ((readings x b).1.getD 87 32767) = true ∧
     outOfRange ((readings x b).1.getD 0 32767) = false ∧ 0 ∈ sensorsOf b false 0) ∧
    (11500 ≤ 11500 ∧ ¬ (11200 : Int) < 11500 - 300 ∧ (11199 : Int) < 11500 - 300) ∧
    ((0x00FFFFFF : Word).toNat &&& 0xFF000000 = 0 ∧ (0x80000000 : Word).bit (87 - 24 - 32 * (2 - 1)) = true) ∧
    (let b := blk .shutdown []
     b.sys.mode = .shutdown ∧ dieHolds b false 2 = false ∧ dieHolds b true 2 = false ∧
     flag b Reg.THERM.LEVEL.BLIND_C = false ∧ flag b Reg.THERM.LEVEL.BLIND_P = false ∧
     (∀ ph : Bool, ∀ r ∈ regionsOf ph, (lvlOf b ph r 2).1 = 0)) ∧
    ((blk .safe []).heard = true ∧ (blk .safe []).sys.mode ≠ .shutdown) := by decide +kernel

/-- Port 1 with its link up, and a message of it. -/
def udpBlk (ps : List (Fld × Nat)) : Blk :=
  blk .track ([(Reg.ETH.CFG.EN 1, 1), (Reg.ETH.STAT.LINK 1, 1), (Reg.ETH.CFG.CMD_EN 1, 1), (Reg.NVM.STAT.KEY_SET, 1)] ++ ps)

def udpFrom (epoch : Word) (typ : Nat) (q : Word) (body : List Word) : UdpMsg where
  port := 1
  mac := 1
  ip := 1
  udp := 1
  payload :=
    let m := (BitVec.ofNat 32 (1 + 256 * typ + 262144 * body.length) :: epoch :: q :: body).flatMap wordBytes
    m ++ hmacTag (List.replicate 32 0) m

/-- A message under BOOT_ID 0. -/
def udpMsg (typ : Nat) (q : Word) (body : List Word) : UdpMsg := udpFrom 0 typ q body

theorem witness_EthernetPortsAnswerAndDiscard :
    (blk .idle []).sys.mode ≠ .reset ∧ flag (udpBlk []) (Reg.ETH.STAT.LINK 1) = true ∧
    (hears 0xFFF80000 0x7FFFF (blk .idle []) = true ∧ (0x7FFFF : Word).bit 0 = true ∧ hears 0xFFF80000 0 (blk .idle []) = true) ∧
    (ethOn (udpBlk []) 1 = true ∧ (0 : Word).toNat = getF (udpBlk []) (Reg.ETH.IP.ADDR 1) ∧
      (List.replicate 64 (0 : Byte)).length ≤ 64 ∧ ¬ (List.replicate 65 (0 : Byte)).length ≤ 64) ∧
    ptpOn (setF (Reg.PTP.CFG.EN 1) 1 (udpBlk [])) 1 = true ∧ frameBad [] = true ∧
    bytesWords (([] : List Byte).drop 0) ≠ [BitVec.ofNat 32 (crc32 [])] := by decide

/-- SEQs at both ends of the window, and a message that fails each check. -/
theorem witness_UdpMessagesAreCheckedInOrder :
    (let b := udpBlk [(Reg.ETH.WIN_HIGH.H, 100)]
     let c := { b with eth := { b.eth with win := 0 } }
     seqFresh c 37 = true ∧ seqFresh c 36 = false ∧ seqFresh b 101 = true) ∧
    udpOn (udpBlk []) (udpMsg 1 1 []) = true ∧
    (failedCheck (udpBlk []) { udpMsg 1 1 [] with payload := [] } = 1 ∧
      failedCheck (udpBlk [(Reg.NVM.STAT.KEY_SET, 0)]) (udpMsg 1 1 []) = 2 ∧
      failedCheck (udpBlk []) { udpMsg 1 1 [] with payload := (udpMsg 1 1 []).payload.dropLast ++ [0] } = 3 ∧
      failedCheck (udpBlk []) (udpFrom 1 1 1 []) = 4 ∧
      failedCheck (udpBlk [(Reg.ETH.WIN_HIGH.H, 100)]) (udpMsg 1 36 []) = 5 ∧ failedCheck (udpBlk []) (udpMsg 5 1 []) = 6 ∧
      failedCheck (udpBlk []) (udpMsg 4 1 [0]) = 7) ∧
    ((udpBlk []).eth.errAt.find 1 = none ∧
      ({ (udpBlk []).eth with errAt := [(1, 0)] }).errAt.find 1 = some 0 ∧ (udpBlk []).q < 0 + 4000000) := by decide +kernel

theorem witness_UdpRequestsAndSubscriptions :
    (udpOn (udpBlk []) (udpMsg 1 1 directFrame) = true ∧ failedCheck (udpBlk []) (udpMsg 1 1 directFrame) = 0) ∧
    failedCheck (udpBlk []) (udpMsg 2 1 [1]) = 0 ∧ failedCheck (udpBlk []) (udpMsg 3 1 [0]) = 0 ∧
    failedCheck (udpBlk []) (udpMsg 3 1 [1, 9]) = 0 ∧ failedCheck (udpBlk []) (udpMsg 3 1 [2]) = 0 ∧
    ((udpMsg 1 1 directFrame).typ = 1 ∧ (udpMsg 3 1 [257, 9]).body.getD 0 0 = 257 ∧ (257 : Word).bits 8 24 ≠ 0 ∧
      (257 : Word).bits 0 8 = 1 ∧ failedCheck (udpBlk []) (udpMsg 3 1 [257, 9]) = 0) ∧
    (failedCheck (udpBlk []) (udpMsg 4 1 [0xF, 60000, 3600]) = 0 ∧ (0xF : Word).bit 0 = true ∧ (0xF : Word).bits 4 28 = 0 ∧
      (60000 : Word).bits 16 16 = 0 ∧ (3600 : Word).bits 12 20 = 0 ∧ (60000 : Word).bits 0 16 ≤ 60000 ∧
      (3600 : Word).bits 0 12 ≤ 3600 ∧ ((udpBlk []).eth.subs.filter fun u => !u.peer.same (peerOf (udpMsg 4 1 []))).length < 4) ∧
    (failedCheck (udpBlk []) (udpMsg 4 1 [0xE, 10, 1]) = 0 ∧ (0xE : Word).bit 0 = false) ∧
    (failedCheck (udpBlk []) (udpMsg 4 1 [0x11, 10, 1]) = 0 ∧ (0x11 : Word).bits 4 28 ≠ 0) ∧
    (failedCheck (udpBlk []) (udpMsg 4 1 [1, 9, 1]) = 0 ∧ ¬ 10 ≤ (9 : Word).bits 0 16) ∧
    (let u : Sub := { peer := ⟨0, 9, 9, 9⟩, records := true, events := true, summary := true, period := 10, lease := 0, next := 0
                      evStart := 0, evN := 0 }
     let b := { udpBlk [] with eth := { (udpBlk []).eth with subs := [u, u, u, u] } }
     4 ≤ (b.eth.subs.filter fun u => !u.peer.same (peerOf (udpMsg 4 1 []))).length ∧ b.eth.subs[3]? = some u ∧ b.due u.lease = true ∧
     b.due u.next = true ∧ u.summary = true) := by decide +kernel
/-- The block with its cascade record changed. -/
def chained (f : GlewSt → GlewSt) (b : Blk) : Blk := { b with glew := f b.glew }

/-- A cell of a type from SRC to DEST, with its CRC (R297, R298). -/
def cell (d : Port) (typ src dest arg : Nat) (w : List Word) : Cell where
  d := d
  ws :=
    let ws := BitVec.ofNat 32 (typ + 16 * src + 128 * dest + 65536 * arg) :: (w ++ List.replicate (8 - w.length) 0)
    ws ++ [BitVec.ofNat 32 (crc32 (ws.flatMap wordBytes))]

/-- The master of a chain of 7, its DOWN port at state `st`. -/
def master (st : Nat) : Blk :=
  setPortState .dn st (blk .idle [(Reg.GLEW.CFG.EN, 1), (Reg.GLEW.CFG.CHAIN, 7), (Reg.GLEW.ID.MASTER, 1)])

/-- The last member of a chain of 7 that follows it, its UP port at state `st`. -/
def member (st : Nat) : Blk :=
  setPortState .up st (blk .track [(Reg.GLEW.CFG.EN, 1), (Reg.GLEW.CFG.CHAIN, 7), (Reg.GLEW.ID.CASC_ID, 7), (Reg.TIME.CFG.SRC, 2)])

theorem witness_GlewlinkTrainsAndTellsTime :
    (hears 0xFFFFFFF0 15 (blk .idle [(Reg.GLEW.ID.CASC_ID, 7)]) = true ∧ ownId (blk .idle [(Reg.GLEW.ID.CASC_ID, 7)]) ≤ (15 : Word).bits 1 3) ∧
    (flag (master 0) Reg.GLEW.CFG.EN = true ∧ connected (master 0) .dn = true ∧ portState (master 0) .dn = 0) ∧
    portState (master 1) .dn = 1 ∧ portState (master 2) .dn = 2 ∧ portState (master 3) .dn = 3 ∧
    (let b := setPort .up { portSt (member 3) .up with serial := some 5 } (member 3)
     let x := cell .up 2 6 7 0 [6]
     portState b .up = 3 ∧ (portSt b .up).serial = some 5 ∧ (5 : BitVec 64) ≠ BitVec.ofNat 64 6 ∧
     crc32 ((x.ws.take 9).flatMap wordBytes) = (x.ws.getD 9 0).toNat ∧ x.typ = 2 ∧ x.dest.val = ownId b ∧ x.crcOk false = true) ∧
    ({ d := .up, ws := List.replicate 10 (0 : Word) } : Cell).crcOk false = false ∧
    ({ d := .up, ws := List.replicate 10 (0 : Word) } : Cell).crcOk true = false ∧
    (let x : TimeCell := { d := .up, w := List.replicate 8 0, crc := BitVec.ofNat 32 (crc32 (List.replicate 32 0)), tenths := 39 }
     crc32 (x.w.flatMap wordBytes) = x.crc.toNat) ∧
    (let b := setPort .dn { portSt (master 4) .dn with n := 256 } (master 4)
     portState b .dn = 4 ∧ 256 ≤ (portSt b .dn).n) ∧
    portState (member 5) .up = 5 ∧
    (let b := setPort .up { portSt (member 5) .up with bad := 15 } (member 5)
     15 ≤ (portSt b .up).bad ∧ (portSt (member 5) .up).bad < 15) ∧
    (isMember (member 5) = true ∧ isMember (master 5) = false ∧ getF (member 5) Reg.TIME.CFG.SRC = 2 ∧
      64 ≤ (chained (fun g => { g with oN := 64 }) (member 5)).glew.oN) := by decide +kernel

/-- Cells to the master and to a member, with a distributed frame at each stage that they meet. -/
theorem witness_CellsReachMasterAndMembers :
    (let x := cell .dn 7 7 0 4095 [1]
     portState (master 5) x.d = 5 ∧ (master 5).sys.mode ≠ .reset ∧ crc32 ((x.ws.take 9).flatMap wordBytes) = (x.ws.getD 9 0).toNat ∧
     x.typ = 7 ∧ x.bcast = false ∧ x.dest.val = ownId (master 5) ∧ isMember (master 5) = false ∧
     (master 5).glew.mevt.length < 16 ∧
     16 ≤ (chained (fun g => { g with mevt := List.replicate 16 (0, 0, 1) }) (master 5)).glew.mevt.length ∧
     (let b := queued [frm 1000000 .armed] (master 5)
      frameWith b (pw x 1) = some 0 ∧ b.sched.queue[0]? = some (frm 1000000 .armed) ∧ (frm 1000000 .armed).commit = false ∧
      (pw x 2).bits 0 8 = 0 ∧ x.src.val ∉ (frm 1000000 .armed).ready ∧ chainN b = 7) ∧
     (pw (cell .dn 7 7 0 0 [1, 2]) 2).bits 0 8 ≠ 0 ∧ frameWith (queued [frm 0 .launched] (master 5)) 1 = some 0) ∧
    (let b := { chained (fun g => { g with mems := [(7, { MemberSt.reset with seen := some 0 })] }) (master 5) with tick := 4 }
     (b.glew.mems.get MemberSt.reset 7).seen = some 0 ∧ (b.glew.mems.get MemberSt.reset 7).lost = false ∧ b.due (0 + 16016) = true) ∧
    (let f := { frm (40 + 240 * 7 + 996) .armed with ready := [1, 2, 3, 4, 5, 6] }
     let b := queued [f] (master 5)
     let left : Int := ((f.launch : Int) - 40 - 240 * 7) * 2 ^ 28 - local28 b
     b.sched.queue[firstUnlaunched b]? = some f ∧ 6 + 1 ∉ f.ready ∧ (∀ j, j < 6 → j + 1 ∈ f.ready) ∧
     b.edge + ceilDiv left.toNat (getF b Reg.TIME.INCR.INCR) = 249) ∧
    (portState (member 5) .up = 5 ∧ (cell .up 4 0 7 0 [1]).dest.val = ownId (member 5) ∧ (member 5).sched.queue.length < 64 ∧
      (cell .up 4 0 6 0 [1]).dest.val ≠ ownId (member 5) ∧ (cell .up 4 0 8 0 [1]).bcast = true ∧
      (member 5).sys.mode.working = true ∧ getF (member 5) Reg.SEQ.STAT.CONFIG ≠ 2) ∧
    (let f := { frm 0 .queued with casc := true }
     let full := { f with cells := (List.range 143).map fun k => (k, List.replicate 8 (0 : Word)) }
     filling (queued [f] (member 5)) = some 0 ∧ (f.cells.set [] 0 (List.replicate 8 0)).length ≠ 144 ∧
     (full.cells.set [] 143 (List.replicate 8 0)).length = 144 ∧ f.seq = pw (cell .up 6 0 7 0 [1]) 1 ∧
     f.stage ∈ [Stage.queued, .solved] ∧ (frm 0 .armed).stage ∉ [Stage.queued, .solved]) ∧
    (flag (setF Reg.TRIG.CFG.CASC 1 (member 5)) Reg.TRIG.CFG.CASC = true ∧ (cell .up 15 0 7 1 []).arg = 1) ∧
    (let ws : Tbl (List Word) := (List.range 144).map fun k => (k, List.replicate 8 (0xFFFFFFFF : Word))
     (∀ k, k < 144 → (ws.get [] k).length = 8) ∧
     (refBytes (queued [{ frm 0 .queued with states := List.replicate 4608 0 }, frm 0 .queued] (blk .track [])) 1).length = 4608) := by
  refine ⟨by decide +kernel, by decide, by decide, by decide +kernel, by decide +kernel, by decide +kernel, by decide +kernel, ?_⟩
  show ((List.replicate 4608 (0 : Byte)).map dropMove).length = 4608
  rw [List.length_map, List.length_replicate]

theorem witness_TheStreamTakesItsRecords :
    ((blk .idle []).heard = true ∧ (blk .idle []).sys.mode ≠ .shutdown) ∧
    (let b := blk .idle [(Reg.ACQ.WP.WP, 131072)]
     hears 0xFFFC0000 131072 b = true ∧ flag b Reg.ACQ.CFG.DRAIN = false ∧
     ((131072 : Word).bits 0 18 + 262144 - getF b Reg.ACQ.RP.RP) % 262144 ≤ acqUsed b ∧ acqFull b = true) ∧
    (let b := { blk .track [(Reg.ACQ.STAT.RUNNING, 1)] with
        tick := 1000, acq := { (blk .track []).acq with chans := [(31, { ChanSt.reset with part := List.replicate 12 0 })] } }
     (chanSt b 31).part ≠ [] ∧ (chanSt b 31).part.length ≤ 12 ∧ acqFull b = false ∧ flag b Reg.FTEST.ECC.GO = false ∧
     b.due (16 * (chanSt b 31).partDec + 4000 * getF b Reg.ACQ.FLUSH.US) = true) ∧
    (let b := blk .track [(Reg.ACQ.STAT.DROPPING, 1)]
     flag b Reg.ACQ.STAT.DROPPING = true ∧ getF b Reg.ACQ.RESUME.REC ≤ 131072 - acqUsed b ∧ b.mild [1121]) ∧
    (let b := { blk .track [(Reg.ACQ.STAT.RUNNING, 1)] with time := { (blk .track []).time with ns := 2 ^ 30 - 996 } }
     flag b Reg.ACQ.STAT.RUNNING = true ∧ b.acq.mark = b.time.ns / 2 ^ 30 ∧
     b.edge + ceilDiv (((b.time.ns / 2 ^ 30 + 1) * 2 ^ 30) * 2 ^ 28 - (b.time.ns * 2 ^ 28 + b.time.frac))
       (getF b Reg.TIME.INCR.INCR) = 249) ∧
    (let m : Meas := { t := 0, stamp := 0, origin := 0, v0 := none, xs := [], stop := some 0, past := true }
     let b := { blk .track [] with acq := { (blk .track []).acq with chans := [(31, { ChanSt.reset with meas := some m })] } }
     (chanSt b 31).meas = some m ∧ m.past = true ∧ b.mild [1120, 1122, 1125]) := by
  refine ⟨by decide, by decide, by decide, ⟨by decide, by decide, by decide, rfl⟩, by decide, ⟨rfl, rfl, by decide, rfl⟩⟩

/-- The block with the trigger engine's record changed. -/
def trigged (f : TrigSt → TrigSt) (b : Blk) : Blk := { b with trig := f b.trig }

theorem witness_TheTriggerEngineRuns :
    ((blk .idle []).heard = true ∧ flag (blk .idle []) Reg.TRIG.STAT.ARMED = false ∧ flag (blk .idle []) Reg.TRIG.CFG.CASC = false) ∧
    (let b := setF Reg.TRIG.CFG.CASC 1 (master 5)
     flag b Reg.TRIG.CFG.CASC = true ∧ isMember b = false ∧ portState b .dn = 5 ∧ b.heard = true) ∧
    flag (blk .idle [(Reg.TRIG.STAT.ARMED, 1)]) Reg.TRIG.STAT.ARMED = true ∧
    (let b := trigged (fun t => { t with armAt := some (996, true, 255) }) (blk .track [])
     let left := sext 32 (toBits 32 ((996 : Int) - (b.time.ns % 2 ^ 32 : Nat)))
     b.trig.armAt = some (996, true, 255) ∧
     b.edge + ceilDiv (left.toNat * 2 ^ 28 - b.time.frac) (getF b Reg.TIME.INCR.INCR) = 249) ∧
    (255 < 256 ∧ (blk .track []).mild [1120, 1122, 1124] ∧ (blk .track []).mild [1123]) ∧
    (let b := trigged (fun t => { t with next := 5 }) (blk .track [(Reg.TRIG.STAT.ARMED, 1),
        (Reg.TRIG.COND.TYPE 0, 11), (Reg.TRIG.TT.W0 3, 0x20001)])
     flag b Reg.TRIG.STAT.ARMED = true ∧
     ((trigSteps b).find? fun k => decide (k < 250 * b.tick + 250) && (firingAt b k).isSome) = some 5 ∧
     (firingAt b 5).isSome = true) ∧
    (let b := { trigged (fun t => { t with tmr := [(3, (1, 249))] }) (blk .track []) with edge := 1 }
     (timerWin b 3).2 ≠ 0 ∧ ((timerWin b 3).2, 7, 3) ∉ b.trig.once ∧ b.due (16 * (timerWin b 3).2) = true) ∧
    (∀ p ∈ (trigged (fun t => { t with pulse := none }) (blk .track [])).trig.pulse, 0 < p.1 ∨ p.2 + 10 ≤ 0) ∧
    (let b := { blk .track [] with edge := 2 }
     false ≠ b.trig.level ∧ b.trig.levelAt + 2 ≤ b.now ∧ true = b.trig.level ∧ (blk .track []).now < (blk .track []).trig.levelAt + 2) ∧
    (let b := trigged (fun t => { t with pulse := some (0, 249), win := some { t := 0, stop := some 3984, wEnd := 0 } }) (blk .track [])
     b.trig.pulse = some (0, 249) ∧ b.due (16 * 249) = true ∧ b.trig.win = some { t := 0, stop := some 3984, wEnd := 0 } ∧
     b.due 3984 = true) := by
  refine ⟨by decide, by decide, by decide, by decide, ⟨by decide, ⟨by decide, rfl⟩, ⟨by decide, rfl⟩⟩, by decide +kernel, by decide,
    fun _ h => by simp [trigged, blk, setFs, Blk.reset, TrigSt.reset] at h, by decide, by decide⟩

/-- Every mode in which a request is listed, with and without its gates, and the codes that are refused. -/
theorem witness_ModeRequestsAndTheFreezePin :
    (let b := { blk .openHold [(Reg.PWR.STAT.VTRIM_OK, 1)] with sys := { (blk .openHold []).sys with tblElem := true, tblXt := true } }
     b.heard = true ∧ b.sys.req = none ∧ b.sys.shutClr = false ∧ b.sys.tblElem = true ∧ b.sys.tblXt = true ∧ pwrGate b = true ∧
     b.sys.mode ∈ [Mode.calibrate, .openHold, .safe] ∧ b.sys.mode ∈ [Mode.idle, .openHold] ∧ b.sys.mode ∉ [.boot, .safe, .shutdown]) ∧
    (let b := blk .idle []
     let c := { b with sys := { b.sys with req := some .track } }
     b.heard = true ∧ b.sys.mode ∈ [Mode.idle, .calibrate] ∧ pwrGate (setF Reg.PWR.STAT.VTRIM_OK 1 b) = true ∧ pwrGate b = false ∧
     b.sys.tblElem = false ∧ c.heard = true ∧ c.sys.req.isSome = true) ∧
    (let b := { blk .safe [] with ev := { (blk .safe []).ev with tab := [(546, { EvRec.reset 546 with latch := true, lcls := 3 })] } }
     b.heard = true ∧ b.sys.mode = .safe ∧ latchedClass b [3, 4] = true) ∧
    ((blk .shutdown []).heard = true ∧ (blk .factoryTest []).sys.mode = .factoryTest ∧ (11 : BitVec 4).toNat = 11) ∧
    (let b := { blk .track [(Reg.PWR.STAT.VTRIM_OK, 1)] with sys := { (blk .track []).sys with tblElem := true, tblXt := true } }
     b.sys.mode.working = true ∧ pwrGate b = true) ∧
    (latchedClass (blk .safe []) [3, 4] = false ∧ (blk .safe []).sys.mode = .safe) ∧
    (Mode.thermalLimit.working = true ∧ (8 : BitVec 4).toNat ∈ [6, 7, 8] ∧ 12 ≤ (12 : BitVec 4).toNat ∧ 12 ≤ (15 : BitVec 4).toNat) ∧
    ((blk .calibrate []).heard = true ∧ ¬ (blk .calibrate []).sys.mode.working = true ∧
      (1 : BitVec 4).toNat ∈ [0, 1, 6, 7, 8, 10, 11]) ∧
    (let b := { blk .idle [] with sys := { (blk .idle []).sys with req := some .calibrate } }
     b.sys.req = some .calibrate ∧ b.ev.late = [] ∧ b.sys.mode.working = false) ∧
    (blk .idle []).sys.frozenLow = false := by decide

theorem witness_ControllerResetsReturnEverything :
    (let b := { blk .track [] with sys := { (blk .track []).sys with resetPor := false } }
     b.sys.resetPor = false ∧ b.heard = true ∧ b.sys.mode ≠ .shutdown ∧ b.sys.resetPin = false) ∧
    ({ blk .track [] with sys := { (blk .track []).sys with resetPor := true } }).sys.resetPor = true ∧
    (blk .shutdown []).sys.mode = .shutdown ∧
    flag (setF (lockBit .eth) 1 (blk .idle [])) (lockBit .eth) = true := by decide

/-- The flash with an image of one REGS section, which writes SCHED.MARGIN, at address 0. -/
def flashed : Blk :=
  let image : List Word := [0x7B1D4608, 1, 56, 1, 0, 7, 0, 2840340674, 2, 0, 8, 2735246487, 0x8048, 100]
  let b := { blk .boot [] with flash := (image.flatMap wordBytes).zipIdx.map fun (x : Byte × Nat) => (x.2, x.1) }
  { b with sys := { b.sys with tested := true } }

/-- The image loaded. -/
def loads (r : Except (Nat × Nat) Blk) : Bool :=
  match r with
  | .ok _ => true
  | .error _ => false

theorem witness_BootLeadsToIdle :
    (let b := { Blk.reset with sys := { Blk.reset.sys with resetPor := false, resetPin := false } }
     b.sys.mode = .reset ∧ b.sys.resetPor = false ∧ b.sys.resetPin = false ∧ b.sys.softRun = false) ∧
    ({ Blk.reset with sys := { Blk.reset.sys with softRun := true } }).sys.softRun = true ∧
    ((blk .boot []).sys.tested = false ∧ (∀ e, e < 68 → failedEng (blk .boot []) e = false) ∧
      (blk .boot []).mild (1128 :: [(0 : Fin 68), 67].map fun e => 8 * e.val + 5)) ∧
    (flashed.sys.mode = .boot ∧ flashed.sys.tested = true ∧ flashed.red.migr = [] ∧ getF flashed Reg.SYS.BOOT_STAT.RESULT ≠ 1 ∧
      getF flashed Reg.SYS.BOOT_STAT.BOOTSEL = 0 ∧ getF (setF Reg.SYS.BOOT_STAT.BOOTSEL 2 flashed) Reg.SYS.BOOT_STAT.BOOTSEL ∈ [1, 2] ∧
      getF (setF Reg.SYS.BOOT_STAT.BOOTSEL 3 flashed) Reg.SYS.BOOT_STAT.BOOTSEL = 3) ∧
    loads (loadImage 0 flashed) = true ∧ loads (loadImage 0x800000 flashed) = false ∧
    (headerBad flashed 0x800000 = true ∧ headerBad flashed 0 = false) ∧
    (let b := { flashed with flash := flashed.flash.set 0xFF 28 0 }
     headerBad b 0 = false ∧ crc32 (flashBytes b 0 28) ≠ flashWord b 28) ∧
    (latchedClass flashed [3, 4] = false ∧
      latchedClass { flashed with ev := { flashed.ev with tab := [(546, { EvRec.reset 546 with latch := true, lcls := 3 })] } } [3, 4] = true) := by
  refine ⟨by decide, by decide, ⟨by decide, by decide, by decide, rfl⟩, by decide, by decide +kernel, by decide +kernel, by decide +kernel,
    by decide +kernel, by decide +kernel⟩

theorem witness_EveryCommandAnswersAndTheQueueStays :
    (let s := { State.reset with b := { blk .idle [] with edge := 248 } }
     s.pending = [] ∧ s.b.edge < 249 ∧ s.b.sys.mode ≠ .reset) ∧ State.reset.b.sys.mode = .reset := by decide

/-- A table memory with an entry, in a state whose next step is a commit. -/
theorem witness_StepKeepsTablesCanonical :
    ∃ s t : State, s.b.sound = true ∧ s.b.shadow ≠ [] ∧ s.pending = [.progCommit] ∧ step s = .next t :=
  ⟨{ pending := [.progCommit], b := { blk .idle [] with shadow := [(0x100000, 1)] } }, _, by decide, by decide, rfl, rfl⟩

theorem witness_ShadowsChangeByWritesOnly :
    changesShadow .xtCrcDone = false ∧ changesShadow .progCommit = false ∧ (blk .idle []).sys.softReq = false ∧
    (∃ t, exec .progCommit { State.reset with b := blk .idle [] } = .next t) :=
  ⟨rfl, rfl, rfl, _, rfl⟩
/-! ### Ill-formed commands are refused -/

/-- One ill-formed term for each check of a syllable. -/
theorem test_ill_formed_syllables :
    ([.mac (.slot 0) 3 0 ⟨0, 0, 0⟩ ⟨0, 0, 0⟩, .nop (.slot 0) 0 1 ⟨0, 0, 0⟩ ⟨0, 0, 0⟩, .nop (.slot 0) 0 0 ⟨1, 0, 0⟩ ⟨0, 0, 0⟩,
      .nop (.slot 0) 0 0 ⟨0, 0, 0⟩ ⟨0, 0, 1⟩, .mova (.slot 0) 0 0 ⟨0, 0, 1⟩ ⟨0, 0, 0⟩, .addx (.slot 0) 0 0 ⟨0, 0, 0⟩ ⟨0, 0, 1⟩,
      .aop (.slot 0) 0 0 ⟨0, 8, 0⟩ ⟨0, 0, 0⟩, .aop (.slot 0) 0 0 ⟨0, 0, 1⟩ ⟨0, 0, 0⟩, .sha (.slot 0) 0 2 ⟨0, 0, 0⟩ ⟨0, 0, 0⟩,
      .ftapm (.slot 0) 0 0 ⟨0, 0, 8⟩ ⟨0, 0, 0⟩, .cmpsel (.slot 0) 0 0 ⟨0, 0, 0⟩ ⟨0, 8, 0⟩, .clamp (.slot 0) 0 1 ⟨0, 0, 0⟩ ⟨0, 0, 0⟩,
      .norm (.slot 0) 0 0 ⟨0, 8, 0⟩ ⟨0, 0, 0⟩, .rcp (.slot 0) 0 0 ⟨0, 0, 1⟩ ⟨0, 0, 0⟩, .satd (.slot 0) 0 0 ⟨0, 1, 0⟩ ⟨0, 0, 0⟩,
      .ldw (.slot 0) 31 0 0, .stw (.slot 0) 1 0 0, .ldv (.slot 0) 4 0 0, .stv (.slot 0) 30 0 0,
      .stS (.slot 0) 0 25 .rne false true 0 0 0, .skip (.slot 0) 0 false 0 false, .skip (.slot 0) 0 false 13 false,
      .skip (.slot 0) 1 false 1 true, .out (.planner 0) 0 0, .rep (.slot 0) 1 1, .rep (.planner 0) 0 1,
      .rep (.planner 0) 1 0] : List Instr).all (fun i => !i.wf) = true := by decide

/-- One ill-formed term for each check of what comes from outside. -/
theorem test_ill_formed_inputs :
    ([.tableWrite .m0 0 [], .contextWrite .m0 0 (List.replicate 513 (some 0)), .cmdEntryFetch ⟨[], [], 0⟩, .pcieLinkUp 0 1,
      .pcieLinkUp 5 1, .pcieLinkUp 1 3, .housekeepingRound ⟨[], [], []⟩, .modeReqOther 9, .idCell ⟨.up, []⟩,
      .timeCell ⟨.up, [], 0, 0⟩, .pcieHotReset ⟨0, [⟨0, false, 0, 0, 0⟩]⟩, .bitLockLoss .up ⟨0, [⟨0, false, 32, 32, 0⟩]⟩,
      .ethCfgWrite 0 0 ⟨0, [⟨0, false, 0, 33, 0⟩]⟩, .glewCfgWrite ⟨0, 0, [⟨1, false, 0, 1, 0⟩, ⟨1, true, 0, 1, 0⟩]⟩,
      .bootComplete ⟨true, true, ⟨0, [⟨0, false, 2, 2, 0⟩]⟩⟩, .cellCrc ⟨⟨.dn, []⟩, ⟨0, []⟩⟩ false, .registerWrite .m0 (.bus 0) [], .registerWrite .m1 (.config .pmControl) [⟨0, 15⟩],
      .registerWrite .m0 (.bus 0) (List.replicate 129 ⟨0, 15⟩), .nowNsRead ⟨.m0, 0, 0⟩, .nowNsRead ⟨.m0, 0, 513⟩, .scrubPass ⟨[⟨7, false, 0, 0⟩], []⟩, .scrubPass ⟨[], [⟨0, true, 0, 0⟩]⟩] :
      List Instr).all (fun i => !i.wf) = true := by decide +kernel

/-- A syllable that is not well formed does not occur. -/
theorem test_ill_formed_changes_nothing :
    exec (.ldw (.slot 0) 31 0 0) { State.reset with b := blk .idle [] } = .next { State.reset with b := blk .idle [] } := by rfl

/-! ### Values that the spec states -/

/-- The example of R33 to R35: element 3,081 is served by engine 9. -/
theorem test_engine_of_element_3081 : engineOf (blk .track []) 3081 = some 9 := by decide

/-- The example of R33: 11,200 ns from acceptance to launch for a 512-port permutation, queue empty. -/
theorem test_planning_time_of_512_ports : (planTimes (blk .track []) 1 []).2 + 352 = 11200 := by decide

/-- R308: 28,398 ns on five controllers with 2,048 ports. -/
theorem test_planning_time_of_2048_ports :
    (planTimes (blk .track [(Reg.FABRIC.CFG.ROLE, 1), (Reg.FABRIC.CFG.SIZE, 2), (Reg.GLEW.CFG.EN, 1), (Reg.GLEW.CFG.CHAIN, 4)]) 1 []).2
      + 352 = 28398 := by decide

/-- R176: accumulators saturate to 40 bits signed. -/
theorem test_accumulator_saturates : accI (accOf (2 ^ 39)) = 2 ^ 39 - 1 ∧ accI (accOf (-(2 ^ 39) - 1)) = -(2 ^ 39) := by decide

/-- R177: the rounding modes on 2.5 and −2.5. -/
theorem test_rounding_of_halves :
    (roundShift .rne 5 1, roundShift .rtz 5 1, roundShift .rdn 5 1, roundShift .rha 5 1) = (2, 2, 2, 3) ∧
    (roundShift .rne (-5) 1, roundShift .rtz (-5) 1, roundShift .rdn (-5) 1, roundShift .rha (-5) 1) = (-2, -2, -3, -3) := by decide

/-- R185: the signed and unsigned additions saturate. -/
theorem test_alu_saturates :
    (aluEval .add 0x7FFF 1, aluEval .sub 0x8000 1, aluEval .addu 0xFFFF 1, aluEval .subu 0 1) = (0x7FFF, 0x8000, 0xFFFF, 0) := by decide

/-- R349: the vectors of groups 16, 17 and 35. -/
theorem test_event_vectors : (vecOfGroup 15, vecOfGroup 16, vecOfGroup 17, vecOfGroup 35) = (3, 3, 4, 22) := by decide

/-- R14, R482: a reserved bit is code 4, and the page counts the write. -/
theorem test_reserved_bit_is_rejected :
    ∃ t, exec (.budgetWrite 0x2000) { State.reset with b := blk .idle [] } = .next t ∧ getF t.b (Reg.HDR.errCode 0x08) = 4 ∧
      getF t.b (Reg.HDR.errCount 0x08) = 1 ∧ getF t.b Reg.SCHED.BUDGET.STEADY = 6000 := ⟨_, rfl, by decide, by decide, by decide⟩

/-- R494: a write in RESET is discarded. -/
theorem test_write_in_reset : exec (.budgetWrite 0) State.reset = .next State.reset := by rfl

/-- R243: a steady budget above the peak budget is out of range. -/
theorem test_budget_order :
    ∃ t, exec (.budgetWrite 0x00010002) { State.reset with b := blk .idle [] } = .next t ∧ getF t.b (Reg.HDR.errCode 0x08) = 1 :=
  ⟨_, rfl, by decide⟩

/-- R387: the fourth round at its threshold enters a level; the sixteenth below it by more than 3 °C leaves it. -/
theorem test_level_hysteresis :
    (lvlStep 11500 11500 (3, 0, false)).2.2 = true ∧ (lvlStep 11500 11499 (3, 0, false)).2.2 = false ∧
    (lvlStep 11500 11199 (0, 15, true)).2.2 = false ∧ (lvlStep 11500 11200 (0, 15, true)).2.2 = true := by decide

/-- R347, R353: the watchdog's source is latched and captured. -/
theorem test_raise_captures :
    let b := raise 1132 (blk .track [])
    (evGet b 1132).latch = true ∧ getF b Reg.FCAP.SRC.SOURCE = 1132 ∧ flag b Reg.FCAP.STAT.VALID = true := by decide +kernel

/-- R270: 250 edges to a tick; with no command waiting a step is one edge. -/
theorem test_idle_step_is_an_edge :
    ∃ t, step { State.reset with b := blk .idle [] } = .next t ∧ t.b.edge = 1 ∧ t.b.time.ns = 4 := ⟨_, rfl, by decide, by decide⟩

/-- R13, R422, R483: a read of part of a word answers ALIGN, and completes with Completer Abort. -/
theorem test_partial_read_is_rejected :
    ∃ t, exec (.nowNsRead ⟨.m0, 0x8041, 3⟩) { State.reset with b := blk .idle [] } = .next t ∧
      t.b.sent = [.completion 4, .answer .m0 0x8040 5 0] := ⟨_, rfl, by decide +kernel⟩

/-- R398: a write of two words goes word by word, the second rejected for its strobes. -/
theorem test_request_of_two_words :
    ∃ t, exec (.registerWrite .m0 (.bus 0x8040) [⟨32, 15⟩, ⟨0, 1⟩]) { State.reset with b := blk .idle [] } = .next t ∧
      getF t.b Reg.SCHED.CFG.SETTLE_DEF = 32 := ⟨_, rfl, by decide +kernel⟩

/-- R435: HMAC-SHA-256 by the second test case of RFC 4231. -/
theorem test_hmac :
    hmacTag [0x4A, 0x65, 0x66, 0x65] (([119, 104, 97, 116, 32, 100, 111, 32, 121, 97, 32, 119, 97, 110, 116, 32, 102, 111, 114, 32, 110,
      111, 116, 104, 105, 110, 103, 63] : List Nat).map (BitVec.ofNat 8)) =
    [0x5B, 0xDC, 0xC1, 0x46, 0xBF, 0x60, 0x75, 0x4E, 0x6A, 0x04, 0x24, 0x26, 0x08, 0x95, 0x75, 0xC7] := by decide +kernel

/-- R438: a SEQ passes the window once. -/
theorem test_udp_window : seqFresh (takeSeq 5 (blk .idle [])) 5 = false ∧ seqFresh (blk .idle []) 5 = true := by decide

end Sys2Proof.Tests
end

section
/-!
PROOF. Register writes and reads over T0, word by word (O38): every check of a register answers a code of R484, so the chosen code is
0 exactly where none fails; a rejection is its record on the page; and one word written or read has one lemma per outcome.
-/
set_option autoImplicit false

namespace Sys2Proof.Machine

/-! ### The code of a rejection (R484) -/

@[simp] theorem mem_codeOrder (c : Nat) : c ∈ codeOrder ↔
    c = 5 ∨ c = 4 ∨ c = 2 ∨ c = 3 ∨ c = 1 ∨ c = 0x13 ∨ c = 0x17 ∨ c = 0x15 ∨ c = 0x14 := by
  simp [codeOrder]

/-- The chosen code is one that applies, or 0 where no code of R484 applies. -/
theorem firstCode_cases (cs : List Nat) :
    (firstCode cs ∈ codeOrder ∧ firstCode cs ∈ cs) ∨ (firstCode cs = 0 ∧ ∀ c ∈ codeOrder, c ∉ cs) := by
  unfold firstCode
  cases h : codeOrder.find? fun c => cs.contains c with
  | none => exact .inr ⟨rfl, by simpa using h⟩
  | some c => exact .inl ⟨List.mem_of_find?_eq_some h, by simpa using List.find?_some h⟩

theorem firstCode_lt (cs : List Nat) : firstCode cs < 256 := by
  rcases firstCode_cases cs with ⟨h, -⟩ | ⟨h, -⟩
  · rw [mem_codeOrder] at h
    omega
  · omega

theorem firstCode_eq_zero_iff (cs : List Nat) (h : cs ⊆ codeOrder) : firstCode cs = 0 ↔ cs = [] := by
  constructor
  · intro h0
    rcases firstCode_cases cs with ⟨hc, -⟩ | ⟨-, hn⟩
    · exact absurd (h0 ▸ hc) (by decide)
    · exact List.eq_nil_iff_forall_not_mem.2 fun c hc => hn c (h hc) hc
  · rintro rfl
    rfl

theorem firstCode_of_five (cs : List Nat) (h : 5 ∈ cs) : firstCode cs = 5 := by
  simp [firstCode, codeOrder, h]

theorem firstCode_of_four (cs : List Nat) (h5 : 5 ∉ cs) (h4 : 4 ∈ cs) : firstCode cs = 4 := by
  simp [firstCode, codeOrder, h5, h4]

/-! ### Every check answers a code of R484 -/

@[simp] theorem ite_subset_iff (p : Prop) [Decidable p] (l r cs : List Nat) :
    (if p then l else r) ⊆ cs ↔ (p → l ⊆ cs) ∧ (¬ p → r ⊆ cs) := by
  split <;> simp [*]

@[simp] theorem codeIf_subset_iff (p : Bool) (c : Nat) (cs : List Nat) : codeIf p c ⊆ cs ↔ (p = true → c ∈ cs) := by
  simp [codeIf]

theorem modeReqErrs_subset (v : Word) (b : Blk) : modeReqErrs v b ⊆ codeOrder := by
  simp only [modeReqErrs]
  cases requestable (v.bits 0 4) <;> simp [gateErrs]

theorem cancelCode_cases (v : Word) (b : Blk) : cancelCode b v = 0 ∨ cancelCode b v = 1 ∨ cancelCode b v = 0x14 := by
  unfold cancelCode
  split
  · simp
  · split
    · split <;> simp
    · simp

theorem cancelErrs_subset (v : Word) (b : Blk) : codeIf (cancelCode b v != 0) (cancelCode b v) ⊆ codeOrder := by
  rcases cancelCode_cases v b with h | h | h <;> simp [h]

theorem pcieErrs_subset (off : Nat) (v : Word) (b : Blk) : pcieErrs off v b ⊆ codeOrder := by
  unfold pcieErrs
  split <;> simp [qspiErrs]

theorem commitErrs_subset (g : Pg) (i : Nat) (v : Word) (b : Blk) : commitErrs g i v b ⊆ codeOrder := by
  unfold commitErrs
  split <;> simp [fabricCommitErrs, routeCommitErrs, planCommitErrs, lclassCommitErrs, snsCommitErrs, progCommitErrs]

theorem headErrs_subset (g : Pg) (i off : Nat) (v : Word) (b : Blk) : headErrs g i off v b ⊆ codeOrder := by
  simp [headErrs, drvEnErrs, ftestErrs, commitErrs_subset]

theorem planeErrs_subset (g : Pg) (off : Nat) (v : Word) (b : Blk) : planeErrs g off v b ⊆ codeOrder := by
  have hc := cancelErrs_subset v b
  unfold planeErrs
  generalize codeIf (cancelCode b v != 0) (cancelCode b v) = cancel at hc ⊢
  split <;> simp [modeReqErrs_subset, rstErrs, timeCfgErrs, incrErrs, hostStepErrs, pauseClrErrs, timeErrs, ptpErrs,
    budgetErrs, retireClrErrs, dlogRpErrs, routeTryErrs, fabricCfgErrs, hc]

theorem serviceErrs_subset (g : Pg) (off : Nat) (v : Word) (b : Blk) : serviceErrs g off v b ⊆ codeOrder := by
  unfold serviceErrs
  split <;> simp [reactWordErrs, reactErrs, aliveCfgErrs, thrErrs, shutClrErrs, keyErrs, qosErrs, sliceErrs, scrubErrs,
    acqRunErrs, acqRpErrs, acqErrs, trigActErrs, trigErrs, glewCfgErrs, pcieErrs_subset]

theorem arrayErrs_subset (m : Master) (g : Pg) (i off : Nat) (v : Word) (b : Blk) :
    arrayErrs m g i off v b ⊆ codeOrder := by
  unfold arrayErrs
  split <;> simp [chkMigrateErrs, drvCfgErrs, rearmErrs, spanErrs, hostCodeErrs, launchShadowErrs, snsCfgErrs, loopCmdErrs,
    elementErrs, ftestErrs]

theorem regErrs_subset (m : Master) (g : Pg) (i page off : Nat) (v : Word) (b : Blk) :
    regErrs m g i page off v b ⊆ codeOrder := by
  simp [regErrs, bootErrs, headErrs_subset, planeErrs_subset, serviceErrs_subset, arrayErrs_subset]

/-- No code of R484 is chosen exactly where no check fails. -/
theorem firstCode_regErrs_eq_zero_iff (m : Master) (g : Pg) (i page off : Nat) (v : Word) (b : Blk) :
    firstCode (regErrs m g i page off v b) = 0 ↔ regErrs m g i page off v b = [] :=
  firstCode_eq_zero_iff _ (regErrs_subset ..)

/-- Misalignment is found before everything else (R484). -/
theorem firstCode_regErrs_misaligned (m : Master) (g : Pg) (i page off : Nat) (v : Word) (b : Blk) (h : off % 4 ≠ 0) :
    firstCode (regErrs m g i page off v b) = 5 :=
  firstCode_of_five _ (by simp [regErrs, codeIf, h])

/-- A reserved bit is found before everything but ALIGN (R484). -/
theorem firstCode_regErrs_reserved (m : Master) (g : Pg) (i page off : Nat) (v : Word) (b : Blk)
    (h5 : 5 ∉ regErrs m g i page off v b) (h : v.toNat &&& g.reserved i off ≠ 0) :
    firstCode (regErrs m g i page off v b) = 4 := by
  have ha : off % 4 = 0 := by
    by_contra ha
    exact h5 (by simp [regErrs, codeIf, ha])
  have hw : off / 4 * 4 = off := by omega
  exact firstCode_of_four _ h5 (by simp [regErrs, codeIf, hw, h])

/-! ### The record of a rejection (R15, R482) -/

theorem satInc_eq_min (limit n : Nat) : satInc limit n = min limit (n + 1) := by
  unfold satInc
  split <;> omega

/-- Nothing but the register file changes. -/
theorem reject_eq_regs (p off code : Nat) (m : Master) (b : Blk) :
    reject p off code m b = { b with regs := (reject p off code m b).regs } := rfl

theorem reject_keeps (p off code : Nat) (m : Master) (b : Blk) :
    KeepsRegsBut [Reg.HDR.errCode p, Reg.HDR.errOff p, Reg.HDR.errMaster p, Reg.HDR.errCount p] b (reject p off code m b) := by
  intro f hf
  simp only [List.map_cons, List.map_nil, List.mem_cons, List.not_mem_nil, or_false, not_or] at hf
  obtain ⟨hc, ho, hm, hn⟩ := hf
  rw [reject, incF, getF_setF_ne _ _ _ _ hn, getF_setF_ne _ _ _ _ hm, getF_setF_ne _ _ _ _ ho, getF_setF_ne _ _ _ _ hc]

section
variable (p off code : Nat) (m : Master) (b : Blk)

theorem getF_reject_errCode (h : code < 256) : getF (reject p off code m b) (Reg.HDR.errCode p) = code := by
  rw [reject, incF, getF_setF_ne, getF_setF_ne, getF_setF_ne, getF_setF_same]
  · exact Nat.mod_eq_of_lt h
  all_goals
    simp only [Reg.HDR.errCode, Reg.HDR.errOff, Reg.HDR.errMaster, Reg.HDR.errCount, Fld.mk']
    omega

theorem getF_reject_errOff (h : off < 4096) : getF (reject p off code m b) (Reg.HDR.errOff p) = off := by
  rw [reject, incF, getF_setF_ne, getF_setF_ne, getF_setF_same]
  · exact Nat.mod_eq_of_lt h
  all_goals
    simp only [Reg.HDR.errOff, Reg.HDR.errMaster, Reg.HDR.errCount, Fld.mk']
    omega

theorem getF_reject_errMaster : getF (reject p off code m b) (Reg.HDR.errMaster p) = masterNo m := by
  rw [reject, incF, getF_setF_ne, getF_setF_same]
  · cases m <;> rfl
  · simp only [Reg.HDR.errMaster, Reg.HDR.errCount, Fld.mk']
    omega

theorem getF_reject_errCount :
    getF (reject p off code m b) (Reg.HDR.errCount p) = min 65535 (getF b (Reg.HDR.errCount p) + 1) := by
  rw [reject, incF, getF_setF_same, getF_setF_ne, getF_setF_ne, getF_setF_ne, satInc_eq_min]
  all_goals
    simp only [Reg.HDR.errCode, Reg.HDR.errOff, Reg.HDR.errMaster, Reg.HDR.errCount, Fld.mk']
    omega

end

/-! ### A write of one word (R13 to R15, R400, R401) -/

section
variable (m : Master) (a : Nat) (v : Word) (b : Blk)

/-- A page that the map does not list, or that the master has no path to, is answered by T9. -/
theorem hostWrite_unlisted (hr : b.sys.mode ≠ .reset) (h : m = .m4 ∨ pgOf (a / 4096) = none) :
    hostWrite m a v b = decodeErr m true a b := by
  rcases h with rfl | h <;> simp [hostWrite, *]

/-- The same of a word that is not written whole. -/
theorem partialWrite_unlisted (hr : b.sys.mode ≠ .reset) (h : m = .m4 ∨ pgOf (a / 4096) = none) :
    partialWrite m a b = decodeErr m true a b := by
  rcases h with rfl | h <;> simp [partialWrite, *]

variable (g : Pg) (i : Nat)

theorem partialWrite_listed (hr : b.sys.mode ≠ .reset) (hm : m ≠ .m4) (hp : pgOf (a / 4096) = some (g, i)) :
    partialWrite m a b = reject (a / 4096) (a % 4096) 5 m b := by
  simp [partialWrite, *]

theorem hostWrite_accepted (hr : b.sys.mode ≠ .reset) (hm : m ≠ .m4) (hp : pgOf (a / 4096) = some (g, i))
    (hc : firstCode (regErrs m g i (a / 4096) (a % 4096) v b) = 0) :
    hostWrite m a v b = regDo g i (a / 4096) (a % 4096) v b := by
  simp [hostWrite, *]

/-- Only SCHED.CANCEL answers a rejected write. -/
theorem cancelAck_of_other (off : Nat) (hs : g = .sched → off ≠ 0x74) : cancelAck g off v b = b :=
  if_neg fun ⟨hg, ho, _⟩ => hs hg ho

theorem hostWrite_rejected (hr : b.sys.mode ≠ .reset) (hm : m ≠ .m4) (hp : pgOf (a / 4096) = some (g, i))
    (hc : firstCode (regErrs m g i (a / 4096) (a % 4096) v b) ≠ 0) (hs : g = .sched → a % 4096 ≠ 0x74) :
    hostWrite m a v b =
      reject (a / 4096) (a % 4096) (firstCode (regErrs m g i (a / 4096) (a % 4096) v b)) m b := by
  simp [hostWrite, cancelAck_of_other v _ g _ hs, *]

end

/-! ### A request of words (R398, R401) -/

/-- Between T0 and BAR2 there is no target. -/
theorem busWrite_noTarget (m : Master) (a : Nat) (x : WrWord) (xs : List WrWord) (b : Blk) (hr : b.sys.mode ≠ .reset)
    (hl : 0x1000000 ≤ a) (hh : a < 0x10000000) : busWrite m a (x :: xs) b = decodeErr m true a b := by
  have h0 : ¬ a < 0x1000000 := by omega
  have h1 : ¬ (0x10000000 ≤ a ∧ a < 0x20000000) := by omega
  have h2 : inStore a (4 * (xs.length + 1)) = false := by
    simp only [inStore, Bool.or_eq_false_iff, decide_eq_false_iff_not]
    omega
  simp [busWrite, h0, h1, h2, hr]

theorem busWrite_single (m : Master) (a : Nat) (w : WrWord) (b : Blk) (ha : a < 0x1000000) :
    busWrite m a [w] b = if w.be = 15 then hostWrite m a w.v b else if w.be = 0 then b else partialWrite m a b := by
  simp [busWrite, splitWrite, ha]

/-- A request to T0 is its first word and then the request of the others. -/
theorem busWrite_cons (m : Master) (a : Nat) (x : WrWord) (xs : List WrWord) (b : Blk) (ha : a + 4 < 0x1000000) :
    busWrite m a (x :: xs) b = busWrite m (a + 4) xs (busWrite m a [x] b) := by
  have h0 : a < 0x1000000 := by omega
  simp [busWrite, splitWrite, ha, h0]

/-! ### A read of one word (R13, R398, R422, R483) -/

theorem wordsTouched_single (a n : Nat) (h0 : 0 < n) (h : a % 4 + n ≤ 4) : wordsTouched a n = [a / 4 * 4] := by
  have h1 : (a + n + 3) / 4 - a / 4 = 1 := by omega
  simp [wordsTouched, h1]

theorem complete_single (m : Master) (c : Nat) (b : Blk) :
    complete m [c] b = if m = .m0 then send (.completion (if c = 0 then 0 else if c = 0x20 then 1 else 4)) b else b := by
  by_cases hc : c = 0 <;> simp [complete, completionStatus, hc]

theorem busRead_single (m : Master) (a n : Nat) (b : Blk) (hr : b.sys.mode ≠ .reset) (ha : a < 0x1000000) (h0 : 0 < n)
    (h : a % 4 + n ≤ 4) :
    busRead m a n b = complete m [regReadCode m a n (a / 4 * 4)] (regRead m (regReadCode m a n (a / 4 * 4)) (a / 4 * 4) b) := by
  simp [busRead, hr, ha, wordsTouched_single a n h0 h]

theorem regReadCode_unlisted (m : Master) (a n w : Nat) (h : m = .m4 ∨ pgOf (w / 4096) = none) :
    regReadCode m a n w = 0x20 := if_pos h

theorem regReadCode_whole (m : Master) (w : Nat) (hm : m ≠ .m4) (hp : pgOf (w / 4096) ≠ none) : regReadCode m w 4 w = 0 := by
  simp [regReadCode, hm, hp]

theorem regReadCode_part (m : Master) (a n w : Nat) (hm : m ≠ .m4) (hp : pgOf (w / 4096) ≠ none)
    (h : ¬ (a ≤ w ∧ w + 4 ≤ a + n)) : regReadCode m a n w = 5 := by
  simp only [regReadCode, hm, hp, h, or_self, if_false]

/-- A register without an effect of its own on a read answers its word, MON's while LAT does not count. -/
theorem regRead_plain (m : Master) (w : Nat) (b : Blk) (hl : w / 4096 = 0x19 → histOn b 3 = false) (hn : w ≠ 0x4048)
    (hv : w ≠ 0x1C06C) : regRead m 0 w b = send (.answer m w 0 (BitVec.ofNat 32 ((readReg b w).getD 0))) b := by
  by_cases hp : w / 4096 = 0x19
  · simp [regRead, latRead, hn, hv, hp, hl hp]
  · simp [regRead, hn, hv, hp]

end Sys2Proof.Machine

open Sys2Proof Sys2Proof.Machine

/-- Settles O38, clause by clause: T9's answers, a request's words, the reads, and the order of the codes. -/
theorem registerWritesAreCheckedInOrder : Obligations.RegisterWritesAreCheckedInOrder := by
  unfold Obligations.RegisterWritesAreCheckedInOrder
  intro m a v s hr
  have run (ws : List WrWord) : exec (.registerWrite m (.bus a) ws) s = .next { s with b := busWrite m a ws s.b } := rfl
  have read (n : Nat) : exec (.nowNsRead ⟨m, a, n⟩) s = .next { s with b := busRead m a n s.b } := rfl
  refine ⟨fun hl hh x xs => by rw [run, busWrite_noTarget m a x xs s.b hr hl hh], fun hb => ?_⟩
  have ha : a < 0x1000000 := by omega
  have whole : exec (.registerWrite m (.bus a) [⟨v, 15⟩]) s = .next { s with b := hostWrite m a v s.b } := by
    rw [run, busWrite_single m a _ s.b ha, if_pos rfl]
  intro word listed fin
  have answered (n : Nat) (h0 : 0 < n) (hw : a % 4 + n ≤ 4) := busRead_single m a n s.b hr ha h0 hw
  have unlisted (h : ¬ listed) : m = .m4 ∨ pgOf (a / 4096) = none := by
    simpa [listed, or_iff_not_imp_left] using h
  have mapped (h : listed) : pgOf (a / 4096) ≠ none := Option.isSome_iff_ne_none.1 h.2
  refine ⟨fun x xs => ⟨_, run [x], ?_⟩, fun be hbe => ?_, fun h4 hn => ?_, fun h4 hl hlat hns hmv => ?_,
    fun n h0 hn hw hl => ?_, fun h => ?_, fun hm g i hp => ?_⟩
  · rw [run, busWrite_cons m a x xs s.b hb]
    rfl
  · rw [run, busWrite_single m a _ s.b ha, if_neg hbe]
    by_cases hl : listed
    · obtain ⟨⟨g, i⟩, hp⟩ := Option.isSome_iff_exists.1 hl.2
      rw [if_pos hl, partialWrite_listed m a s.b g i hr hl.1 hp]
    · rw [if_neg hl, partialWrite_unlisted m a s.b hr (unlisted hl)]
  · have hw : a / 4 * 4 = a := by omega
    rw [read, answered 4 (by omega) (by omega), hw, regReadCode_unlisted m a 4 a (unlisted hn), complete_single]
    rfl
  · have hw : a / 4 * 4 = a := by omega
    rw [read, answered 4 (by omega) (by omega), hw, regReadCode_whole m a hl.1 (mapped hl),
      regRead_plain m a s.b hlat hns hmv, complete_single]
  · have hp : pgOf (a / 4 * 4 / 4096) ≠ none := by
      rw [show a / 4 * 4 / 4096 = a / 4096 by omega]
      exact mapped hl
    rw [read, answered n h0 hw, regReadCode_part m a n _ hl.1 hp (by omega), complete_single]
    rfl
  · rw [whole, hostWrite_unlisted m a v s.b hr h]
  · refine ⟨firstCode_regErrs_eq_zero_iff .., fun h4 => firstCode_regErrs_misaligned _ _ _ _ _ _ _ (by omega),
      firstCode_regErrs_reserved _ _ _ _ _ _ _, fun hc => ?_, fun hc hs => ⟨_, whole, ?_⟩⟩
    · rw [whole, hostWrite_accepted m a v s.b g i hr hm hp hc]
    · rw [hostWrite_rejected m a v s.b g i hr hm hp hc hs]
      exact ⟨congrArg (fun b => { s with b }) (reject_eq_regs ..), reject_keeps _ _ _ _ _,
        getF_reject_errCode _ _ _ _ _ (firstCode_lt _),
        getF_reject_errOff _ _ _ _ _ (Nat.mod_lt a (by decide)), getF_reject_errMaster .., getF_reject_errCount ..⟩
end

section
/-!
PROOF. The step and its commands (O1, O57, O60, O19): a syllable is issued on its engine, every other command changes the block in
one operation of the model, whose own lemma says what it leaves.
-/
set_option autoImplicit false

namespace Sys2Proof.Machine

/-! ### What every command keeps -/

/-- A syllable as a command is issued on its engine (R166). -/
theorem exec_syllable {i : Instr} {u : Eng} (h : engineOfCmd i = some u) (s : State) : exec i s = issue u i s := by
  cases i <;> cases h <;> rfl

theorem issue_pending (u : Eng) (i : Instr) (s : State) : ∃ t, issue u i s = .next t ∧ t.pending = s.pending := by
  refine ⟨_, rfl, ?_⟩
  split <;> rfl

theorem execExtinctionCheck_pending (e : Fin 4608) (j : Fin 8) (x y : BitVec 14) (s : State) :
    ∃ t, execExtinctionCheck e j x y s = .next t ∧ t.pending = s.pending := by
  refine ⟨_, rfl, ?_⟩
  split <;> rfl

/-- Every command answers a next state with the queue as it stands. -/
theorem exec_pending (c : Instr) (s : State) : ∃ t, exec c s = .next t ∧ t.pending = s.pending := by
  cases hu : engineOfCmd c with
  | some u => exact exec_syllable hu s ▸ issue_pending u c s
  | none =>
    cases c
    case extinctionCheck e j x y => exact execExtinctionCheck_pending e j x y s
    all_goals cases hu <;> exact ⟨_, rfl, rfl⟩

theorem issue_shadow {u : Eng} {i : Instr} {s t : State} (h : issue u i s = .next t) : t.b.shadow = s.b.shadow := by
  cases h
  cases u <;> split <;> simp

theorem execExtinctionCheck_shadow {e : Fin 4608} {j : Fin 8} {x y : BitVec 14} {s t : State}
    (h : execExtinctionCheck e j x y s = .next t) : t.b.shadow = s.b.shadow := by
  cases h
  split <;> simp

theorem passCell_shadow (x : Cell) (take : Blk → Blk) (b : Blk) (h : ∀ b, (take b).shadow = b.shadow) :
    (passCell x take b).shadow = b.shadow := by
  unfold passCell
  simp [h]

theorem onCell_shadow (typ : Nat) (x : Cell) (take : Blk → Blk) (b : Blk) (h : ∀ b, (take b).shadow = b.shadow) :
    (onCell typ x take b).shadow = b.shadow := by
  unfold onCell
  simp [passCell_shadow x take _ h]

/-- A command that is neither a write nor can begin a controller reset keeps every shadow byte (R26, R408). -/
theorem exec_shadow {c : Instr} {s t : State} (hc : changesShadow c = false) (h : exec c s = .next t) :
    t.b.shadow = s.b.shadow := by
  cases hu : engineOfCmd c with
  | some u => exact issue_shadow (exec_syllable hu s ▸ h)
  | none =>
    cases c
    case extinctionCheck => exact execExtinctionCheck_shadow h
    case trigFire x =>
      cases h
      exact onCell_shadow _ _ _ _ fun b => trigFireCell_shadow _ _ _ _ b
    all_goals cases hu <;> cases hc <;> cases h <;> simp

/-! ### LOOP_TICK (R30, R460, R462) -/

theorem loopTick_reset (t : TickIn) (b : Blk) (h : b.sys.mode = .reset) : loopTick t b = b := if_pos h

theorem loopTick_softReset (t : TickIn) (b : Blk) (hr : b.sys.mode ≠ .reset) (hs : b.sys.softReq = true)
    (hm : b.sys.mode ≠ .shutdown) : loopTick t b = controllerReset 4 (toEdge 250 b) := by
  unfold loopTick
  rw [if_neg hr]
  exact if_pos ⟨hs, hm⟩

theorem loopTick_shadow (t : TickIn) (b : Blk) (hs : b.sys.softReq = false) : (loopTick t b).shadow = b.shadow := by
  by_cases hr : b.sys.mode = .reset
  · rw [loopTick_reset t b hr]
  · have hn : ¬ ((toEdge 250 b).sys.softReq = true ∧ (toEdge 250 b).sys.mode ≠ .shutdown) := by
      simp [toEdge, hs]
    simp [loopTick, hr, hn]

/-! ### The step with no command waiting (log entry 1) -/

theorem idleEdge_running (b : Blk) (he : b.edge < 249) (hr : b.sys.mode ≠ .reset) : idleEdge b = toEdge (b.edge + 1) b :=
  if_pos ⟨he, hr⟩

theorem idleEdge_reset (b : Blk) (hr : b.sys.mode = .reset) : idleEdge b = b := if_neg fun h => h.2 hr

theorem step_idle (s : State) (h : s.pending = []) : step s = .next { s with b := idleEdge s.b } := by
  rw [step, h]

end Sys2Proof.Machine

open Sys2Proof Sys2Proof.Machine

/-- Settles O1: the step by the queue's front. -/
theorem stepRunsFrontCommand : Obligations.StepRunsFrontCommand := by
  unfold Obligations.StepRunsFrontCommand
  intro c rest s hq
  rw [step, hq]

/-- Settles O57: each command's outcome, and the idle step. -/
theorem everyCommandAnswersAndTheQueueStays : Obligations.EveryCommandAnswersAndTheQueueStays := by
  unfold Obligations.EveryCommandAnswersAndTheQueueStays
  refine ⟨exec_pending, fun s hq he hr => ?_, fun s hq hr => ?_⟩
  · rw [step_idle s hq, idleEdge_running s.b he hr]
  · rw [step_idle s hq, idleEdge_reset s.b hr]

/-- Settles O60, by the shadow lemma of each command's operation. -/
theorem shadowsChangeByWritesOnly : Obligations.ShadowsChangeByWritesOnly := by
  unfold Obligations.ShadowsChangeByWritesOnly
  refine ⟨fun c s t => exec_shadow, fun x s t hs h => ?_⟩
  cases h
  exact loopTick_shadow x s.b hs

/-- Settles O19: RESET, a counted tick, and the accepted soft reset. -/
theorem loopTickCountsTheTick : Obligations.LoopTickCountsTheTick := by
  unfold Obligations.LoopTickCountsTheTick
  intro t s
  have run : exec (.loopTick t) s = .next { s with b := loopTick t s.b } := rfl
  refine ⟨fun hr => ?_, fun hr hs => ⟨_, run, loopTick_tick t s.b hr hs, rfl⟩, fun hr hs hm => ?_⟩
  · rw [run, loopTick_reset t s.b hr]
  · rw [run, loopTick_softReset t s.b hr hs hm]
end

section
/-!
PROOF. A suppressed bundle and an engine that does not run (O9): a syllable is a bundle on the datapath of its engine where the
engine runs, and nothing where it does not.
-/
set_option autoImplicit false

namespace Sys2Proof.Machine

/-- Under SKIP a bundle takes its cycle and nothing else (R191). -/
theorem bundle_suppressed (u : Eng) (is : List Instr) (b : Blk) (dp : Dp) (h : 0 < dp.skip) :
    bundle u is (b, dp) = (b, { dp with skip := dp.skip - 1, issued := dp.issued + 1 }) := if_pos h

theorem issueSlot_runs (e : Fin 4608) (i : Instr) (b : Blk) (h : engRuns (.slot e) b = true) :
    issueSlot e i b = withDp (.slot e) (bundle (.slot e) [i] (b, engDp (.slot e) b)).2
      (bundle (.slot e) [i] (b, engDp (.slot e) b)).1 := by
  have hc : ¬ (slotCycles b = false ∨ engineOf b e.val = none) := by
    simp only [engRuns, Bool.and_eq_true, Option.isSome_iff_ne_none] at h
    simp [h]
  exact if_neg hc

theorem plannerBundle_runs (p : Fin 8) (is : List Instr) (b : Blk) (h : engRuns (.planner p) b = true) :
    plannerBundle p is b = withDp (.planner p) (bundle (.planner p) is (b, engDp (.planner p) b)).2
      (bundle (.planner p) is (b, engDp (.planner p) b)).1 := by
  simp only [engRuns, Bool.and_eq_true, bne_iff_ne, beq_iff_eq, ne_eq, List.all_eq_true, List.mem_append] at h
  obtain ⟨hm, hn, he⟩ := h
  have hecc : eccData (fun w => decide (w.mem.val = 12 ∧ w.unit.val = p.val)) b = b :=
    eccData_none _ _ fun w hw => by simpa [imp_iff_not_or] using he w hw
  have hrep : (b.dpP.get Dp.reset p.val).repN = 0 := hn
  unfold plannerBundle
  rw [if_neg hm, hecc]
  simp only [hrep, if_true]
  rfl

/-- Where its engine runs, a syllable is a bundle on the engine's datapath (R166). -/
theorem issue_runs (u : Eng) (i : Instr) (s : State) (hr : engRuns u s.b = true) (hw : i.wf = true) :
    issue u i s = .next { s with b := withDp u (bundle u [i] (s.b, engDp u s.b)).2 (bundle u [i] (s.b, engDp u s.b)).1 } := by
  unfold issue
  rw [if_pos hw]
  cases u with
  | slot e => exact congrArg (fun b => Host.Outcome.next { s with b }) (issueSlot_runs e i s.b hr)
  | planner p => exact congrArg (fun b => Host.Outcome.next { s with b }) (plannerBundle_runs p [i] s.b hr)

/-- In RESET no engine carries out a syllable (R23). -/
theorem issue_reset (u : Eng) (i : Instr) (s : State) (h : s.b.sys.mode = .reset) : issue u i s = .next s := by
  unfold issue
  cases u <;> simp [issueSlot, issuePlanner, plannerBundle, slotCycles, h]

/-- A slot that no engine serves, or one in the service cycles, runs no bundle (R168, R363). -/
theorem issue_unserved (e : Fin 4608) (i : Instr) (s : State) (h : engineOf s.b e.val = none ∨ 234 ≤ s.b.edge) :
    issue (.slot e) i s = .next s := by
  have hc : slotCycles s.b = false ∨ engineOf s.b e.val = none := by
    rcases h with h | h
    · exact .inr h
    · exact .inl (by simp [slotCycles, h])
  simp [issue, issueSlot, if_pos hc]

end Sys2Proof.Machine

open Sys2Proof Sys2Proof.Machine

/-- Settles O9: the suppressed bundle, and the engines that run none. -/
theorem suppressedBundlesAndResetRunNothing : Obligations.SuppressedBundlesAndResetRunNothing := by
  unfold Obligations.SuppressedBundlesAndResetRunNothing
  refine ⟨fun i u s hu hw hr hs => ?_, fun i u s hu h => ?_⟩
  · rw [exec_syllable hu, issue_runs u i s hr hw, bundle_suppressed u [i] s.b _ hs]
  · rw [exec_syllable hu]
    rcases h with h | ⟨e, rfl, h⟩
    · exact issue_reset u i s h
    · exact issue_unserved e i s h
end

section
/-!
PROOF. What becomes live at a tick boundary (O20). The units of COMMIT are one type, `commitBoundary` carries them out in their order,
and what a unit establishes is kept by every other one.
-/
set_option autoImplicit false

namespace Sys2Proof.Machine

/-! ### A table copy after a commit -/

theorem Tbl.find_append {β : Type} (t u : Tbl β) (k : Nat) : Tbl.find (t ++ u) k = (t.find k).or (u.find k) := by
  induction t with
  | nil => rfl
  | cons e t ih =>
    obtain ⟨j, v⟩ := e
    rw [List.cons_append, Tbl.find_cons, Tbl.find_cons, ih]
    split <;> rfl

theorem Tbl.find_filter {β : Type} (p : Nat → Bool) (t : Tbl β) (k : Nat) :
    Tbl.find (t.filter fun e => p e.1) k = if p k then t.find k else none := by
  induction t with
  | nil => simp
  | cons e t ih =>
    obtain ⟨j, v⟩ := e
    by_cases hk : k = j
    · subst hk
      by_cases hp : p k = true <;> simp [hp, ih, Tbl.find_cons]
    · by_cases hp : p j = true <;> simp [hp, ih, Tbl.find_cons, hk]

/-- A commit's copy reads as the shadow inside its region and as before outside it. -/
theorem rdB_copyRange (s l : Tbl Byte) (lo hi a : Nat) :
    rdB (copyRange s l lo hi) a = if lo ≤ a ∧ a < hi then rdB s a else rdB l a := by
  have h : (copyRange s l lo hi).find a = if lo ≤ a ∧ a < hi then s.find a else l.find a := by
    unfold copyRange Tbl.inside
    rw [Tbl.find_append, Tbl.find_append, Tbl.find_filter (fun j => decide (j < lo)),
      Tbl.find_filter (fun j => decide (lo ≤ j ∧ j < hi)), Tbl.find_filter (fun j => decide (hi ≤ j))]
    rcases Nat.lt_or_ge a lo with h1 | h1 <;> rcases Nat.lt_or_ge a hi with h2 | h2
    all_goals simp [h1, h2, Nat.not_lt.2, Nat.not_le.2]
  unfold rdB Tbl.get
  rw [h]
  split <;> rfl

theorem rdB_copyLive (lo hi : Nat) (b : Blk) (a : Nat) :
    rdB (copyLive lo hi b).live a = if lo ≤ a ∧ a < hi then rdB b.shadow a else rdB b.live a :=
  rdB_copyRange b.shadow b.live lo hi a

theorem rdB_copyLive_twice (lo hi lo' hi' : Nat) (b : Blk) (a : Nat) :
    rdB (copyLive lo' hi' (copyLive lo hi b)).live a =
      if (lo ≤ a ∧ a < hi) ∨ (lo' ≤ a ∧ a < hi') then rdB b.shadow a else rdB b.live a := by
  rw [rdB_copyLive, rdB_copyLive, copyLive_shadow]
  by_cases h : lo' ≤ a ∧ a < hi' <;> simp [h]

/-! ### What the parts of a commit leave -/

theorem foldl_keeps {α γ : Type} (g : Blk → γ) (l : List α) (f : Blk → α → Blk) (b : Blk) (h : ∀ b x, g (f b x) = g b) :
    g (l.foldl f b) = g b := by
  induction l generalizing b with
  | nil => rfl
  | cons x t ih => rw [List.foldl_cons, ih, h]

@[simp] theorem copyLive_sched (lo hi : Nat) (b : Blk) : (copyLive lo hi b).sched = b.sched := rfl
@[simp] theorem copyLive_clsLive (lo hi : Nat) (b : Blk) : (copyLive lo hi b).clsLive = b.clsLive := rfl
@[simp] theorem copyLive_regs (lo hi : Nat) (b : Blk) : (copyLive lo hi b).regs = b.regs := rfl
@[simp] theorem showTables_sched (b : Blk) : (showTables b).sched = b.sched := rfl
@[simp] theorem showTables_clsLive (b : Blk) : (showTables b).clsLive = b.clsLive := rfl

@[simp] theorem resendImage_sched (b : Blk) : (resendImage b).sched = b.sched := by
  unfold resendImage
  split <;> rfl

@[simp] theorem resendImage_clsLive (b : Blk) : (resendImage b).clsLive = b.clsLive := by
  unfold resendImage
  split <;> rfl

@[simp] theorem resendImage_regs (b : Blk) : (resendImage b).regs = b.regs := by
  unfold resendImage
  split <;> rfl

@[simp] theorem takeProgram_sched (b : Blk) : (takeProgram b).sched = b.sched := foldl_keeps Blk.sched _ _ _ fun _ _ => rfl

@[simp] theorem takeProgram_clsLive (b : Blk) : (takeProgram b).clsLive = b.clsLive :=
  foldl_keeps Blk.clsLive _ _ _ fun _ _ => rfl

/-- A field that a commit itself shows: SYS.MSTAT.TABLES and the program identity of an engine (R195, R456). -/
def Fld.ofCommit (f : Fld) : Prop := f.key = Reg.SYS.MSTAT.TABLES.key ∨ ∃ e, f.key = (Reg.ENG.PROG.PROG_ID e).key

theorem pend_not_ofCommit (p : Nat) {j : Nat} (hj : j < 32) : ¬ (Reg.HDR.pend p j).ofCommit := by
  simp only [Fld.ofCommit, Reg.HDR.pend, Reg.SYS.MSTAT.TABLES, Reg.ENG.PROG.PROG_ID, Fld.mk', not_or, not_exists]
  exact ⟨by omega, fun e => by omega⟩

theorem classWord_not_ofCommit {i : Nat} (hi : i < 128) : ¬ (Reg.LCLASS.CLASS.W i).ofCommit := by
  simp only [Fld.ofCommit, Reg.LCLASS.CLASS.W, Reg.SYS.MSTAT.TABLES, Reg.ENG.PROG.PROG_ID, Fld.mk', not_or, not_exists]
  exact ⟨by omega, fun e => by omega⟩

theorem getF_of_regs {b c : Blk} (h : c.regs = b.regs) (f : Fld) : getF c f = getF b f := by
  rw [getF, getF, h]

theorem getF_showTables (b : Blk) (f : Fld) (h : ¬ f.ofCommit) : getF (showTables b) f = getF b f :=
  getF_setF_ne _ _ _ _ fun hk => h (.inl hk)

theorem getF_takeProgram (b : Blk) (f : Fld) (h : ¬ f.ofCommit) : getF (takeProgram b) f = getF b f :=
  foldl_keeps (getF · f) _ _ _ fun _ e => getF_setF_ne _ _ _ _ fun hk => h (.inr ⟨e, hk⟩)

/-! ### The units of COMMIT (R26, R488) -/

/-- What a COMMIT bit names: element table with curves, crosstalk table, step shapes, permutation slot, loop class, monitor offset
window, RTD records, program. -/
inductive CommitUnit where
  | elements | crosstalk | shapes | slot (s : Nat) | cls (c : Nat) | offsets (n : Nat) | rtds | program

namespace CommitUnit

/-- The unit's bit of COMMIT_STAT. -/
def pend : CommitUnit → Fld
  | elements => Reg.HDR.pend 0xC 0
  | crosstalk => Reg.HDR.pend 0xA 0
  | shapes => Reg.HDR.pend 0xA 1
  | slot s => Reg.HDR.pend 0xB s
  | cls c => Reg.HDR.pend 0xC0 c
  | offsets n => Reg.HDR.pend (0xA0 + n) 0
  | rtds => Reg.HDR.pend 0xA0 1
  | program => Reg.HDR.pend 0x20 0

/-- The condition for which the unit waits (R27, R57). -/
def free (b : Blk) : CommitUnit → Bool
  | elements | crosstalk | shapes => !planToCompletion b
  | slot s => !slotNamed b s
  | _ => true

/-- The unit becomes live. -/
def take : CommitUnit → Blk → Blk
  | elements => takeElements
  | crosstalk => takeCrosstalk
  | shapes => takeShapes
  | slot s => takeSlot s
  | cls c => takeClass c
  | offsets n => takeOffsets n
  | rtds => takeRtds
  | program => takeProgram

/-- The bytes of the table memories that the unit holds. -/
def covers (a : Nat) : CommitUnit → Prop
  | elements => a < 0x90000 ∨ (0x200000 ≤ a ∧ a < 0x248000)
  | crosstalk => 0x100000 ≤ a ∧ a < 0x200000
  | shapes => 0x248000 ≤ a ∧ a < 0x250000
  | slot s => (0x280000 + 4096 * s ≤ a ∧ a < 0x281000 + 4096 * s) ∨ (0x2A0000 + 16 * s ≤ a ∧ a < 0x2A0010 + 16 * s)
  | offsets n => 0x440000 + 4096 * n ≤ a ∧ a < 0x441000 + 4096 * n
  | program => 0x300000 ≤ a ∧ a < 0x304210
  | _ => False

/-- The unit exists: there are 32 slots, 16 classes and 9 offset windows. -/
def valid : CommitUnit → Prop
  | slot s => s < 32
  | cls c => c < 16
  | offsets n => n < 9
  | _ => True

/-- A pending unit becomes live where its condition holds. -/
def step (b : Blk) (u : CommitUnit) : Blk := if flag b u.pend && u.free b then setFlag u.pend false (u.take b) else b

/-- The order in which a boundary goes through the units. -/
def order : List CommitUnit :=
  [elements, crosstalk, shapes] ++ (List.range 32).map slot ++ (List.range 16).map cls ++ (List.range 9).map offsets
    ++ [rtds, program]

theorem mem_order_iff (u : CommitUnit) : u ∈ order ↔ u.valid := by
  cases u <;> simp [order, valid]

/-! ### What a unit leaves -/

theorem take_shadow (u : CommitUnit) (b : Blk) : (u.take b).shadow = b.shadow := by
  cases u <;> simp [take]

theorem take_live (u : CommitUnit) (b : Blk) (a : Nat) :
    (u.covers a → rdB (u.take b).live a = rdB b.shadow a) ∧ (¬ u.covers a → rdB (u.take b).live a = rdB b.live a) := by
  cases u with
  | elements => simp +contextual [take, takeElements, rdB_copyLive_twice, covers]
  | slot s => simp +contextual [take, takeSlot, rdB_copyLive_twice, covers]
  | crosstalk => simp +contextual [take, takeCrosstalk, rdB_copyLive, covers]
  | shapes => simp +contextual [take, takeShapes, rdB_copyLive, covers]
  | offsets n => simp +contextual [take, takeOffsets, rdB_copyLive, covers]
  | program => simp +contextual [take, takeProgram, rdB_copyLive, covers]
  | cls c => simp [take, takeClass, covers]
  | rtds => simp [take, takeRtds, covers]

theorem take_sched (u : CommitUnit) (b : Blk) : (u.take b).sched = b.sched := by
  cases u <;>
    simp [take, takeElements, takeCrosstalk, takeShapes, takeSlot, takeClass, takeOffsets, takeRtds]

theorem getF_take (u : CommitUnit) (b : Blk) (f : Fld) (h : ¬ f.ofCommit) : getF (u.take b) f = getF b f := by
  cases u with
  | elements => exact (getF_of_regs (resendImage_regs _) f).trans (getF_showTables _ f h)
  | crosstalk => exact (getF_of_regs (resendImage_regs _) f).trans (getF_showTables _ f h)
  | shapes => exact getF_of_regs (resendImage_regs _) f
  | program => exact getF_takeProgram b f h
  | slot s => rfl
  | cls c => rfl
  | offsets n => rfl
  | rtds => rfl

theorem clsLive_take (u : CommitUnit) (b : Blk) (h : ∀ c, u ≠ cls c) : (u.take b).clsLive = b.clsLive := by
  cases u with
  | cls c => exact absurd rfl (h c)
  | _ => simp [take, takeElements, takeCrosstalk, takeShapes, takeSlot, takeOffsets, takeRtds]

/-! ### One unit at the boundary -/

theorem step_sched (b : Blk) (u : CommitUnit) : (step b u).sched = b.sched := by
  unfold step
  split
  · exact take_sched u b
  · rfl

theorem step_shadow (b : Blk) (u : CommitUnit) : (step b u).shadow = b.shadow := by
  unfold step
  split
  · exact (setFlag_mem _ _ _).1.trans (take_shadow u b)
  · rfl

theorem free_of_sched {b c : Blk} (h : c.sched = b.sched) (u : CommitUnit) : u.free c = u.free b := by
  cases u <;> simp [free, planToCompletion, slotNamed, h]

end CommitUnit

/-- A boundary goes through the units in their order. -/
theorem commitBoundary_eq (b : Blk) : commitBoundary b = CommitUnit.order.foldl CommitUnit.step b := by
  have held {c : Blk} (h : c.sched = b.sched) : planToCompletion b = planToCompletion c := by
    rw [planToCompletion, planToCompletion, h]
  have h1 : takeCommit 0xA 0 (!planToCompletion b) takeCrosstalk (CommitUnit.step b .elements) =
      CommitUnit.step (CommitUnit.step b .elements) .crosstalk := by
    rw [held (CommitUnit.step_sched b .elements)]
    rfl
  have h2 : takeCommit 0xA 1 (!planToCompletion b) takeShapes (CommitUnit.step (CommitUnit.step b .elements) .crosstalk) =
      CommitUnit.step (CommitUnit.step (CommitUnit.step b .elements) .crosstalk) .shapes := by
    rw [held ((CommitUnit.step_sched _ .crosstalk).trans (CommitUnit.step_sched b .elements))]
    rfl
  have h0 : takeCommit 0xC 0 (!planToCompletion b) takeElements b = CommitUnit.step b .elements := rfl
  simp only [CommitUnit.order, List.foldl_append, List.foldl_map, List.foldl_cons, List.foldl_nil]
  rw [← h2, ← h1, ← h0]
  rfl

namespace CommitUnit

/-! ### The pending bits -/

theorem pend_not_ofCommit {u : CommitUnit} (hu : u ∈ order) : ¬ u.pend.ofCommit := by
  rw [mem_order_iff] at hu
  cases u
  case slot s => exact Machine.pend_not_ofCommit _ hu
  case cls c => exact Machine.pend_not_ofCommit _ (Nat.lt_trans hu (by decide))
  all_goals exact Machine.pend_not_ofCommit _ (by decide)

/-- Each unit has a bit of its own. -/
theorem pend_injective {u v : CommitUnit} (hu : u ∈ order) (hv : v ∈ order) (h : u.pend.key = v.pend.key) : u = v :=
  List.inj_on_of_nodup_map (f := fun u : CommitUnit => u.pend.key) (by decide) hu hv h

theorem flag_step_other {u v : CommitUnit} (hu : u ∈ order) (hv : v ∈ order) (hne : u ≠ v) (b : Blk) :
    flag (step b v) u.pend = flag b u.pend := by
  unfold step
  split
  · have hk : u.pend.key ≠ v.pend.key := fun h => hne (pend_injective hu hv h)
    rw [flag, setFlag, getF_setF_ne _ _ _ _ hk, getF_take v b _ (pend_not_ofCommit hu), flag]
  · rfl

theorem flag_pend_cleared (u : CommitUnit) (b : Blk) : flag (setFlag u.pend false b) u.pend = false := by
  simp [flag, setFlag]

theorem flag_step_false {u v : CommitUnit} (hu : u ∈ order) (hv : v ∈ order) (b : Blk) (h : flag b u.pend = false) :
    flag (step b v) u.pend = false := by
  by_cases hne : u = v
  · subst hne
    rw [step, h]
    exact h
  · rw [flag_step_other hu hv hne, h]

theorem step_of_not_pending {b : Blk} {u : CommitUnit} (h : flag b u.pend = false) : step b u = b :=
  if_neg (by simp [h])

/-! ### Going through the units -/

/-- What every unit's step keeps is kept by the boundary. -/
theorem foldl_step_keeps (Q : Blk → Prop) (us : List CommitUnit) (keep : ∀ v ∈ us, ∀ b, Q b → Q (step b v)) (b : Blk) (h : Q b) :
    Q (us.foldl step b) := by
  induction us generalizing b with
  | nil => exact h
  | cons v us ih =>
    rw [List.forall_mem_cons] at keep
    exact ih keep.2 _ (keep.1 b h)

/-- A pending unit that need not wait becomes live when its turn comes, and what that establishes is kept by the other units. -/
theorem foldl_step_takes (u : CommitUnit) (hu : u ∈ order) (Q : Blk → Prop) (us : List CommitUnit) (hs : us ⊆ order) (hm : u ∈ us)
    (keep : ∀ v ∈ order, ∀ b, Q b → Q (step b v)) (takes : ∀ b, Q (setFlag u.pend false (u.take b)))
    (b : Blk) (hp : flag b u.pend = true) (hf : u.free b = true) : Q (us.foldl step b) := by
  induction us generalizing b with
  | nil => cases hm
  | cons v us ih =>
    obtain ⟨hv, ht⟩ := List.cons_subset.1 hs
    by_cases hne : u = v
    · subst hne
      refine foldl_step_keeps Q us (fun w hw => keep w (ht hw)) _ ?_
      rw [step, if_pos (by simp [hp, hf])]
      exact takes b
    · refine ih ht ((List.mem_cons.1 hm).resolve_left hne) _ ?_ ?_
      · rw [flag_step_other hu hv hne, hp]
      · rw [free_of_sched (step_sched b v), hf]

/-! ### What the boundary makes of a unit -/

theorem step_live_of_shadow {v : CommitUnit} {b : Blk} {a : Nat} (h : rdB b.live a = rdB b.shadow a) :
    rdB (step b v).live a = rdB (step b v).shadow a := by
  rw [step_shadow]
  unfold step
  split
  · rw [(setFlag_mem _ _ _).2]
    by_cases hc : v.covers a
    · exact (take_live v b a).1 hc
    · rw [(take_live v b a).2 hc, h]
  · exact h

section
variable {u : CommitUnit} {b : Blk} (hu : u.valid) (hp : flag b u.pend = true) (hf : u.free b = true)
include hu hp hf

theorem commitBoundary_live {a : Nat} (ha : u.covers a) : rdB (commitBoundary b).live a = rdB b.shadow a := by
  rw [← commitBoundary_shadow b, commitBoundary_eq]
  have hm := (mem_order_iff u).2 hu
  refine foldl_step_takes u hm (fun c => rdB c.live a = rdB c.shadow a) _ (List.Subset.refl _) hm
    (fun v _ c => step_live_of_shadow) (fun c => ?_) b hp hf
  rw [(setFlag_mem _ _ _).1, (setFlag_mem _ _ _).2, take_shadow, (take_live u c a).1 ha]

theorem commitBoundary_gone : flag (commitBoundary b) u.pend = false := by
  rw [commitBoundary_eq]
  have hm := (mem_order_iff u).2 hu
  exact foldl_step_takes u hm (fun c => flag c u.pend = false) _ (List.Subset.refl _) hm
    (fun v hv c => flag_step_false hm hv c) (fun c => flag_pend_cleared u _) b hp hf

end

/-- A byte of none but waiting units stays (R27, R57). -/
theorem commitBoundary_waits (b : Blk) (a : Nat) (h : ∀ u : CommitUnit, u.free b = true → ¬ u.covers a) :
    rdB (commitBoundary b).live a = rdB b.live a := by
  rw [commitBoundary_eq]
  refine (foldl_step_keeps (fun c => c.sched = b.sched ∧ rdB c.live a = rdB b.live a) _ (fun v _ c hc => ?_) b ⟨rfl, rfl⟩).2
  refine ⟨(step_sched c v).trans hc.1, ?_⟩
  unfold step
  split
  · next hv =>
    rw [Bool.and_eq_true, free_of_sched hc.1] at hv
    rw [(setFlag_mem _ _ _).2, (take_live v c a).2 (h v hv.2), hc.2]
  · exact hc.2

/-- While a frame lies between planning and completion, no unit that need not wait holds a byte below the permutation slots. -/
theorem le_of_covers {b : Blk} {u : CommitUnit} {a : Nat} (h : planToCompletion b = true) (hf : u.free b = true)
    (hc : u.covers a) : 0x280000 ≤ a := by
  cases u <;> simp only [free, covers, h, Bool.not_true, Bool.false_eq_true] at hf hc <;> omega

/-- With nothing pending a boundary commits nothing. -/
theorem commitBoundary_idle (b : Blk) (h : ∀ u ∈ order, flag b u.pend = false) : commitBoundary b = b := by
  rw [commitBoundary_eq]
  exact foldl_step_keeps (· = b) _ (fun v hv c hc => by rw [hc, step_of_not_pending (h v hv)]) b rfl

end CommitUnit

/-! ### Loop classes (R163) -/

/-- A class's eight words written one after the other. -/
theorem get_foldl_set (d v : Nat → Word) (c k w n : Nat) (t : Tbl Word) (hn : n ≤ 8) (hw : w < 8) :
    ((List.range n).foldl (fun t i => t.set (d i) (8 * c + i) (v i)) t).get (d w) (8 * k + w) =
      if k = c ∧ w < n then v w else t.get (d w) (8 * k + w) := by
  induction n with
  | zero => simp
  | succ n ih =>
    have ih := ih (by omega)
    rw [List.range_succ, List.foldl_append, List.foldl_cons, List.foldl_nil]
    by_cases h : k = c ∧ w = n
    · obtain ⟨rfl, rfl⟩ := h
      simp
    · rw [Tbl.get_set_ne _ _ _ _ _ _ (by omega), ih]
      have : (k = c ∧ w < n) ↔ (k = c ∧ w < n + 1) := by omega
      simp only [this]

theorem classW_takeClass (c k w : Nat) (b : Blk) (hw : w < 8) :
    classW (takeClass c b) k w = if k = c then shClass b c w % 2 ^ 32 else classW b k w := by
  unfold classW takeClass
  rw [get_foldl_set (fun i => BitVec.ofNat 32 (classResetWord i)) _ c k w 8 b.clsLive (Nat.le_refl 8) hw]
  split <;> simp_all

namespace CommitUnit

theorem shClass_step (b : Blk) {v : CommitUnit} (hv : v ∈ order) {k w : Nat} (hk : k < 16) (hw : w < 8) :
    shClass (step b v) k w = shClass b k w := by
  have hne : (Reg.LCLASS.CLASS.W (8 * k + w)).key ≠ v.pend.key := by
    rw [mem_order_iff] at hv
    cases v <;> simp only [pend, valid, Reg.HDR.pend, Reg.LCLASS.CLASS.W, Fld.mk'] at hv ⊢ <;> omega
  unfold step
  split
  · exact (getF_setF_ne _ _ _ _ hne).trans (getF_take v b _ (classWord_not_ofCommit (by omega)))
  · rfl

theorem classW_of_clsLive {b c : Blk} (h : c.clsLive = b.clsLive) (k w : Nat) : classW c k w = classW b k w := by
  rw [classW, classW, h]

theorem classW_step (b : Blk) (v : CommitUnit) (k w : Nat) (hw : w < 8) :
    classW (step b v) k w = shClass b k w % 2 ^ 32 ∨ classW (step b v) k w = classW b k w := by
  unfold step
  split
  · rw [classW_of_clsLive (setFlag_clsLive _ _ _)]
    by_cases hc : ∃ c, v = cls c
    · obtain ⟨c, rfl⟩ := hc
      rw [take, classW_takeClass c k w b hw]
      split
      · next h => exact .inl (by rw [h])
      · exact .inr rfl
    · exact .inr (classW_of_clsLive (clsLive_take v b fun c h => hc ⟨c, h⟩) k w)
  · exact .inr rfl

theorem shClass_commitBoundary (b : Blk) {k w : Nat} (hk : k < 16) (hw : w < 8) :
    shClass (commitBoundary b) k w = shClass b k w := by
  rw [commitBoundary_eq]
  exact foldl_step_keeps (fun c => shClass c k w = shClass b k w) _
    (fun v hv c hc => (shClass_step c hv hk hw).trans hc) b rfl

/-- A pending class becomes live word by word (R163). -/
theorem commitBoundary_class {b : Blk} {k w : Nat} (hk : k < 16) (hw : w < 8) (hp : flag b (Reg.HDR.pend 0xC0 k) = true) :
    classW (commitBoundary b) k w = shClass b k w % 2 ^ 32 := by
  rw [← shClass_commitBoundary b hk hw, commitBoundary_eq]
  have hm : cls k ∈ order := (mem_order_iff _).2 hk
  refine foldl_step_takes (cls k) hm (fun c => classW c k w = shClass c k w % 2 ^ 32) _ (List.Subset.refl _) hm
    (fun v hv c hc => ?_) (fun c => ?_) b hp rfl
  · rw [shClass_step c hv hk hw]
    exact (classW_step c v k w hw).elim id fun h => h.trans hc
  · have hne : (Reg.LCLASS.CLASS.W (8 * k + w)).key ≠ (Reg.HDR.pend 0xC0 k).key := by
      simp only [Reg.HDR.pend, Reg.LCLASS.CLASS.W, Fld.mk']
      omega
    have hs : shClass (setFlag (Reg.HDR.pend 0xC0 k) false (takeClass k c)) k w = shClass c k w := getF_setF_ne _ _ _ _ hne
    exact ((classW_takeClass k k w c hw).trans (if_pos rfl)).trans (by rw [← hs]; rfl)

end CommitUnit

end Sys2Proof.Machine

open Sys2Proof Sys2Proof.Machine

/-- Settles O20: each clause is one unit of COMMIT at the boundary. -/
theorem pendingCommitsBecomeLiveAtTheBoundary : Obligations.PendingCommitsBecomeLiveAtTheBoundary := by
  unfold Obligations.PendingCommitsBecomeLiveAtTheBoundary
  intro b _ c live gone
  have taken (u : CommitUnit) (hu : u.valid) (hf : u.free b = true) (hp : flag b u.pend = true) :
      (∀ a, u.covers a → rdB c.live a = rdB b.shadow a) ∧ flag c u.pend = false :=
    ⟨fun a => CommitUnit.commitBoundary_live hu hp hf, CommitUnit.commitBoundary_gone hu hp hf⟩
  refine ⟨commitBoundary_shadow b, fun hf hp => ?_, fun hf hp => ?_, fun hf hp => ?_, fun k hk hp hf => ?_, fun k hk hp => ?_,
    fun n hn hp => ?_, fun hp => ?_, fun hf a ha => ?_, fun h => ?_⟩
  · obtain ⟨hl, hg⟩ := taken .elements trivial (by simp [CommitUnit.free, hf]) hp
    exact ⟨fun a _ h => hl a (.inl h), fun a h h' => hl a (.inr ⟨h, h'⟩), hg⟩
  · obtain ⟨hl, hg⟩ := taken .crosstalk trivial (by simp [CommitUnit.free, hf]) hp
    exact ⟨fun a h h' => hl a ⟨h, h'⟩, hg⟩
  · obtain ⟨hl, hg⟩ := taken .shapes trivial (by simp [CommitUnit.free, hf]) hp
    exact ⟨fun a h h' => hl a ⟨h, h'⟩, hg⟩
  · obtain ⟨hl, hg⟩ := taken (.slot k) hk (by simp [CommitUnit.free, hf]) hp
    exact ⟨fun a h h' => hl a (.inl ⟨h, h'⟩), fun a h h' => hl a (.inr ⟨h, h'⟩), hg⟩
  · exact ⟨fun w hw => CommitUnit.commitBoundary_class hk hw hp, (taken (.cls k) hk rfl hp).2⟩
  · obtain ⟨hl, hg⟩ := taken (.offsets n) hn rfl hp
    exact ⟨fun a h h' => hl a ⟨h, h'⟩, hg⟩
  · obtain ⟨hl, hg⟩ := taken .program trivial rfl hp
    exact ⟨fun a h h' => hl a ⟨h, h'⟩, hg⟩
  · refine CommitUnit.commitBoundary_waits b a fun u hu hc => ?_
    have := CommitUnit.le_of_covers hf hu hc
    omega
  · refine CommitUnit.commitBoundary_idle b fun u hu => ?_
    rw [CommitUnit.mem_order_iff] at hu
    cases u
    case slot s => exact h _ s hu
    case cls c => exact h _ c (Nat.lt_trans hu (by decide))
    all_goals exact h _ _ (by decide)
end

section
/-!
PROOF. An engine's slot (O21). Raising an event leaves the lists of words with an error alone, so a slot that finds an error that
is known already changes no live byte; a slot of program 3.2 writes inside its element's context.
-/
set_option autoImplicit false

namespace Sys2Proof.Machine

/-! ### A raise and its reactions leave the words with an error (R350, R411) -/

theorem EventOnly.xb {b c : Blk} (h : EventOnly b c) : c.xb = b.xb := by
  obtain ⟨v, r, n, k, o, e, l, rfl, -⟩ := h
  rfl

@[simp] theorem updElems_xb (es : List Nat) (f : Nat → Elem → Elem) (b : Blk) : (updElems es f b).xb = b.xb :=
  foldl_keeps Blk.xb _ _ _ fun _ _ => rfl

@[simp] theorem emptyFreeze_xb (b : Blk) : (emptyFreeze b).xb = b.xb := updElems_xb _ _ _

@[simp] theorem clearArms_xb (b : Blk) : (clearArms b).xb = b.xb := updElems_xb _ _ _

@[simp] theorem disarm_xb (b : Blk) : (disarm b).xb = b.xb := clearArms_xb _

@[simp] theorem sendCell_xb (d : Port) (typ dest : Nat) (bcast : Bool) (arg : Nat) (ws : List Nat) (b : Blk) :
    (sendCell d typ dest bcast arg ws b).xb = b.xb := (sendCell_only d typ dest bcast arg ws b).xb

@[simp] theorem sendUp3_xb (typ : Nat) (seq : Word) (ws : List Word) (b : Blk) : (sendUp3 typ seq ws b).xb = b.xb :=
  foldl_keeps Blk.xb _ _ _ fun _ _ => sendCell_xb _ _ _ _ _ _ _

@[simp] theorem sendDown3_xb (typ : Nat) (seq : Word) (ws : List Word) (b : Blk) : (sendDown3 typ seq ws b).xb = b.xb :=
  foldl_keeps Blk.xb _ _ _ fun _ _ => sendCell_xb _ _ _ _ _ _ _

@[simp] theorem show2pc_xb (seq : Word) (res member code : Nat) (b : Blk) : (show2pc seq res member code b).xb = b.xb := rfl

@[simp] theorem showQueue_xb (b : Blk) : (showQueue b).xb = b.xb := rfl

@[simp] theorem addCpl_xb (ring : Bool) (ws : List Word) (b : Blk) : (addCpl ring ws b).xb = b.xb := by
  unfold addCpl
  split <;> rfl

@[simp] theorem sendUdp_xb (p : Peer) (typ : Nat) (body : List Word) (b : Blk) : (sendUdp p typ body b).xb = b.xb := rfl

@[simp] theorem postRecord_xb (ring : Bool) (peer : Option Peer) (msg : Word) (ws : List Word) (b : Blk) :
    (postRecord ring peer msg ws b).xb = b.xb := by
  unfold postRecord
  refine (foldl_keeps Blk.xb _ _ _ fun b s => ?_).trans ?_
  · split <;> rfl
  · split <;> exact addCpl_xb _ _ _

@[simp] theorem dropFrame_xb (i c : Nat) (b : Blk) : (dropFrame i c b).xb = b.xb := by
  unfold dropFrame
  split
  · rfl
  · dsimp only
    split <;> simp

@[simp] theorem withdrawFrom_xb (i c c' : Nat) (b : Blk) : (withdrawFrom i c c' b).xb = b.xb := by
  unfold withdrawFrom
  split
  · rfl
  · dsimp only
    rw [showQueue_xb, foldl_keeps Blk.xb _ _ _ fun _ _ => dropFrame_xb _ _ _, dropFrame_xb]
    split <;> split <;> simp

@[simp] theorem withdrawAll_xb (b : Blk) : (withdrawAll b).xb = b.xb := withdrawFrom_xb _ _ _ _

@[simp] theorem dropReq_xb (b : Blk) : (dropReq b).xb = b.xb := by
  unfold dropReq
  split <;> rfl

@[simp] theorem setMode_xb (m : Mode) (b : Blk) : (setMode m b).xb = b.xb := by
  unfold setMode
  split <;> rfl

@[simp] theorem enterMode_xb (m : Mode) (b : Blk) : (enterMode m b).xb = b.xb := by
  unfold enterMode
  dsimp only
  split <;> simp

@[simp] theorem clearBanks_xb (b : Blk) : (clearBanks b).xb = b.xb := by
  unfold clearBanks
  refine (foldl_keeps Blk.xb _ _ _ fun b n => ?_).trans (clearArms_xb b)
  dsimp only
  rw [setBank_xb]
  split
  · exact updElems_xb _ _ _
  · rfl

@[simp] theorem safeActions_xb (b : Blk) : (safeActions b).xb = b.xb := by
  unfold safeActions
  repeat' split
  all_goals simp

@[simp] theorem nvmRecord_xb (kind src cls detail : Nat) (b : Blk) : (nvmRecord kind src cls detail b).xb = b.xb := rfl

@[simp] theorem nvmCounters_xb (b : Blk) : (nvmCounters b).xb = b.xb := rfl

@[simp] theorem shutdownActions_xb (s : Nat) (b : Blk) : (shutdownActions s b).xb = b.xb := by
  unfold shutdownActions
  split
  · rfl
  · dsimp only
    split <;> simp

theorem latches_xb (tx : Option (Nat × Nat × Nat)) (ss : List Nat) (b : Blk) : (ss.foldl (latch tx) b).xb = b.xb :=
  foldl_keeps Blk.xb _ _ _ fun b s => (latch_only tx b s).xb

@[simp] theorem raiseTx_xb (ss : List Nat) (tx : Option (Nat × Nat × Nat)) (b : Blk) : (raiseTx ss tx b).xb = b.xb := by
  unfold raiseTx
  split
  · rfl
  · dsimp only
    rw [latches_xb]
    repeat' split
    all_goals simp [latches_xb]

@[simp] theorem flushLate_xb (b : Blk) : (flushLate b).xb = b.xb := raiseTx_xb _ _ _

/-! ### Reading words with an error that are known already (R411, R412) -/

theorem foldl_live_of_inv {α : Type} (l : List α) (g : Blk → α → Blk) (b : Blk) (P : Blk → Prop)
    (h : ∀ x ∈ l, ∀ b, P b → P (g b x) ∧ (g b x).live = b.live) (hb : P b) : P (l.foldl g b) ∧ (l.foldl g b).live = b.live := by
  induction l generalizing b with
  | nil => exact ⟨hb, rfl⟩
  | cons x t ih =>
    rw [List.forall_mem_cons] at h
    obtain ⟨h1, h2⟩ := h.1 b hb
    obtain ⟨h3, h4⟩ := ih _ h.2 h1
    exact ⟨h3, h4.trans h2⟩

@[simp] theorem eccNote_xb (dbl : Bool) (w : EccWord) (b : Blk) : (eccNote dbl w b).xb = b.xb := by
  simp [eccNote]

/-- A double-bit error found before is used as read again (R412). -/
theorem foundDouble_known (w : EccWord) (b : Blk) (h : w ∈ b.xb.double) : foundDouble w b = eccNote true w b := by
  unfold foundDouble
  simp [h]

theorem foundSingle_double (w : EccWord) (b : Blk) : (foundSingle w b).xb.double = b.xb.double := by
  simp [foundSingle]

/-- What a read by the data path finds is known, so no live byte changes. -/
@[simp] theorem eccData_live (mine : EccWord → Bool) (b : Blk) : (eccData mine b).live = b.live := by
  unfold eccData eccFind
  dsimp only
  split
  · rfl
  · obtain ⟨hd, hl⟩ := foldl_live_of_inv (b.xb.single.filter mine)
      (fun b w => flushLate (raiseTx [962] none (foundSingle w b))) b (fun c => c.xb.double = b.xb.double)
      (fun w _ c hc => ⟨by simp [foundSingle_double, hc], by simp⟩) rfl
    refine (foldl_live_of_inv _ _ _ (fun c => c.xb.double = b.xb.double) (fun w hw c hc => ?_) hd).2.trans hl
    have hk : w ∈ c.xb.double := hc ▸ (List.mem_filter.1 hw).1
    rw [foundDouble_known w c hk]
    exact ⟨by simp [hc], by simp⟩

@[simp] theorem eccSlot_live (g e : Nat) (b : Blk) : (eccSlot g e b).live = b.live := by
  unfold eccSlot
  dsimp only
  split <;> exact eccData_live _ _

/-! ### A slot of program 3.2 writes inside its element's context (R169, R201) -/

/-- Live bytes outside the context of element `e` read as before. -/
def KeepsOutside (e : Nat) (m n : Tbl Byte) : Prop := ∀ a, (a < ctxAddr e 0 ∨ ctxAddr e 64 ≤ a) → rdB n a = rdB m a

theorem KeepsOutside.refl (e : Nat) (m : Tbl Byte) : KeepsOutside e m m := fun _ _ => rfl

theorem KeepsOutside.trans {e : Nat} {m n o : Tbl Byte} (h : KeepsOutside e m n) (g : KeepsOutside e n o) :
    KeepsOutside e m o := fun a ha => (g a ha).trans (h a ha)

theorem wrB_keepsOutside {e i : Nat} (v : Byte) (m : Tbl Byte) (hi : i < 256) :
    KeepsOutside e m (wrB m (ctxAddr e 0 + i) v) := by
  intro a ha
  have hne : a ≠ ctxAddr e 0 + i := by
    unfold ctxAddr at *
    omega
  rw [rdB_wrB, if_neg hne]

theorem cwSet_keepsOutside {e w : Nat} (v : Nat) (m : Tbl Byte) (hw : w < 64) : KeepsOutside e m (cwSet e w v m) := by
  have byte (i : Nat) (hi : i < 4) (x : Byte) (n : Tbl Byte) : KeepsOutside e n (wrB n (ctxAddr e 0 + (4 * w + i)) x) :=
    wrB_keepsOutside x n (by omega)
  have ha : ctxAddr e w = ctxAddr e 0 + 4 * w := by
    unfold ctxAddr
    omega
  unfold cwSet wrW wrH
  rw [ha]
  exact (((byte 0 (by decide) _ _).trans (byte 1 (by decide) _ _)).trans (byte 2 (by decide) _ _)).trans
    (byte 3 (by decide) _ _)

theorem foldl_keepsOutside {α : Type} (e : Nat) (l : List α) (g : Tbl Byte → α → Tbl Byte) (m : Tbl Byte)
    (h : ∀ x ∈ l, ∀ n, KeepsOutside e n (g n x)) : KeepsOutside e m (l.foldl g m) := by
  induction l generalizing m with
  | nil => exact KeepsOutside.refl e m
  | cons x t ih =>
    rw [List.forall_mem_cons] at h
    exact (h.1 m).trans (ih _ h.2)

theorem pushRings_keepsOutside {q : SlIn} {e p : Nat} (m : Tbl Byte) (he : q.e = e) (hp : p < 8) :
    KeepsOutside e m (pushRings q p m) :=
  he ▸ (cwSet_keepsOutside _ _ (by omega)).trans (cwSet_keepsOutside _ _ (by omega))

theorem writeCx_keepsOutside (e : Nat) (c : Cx) (m : Tbl Byte) : KeepsOutside e m (writeCx e c m) := by
  unfold writeCx
  extract_lets ws m1 m2 m3
  have h1 : KeepsOutside e m m1 := foldl_keepsOutside e _ _ _ fun x hx n => cwSet_keepsOutside _ _ (by
    have := List.snd_lt_of_mem_zipIdx hx
    simp only [ws, List.length_cons, List.length_nil] at this
    omega)
  have h2 : KeepsOutside e m1 m2 := foldl_keepsOutside e _ _ _ fun i hi n => cwSet_keepsOutside _ _ (by
    rw [List.mem_range] at hi
    omega)
  have h3 : KeepsOutside e m2 m3 := wrB_keepsOutside _ _ (i := 162) (by decide)
  exact ((h1.trans h2).trans h3).trans (wrB_keepsOutside _ _ (i := 168) (by decide))

theorem readCx_hptr_lt (m : Tbl Byte) (e : Nat) : (readCx m e).hptr < 8 := Nat.mod_lt _ (by decide)

theorem slotRom_keepsOutside (g s e : Nat) (b : Blk) : KeepsOutside e b.live (slotRom g s e b).live := by
  rw [slotRom, (slotAfter_mem ..).2, (setElem_mem ..).2]
  refine KeepsOutside.trans ?_ (writeCx_keepsOutside e _ _)
  exact pushRings_keepsOutside _ rfl (readCx_hptr_lt b.live e)

/-! ### The slot at its instant (R23, R166, R168) -/

/-- A slot's instant lies in its tick: the command runs there. -/
theorem exec_engineSlot (g : Fin 68) (k : Fin 72) (s : State) (hr : s.b.sys.mode ≠ .reset) :
    exec (.engineSlot g k) s =
      .next { s with b := engineSlot g.val k.val (s.b.atEdge (4000 * s.b.tick + 52 * k.val)) } := by
  have hx : (4000 * s.b.tick + 52 * k.val + 15) / 16 - 250 * s.b.tick < 250 := by omega
  have ha : atQ (4000 * s.b.tick + 52 * k.val) (engineSlot g.val k.val) s.b =
      engineSlot g.val k.val (s.b.atEdge (4000 * s.b.tick + 52 * k.val)) := if_pos ⟨hx, hr⟩
  exact congrArg (fun b => Host.Outcome.next { s with b }) ha

section
variable (g s : Nat) (b : Blk)

/-- No program runs in the service cycles (R168). -/
theorem engineSlot_service (h : 234 ≤ b.edge) : engineSlot g s b = b := by
  have hc : slotCycles b = false := by simp [slotCycles, h]
  exact if_pos hc

/-- A slot whose element does not exist, or has had its slot in the tick, does nothing (R23). -/
theorem engineSlot_done (hs : serving b g = true)
    (h : 4608 ≤ 64 * s + logicalOf b g ∨ b.tick < (b.elem (64 * s + logicalOf b g)).lp.slotTick) : engineSlot g s b = b := by
  unfold engineSlot
  rcases h with h | h
  · simp [hs, Nat.not_lt.2 h]
  · simp [hs, Nat.not_le.2 h]

variable (hr : b.sys.mode ≠ .reset) (he : b.edge < 234)
include hr he

theorem engineSlot_standby (hs : serving b g = false) : engineSlot g s b = standbySlot g s b := by
  simp [engineSlot, slotCycles, hr, he, hs]

theorem engineSlot_serves (hs : serving b g = true) (hl : 64 * s + logicalOf b g < 4608)
    (ht : (b.elem (64 * s + logicalOf b g)).lp.slotTick ≤ b.tick) :
    engineSlot g s b = acqSlot (64 * s + logicalOf b g)
      (if isRom (eccSlot g (64 * s + logicalOf b g) b).live = true
        then slotRom g s (64 * s + logicalOf b g) (eccSlot g (64 * s + logicalOf b g) b)
        else slotHost g s ⟨64 * s + logicalOf b g, hl⟩ (eccSlot g (64 * s + logicalOf b g) b)) := by
  simp only [engineSlot, slotCycles, hs, hl, ht]
  simp [hr, he]

end

/-! ### A standby's slot (R359, R364) -/

theorem engRt_setEngRt (g : Nat) (r : EngRt) (b : Blk) : engRt (setEngRt g r b) g = r := Tbl.get_set_same _ _ _ _

theorem standbySlot_failed (g s : Nat) (b : Blk) (h : failedEng b g = true) : standbySlot g s b = b := by
  simp [standbySlot, h]

theorem standbySlot_engs (g s : Nat) (b : Blk) :
    standbySlot g s b = { b with red := { b.red with engs := (standbySlot g s b).red.engs } } := by
  unfold standbySlot
  dsimp only
  repeat' split
  all_goals rfl

theorem standbySlot_next (g s : Nat) (b : Blk) (hf : failedEng b g = false) (hn : (engRt b g).nextSlot ≤ 72 * b.tick + s) :
    (engRt (standbySlot g s b) g).nextSlot = 72 * b.tick + s + 1 := by
  unfold standbySlot
  rw [if_neg (by simp [hf, hn])]
  dsimp only
  split
  · rw [engRt_setEngRt]
  · rw [countOcc, engRt_setEngRt, engRt_setEngRt]

end Sys2Proof.Machine

open Sys2Proof Sys2Proof.Machine

/-- Settles O21: a slot that does nothing, one that serves its element, and a standby's. -/
theorem engineSlotServesItsElementOnce : Obligations.EngineSlotServesItsElementOnce := by
  unfold Obligations.EngineSlotServesItsElementOnce
  intro g k s hr c e reads
  have run : exec (.engineSlot g k) s = .next { s with b := engineSlot g.val k.val c } := exec_engineSlot g k s hr
  have hc : c.sys.mode ≠ .reset := hr
  obtain ⟨hcs, hcl⟩ : c.shadow = s.b.shadow ∧ c.live = s.b.live := toEdge_mem _ s.b
  refine ⟨fun h => ?_, fun hl he hs ht => ⟨?_, fun _ => ⟨fun a => ?_, fun a ha => ?_⟩⟩, fun he hs => ⟨_, run, rfl, ?_⟩⟩
  · rcases h with h | ⟨hs, h⟩
    · rw [run, engineSlot_service _ _ _ h]
    · rw [run, engineSlot_done _ _ _ hs h]
  · rw [run, engineSlot_serves _ _ _ hc he hs hl ht]
  · rw [slotRom_shadow, eccSlot_shadow, hcs]
  · rw [slotRom_keepsOutside _ _ _ _ a ha, eccSlot_live, hcl]
  · have hm : (standbySlot g.val k.val c).shadow = s.b.shadow ∧ (standbySlot g.val k.val c).live = s.b.live := by
      rw [(standbySlot_mem ..).1, (standbySlot_mem ..).2, hcs, hcl]
      exact ⟨rfl, rfl⟩
    rw [engineSlot_standby _ _ _ hc he hs]
    exact ⟨standbySlot_failed _ _ c, standbySlot_engs _ _ c, ⟨fun a => by rw [hm.1], fun a => by rw [hm.2]⟩,
      standbySlot_next _ _ c⟩
end

section
/-!
PROOF. Delivery windows and completions (O31): a window's end decides its tracker once, whatever else is listed, and the reports of a
completion leave what it shows.
-/
set_option autoImplicit false

namespace Sys2Proof.Machine

/-! ### A commanded instant that is due -/

/-- An instant that is due is reached in the present tick. -/
theorem atQ_due {t : Nat} {b : Blk} (f : Blk → Blk) (h : b.due t = true) : atQ t f b = f (b.atEdge t) := by
  simp only [Blk.due, Bool.and_eq_true, decide_eq_true_eq, bne_iff_ne] at h
  exact if_pos ⟨by omega, h.2⟩

/-! ### The windows (R224, R226) -/

theorem Tracker.close_close (q : Nat) (k : Tracker) : (k.close q).close q = k.close q := by
  unfold Tracker.close
  by_cases h : k.outcome = .tracking ∧ k.tEnd ≤ q
  · cases k.lit <;> simp [h]
  · simp [h]

theorem updElems_eq_elems (es : List Nat) (f : Nat → Elem → Elem) (b : Blk) :
    updElems es f b = { b with elems := (updElems es f b).elems } := by
  unfold updElems
  induction es generalizing b with
  | nil => rfl
  | cons e es ih =>
    rw [List.foldl_cons]
    exact ih _

/-- A change that is made once and for all reaches each listed element, however often it is listed. -/
theorem elem_updElems (es : List Nat) (f : Nat → Elem → Elem) (hf : ∀ e x, f e (f e x) = f e x) (b : Blk) (e : Nat) :
    (updElems es f b).elem e = if e ∈ es then f e (b.elem e) else b.elem e := by
  unfold updElems
  induction es generalizing b with
  | nil => simp
  | cons i es ih =>
    rw [List.foldl_cons, ih, elem_updElem]
    by_cases hi : e = i
    · subst hi
      simp [hf]
    · simp [hi]

theorem elem_of_not_listed (b : Blk) (e : Nat) (h : e ∉ b.listed) : b.elem e = Elem.reset := by
  have find_none (t : Tbl Elem) (ht : e ∉ t.map Prod.fst) : t.find e = none := by
    induction t with
    | nil => rfl
    | cons x t ih =>
      simp only [List.map_cons, List.mem_cons, not_or] at ht
      rw [Tbl.find_cons, if_neg ht.1, ih ht.2]
  simp [Blk.elem, Tbl.get, find_none b.elems h]

theorem closeWindows_elem (b : Blk) (e : Nat) :
    (closeWindows b).elem e = { b.elem e with trk := (b.elem e).trk.map (Tracker.close b.q) } := by
  unfold closeWindows
  rw [elem_updElems _ _ fun _ x => by cases x.trk <;> simp [Tracker.close_close]]
  split
  · rfl
  · next h => rw [elem_of_not_listed b e h]; rfl

theorem deliveryWindowClose_due (b : Blk) (t : Nat) (ts : List Nat) (ho : openEnds b = t :: ts)
    (hd : b.due (ts.foldl min t) = true) : deliveryWindowClose b = closeWindows (b.atEdge (ts.foldl min t)) := by
  rw [deliveryWindowClose, ho]
  exact atQ_due closeWindows hd

/-! ### What the reports of a completion leave (R229, R259, R416) -/

/-- The queue stays, and so does every field but those of pages MON and PCIE. -/
def KeepsFrames (b c : Blk) : Prop :=
  c.sched.queue = b.sched.queue ∧ ∀ f : Fld, f.key / 131072 ≠ 0x19 → f.key / 131072 ≠ 0x1D → getF c f = getF b f

theorem KeepsFrames.refl (b : Blk) : KeepsFrames b b := ⟨rfl, fun _ _ _ => rfl⟩

theorem KeepsFrames.trans {b c d : Blk} (h : KeepsFrames b c) (g : KeepsFrames c d) : KeepsFrames b d :=
  ⟨g.1.trans h.1, fun f h1 h2 => (g.2 f h1 h2).trans (h.2 f h1 h2)⟩

theorem setF_keepsFrames (g : Fld) (v : Nat) (b : Blk) (h : g.key / 131072 = 0x19 ∨ g.key / 131072 = 0x1D) :
    KeepsFrames b (setF g v b) :=
  ⟨rfl, fun _ h1 h2 => getF_setF_ne _ _ _ _ fun hk => h.elim (hk ▸ h1) (hk ▸ h2)⟩

theorem sendUdp_keepsFrames (p : Peer) (typ : Nat) (body : List Word) (b : Blk) : KeepsFrames b (sendUdp p typ body b) :=
  ⟨rfl, fun _ _ _ => rfl⟩

theorem addCpl_keepsFrames (ring : Bool) (ws : List Word) (b : Blk) : KeepsFrames b (addCpl ring ws b) := by
  unfold addCpl
  split
  · exact ⟨rfl, fun _ _ _ => rfl⟩
  · exact setF_keepsFrames _ _ b (.inr (by decide))

theorem foldl_keepsFrames {α : Type} (l : List α) (g : Blk → α → Blk) (b : Blk)
    (h : ∀ b x, KeepsFrames b (g b x)) : KeepsFrames b (l.foldl g b) := by
  induction l generalizing b with
  | nil => exact KeepsFrames.refl b
  | cons x t ih => exact (h b x).trans (ih _)

theorem postRecord_keepsFrames (ring : Bool) (peer : Option Peer) (msg : Word) (ws : List Word) (b : Blk) :
    KeepsFrames b (postRecord ring peer msg ws b) := by
  unfold postRecord
  refine ((addCpl_keepsFrames ring ws b).trans ?_).trans (foldl_keepsFrames _ _ _ fun b s => ?_)
  · split
    · exact sendUdp_keepsFrames _ _ _ _
    · exact KeepsFrames.refl _
  · split
    · exact sendUdp_keepsFrames _ _ _ _
    · exact KeepsFrames.refl _

theorem trigOnce_keepsFrames (k typ arg : Nat) (b : Blk) : KeepsFrames b (trigOnce k typ arg b) := by
  unfold trigOnce
  split
  · exact ⟨rfl, fun _ _ _ => rfl⟩
  · exact KeepsFrames.refl b

theorem histAdd_keepsFrames (h : Nat) (bin : Fld) (b : Blk) (hb : bin.key / 131072 = 0x19) : KeepsFrames b (histAdd h bin b) := by
  have counted : KeepsFrames b (incF bin b) := setF_keepsFrames bin _ b (.inl hb)
  unfold histAdd
  dsimp only
  split
  · exact counted.trans (setF_keepsFrames _ _ _ (.inl (by decide)))
  · exact counted

theorem settleBin_page (i : Nat) (hi : i ≤ 63) : (Reg.MON.SETTLE_BIN.COUNT i).key / 131072 = 0x19 := by
  simp only [Reg.MON.SETTLE_BIN.COUNT, Fld.mk']
  omega

theorem monSettle_keepsFrames (t : Nat) (b : Blk) : KeepsFrames b (monSettle t b) := by
  unfold monSettle
  split
  · exact (((histAdd_keepsFrames 0 _ b (settleBin_page _ (Nat.min_le_left ..))).trans
      (setF_keepsFrames _ _ _ (.inl (by decide)))).trans (setF_keepsFrames _ _ _ (.inl (by decide)))).trans
        (setF_keepsFrames _ _ _ (.inl (by decide)))
  · exact KeepsFrames.refl b

/-! ### The completion of a frame of this controller alone (R34, R229) -/

/-- The counts of a completion as page PLAN shows them. -/
def showTally (own : Tally) (b : Blk) : Blk :=
  setF Reg.PLAN.DLV_SETTLE.SETTLE (if own.deliv = 0 then 0xFFFF else own.settle / 4)
    (setF Reg.PLAN.DLV1.OTHER own.other (setF Reg.PLAN.DLV1.FAIL own.fail (setF Reg.PLAN.DLV0.MODEL own.model
      (setF Reg.PLAN.DLV0.DELIVERED own.deliv b))))

/-- The frame at the front leaves the queue. -/
def dropFront (f : Frame) (b : Blk) : Blk :=
  showQueue { b with sched := { b.sched with queue := b.sched.queue.drop 1, sFree := f.sFree, pEnd := f.pEnd, rel := f.rel } }

theorem getF_showTally (own : Tally) (b : Blk) :
    getF (showTally own b) Reg.PLAN.DLV0.DELIVERED = own.deliv % 2 ^ 13 ∧
    getF (showTally own b) Reg.PLAN.DLV0.MODEL = own.model % 2 ^ 13 ∧
    getF (showTally own b) Reg.PLAN.DLV1.FAIL = own.fail % 2 ^ 13 ∧
    getF (showTally own b) Reg.PLAN.DLV1.OTHER = own.other % 2 ^ 13 := by
  unfold showTally
  refine ⟨?_, ?_, ?_, ?_⟩ <;> simp (decide := true) only [getF_setF_ne, getF_setF_same, ne_eq] <;> rfl

theorem getF_dropFront (f : Frame) (b : Blk) (g : Fld) (h : g.key ∉ [Reg.PLAN.STAT.WAIT.key, Reg.PLAN.STAT.BUSY.key,
    Reg.ROUTE.STAT.BUSY.key, Reg.SCHED.STAT.QUEUED.key]) : getF (dropFront f b) g = getF b g := by
  simp only [List.mem_cons, List.not_mem_nil, or_false, not_or] at h
  obtain ⟨hw, hb, hr, hq⟩ := h
  rw [dropFront, showQueue, setFlag, getF_setF_ne _ _ _ _ hw, setFlag, getF_setF_ne _ _ _ _ hb, setFlag,
    getF_setF_ne _ _ _ _ hr, getF_setF_ne _ _ _ _ hq]
  rfl

theorem getF_dropFront_queued (f : Frame) (b : Blk) :
    getF (dropFront f b) Reg.SCHED.STAT.QUEUED = (b.sched.queue.length - 1) % 128 := by
  rw [dropFront, showQueue, setFlag, getF_setF_ne _ _ _ _ (by decide), setFlag, getF_setF_ne _ _ _ _ (by decide), setFlag,
    getF_setF_ne _ _ _ _ (by decide), getF_setF_same, List.length_drop]
  rfl

/-- The delivery log takes the trackers that did not end as delivered. -/
def logTrackers (f : Frame) (b : Blk) : Blk :=
  ((trackersOf b f).filter fun x => x.2.outcome != .delivered).foldl (fun b x => dlogPut (dlogWords b f x.1 x.2) b) b

theorem dlogPut_sched (w : Nat × Nat) (b : Blk) : (dlogPut w b).sched = b.sched := by
  unfold dlogPut
  dsimp only
  split <;> rfl

theorem logTrackers_sched (f : Frame) (b : Blk) : (logTrackers f b).sched = b.sched :=
  foldl_keeps Blk.sched _ _ _ fun _ _ => dlogPut_sched _ _

/-- The block of a completion with the frame's own tally, before its reports leave. -/
def completed (f : Frame) (own : Tally) (b : Blk) : Blk :=
  dropFront f (lifeAdd 9 (own.fail + own.other) (showTally own (logTrackers f b)))

theorem completed_sched (f : Frame) (own : Tally) (b : Blk) :
    (lifeAdd 9 (own.fail + own.other) (showTally own (logTrackers f b))).sched = b.sched := by
  rw [← logTrackers_sched f b]
  generalize logTrackers f b = d
  rfl

theorem dropFront_queue (f : Frame) (b : Blk) : (dropFront f b).sched.queue = b.sched.queue.drop 1 := rfl

theorem completed_queue (f : Frame) (own : Tally) (b : Blk) : (completed f own b).sched.queue = b.sched.queue.drop 1 := by
  rw [completed, dropFront_queue, completed_sched]

theorem getF_completed (f : Frame) (own : Tally) (b : Blk) (g : Fld) (h : g.key ∉ [Reg.PLAN.STAT.WAIT.key,
    Reg.PLAN.STAT.BUSY.key, Reg.ROUTE.STAT.BUSY.key, Reg.SCHED.STAT.QUEUED.key]) :
    getF (completed f own b) g = getF (showTally own (logTrackers f b)) g := by
  rw [completed, getF_dropFront _ _ _ h, getF_lifeAdd]

theorem getF_completed_queued (f : Frame) (own : Tally) (b : Blk) :
    getF (completed f own b) Reg.SCHED.STAT.QUEUED = (b.sched.queue.length - 1) % 128 := by
  rw [completed, getF_dropFront_queued, completed_sched]

/-- The reports of a completion: its status record, the trigger's condition and the settle histogram (R229, R334, R416). -/
def report (f : Frame) (t : Tally) (dl : Nat) (b : Blk) : Blk :=
  let failed := decide (0 < t.fail + t.other)
  let w0 := 2 + (if 0 < t.model then 65536 else 0) + (if failed then 131072 else 0)
  let tval := if t.deliv = 0 then 2 ^ 32 - 1 else t.settle / 4
  let b := postRecord f.peer.isNone f.peer 0
    (recordWords b w0 f.seq tval (t.deliv + t.model * 65536) (t.fail + t.other * 65536) t.close dl) b
  let b := trigOnce b.now 4 (if failed then 1 else 0) b
  if 0 < t.deliv then monSettle t.settle b else b

theorem report_keepsFrames (f : Frame) (t : Tally) (dl : Nat) (b : Blk) : KeepsFrames b (report f t dl b) := by
  unfold report
  extract_lets failed w0 tval c d
  have hd : KeepsFrames b d := (postRecord_keepsFrames _ _ _ _ b).trans (trigOnce_keepsFrames _ _ _ c)
  split
  · exact hd.trans (monSettle_keepsFrames _ d)
  · exact hd

/-- A frame of no chain completes: its counts show and it leaves the queue, its reports leave, and a failure is counted and
raised. -/
theorem completeFrame_own (f : Frame) (b : Blk) (hc : f.casc = false) (hn : chainN b = 0) :
    let own := ownTally b f (trackersOf b f)
    let d := report f own (getF b Reg.PLAN.DLOG_WP.WP) (completed f own b)
    completeFrame f b =
      if decide (0 < own.fail + own.other) then raise 1025 (incF Reg.SCHED.CNT_FAIL.COUNT d) else flushLate d := by
  intro own d
  unfold completeFrame
  simp only [hc, hn, List.range_zero, List.foldl_nil, Bool.false_eq_true, if_false]
  rfl

theorem completionEvent_due (b : Blk) (f : Frame) (hq : b.sched.queue.head? = some f) (hs : f.stage = .launched)
    (he : frameEnded b f (trackersOf b f) = true) (hd : b.due (closingInstant f (trackersOf b f)) = true) :
    completionEvent b = completeFrame f (b.atEdge (closingInstant f (trackersOf b f))) := by
  rw [completionEvent, hq]
  exact (if_pos ⟨hs, he⟩).trans (atQ_due _ hd)

end Sys2Proof.Machine

open Sys2Proof Sys2Proof.Machine

/-- Settles O31: the next window's end, what it decides, and the completion at the front of the queue. -/
theorem windowsCloseAndFramesComplete : Obligations.WindowsCloseAndFramesComplete := by
  unfold Obligations.WindowsCloseAndFramesComplete
  intro s f t ts tr c own failed
  refine ⟨fun ho hd => ?_, fun b e => ⟨closeWindows_elem b e, updElems_eq_elems _ _ b⟩, fun hq hs he hd hc hn => ?_⟩
  · have run : exec .deliveryWindowClose s = .next { s with b := deliveryWindowClose s.b } := rfl
    rw [run, deliveryWindowClose_due s.b t ts ho hd]
  · have run : exec .completionEvent s = .next { s with b := completionEvent s.b } := rfl
    obtain ⟨h1, h2, h3, h4⟩ := getF_showTally own (logTrackers f c)
    obtain ⟨hkq, hkf⟩ := report_keepsFrames f own (getF c Reg.PLAN.DLOG_WP.WP) (completed f own c)
    refine ⟨report f own (getF c Reg.PLAN.DLOG_WP.WP) (completed f own c), ?_, hkq.trans (completed_queue f own c),
      ?_, ?_, ?_, ?_, ?_⟩
    · rw [run, completionEvent_due s.b f hq hs he hd, completeFrame_own f c hc hn]
    · exact (hkf _ (by decide) (by decide)).trans ((getF_completed f own c _ (by decide)).trans h1)
    · exact (hkf _ (by decide) (by decide)).trans ((getF_completed f own c _ (by decide)).trans h2)
    · exact (hkf _ (by decide) (by decide)).trans ((getF_completed f own c _ (by decide)).trans h3)
    · exact (hkf _ (by decide) (by decide)).trans ((getF_completed f own c _ (by decide)).trans h4)
    · exact (hkf _ (by decide) (by decide)).trans (getF_completed_queued f own c)
end

section
/-!
PROOF. An accepted COMMIT (O12): a write of a page's COMMIT that the page's checks pass is `commitDo`, which sets the selected pending
bits one after the other and nothing else.
-/
set_option autoImplicit false

namespace Sys2Proof.Machine

/-! ### The pending bits of a page (R488) -/

/-- One step of an accepted COMMIT: the pending bit of unit `j` sets where the unit is selected. -/
def markPending (page : Nat) (v : Word) (b : Blk) (j : Nat) : Blk :=
  if v.bit j = true then setFlag (Reg.HDR.pend page j) true b else b

theorem commitDo_eq (page : Nat) (v : Word) (b : Blk) : commitDo page v b = (List.range 32).foldl (markPending page v) b := rfl

/-- The selected units of a page show pending, and nothing else differs. -/
def MarksPending (page : Nat) (v : Word) (b c : Blk) : Prop :=
  c = { b with regs := c.regs } ∧ (∀ j < 32, v.bit j = true → flag c (Reg.HDR.pend page j) = true) ∧
  ∀ f : Fld, (∀ j < 32, v.bit j = true → f.key ≠ (Reg.HDR.pend page j).key) → getF c f = getF b f

theorem pend_key_ne (page : Nat) {j k : Nat} (h : j ≠ k) : (Reg.HDR.pend page j).key ≠ (Reg.HDR.pend page k).key := by
  simp only [Reg.HDR.pend, Fld.mk']
  omega

theorem markPending_regs (page : Nat) (v : Word) (b : Blk) (j : Nat) :
    markPending page v b j = { b with regs := (markPending page v b j).regs } := by
  unfold markPending
  split <;> rfl

theorem flag_markPending_same (page : Nat) (v : Word) (b : Blk) (j : Nat) (h : v.bit j = true) :
    flag (markPending page v b j) (Reg.HDR.pend page j) = true := by
  simp [markPending, h, flag, setFlag, Reg.HDR.pend, Fld.mk']

/-- A pending bit that is set stays set. -/
theorem flag_markPending_of_set (page : Nat) (v : Word) (b : Blk) (j k : Nat) (h : flag b (Reg.HDR.pend page j) = true) :
    flag (markPending page v b k) (Reg.HDR.pend page j) = true := by
  by_cases hv : v.bit k = true
  · by_cases hjk : j = k
    · subst hjk
      exact flag_markPending_same page v b j hv
    · rw [markPending, if_pos hv, flag, setFlag, getF_setF_ne _ _ _ _ (pend_key_ne page hjk)]
      exact h
  · rw [markPending, if_neg hv]
    exact h

theorem getF_markPending_ne (page : Nat) (v : Word) (b : Blk) (j : Nat) (f : Fld)
    (h : v.bit j = true → f.key ≠ (Reg.HDR.pend page j).key) : getF (markPending page v b j) f = getF b f := by
  unfold markPending
  split
  · next hv => exact getF_setF_ne _ _ _ _ (h hv)
  · rfl

theorem foldl_markPending (page : Nat) (v : Word) (js : List Nat) (b : Blk) :
    js.foldl (markPending page v) b = { b with regs := (js.foldl (markPending page v) b).regs } ∧
    (∀ j, flag b (Reg.HDR.pend page j) = true ∨ j ∈ js ∧ v.bit j = true →
      flag (js.foldl (markPending page v) b) (Reg.HDR.pend page j) = true) ∧
    ∀ f : Fld, (∀ j ∈ js, v.bit j = true → f.key ≠ (Reg.HDR.pend page j).key) →
      getF (js.foldl (markPending page v) b) f = getF b f := by
  induction js generalizing b with
  | nil => exact ⟨rfl, fun j h => h.resolve_right fun ⟨hj, _⟩ => absurd hj List.not_mem_nil, fun _ _ => rfl⟩
  | cons k js ih =>
    obtain ⟨hr, hp, hf⟩ := ih (markPending page v b k)
    rw [List.foldl_cons]
    refine ⟨?_, fun j h => hp j ?_, fun f h => ?_⟩
    · rw [hr, markPending_regs]
    · rcases h with h | ⟨hj, hv⟩
      · exact .inl (flag_markPending_of_set page v b j k h)
      · rcases List.mem_cons.1 hj with rfl | hj
        · exact .inl (flag_markPending_same page v b j hv)
        · exact .inr ⟨hj, hv⟩
    · rw [List.forall_mem_cons] at h
      exact (hf f h.2).trans (getF_markPending_ne page v b k f h.1)

theorem commitDo_marksPending (page : Nat) (v : Word) (b : Blk) : MarksPending page v b (commitDo page v b) := by
  obtain ⟨hr, hp, hf⟩ := foldl_markPending page v (List.range 32) b
  rw [commitDo_eq]
  exact ⟨hr, fun j hj hv => hp j (.inr ⟨List.mem_range.2 hj, hv⟩), fun f h => hf f fun j hj => h j (List.mem_range.1 hj)⟩

/-! ### A write of COMMIT (R484, R486) -/

/-- Outside RESET and BOOT a register of a page takes a write with its reserved bits 0 that its own checks pass. -/
theorem pageWrite_hears (page off mask : Nat) (g : Pg) (i : Nat) (v : Word) (b : Blk) (hp : pgOf page = some (g, i))
    (ho : off < 4096) (h4 : off % 4 = 0) (hr : g.reserved i off = mask) (h : hears mask v b = true)
    (he : ownErrs .m0 g i off v b = []) : pageWrite page off v b = regDo g i page off v b := by
  have hd : (page * 4096 + off) / 4096 = page := by omega
  have hm : (page * 4096 + off) % 4096 = off := by omega
  have hw : off / 4 * 4 = off := by omega
  have := hostWrite_hears .m0 (page * 4096 + off) mask g i v b (by rw [hd, hp]) (by decide) (by rw [hm, h4])
    (by rw [hm, hw, hr]) h (by rw [hm, he])
  rwa [hd, hm] at this

/-- Outside RESET and BOOT, a write of a page's COMMIT with its reserved bits 0 that the page's checks pass marks its units. -/
theorem pageWrite_commit (page : Nat) (g : Pg) (i : Nat) (v : Word) (b : Blk) (hp : pgOf page = some (g, i)) (hb : b.heard = true)
    (hr : v.toNat &&& maskFrom (g.commitN i) = 0) (he : commitErrs g i v b = []) :
    pageWrite page 0x28 v b = commitDo page v b :=
  pageWrite_hears page 0x28 (maskFrom (g.commitN i)) g i v b hp (by decide) rfl rfl (by simp [hears, hb, hr]) he

/-- The state after an accepted COMMIT. -/
theorem commit_pends (page : Nat) (g : Pg) (i : Nat) (v : Word) (s : State) (hp : pgOf page = some (g, i))
    (hb : s.b.heard = true) (hr : v.toNat &&& maskFrom (g.commitN i) = 0) (he : commitErrs g i v s.b = []) :
    ∃ t : State, (.next { s with b := pageWrite page 0x28 v s.b } : Host.Outcome State Fault Refusal) = .next t ∧
      t = { s with b := { s.b with regs := t.b.regs } } ∧
      (∀ j < 32, v.bit j = true → flag t.b (Reg.HDR.pend page j) = true) ∧
      ∀ f : Fld, (∀ j < 32, v.bit j = true → f.key ≠ (Reg.HDR.pend page j).key) → getF t.b f = getF s.b f := by
  rw [pageWrite_commit page g i v s.b hp hb hr he]
  obtain ⟨hc, hf, hk⟩ := commitDo_marksPending page v s.b
  exact ⟨_, rfl, congrArg (fun b => { s with b }) hc, hf, hk⟩

/-! ### When the checks of a page pass -/

theorem heard_modes {b : Blk} (h : b.heard = true) : b.sys.mode ∉ [Mode.reset, .boot] := by
  simpa [Blk.heard] using h

theorem commitPending_eq_false {page : Nat} {v : Word} {b : Blk}
    (h : ∀ j < 32, v.bit j = true → flag b (Reg.HDR.pend page j) = false) : commitPending page v b = false := by
  simpa [commitPending] using h

section
variable {v : Word} {b : Blk}

theorem fabricCommitErrs_nil (hb : b.heard = true) (hf : flag b (Reg.HDR.pend 0xC 0) = false)
    (hl : ∀ e ∈ touchedRecs b.shadow ++ touchedRecs b.live, loopClass b.shadow e ≠ loopClass b.live e → closed b e = false)
    (hr : badRecs b.shadow = []) (h1 : damaged b 0 0x90000 = false) (h3 : damaged b 0x200000 0x248000 = false) :
    fabricCommitErrs v b = [] := by
  have hany : ((touchedRecs b.shadow ++ touchedRecs b.live).any fun e =>
      loopClass b.shadow e != loopClass b.live e && closed b e) = false := by
    simpa only [List.any_eq_false, Bool.and_eq_true, bne_iff_ne, not_and, Bool.not_eq_true] using hl
  rw [fabricCommitErrs, hany]
  simp [heard_modes hb, hf, hr, h1, h3]

theorem routeCommitErrs_nil (hb : b.heard = true) (hf : commitPending 0xB v b = false)
    (hs : ∀ k < 32, v.bit k = true → slotBad b.shadow k = false ∧
      damaged b (0x280000 + 4096 * k) (0x281000 + 4096 * k) = false ∧
      damaged b (0x2A0000 + 16 * k) (0x2A0010 + 16 * k) = false) : routeCommitErrs v b = [] := by
  have hany : ((List.range 32).any fun s => v.bit s && (slotBad b.shadow s
      || damaged b (0x280000 + 4096 * s) (0x281000 + 4096 * s) || damaged b (0x2A0000 + 16 * s) (0x2A0010 + 16 * s))) = false := by
    simpa only [List.any_eq_false, List.mem_range, Bool.and_eq_true, not_and, Bool.not_eq_true, Bool.or_eq_false_iff,
      and_assoc] using hs
  rw [routeCommitErrs, hany]
  simp [heard_modes hb, hf]

theorem planCommitErrs_nil_crosstalk (hv : v.bit 1 = false) (hb : b.heard = true) (hf : commitPending 0xA v b = false)
    (hc : flag b Reg.PLAN.XT_STAT.CRC_BUSY = false) (he : b.xtCrc = getF b Reg.PLAN.XT_CRC.CRC)
    (hd : damaged b 0x100000 0x200000 = false) : planCommitErrs v b = [] := by
  simp [planCommitErrs, hv, heard_modes hb, hf, hc, he, hd]

theorem planCommitErrs_nil_shapes (hv : v.bit 0 = false) (hb : b.heard = true) (hf : commitPending 0xA v b = false)
    (hs : ∀ k < 64, rdH b.shadow (0x248000 + 512 * k + 510) = 4096) (hd : damaged b 0x248000 0x250000 = false) :
    planCommitErrs v b = [] := by
  have hany : ((List.range 64).any fun k => shapeBad b.shadow k) = false := by
    simpa [shapeBad] using hs
  simp [planCommitErrs, hv, heard_modes hb, hf, hd, hany]

theorem lclassCommitErrs_nil (hb : b.heard = true) (hf : commitPending 0xC0 v b = false)
    (hc : ∀ c < 16, v.bit c = true → classBad b c = false ∧
      (classChanged b c = true → ∀ e ∈ b.listed, closed b e = true → loopClass b.live e ≠ c)) : lclassCommitErrs v b = [] := by
  have hbad : ((List.range 16).any fun c => v.bit c && classBad b c) = false := by
    simp only [List.any_eq_false, List.mem_range, Bool.and_eq_true, not_and, Bool.not_eq_true]
    exact fun c h hv => (hc c h hv).1
  have huse : ((List.range 16).any fun c => v.bit c && classChanged b c
      && b.listed.any (fun e => closed b e && loopClass b.live e == c)) = false := by
    simp only [List.any_eq_false, List.mem_range, Bool.and_eq_true, not_and, Bool.not_eq_true, beq_eq_false_iff_ne,
      and_imp]
    exact fun c h hv => (hc c h hv).2
  rw [lclassCommitErrs, hbad, huse]
  simp [heard_modes hb, hf]

theorem snsCommitErrs_nil {n : Nat} (hq : b.sys.mode ∈ [Mode.idle, .calibrate, .openHold])
    (hf : commitPending (0xA0 + n) v b = false) : snsCommitErrs n v b = [] := by
  have hm : quietMode b = true := decide_eq_true hq
  simp [snsCommitErrs, hm, hf]

theorem progCommitErrs_nil (hq : b.sys.mode ∈ [Mode.idle, .calibrate, .openHold]) (hf : commitPending 0x20 v b = false)
    (hc : anyClosed b b.listed = false) (hp : (progCheck b.shadow).1 = 0) (hd : damaged b 0x300000 0x304210 = false) :
    progCommitErrs v b = [] := by
  have hm : quietMode b = true := decide_eq_true hq
  simp [progCommitErrs, hm, hf, hc, hp, hd]

end

end Sys2Proof.Machine

open Sys2Proof Sys2Proof.Machine

/-- Settles O12: each clause is a page whose checks pass. -/
theorem commitsMarkTheirUnitsPending : Obligations.CommitsMarkTheirUnitsPending := by
  unfold Obligations.CommitsMarkTheirUnitsPending
  intro v n s hb pends free
  have mask0 (g : Pg) (i : Nat) (h : maskFrom (g.commitN i) = 0) : v.toNat &&& maskFrom (g.commitN i) = 0 := by
    rw [h, Nat.and_zero]
  refine ⟨fun hv _ hr h1 h3 hl hf => ?_, fun hf hs => ?_, fun hf hc he hd => ?_, fun hf hs hd => ?_, fun hv hf hc => ?_,
    fun hq hf => ?_, fun hq hf => ?_, fun hq hf hc hp hd => ?_⟩
  · exact commit_pends 0xC .fabric 0 v s (by decide) hb hv (fabricCommitErrs_nil hb hf hl hr h1 h3)
  · exact commit_pends 0xB .route 0 v s (by decide) hb (mask0 _ _ (by decide))
      (routeCommitErrs_nil hb (commitPending_eq_false hf) hs)
  · exact commit_pends 0xA .plan 0 1 s (by decide) hb (by decide)
      (planCommitErrs_nil_crosstalk (by decide) hb (commitPending_eq_false hf) hc he hd)
  · exact commit_pends 0xA .plan 0 2 s (by decide) hb (by decide)
      (planCommitErrs_nil_shapes (by decide) hb (commitPending_eq_false hf) hs hd)
  · exact commit_pends 0xC0 .lclass 0 v s (by decide) hb hv (lclassCommitErrs_nil hb (commitPending_eq_false hf) hc)
  · have hp : ∀ n : Fin 9, pgOf (0xA0 + n.val) = some (.sns, n.val) ∧
        (1 : Word).toNat &&& maskFrom (Pg.sns.commitN n.val) = 0 := by decide
    exact commit_pends (0xA0 + n.val) .sns n.val 1 s (hp n).1 hb (hp n).2 (snsCommitErrs_nil hq (commitPending_eq_false hf))
  · exact commit_pends 0xA0 .sns 0 2 s (by decide) hb (by decide)
      (snsCommitErrs_nil (n := 0) hq (commitPending_eq_false hf))
  · exact commit_pends 0x20 .eng 0 1 s (by decide) hb (by decide)
      (progCommitErrs_nil hq (commitPending_eq_false hf) hc hp hd)
end

section
/-!
PROOF. The recomputed CRC of the crosstalk table (O40): the sparse CRC goes through the listed bytes and counts the gaps between them,
which the dense one reads as zeros.
-/
set_option autoImplicit false

namespace Sys2Proof.Machine

/-! ### The bytes of a region whose unlisted bytes are 0 (R43) -/

/-- The `n` bytes from `a` on of a table whose unlisted bytes are 0. -/
def Tbl.zeroRun (t : Tbl Byte) (a n : Nat) : List Byte := (List.range n).map fun i => t.get 0 (a + i)

theorem Tbl.zeroRun_add (t : Tbl Byte) (a m n : Nat) : t.zeroRun a (m + n) = t.zeroRun a m ++ t.zeroRun (a + m) n := by
  simp [zeroRun, List.range_add, Nat.add_assoc]

theorem Tbl.zeroRun_congr (t u : Tbl Byte) (a n : Nat) (h : ∀ k, a ≤ k → k < a + n → t.get 0 k = u.get 0 k) :
    t.zeroRun a n = u.zeroRun a n :=
  List.map_congr_left fun i hi => h (a + i) (by omega) (by rw [List.mem_range] at hi; omega)

theorem Tbl.zeroRun_succ (t : Tbl Byte) (a n : Nat) : t.zeroRun a (n + 1) = t.get 0 a :: t.zeroRun (a + 1) n := by
  rw [Nat.add_comm n 1, zeroRun_add]
  rfl

/-- A key below every listed one is not listed. -/
theorem Tbl.get_of_lt {β : Type} (t : Tbl β) (d : β) (k : Nat) (h : ∀ e ∈ t, k < e.1) : t.get d k = d := by
  induction t with
  | nil => rfl
  | cons e t ih =>
    rw [List.forall_mem_cons] at h
    rw [Tbl.get, Tbl.find_cons, if_neg (Nat.ne_of_lt h.1)]
    exact ih h.2

theorem Tbl.get_cons_of_ne {β : Type} (j : Nat) (v : β) (t : Tbl β) (d : β) (k : Nat) (h : k ≠ j) :
    Tbl.get ((j, v) :: t) d k = t.get d k := by
  rw [Tbl.get, Tbl.find_cons, if_neg h, Tbl.get]

theorem Tbl.get_cons_self {β : Type} (j : Nat) (v : β) (t : Tbl β) (d : β) : Tbl.get ((j, v) :: t) d j = v := by
  rw [Tbl.get, Tbl.find_cons, if_pos rfl, Option.getD_some]

/-- A gap that lists nothing carries the CRC on over zeros. -/
theorem foldl_zeroRun_gap (t : Tbl Byte) (a n c : Nat) (h : ∀ e ∈ t, a + n ≤ e.1) :
    (t.zeroRun a n).foldl crcByte c = crcZeros n c := by
  induction n generalizing a c with
  | zero => rfl
  | succ n ih =>
    have h0 : t.get 0 a = 0 := t.get_of_lt 0 a fun e he => by
      have := h e he
      omega
    rw [Tbl.zeroRun_succ, h0, List.foldl_cons, ih (a + 1) _ fun e he => by have := h e he; omega]
    rfl

/-! ### The sparse CRC -/

/-- One listed byte: the gap before it, then the byte. The pair is the next address and the CRC register. -/
def crcStep (s : Nat × Nat) (x : Nat × Byte) : Nat × Nat := (x.1 + 1, crcByte (crcZeros (x.1 - s.1) s.2) x.2)

/-- Going through the rising entries of `[a, hi)` and then over the last gap reads every byte of the region. -/
theorem foldl_crcStep (t : Tbl Byte) (a hi c : Nat) (hr : t.Pairwise fun x y => x.1 < y.1)
    (hb : ∀ e ∈ t, a ≤ e.1 ∧ e.1 < hi) :
    crcZeros (hi - (t.foldl crcStep (a, c)).1) (t.foldl crcStep (a, c)).2 = (t.zeroRun a (hi - a)).foldl crcByte c := by
  induction t generalizing a c with
  | nil => exact (foldl_zeroRun_gap [] a (hi - a) c (by simp)).symm
  | cons e t ih =>
    obtain ⟨j, v⟩ := e
    obtain ⟨hlt, hr⟩ := List.pairwise_cons.1 hr
    obtain ⟨⟨haj, hjh⟩, hb⟩ := List.forall_mem_cons.1 hb
    simp only at hlt haj hjh
    have gap : (Tbl.zeroRun ((j, v) :: t) a (j - a)).foldl crcByte c = crcZeros (j - a) c :=
      foldl_zeroRun_gap _ a (j - a) c (List.forall_mem_cons.2 ⟨by simp only; omega, fun e he => by have := hlt e he; omega⟩)
    have rest : Tbl.zeroRun ((j, v) :: t) (j + 1) (hi - (j + 1)) = Tbl.zeroRun t (j + 1) (hi - (j + 1)) :=
      Tbl.zeroRun_congr _ _ _ _ fun k hk _ => Tbl.get_cons_of_ne j v t 0 k (by omega)
    have split : hi - a = (j - a) + (hi - (j + 1) + 1) := by omega
    rw [List.foldl_cons, crcStep, ih (j + 1) _ hr fun e he => ⟨hlt e he, (hb e he).2⟩, split, Tbl.zeroRun_add,
      show a + (j - a) = j by omega, Tbl.zeroRun_succ, Tbl.get_cons_self, List.foldl_append, gap, List.foldl_cons, rest]

/-- Over a region whose unlisted bytes are 0, the sparse CRC is that of every byte. -/
theorem crcSparse_eq (m : Tbl Byte) (lo n : Nat) (hw : Memory.wf m = true) (h0 : ∀ i < n, tblDflt (lo + i) = 0) :
    crcSparse m lo (lo + n) = crc32 (rdBytes m lo n) := by
  have hr : m.Pairwise fun x y => x.1 < y.1 := by
    rw [Memory.wf, Tbl.wf, Bool.and_eq_true] at hw
    exact ((Tbl.rising_iff none m).1 hw.1).2
  have bounds : ∀ e ∈ m.inside lo (lo + n), lo ≤ e.1 ∧ e.1 < lo + n := fun e he => by
    simpa using (List.mem_filter.1 he).2
  have bytes : (m.inside lo (lo + n)).zeroRun lo n = rdBytes m lo n := by
    refine List.map_congr_left fun i hi => ?_
    rw [List.mem_range] at hi
    rw [rdB, h0 i hi, Tbl.get, Tbl.get, Tbl.inside, Tbl.find_filter (fun k => decide (lo ≤ k ∧ k < lo + n)),
      if_pos (decide_eq_true ⟨by omega, by omega⟩)]
  have run := foldl_crcStep (m.inside lo (lo + n)) lo (lo + n) 0xFFFFFFFF (hr.filter _) bounds
  rw [Nat.add_sub_cancel_left, bytes] at run
  exact congrArg (· ^^^ 0xFFFFFFFF) run

/-- Every byte of the crosstalk table is 0 after reset (R472). -/
theorem tblDflt_crosstalk (i : Nat) (h : i < 0x100000) : tblDflt (0x100000 + i) = 0 := by
  have h1 : ¬ 0x100000 + i < 0x90000 := by omega
  have h2 : 0x100000 + i < 0x200000 := by omega
  rw [tblDflt, if_neg h1, if_pos h2]

end Sys2Proof.Machine

open Sys2Proof Sys2Proof.Machine

/-- Settles O40: the sparse CRC of the crosstalk table is the CRC of its bytes. -/
theorem theCrosstalkCrcCoversTheTable : Obligations.TheCrosstalkCrcCoversTheTable := by
  unfold Obligations.TheCrosstalkCrcCoversTheTable
  intro s hs hb
  have run : exec .xtCrcDone s = .next { s with b := xtCrcDone s.b } := rfl
  have hw : Memory.wf s.b.shadow = true := ((Bool.and_eq_true _ _).mp hs).1
  have hc : crcSparse s.b.shadow 0x100000 0x200000 = crc32 (rdBytes s.b.shadow 0x100000 0x100000) :=
    crcSparse_eq s.b.shadow 0x100000 0x100000 hw tblDflt_crosstalk
  rw [run, xtCrcDone, if_pos hb, hc]
  rfl
end

section
/-!
PROOF. The meter's millisecond, CANCEL, RETIRE_CLR and ROUTE.TRY (O32): the millisecond goes through the banks one by one; the commands
are writes of a register that its checks pass.
-/
set_option autoImplicit false

namespace Sys2Proof.Machine

/-! ### The millisecond of the meter (R95, R249) -/

/-- The average heater power of a bank over the ticks of the millisecond, rounded. -/
def Bank.msAvg (k : Bank) : Nat := (ratRne (k.msSum / ((max 1 k.msN : Nat) : Rat))).toNat

/-- One bank's millisecond ends: its average is shown and its sums start anew; the pair is the block and the sum so far. -/
def meterBank (x : Blk × Nat) (n : Nat) : Blk × Nat :=
  (setBank n { x.1.bank n with msSum := 0, msN := 0 } (setF (Reg.DRV.MTR_AVG.P_AVG n) (x.1.bank n).msAvg x.1),
    x.2 + (x.1.bank n).msAvg)

/-- The block once the banks have been gone through: the sum is shown and the next millisecond begins. -/
def meterShown (r : Blk × Nat) : Blk :=
  let c := setF Reg.SCHED.METER.P_MS r.2 r.1
  { c with sched := { c.sched with overMs := false, msTick := c.tick } }

theorem meterMillisecond_eq {b : Blk} {r : Blk × Nat} (hr : (List.range 18).foldl meterBank (b, 0) = r)
    (h : b.tick % 1000 = 0 ∧ b.tick ≠ b.sched.msTick ∧ b.sys.mode ≠ .reset) :
    meterMillisecond b = setOverdrawn (decide (10 * getF (meterShown r) Reg.SCHED.BUDGET.STEADY ≤ r.2)) (meterShown r) := by
  have step : (fun (x : Blk × Nat) n =>
      let k := x.1.bank n
      let w := (ratRne (k.msSum / ((max 1 k.msN : Nat) : Rat))).toNat
      (setBank n { k with msSum := 0, msN := 0 } (setF (Reg.DRV.MTR_AVG.P_AVG n) w x.1), x.2 + w)) = meterBank := rfl
  unfold meterMillisecond
  rw [if_pos h, step, hr]
  rfl

theorem pAvg_key_ne {m n : Nat} (h : m ≠ n) : (Reg.DRV.MTR_AVG.P_AVG m).key ≠ (Reg.DRV.MTR_AVG.P_AVG n).key := by
  simp only [Reg.DRV.MTR_AVG.P_AVG, Fld.mk']
  omega

/-- After `k` banks: theirs show their averages and have started anew, the others stand as they stood, and the sum is that of the
averages. -/
theorem foldl_meterBank (b : Blk) (k : Nat) (r : Blk × Nat) (hr : (List.range k).foldl meterBank (b, 0) = r) :
    r.1 = { b with regs := r.1.regs, banks := r.1.banks } ∧
    (∀ n, k ≤ n → r.1.bank n = b.bank n) ∧
    (∀ n < k, getF r.1 (Reg.DRV.MTR_AVG.P_AVG n) = (b.bank n).msAvg % 2 ^ 17 ∧ (r.1.bank n).msN = 0 ∧ (r.1.bank n).msSum = 0) ∧
    r.2 = ((List.range k).map fun n => (b.bank n).msAvg).sum ∧
    ∀ f : Fld, (∀ n < k, f.key ≠ (Reg.DRV.MTR_AVG.P_AVG n).key) → getF r.1 f = getF b f := by
  induction k generalizing r with
  | zero =>
    subst hr
    exact ⟨rfl, fun _ _ => rfl, fun n h => absurd h (Nat.not_lt_zero n), rfl, fun _ _ => rfl⟩
  | succ k ih =>
    rw [List.range_succ, List.foldl_append] at hr
    rw [List.range_succ, List.map_append, List.sum_append]
    generalize hq : (List.range k).foldl meterBank (b, 0) = q at hr
    subst hr
    obtain ⟨hb, hrest, hdone, hsum, hf⟩ := ih q hq
    have hk : q.1.bank k = b.bank k := hrest k (Nat.le_refl k)
    simp only [List.foldl_cons, List.foldl_nil, meterBank, hk, hsum]
    refine ⟨?_, fun n hn => ?_, fun n hn => ?_, by simp, fun f h => ?_⟩
    · rw [hb]
      rfl
    · rw [bank_setBank, if_neg (by omega), bank_setF, hrest n (by omega)]
    · rw [getF_setBank, bank_setBank]
      by_cases hnk : n = k
      · subst hnk
        rw [getF_setF_same, if_pos rfl]
        exact ⟨rfl, rfl, rfl⟩
      · rw [getF_setF_ne _ _ _ _ (pAvg_key_ne hnk), if_neg hnk, bank_setF]
        exact hdone n (by omega)
    · rw [getF_setBank, getF_setF_ne _ _ _ _ (h k (by omega))]
      exact hf f fun n hn => h n (by omega)

/-- No field of page SCHED is an average of a bank. -/
theorem sched_key_ne_pAvg {f : Fld} (hf : f.key / 131072 = 0x8) (n : Nat) : f.key ≠ (Reg.DRV.MTR_AVG.P_AVG n).key := by
  simp only [Reg.DRV.MTR_AVG.P_AVG, Fld.mk']
  omega

/-- A millisecond that ends shows the banks' averages and their sum, and the budget's flag follows the sum. -/
theorem meterMillisecond_shows (b : Blk) (h : b.tick % 1000 = 0 ∧ b.tick ≠ b.sched.msTick ∧ b.sys.mode ≠ .reset) (sum : Nat)
    (hs : ((List.range 18).map fun n => (b.bank n).msAvg).sum = sum) :
    ∃ c, meterMillisecond b = setOverdrawn (decide (10 * getF b Reg.SCHED.BUDGET.STEADY ≤ sum)) c ∧
      (∀ n < 18, getF c (Reg.DRV.MTR_AVG.P_AVG n) = (b.bank n).msAvg % 2 ^ 17 ∧ (c.bank n).msN = 0 ∧ (c.bank n).msSum = 0) ∧
      getF c Reg.SCHED.METER.P_MS = sum % 2 ^ 20 ∧ c.sched.msTick = b.tick ∧
      c = { b with regs := c.regs, banks := c.banks, sched := { b.sched with overMs := false, msTick := b.tick } } := by
  obtain ⟨r, hr⟩ : ∃ r, (List.range 18).foldl meterBank (b, 0) = r := ⟨_, rfl⟩
  obtain ⟨hb, -, hdone, hsum, hf⟩ := foldl_meterBank b 18 r hr
  have hsteady : getF (meterShown r) Reg.SCHED.BUDGET.STEADY = getF b Reg.SCHED.BUDGET.STEADY :=
    (getF_setF_ne _ _ _ _ (by decide)).trans (hf _ fun n _ => sched_key_ne_pAvg (by decide) n)
  have htick : r.1.tick = b.tick := by rw [hb]
  refine ⟨meterShown r, ?_, fun n hn => ⟨?_, (hdone n hn).2⟩, ?_, htick, ?_⟩
  · rw [meterMillisecond_eq hr h, hsteady, hsum, hs]
  · exact (getF_setF_ne _ _ _ _ (sched_key_ne_pAvg (by decide) n).symm).trans (hdone n hn).1
  · exact (getF_setF_same _ _ _).trans (congrArg (· % 2 ^ 20) (hsum.trans hs))
  · obtain ⟨c, w⟩ := r
    generalize c.regs = g, c.banks = k at hb
    subst hb
    rfl

/-! ### CANCEL (R251) -/

theorem cancelCode_eq_zero {b : Blk} {v : Word} {i : Nat} {f : Frame} (hi : frameWith b v = some i)
    (hq : b.sched.queue[i]? = some f) (hs : f.stage ≠ .launched) (hl : b.time.ns + 1000 < f.launch) : cancelCode b v = 0 := by
  have hn : ¬ (f.stage = .launched ∨ f.launch ≤ b.time.ns + 1000) := by
    rintro (h | h)
    · exact hs h
    · omega
  simp [cancelCode, hi, hq, hn]

theorem frameWith_of_queue {b c : Blk} (h : c.sched.queue = b.sched.queue) (v : Word) : frameWith c v = frameWith b v := by
  rw [frameWith, frameWith, h]

/-- A CANCEL that can be answered acknowledges and then withdraws. -/
theorem cancelFrame_withdraws {b : Blk} {v : Word} {i : Nat} (peer : Option Peer) (msg : Word) (hc : cancelCode b v = 0)
    (hi : frameWith b v = some i) :
    cancelFrame peer msg v b = flushLate (withdrawFrom i 0 1
      (postRecord false peer msg (recordWords b (4 + 0 * 256) v 0 0 0 b.time.ns 0) b)) := by
  have hw := (frameWith_of_queue
    (postRecord_keepsFrames false peer msg (recordWords b (4 + 0 * 256) v 0 0 0 b.time.ns 0) b).1 v).trans hi
  simp only [cancelFrame, hc, hw]

theorem pageWrite_cancel {b : Blk} {v : Word} (hb : b.heard = true) (hc : cancelCode b v = 0) :
    pageWrite 0x08 0x74 v b = cancelFrame none 0 v b := by
  have he : ownErrs .m0 .sched 0 0x74 v b = codeIf (cancelCode b v != 0) (cancelCode b v) :=
    (List.append_nil _).trans (List.append_nil _)
  exact pageWrite_hears 0x08 0x74 0 .sched 0 v b (by decide) (by decide) rfl (by decide) (by simp [hears, hb])
    (by rw [he, hc]; rfl)

/-! ### RETIRE_CLR and ROUTE.TRY (R62, R257) -/

theorem pageWrite_retireClr {b : Blk} {v : Word} (h : hears 0xFFFFFFF8 v b = true) (hm : v.bits 0 3 ≠ 0 → b.sys.mode = .idle) :
    pageWrite 0x09 0x50 v b = retireClrDo v b := by
  have he : ownErrs .m0 .seq 0 0x50 v b = retireClrErrs v b := (List.append_nil _).trans (List.append_nil _)
  exact pageWrite_hears 0x09 0x50 0xFFFFFFF8 .seq 0 v b (by decide) (by decide) rfl (by decide) h
    (he.trans (if_neg fun ⟨h0, hi⟩ => hi (hm h0)))

theorem pageWrite_routeTry {b : Blk} {v : Word} (h : hears 0x7FFFFFE0 v b = true)
    (hm : b.sys.mode ∈ [Mode.idle, .calibrate, .openHold]) (hp : v.bits 0 5 ∈ b.permDone)
    (hs : slotSize b.live (v.bits 0 5) = getF b Reg.FABRIC.CFG.SIZE) : pageWrite 0x0B 0x54 v b = routeTryDo v b := by
  have hq : quietMode b = true := decide_eq_true hm
  have he : ownErrs .m0 .route 0 0x54 v b = routeTryErrs v b := (List.append_nil _).trans (List.append_nil _)
  refine pageWrite_hears 0x0B 0x54 0x7FFFFFE0 .route 0 v b (by decide) (by decide) rfl (by decide) h (he.trans ?_)
  simp [routeTryErrs, hq, hp, hs]

/-- ROUTE.TRY with GO takes the slot's entries as they stand, and KEEP and SIZE. -/
theorem routeTryDo_go (v : Word) (b : Blk) (hgo : v.bit 31 = true) :
    routeTryDo v b =
      let d := eccData (slotWords6 (v.bits 0 5)) (setF Reg.ROUTE.TRY.SLOT (v.bits 0 5) b)
      showQueue { d with sched := { d.sched with
        trySlot := some (v.bits 0 5), tryStart := d.q, tryKeep := flag b Reg.ROUTE.CFG.KEEP
        trySize := getF b Reg.FABRIC.CFG.SIZE
        tryEntries := slotEntries d.live (v.bits 0 5) (portsOf (getF b Reg.FABRIC.CFG.SIZE)) } } := by
  have hk : flag (setF Reg.ROUTE.TRY.SLOT (v.bits 0 5) b) Reg.ROUTE.CFG.KEEP = flag b Reg.ROUTE.CFG.KEEP := by
    rw [flag, getF_setF_ne _ _ _ _ (by decide), flag]
  have hs : getF (setF Reg.ROUTE.TRY.SLOT (v.bits 0 5) b) Reg.FABRIC.CFG.SIZE = getF b Reg.FABRIC.CFG.SIZE :=
    getF_setF_ne _ _ _ _ (by decide)
  rw [routeTryDo, hk, hs]
  exact if_pos hgo

end Sys2Proof.Machine

open Sys2Proof Sys2Proof.Machine

/-- Settles O32: the millisecond bank by bank, and the three commands as writes that their checks pass. -/
theorem meterCancelAndTrialCommands : Obligations.MeterCancelAndTrialCommands := by
  unfold Obligations.MeterCancelAndTrialCommands
  intro s v avg sum ack tried
  refine ⟨fun h1 h2 h3 => ?_, fun i f hb hi hq hs hl => ?_, fun h hm => ?_, fun h hgo hm hp hs => ?_⟩
  · have run : exec .meterMillisecond s = .next { s with b := meterMillisecond s.b } := rfl
    obtain ⟨c, hc, hshown⟩ := meterMillisecond_shows s.b ⟨h1, h2, h3⟩ sum rfl
    exact ⟨c, by rw [run, hc], hshown⟩
  · have run : exec (.schedCancel v) s = .next { s with b := pageWrite 0x08 0x74 v s.b } := rfl
    have hc := cancelCode_eq_zero hi hq hs hl
    rw [run, pageWrite_cancel hb hc, cancelFrame_withdraws none 0 hc hi]
  · have run : exec (.retireClr v) s = .next { s with b := pageWrite 0x09 0x50 v s.b } := rfl
    rw [run, pageWrite_retireClr h hm]
    rfl
  · have run : exec (.routeTry v) s = .next { s with b := pageWrite 0x0B 0x54 v s.b } := rfl
    rw [run, pageWrite_routeTry h hm hp hs, routeTryDo_go v s.b hgo]
end

section
/-!
PROOF. The solver, the planner and the completion of planning (O28). A read of damaged words may raise an event whose reaction
withdraws frames, so a read leaves a front part of the queue, with the instant and the settings that the solver takes as they were.
-/
set_option autoImplicit false

namespace Sys2Proof.Machine

/-! ### What the solver sees after a reaction (R350) -/

/-- `c` has the queue `q` and stands at the instant of `b` with its KEEP and SIZE. -/
structure SolverSees (q : List Frame) (b c : Blk) : Prop where
  tick : c.tick = b.tick
  edge : c.edge = b.edge
  queue : c.sched.queue = q
  keep : getF c Reg.ROUTE.CFG.KEEP = getF b Reg.ROUTE.CFG.KEEP
  size : getF c Reg.FABRIC.CFG.SIZE = getF b Reg.FABRIC.CFG.SIZE

/-- The solver sees no difference. -/
def SolverSame (b c : Blk) : Prop := SolverSees b.sched.queue b c

/-- The solver sees a front part of the queue and no other difference. -/
def KeepsFront (b c : Blk) : Prop := ∃ n, SolverSees (b.sched.queue.take n) b c

theorem SolverSees.trans {q r : List Frame} {b c d : Blk} (h : SolverSees q b c) (g : SolverSees r c d) : SolverSees r b d :=
  ⟨g.tick.trans h.tick, g.edge.trans h.edge, g.queue, g.keep.trans h.keep, g.size.trans h.size⟩

theorem SolverSame.refl (b : Blk) : SolverSame b b := ⟨rfl, rfl, rfl, rfl, rfl⟩

theorem SolverSame.of_parts {b c : Blk} (ht : c.tick = b.tick) (he : c.edge = b.edge) (hq : c.sched.queue = b.sched.queue)
    (hr : c.regs = b.regs) : SolverSame b c := ⟨ht, he, hq, getF_of_regs hr _, getF_of_regs hr _⟩

theorem SolverSees.same {q : List Frame} {b c d : Blk} (h : SolverSees q b c) (g : SolverSame c d) : SolverSees q b d := by
  have hd := h.trans g
  rwa [h.queue] at hd

theorem SolverSame.trans {b c d : Blk} (h : SolverSame b c) (g : SolverSame c d) : SolverSame b d := SolverSees.same h g

theorem SolverSame.sees {q : List Frame} {b c d : Blk} (h : SolverSame b c) (g : SolverSees q c d) : SolverSees q b d :=
  SolverSees.trans h g

theorem SolverSame.keepsFront {b c : Blk} (h : SolverSame b c) : KeepsFront b c :=
  ⟨b.sched.queue.length, by rwa [List.take_length]⟩

theorem KeepsFront.trans {b c d : Blk} (h : KeepsFront b c) (g : KeepsFront c d) : KeepsFront b d := by
  obtain ⟨m, h⟩ := h
  obtain ⟨n, g⟩ := g
  rw [h.queue, List.take_take] at g
  exact ⟨min n m, h.trans g⟩

theorem KeepsFront.same {b c d : Blk} (h : KeepsFront b c) (g : SolverSame c d) : KeepsFront b d := h.trans g.keepsFront

theorem SolverSame.front {b c d : Blk} (h : SolverSame b c) (g : KeepsFront c d) : KeepsFront b d := h.keepsFront.trans g

theorem foldl_solverSame {α : Type} (l : List α) (g : Blk → α → Blk) (b : Blk) (h : ∀ b x, SolverSame b (g b x)) :
    SolverSame b (l.foldl g b) := by
  induction l generalizing b with
  | nil => exact SolverSame.refl b
  | cons x t ih => exact (h b x).trans (ih _)

theorem foldl_keepsFront {α : Type} (l : List α) (g : Blk → α → Blk) (b : Blk) (h : ∀ b x, KeepsFront b (g b x)) :
    KeepsFront b (l.foldl g b) := by
  induction l generalizing b with
  | nil => exact (SolverSame.refl b).keepsFront
  | cons x t ih => exact (h b x).trans (ih _)

/-! ### Operations of which the solver sees nothing -/

theorem EventOnly.solverSame {b c : Blk} (h : EventOnly b c) : SolverSame b c := by
  have hk := h.getF Reg.ROUTE.CFG.KEEP (by unfold Fld.apart; decide)
  have hs := h.getF Reg.FABRIC.CFG.SIZE (by unfold Fld.apart; decide)
  obtain ⟨v, r, n, k, o, e, l, rfl, -⟩ := h
  exact ⟨rfl, rfl, rfl, hk, hs⟩

theorem setF_solverSame (f : Fld) (v : Nat) (b : Blk)
    (h : f.key ∉ [Reg.ROUTE.CFG.KEEP.key, Reg.FABRIC.CFG.SIZE.key]) : SolverSame b (setF f v b) := by
  simp only [List.mem_cons, List.not_mem_nil, or_false, not_or] at h
  exact ⟨rfl, rfl, rfl, getF_setF_ne _ _ _ _ (Ne.symm h.1), getF_setF_ne _ _ _ _ (Ne.symm h.2)⟩

theorem setFlag_solverSame (f : Fld) (v : Bool) (b : Blk)
    (h : f.key ∉ [Reg.ROUTE.CFG.KEEP.key, Reg.FABRIC.CFG.SIZE.key]) : SolverSame b (setFlag f v b) := setF_solverSame f _ b h

theorem updElems_solverSame (es : List Nat) (f : Nat → Elem → Elem) (b : Blk) : SolverSame b (updElems es f b) := by
  rw [updElems_eq_elems]
  exact .of_parts rfl rfl rfl rfl

theorem sendUp3_solverSame (typ : Nat) (seq : Word) (ws : List Word) (b : Blk) : SolverSame b (sendUp3 typ seq ws b) :=
  foldl_solverSame _ _ _ fun _ _ => (sendCell_only _ _ _ _ _ _ _).solverSame

theorem sendDown3_solverSame (typ : Nat) (seq : Word) (ws : List Word) (b : Blk) : SolverSame b (sendDown3 typ seq ws b) := by
  unfold sendDown3
  refine SolverSame.trans ?_ (foldl_solverSame _ _ _ fun _ _ => (sendCell_only _ _ _ _ _ _ _).solverSame)
  exact .of_parts rfl rfl rfl rfl

theorem show2pc_solverSame (seq : Word) (res member code : Nat) (b : Blk) : SolverSame b (show2pc seq res member code b) :=
  (((setF_solverSame _ _ _ (by decide)).trans (setF_solverSame _ _ _ (by decide))).trans
    (setF_solverSame _ _ _ (by decide))).trans (setF_solverSame _ _ _ (by decide))

theorem showQueue_solverSame (b : Blk) : SolverSame b (showQueue b) :=
  (((setF_solverSame _ _ _ (by decide)).trans (setF_solverSame _ _ _ (by decide))).trans
    (setF_solverSame _ _ _ (by decide))).trans (setF_solverSame _ _ _ (by decide))

theorem addCpl_solverSame (ring : Bool) (ws : List Word) (b : Blk) : SolverSame b (addCpl ring ws b) := by
  unfold addCpl
  split
  · exact .of_parts rfl rfl rfl rfl
  · exact (setF_solverSame _ _ _ (by decide)).trans (.of_parts rfl rfl rfl rfl)

theorem postRecord_solverSame (ring : Bool) (peer : Option Peer) (msg : Word) (ws : List Word) (b : Blk) :
    SolverSame b (postRecord ring peer msg ws b) := by
  unfold postRecord
  refine ((addCpl_solverSame ring ws b).trans ?_).trans (foldl_solverSame _ _ _ fun b s => ?_)
  · split
    · exact (sendUdp_only _ _ _ _).solverSame
    · exact SolverSame.refl _
  · split
    · exact (sendUdp_only _ _ _ _).solverSame
    · exact SolverSame.refl _

theorem disarm_solverSame (b : Blk) : SolverSame b (disarm b) :=
  (setF_solverSame _ _ _ (by decide)).trans (updElems_solverSame _ _ _)

theorem emptyFreeze_solverSame (b : Blk) : SolverSame b (emptyFreeze b) :=
  (updElems_solverSame _ _ _).trans (setF_solverSame _ _ _ (by decide))

theorem dropReq_solverSame (b : Blk) : SolverSame b (dropReq b) := by
  unfold dropReq
  split
  · refine SolverSame.trans ?_ (setFlag_solverSame Reg.SYS.MSTAT.REQ_DROP true _ (by decide))
    exact .of_parts rfl rfl rfl rfl
  · exact SolverSame.refl b

theorem setMode_solverSame (m : Mode) (b : Blk) : SolverSame b (setMode m b) := by
  unfold setMode
  split
  · exact SolverSame.refl b
  · exact ((setF_solverSame _ _ _ (by decide)).trans (setF_solverSame _ _ _ (by decide))).trans (.of_parts rfl rfl rfl rfl)

theorem setBank_solverSame (n : Nat) (x : Bank) (b : Blk) : SolverSame b (setBank n x b) := .of_parts rfl rfl rfl rfl

theorem clearBanks_solverSame (b : Blk) : SolverSame b (clearBanks b) := by
  unfold clearBanks
  refine (updElems_solverSame _ _ b).trans (foldl_solverSame _ _ _ fun b n => ?_)
  dsimp only
  refine SolverSame.trans ?_ (setBank_solverSame n _ _)
  split
  · exact updElems_solverSame _ _ b
  · exact SolverSame.refl b

theorem lifeAdd_solverSame (w n : Nat) (b : Blk) : SolverSame b (lifeAdd w n b) := .of_parts rfl rfl rfl rfl

theorem nvmCounters_solverSame (b : Blk) : SolverSame b (nvmCounters b) := by
  unfold nvmCounters
  refine SolverSame.trans ?_ (setFlag_solverSame Reg.NVM.STAT.BUSY true _ (by decide))
  exact .of_parts rfl rfl rfl rfl

/-! ### Withdrawing takes a back part of the queue (R237) -/

theorem dropFrame_sees (i c : Nat) (b : Blk) : SolverSees (b.sched.queue.eraseIdx i) b (dropFrame i c b) := by
  unfold dropFrame
  split
  · next h =>
    rw [List.eraseIdx_of_length_le (List.getElem?_eq_none_iff.1 h)]
    exact SolverSame.refl b
  · refine SolverSees.same (c := { b with sched := { b.sched with queue := b.sched.queue.eraseIdx i } })
      ⟨rfl, rfl, rfl, rfl, rfl⟩ ?_
    dsimp only
    split
    · exact sendUp3_solverSame _ _ _ _
    · exact postRecord_solverSame _ _ _ _ _

/-- As many frames dropped at position `i` as stand there and behind it leave those before it. -/
theorem dropFrames_sees {α : Type} (i c : Nat) (l : List α) (b : Blk) (h : b.sched.queue.length ≤ i + l.length) :
    SolverSees (b.sched.queue.take i) b (l.foldl (fun b _ => dropFrame i c b) b) := by
  induction l generalizing b with
  | nil =>
    have ht : b.sched.queue.take i = b.sched.queue := List.take_of_length_le h
    rw [ht]
    exact SolverSame.refl b
  | cons x l ih =>
    have hd := dropFrame_sees i c b
    have hn : (dropFrame i c b).sched.queue.length ≤ i + l.length := by
      rw [hd.queue, List.length_eraseIdx]
      simp only [List.length_cons] at h
      split <;> omega
    have ht := ih _ hn
    rw [hd.queue, List.take_eraseIdx_eq_take_of_le _ _ _ (Nat.le_refl i)] at ht
    exact hd.trans ht

theorem withdrawFrom_sees (i c c' : Nat) (b : Blk) : SolverSees (b.sched.queue.take i) b (withdrawFrom i c c' b) := by
  unfold withdrawFrom
  split
  · next h =>
    rw [List.take_of_length_le (List.drop_eq_nil_iff.1 h)]
    exact SolverSame.refl b
  · next f rest h =>
    have hl : b.sched.queue.length ≤ i + (f :: rest).length := by
      rw [← h, List.length_drop]
      omega
    have drops {d : Blk} (hd : SolverSame b d) :
        SolverSees (b.sched.queue.take i) b (showQueue (rest.foldl (fun b _ => dropFrame i c' b) (dropFrame i c d))) := by
      have h1 := dropFrame_sees i c d
      rw [SolverSees.queue hd] at h1
      have h2 := dropFrames_sees i c' rest (dropFrame i c d) (by
        rw [h1.queue, List.length_eraseIdx]
        simp only [List.length_cons] at hl
        split <;> omega)
      rw [h1.queue, List.take_eraseIdx_eq_take_of_le _ _ _ (Nat.le_refl i)] at h2
      exact ((hd.sees h1).trans h2).same (showQueue_solverSame _)
    have disarmed (p : Prop) [Decidable p] : SolverSame b (if p then disarm b else b) := by
      split
      · exact disarm_solverSame b
      · exact SolverSame.refl b
    have aborted (p : Prop) [Decidable p] (d : Blk) :
        SolverSame d (if p then show2pc f.seq 2 0 0 (sendDown3 9 f.seq [f.seq] d) else d) := by
      split
      · exact (sendDown3_solverSame 9 f.seq [f.seq] d).trans (show2pc_solverSame f.seq 2 0 0 _)
      · exact SolverSame.refl d
    exact drops ((disarmed _).trans (aborted _ _))

/-! ### A raise with its reactions (R350) -/

theorem withdrawAll_keepsFront (b : Blk) : KeepsFront b (withdrawAll b) := ⟨_, withdrawFrom_sees _ _ _ b⟩

theorem enterMode_keepsFront (m : Mode) (b : Blk) : KeepsFront b (enterMode m b) := by
  unfold enterMode
  dsimp only
  refine KeepsFront.same ?_ (setMode_solverSame m _)
  split
  · exact (withdrawAll_keepsFront b).same (emptyFreeze_solverSame _)
  · exact (SolverSame.refl b).keepsFront

theorem safeActions_keepsFront (b : Blk) : KeepsFront b (safeActions b) := by
  unfold safeActions
  split
  · split
    · exact (clearBanks_solverSame b).keepsFront
    · exact (SolverSame.refl b).keepsFront
  · exact ((((dropReq_solverSame b).front (withdrawAll_keepsFront _)).same (clearBanks_solverSame _)).trans
      (enterMode_keepsFront _ _)).same (lifeAdd_solverSame _ _ _)

theorem stopAcq_solverSame (b : Blk) :
    SolverSame b { setF Reg.ACQ.RUN.RUN 0 b with acq := { b.acq with runReq := some false } } :=
  (setF_solverSame Reg.ACQ.RUN.RUN 0 b (by decide)).trans (.of_parts rfl rfl rfl rfl)

theorem shutdownActions_keepsFront (s : Nat) (b : Blk) : KeepsFront b (shutdownActions s b) := by
  unfold shutdownActions
  split
  · exact (SolverSame.refl b).keepsFront
  · have shut {c : Blk} (h : SolverSame b c) : KeepsFront b (enterMode .shutdown (nvmCounters (nvmRecord 1 s 4 (shutDetail s c)
        (lifeAdd 4 1 (clearBanks (withdrawAll (dropReq c))))))) :=
      ((((((h.trans (dropReq_solverSame c)).front (withdrawAll_keepsFront _)).same (clearBanks_solverSame _)).same
        (lifeAdd_solverSame 4 1 _)).same (nvmRecord_only 1 s 4 (shutDetail s c) _).solverSame).same
        (nvmCounters_solverSame _)).trans (enterMode_keepsFront .shutdown _)
    have result : SolverSame b (if b.sys.mode = .boot then setF Reg.SYS.BOOT_STAT.RESULT 4 b else b) := by
      split
      · exact setF_solverSame _ _ _ (by decide)
      · exact SolverSame.refl b
    exact (shut result).same (stopAcq_solverSame _)

theorem latches_solverSame (tx : Option (Nat × Nat × Nat)) (ss : List Nat) (b : Blk) : SolverSame b (ss.foldl (latch tx) b) :=
  foldl_solverSame _ _ _ fun b s => (latch_only tx b s).solverSame

theorem raiseTx_keepsFront (ss : List Nat) (tx : Option (Nat × Nat × Nat)) (b : Blk) : KeepsFront b (raiseTx ss tx b) := by
  unfold raiseTx
  split
  · exact (SolverSame.refl b).keepsFront
  · have acts (p q : Prop) [Decidable p] [Decidable q] (s : Nat) (c : Blk) :
        KeepsFront c (if p then shutdownActions s c else if q then safeActions c else c) := by
      split
      · exact shutdownActions_keepsFront s c
      · split
        · exact safeActions_keepsFront c
        · exact (SolverSame.refl c).keepsFront
    exact ((latches_solverSame tx (byClass b ss) b).front (acts _ _ _ _)).same (latches_solverSame none _ _)

theorem flushLate_keepsFront (b : Blk) : KeepsFront b (flushLate b) :=
  SolverSame.front (c := { b with ev := { b.ev with late := [] } }) (.of_parts rfl rfl rfl rfl) (raiseTx_keepsFront _ _ _)

/-! ### A read of words with an error (R411, R412) -/

theorem eccNote_solverSame (dbl : Bool) (w : EccWord) (b : Blk) : SolverSame b (eccNote dbl w b) := by
  unfold eccNote
  refine SolverSame.trans ?_ (setF_solverSame _ _ _ (by cases dbl <;> decide))
  exact (((((setF_solverSame Reg.XBAR.ECC_LAST.MEM _ b (by decide)).trans
    (setFlag_solverSame Reg.XBAR.ECC_LAST.LIVE _ _ (by decide))).trans
    (setFlag_solverSame Reg.XBAR.ECC_LAST.DOUBLE _ _ (by decide))).trans
    (setF_solverSame Reg.XBAR.ECC_LAST.UNIT _ _ (by decide))).trans
    (setFlag_solverSame Reg.XBAR.ECC_LAST.VALID _ _ (by decide))).trans
    (setF_solverSame Reg.XBAR.ECC_ADDR.ADDR _ _ (by decide))

theorem foundSingle_solverSame (w : EccWord) (b : Blk) : SolverSame b (foundSingle w b) :=
  (eccNote_solverSame false w b).trans (.of_parts rfl rfl rfl rfl)

theorem spoilLive_solverSame (a : Nat) (b : Blk) : SolverSame b (spoilLive a b) := .of_parts rfl rfl rfl rfl

theorem foundDouble_solverSame (w : EccWord) (b : Blk) : SolverSame b (foundDouble w b) := by
  unfold foundDouble
  refine (eccNote_solverSame true w b).trans ?_
  generalize eccNote true w b = c
  dsimp only
  by_cases hw : w ∈ c.xb.double
  · rw [if_pos hw]
    exact SolverSame.refl c
  · rw [if_neg hw]
    refine SolverSame.trans (c := if w.live ∧ w.mem.val < 7 then spoilLive (eccOff w) c else c) ?_ (.of_parts rfl rfl rfl rfl)
    split
    · exact spoilLive_solverSame _ c
    · exact SolverSame.refl c

theorem eccData_keepsFront (mine : EccWord → Bool) (b : Blk) : KeepsFront b (eccData mine b) := by
  have read (ss : EccWord → List Nat) (found : EccWord → Blk → Blk) (hf : ∀ w c, SolverSame c (found w c)) (c : Blk)
      (w : EccWord) : KeepsFront c (flushLate (raiseTx (ss w) none (found w c))) :=
    ((hf w c).front (raiseTx_keepsFront _ _ _)).trans (flushLate_keepsFront _)
  unfold eccData eccFind
  dsimp only
  split
  · exact (SolverSame.refl b).keepsFront
  · exact (foldl_keepsFront _ _ _ fun c w => read (fun _ => [962]) foundSingle foundSingle_solverSame c w).trans
      (foldl_keepsFront _ _ _ fun c w =>
        read (fun w => [if eccInLive w then 964 else 963]) foundDouble foundDouble_solverSame c w)

/-! ### The route solver takes its frame (R50, R57) -/

theorem KeepsFront.q {b c : Blk} (h : KeepsFront b c) : c.q = b.q := by
  obtain ⟨n, h⟩ := h
  rw [Blk.q, Blk.q, h.tick, h.edge]

theorem KeepsFront.flag_keep {b c : Blk} (h : KeepsFront b c) : flag c Reg.ROUTE.CFG.KEEP = flag b Reg.ROUTE.CFG.KEEP := by
  obtain ⟨n, h⟩ := h
  rw [flag, flag, h.keep]

theorem KeepsFront.permEntries {b c : Blk} (h : KeepsFront b c) (hl : c.live = b.live) (kind slot : Nat) (payload : List Word) :
    permEntries c kind slot payload = permEntries b kind slot payload := by
  obtain ⟨n, h⟩ := h
  rw [Machine.permEntries, Machine.permEntries, hl, h.size]

/-- What the solver reads for a frame: the live words of its slot, where it names one. -/
def solverReads (f : Frame) (b : Blk) : Blk := if f.kind = 2 then eccData (slotWords6 f.slot) b else b

theorem solverReads_keepsFront (f : Frame) (b : Blk) : KeepsFront b (solverReads f b) := by
  unfold solverReads
  split
  · exact eccData_keepsFront _ b
  · exact (SolverSame.refl b).keepsFront

theorem solverReads_live (f : Frame) (b : Blk) : (solverReads f b).live = b.live := by
  unfold solverReads
  split
  · exact eccData_live _ b
  · rfl

theorem routeSolve_takes {b : Blk} {i : Nat} {f : Frame} (hi : i = (b.sched.queue.takeWhile fun f => !f.unsolved).length)
    (hq : b.sched.queue[i]? = some f) (h : f.stage = .queued ∧ f.kind ≠ 3 ∧ f.casc = false ∧ solverFree b = true) :
    routeSolve b =
      let es := permEntries b f.kind f.slot f.payload
      setFrame i { f with
        stage := .solving, solveStart := b.q, keep := flag b Reg.ROUTE.CFG.KEEP
        payload := (List.range (es.length / 2)).map fun k =>
          BitVec.ofNat 32 (es.getD (2 * k) 0 + 65536 * es.getD (2 * k + 1) 0) } (solverReads f b) := by
  have hc := solverReads_keepsFront f b
  unfold routeSolve
  rw [← hi]
  dsimp only
  rw [hq]
  refine (if_pos h).trans ?_
  rw [← hc.q, ← hc.flag_keep, ← hc.permEntries (solverReads_live f b)]
  rfl

theorem routeSolveDone_frame {b : Blk} {i : Nat} {f : Frame}
    (hi : i = (b.sched.queue.takeWhile fun f => f.stage != .solving).length) (hq : b.sched.queue[i]? = some f)
    (ht : b.sched.trySlot = none) (hd : b.due (f.solveStart + 4 * tSolve (getF b Reg.FABRIC.CFG.SIZE)) = true) :
    routeSolveDone b = solveFrame i f (b.atEdge (f.solveStart + 4 * tSolve (getF b Reg.FABRIC.CFG.SIZE))) := by
  unfold routeSolveDone
  rw [ht, ← hi]
  dsimp only
  rw [hq]
  exact atQ_due _ hd

theorem routeSolveDone_trial {b : Blk} (ht : b.sched.trySlot ≠ none)
    (hd : b.due (b.sched.tryStart + 4 * tSolve b.sched.trySize) = true) :
    routeSolveDone b = trySolve (b.atEdge (b.sched.tryStart + 4 * tSolve b.sched.trySize)) := by
  obtain ⟨k, hk⟩ := Option.ne_none_iff_exists'.1 ht
  unfold routeSolveDone
  rw [hk]
  exact atQ_due _ hd

/-! ### Reading for a plan (R208, R214, R261) -/

theorem putWord_sched (e w v : Nat) (b : Blk) : (putWord e w v b).sched = b.sched := rfl

theorem setShadow_sched (e h t : Nat) (b : Blk) : (setShadow e h t b).sched = b.sched := rfl

theorem planMoved_sched (d1 : Nat) (seq : Word) (w : Byte) (ff : Int) (e : Nat) (x : Blk × PlanOut) :
    (planMoved d1 seq w ff e x).1.sched = x.1.sched := by
  unfold planMoved
  dsimp only
  rw [setShadow_sched, putWord_sched, foldl_keeps Blk.sched, putWord_sched, putWord_sched, putWord_sched]
  intro b k
  rw [putWord_sched, putWord_sched]

theorem planElem_sched (d1 : Nat) (seq : Word) (w : Byte) (ff : Int) (e : Nat) (x : Blk × PlanOut) :
    (planElem d1 seq w ff e x).1.sched = x.1.sched := by
  unfold planElem
  split
  · exact planMoved_sched d1 seq w ff e x
  · rfl
  · rfl
  · rfl

theorem foldl_fst_sched {α β : Type} (l : List α) (g : Blk × β → α → Blk × β) (x : Blk × β)
    (h : ∀ x a, (g x a).1.sched = x.1.sched) : (l.foldl g x).1.sched = x.1.sched := by
  induction l generalizing x with
  | nil => rfl
  | cons a l ih => rw [List.foldl_cons, ih, h]

/-- One element of a whole plan, with the feed-forward for the model codes `hm`. -/
def planStep (d1 : Nat) (seq : Word) (wa : Array Byte) (st : List (Int × Int)) (sh : Nat) (hm : Array Nat) (b : Blk)
    (x : Blk × PlanOut) (e : Nat) : Blk × PlanOut :=
  planElem d1 seq (wa.getD e 0) (if xtCount b.live e = 0 then 0 else ffNew b.live sh st (fun j => hm.getD j 0) e) e x

theorem planAll_eq (d1 : Nat) (seq : Word) (ws : List Byte) (b : Blk) : planAll d1 seq ws b =
    (List.range 4608).foldl (planStep d1 seq ws.toArray stencil (getF b Reg.PLAN.CFG.XT_SH)
      ((List.range 4608).map fun j => modelCode b (ws.toArray.getD j 0) j).toArray b) (b, ⟨0, 0, 0, 0, []⟩) := rfl

theorem planAll_sched (d1 : Nat) (seq : Word) (ws : List Byte) (b : Blk) : (planAll d1 seq ws b).1.sched = b.sched := by
  rw [planAll_eq, foldl_fst_sched]
  exact fun x e => planElem_sched _ _ _ _ _ _

/-- What the planner makes of a frame that moves an element, and of one that moves none. -/
theorem planRead_eq (i : Nat) (f : Frame) (b : Blk) :
    let c := eccData (fun w => w.live && decide (w.mem.val ∈ [1, 2, 3])) b
    let r := planAll (boundaryAt b (4 * f.launch) - f.launch) f.seq f.states c
    let parked := (f.states.zipIdx.filter fun x =>
      natBits x.1.toNat 4 1 == 1 && (c.elem x.2).lp.st == .parked).map Prod.snd
    planRead i f b = if f.moves = true then setFrame i { f with
        armSet := r.2.arm, wasParked := parked, plan := [r.2.moved, r.2.nb, r.2.kick, r.2.late] } r.1
      else setFrame i { f with armSet := [], wasParked := parked, plan := [0, 0, 0, 0] } c := by
  dsimp only
  by_cases hm : f.moves = true
  · rw [planRead, if_pos hm, if_pos hm]
  · rw [planRead, if_neg hm, if_neg hm]

theorem setFrame_queue (i : Nat) (f : Frame) (b : Blk) : (setFrame i f b).sched.queue = b.sched.queue.set i f := rfl

/-- Reading leaves a front part of the queue, in which the frame, where it still stands, is read. -/
theorem planRead_queue (i : Nat) (f : Frame) (b : Blk) :
    ∃ n g, (planRead i f b).sched.queue = (b.sched.queue.take n).set i g ∧ g.stage = f.stage ∧ g.plan ≠ [] := by
  obtain ⟨n, hn⟩ := eccData_keepsFront (fun w => w.live && decide (w.mem.val ∈ [1, 2, 3])) b
  have put (g : Frame) (c : Blk) (hc : c.sched.queue = b.sched.queue.take n) (hs : g.stage = f.stage) (hp : g.plan ≠ []) :
      ∃ n g', (setFrame i g c).sched.queue = (b.sched.queue.take n).set i g' ∧ g'.stage = f.stage ∧ g'.plan ≠ [] :=
    ⟨n, g, by rw [setFrame_queue, hc], hs, hp⟩
  rw [planRead_eq]
  split
  · refine put _ _ ?_ ?_ ?_
    · rw [planAll_sched, hn.queue]
    · rfl
    · exact List.cons_ne_nil _ _
  · refine put _ _ hn.queue ?_ ?_
    · rfl
    · exact List.cons_ne_nil _ _

/-! ### The frame in planning (R207) -/

theorem mem_take_length_takeWhile {α : Type} (p : α → Bool) (l : List α) {x : α} (h : x ∈ l.take (l.takeWhile p).length) :
    p x = true := by
  rw [← List.prefix_iff_eq_take.1 (List.takeWhile_prefix p)] at h
  exact List.mem_takeWhile_imp h

/-- The first element that fails a test, put where the ones before it pass it, is the first that fails it. -/
theorem length_takeWhile_set {α : Type} (p : α → Bool) (l : List α) (i : Nat) (x : α) (hi : i < l.length)
    (hl : ∀ y ∈ l.take i, p y = true) (hx : p x = false) : ((l.set i x).takeWhile p).length = i := by
  rw [List.set_eq_take_append_cons_drop, if_pos hi, List.takeWhile_append_of_pos hl, List.takeWhile_cons, hx]
  simp [Nat.le_of_lt hi]

section
variable {b : Blk} {i : Nat} (hi : i = (b.sched.queue.takeWhile fun f => f.stage != .planning).length)
include hi

theorem planLate_none (hq : b.sched.queue[i]? = none) : planLate b = b := by
  unfold planLate
  rw [← hi]
  dsimp only
  rw [hq]

variable {f : Frame} (hq : b.sched.queue[i]? = some f)
include hq

theorem planLate_unread (hp : f.plan = []) : planLate b = planRead i f b := by
  unfold planLate
  rw [← hi]
  dsimp only
  rw [hq]
  exact if_pos hp

theorem planLate_read (hp : f.plan ≠ []) : planLate b = b := by
  unfold planLate
  rw [← hi]
  dsimp only
  rw [hq]
  exact if_neg hp

/-- A frame that has been read is not read again, whatever its reading withdrew. -/
theorem planLate_planRead (hs : f.stage = .planning) : planLate (planRead i f b) = planRead i f b := by
  obtain ⟨n, g, hn, hgs, hgp⟩ := planRead_queue i f b
  have hlt : i < b.sched.queue.length := (List.getElem?_eq_some_iff.1 hq).1
  have before : ∀ y ∈ b.sched.queue.take i, (y.stage != Stage.planning) = true := fun y hy =>
    mem_take_length_takeWhile (fun f : Frame => f.stage != .planning) b.sched.queue (hi ▸ hy)
  by_cases hni : n ≤ i
  · have hset : (b.sched.queue.take n).set i g = b.sched.queue.take n :=
      List.set_eq_of_length_le (by rw [List.length_take]; omega)
    have hall : (b.sched.queue.take n).takeWhile (fun f => f.stage != .planning) = b.sched.queue.take n :=
      List.takeWhile_eq_self_iff.2 fun y hy => before y (List.take_subset_take_left _ hni hy)
    exact planLate_none rfl (by rw [hn, hset, hall, List.getElem?_eq_none_iff])
  · have hin : i < (b.sched.queue.take n).length := by
      rw [List.length_take]
      omega
    have hpos : ((planRead i f b).sched.queue.takeWhile fun f => f.stage != .planning).length = i := by
      rw [hn]
      refine length_takeWhile_set _ _ i g hin (fun y hy => before y ?_) (by rw [hgs, hs]; rfl)
      rw [List.take_take] at hy
      exact List.take_subset_take_left _ (Nat.min_le_left ..) hy
    exact planLate_read hpos.symm (by rw [hn, List.getElem?_set_self hin]) hgp

end

/-! ### PLAN_START and PLAN_COMPLETE (R207, R209, R214) -/

/-- Planning begins with the first frame not launched: it is now the first in planning, and is read once no element is in
TRANSIT. -/
theorem planStart_begins {b : Blk} {i : Nat} {f : Frame} (hi : i = firstUnlaunched b) (hq : b.sched.queue[i]? = some f)
    (h : f.stage = .solved ∧ b.sched.relTick ≤ b.tick ∧ b.sys.mode ≠ .reset) :
    let g := { f with stage := .planning, planStart := b.q, plan := [] }
    planStart b = if anyTransit b = true then setFrame i g b else planRead i g (setFrame i g b) := by
  intro g
  have hlt : i < b.sched.queue.length := (List.getElem?_eq_some_iff.1 hq).1
  have hfirst : i = ((setFrame i g b).sched.queue.takeWhile fun f => f.stage != .planning).length := by
    rw [setFrame_queue]
    refine (length_takeWhile_set _ _ i g hlt (fun y hy => ?_) rfl).symm
    rw [hi, firstUnlaunched] at hy
    rw [beq_iff_eq.1 (mem_take_length_takeWhile (fun f : Frame => f.stage == .launched) b.sched.queue hy)]
    rfl
  have hread : planLate (setFrame i g b) = planRead i g (setFrame i g b) :=
    planLate_unread hfirst (by rw [setFrame_queue, List.getElem?_set_self hlt]) rfl
  unfold planStart
  rw [← hi]
  dsimp only
  rw [hq]
  refine (if_pos h).trans ?_
  rw [← hread]
  rfl

theorem chainN_of_fields {b c : Blk}
    (h : ∀ f ∈ [Reg.GLEW.CFG.EN, Reg.GLEW.ID.CASC_ID, Reg.GLEW.CFG.CHAIN], getF c f = getF b f) : chainN c = chainN b := by
  simp only [List.forall_mem_cons] at h
  obtain ⟨he, hi, hc, -⟩ := h
  rw [chainN, chainN, flag, flag, isMember, isMember, he, hi, hc]

/-- What a completed plan shows on page PLAN. -/
def planFigures (f : Frame) (q p : Nat) : List (Fld × Nat) :=
  [(Reg.PLAN.LAST_TIME.T_PLAN, (q - f.planStart) / 4), (Reg.PLAN.LAST_PLAN.MOVED, f.plan.getD 0 0),
   (Reg.PLAN.LAST_PLAN.ARMED_NB, f.plan.getD 1 0), (Reg.PLAN.LAST_CLAMP.KICK_CLAMP, f.plan.getD 2 0),
   (Reg.PLAN.LAST_CLAMP.LATE, f.plan.getD 3 0), (Reg.PLAN.LAST_PEAK.P_LAUNCH, p)]

theorem getF_setFs (ps : List (Fld × Nat)) (b : Blk) (g : Fld) (h : ∀ p ∈ ps, g.key ≠ p.1.key) : getF (setFs ps b) g = getF b g := by
  unfold setFs
  induction ps generalizing b with
  | nil => rfl
  | cons p ps ih =>
    rw [List.forall_mem_cons] at h
    rw [List.foldl_cons, ih _ h.2, getF_setF_ne _ _ _ _ h.1]

theorem chainN_planFigures (f : Frame) (q p : Nat) (b : Blk) : chainN (setFs (planFigures f q p) b) = chainN b :=
  chainN_of_fields fun g hg => getF_setFs _ b g fun x hx => by
    have apart : ∀ g ∈ [Reg.GLEW.CFG.EN, Reg.GLEW.ID.CASC_ID, Reg.GLEW.CFG.CHAIN], ∀ k ∈ [Reg.PLAN.LAST_TIME.T_PLAN.key,
        Reg.PLAN.LAST_PLAN.MOVED.key, Reg.PLAN.LAST_PLAN.ARMED_NB.key, Reg.PLAN.LAST_CLAMP.KICK_CLAMP.key,
        Reg.PLAN.LAST_CLAMP.LATE.key, Reg.PLAN.LAST_PEAK.P_LAUNCH.key], g.key ≠ k := by decide
    exact apart g hg x.1.key (List.mem_map_of_mem (f := fun x : Fld × Nat => x.1.key) hx)

/-- The elements that a plan arms. -/
def armPlanned (f : Frame) (b : Blk) : List Nat := f.armSet.filter fun e => stillArmed b f e

/-- The ARM bits of the elements still eligible set. -/
def setArms (es : List Nat) (b : Blk) : Blk := updElems es (fun _ x => { x with drv := { x.drv with arm := true } }) b

theorem setArms_elemsTake (es : List Nat) (b : Blk) :
    ElemsTake (· ∈ es) (fun _ x => { x with drv := { x.drv with arm := true } }) b (setArms es b) :=
  ⟨updElems_eq_elems _ _ b, fun e => by
    rw [setArms, elem_updElems es (fun _ x => { x with drv := { x.drv with arm := true } }) (fun _ _ => rfl) b e]
    exact ⟨fun h => if_pos h, fun h => if_neg h⟩⟩

/-- Completing begins with the late reading, so it sees no difference between blocks that the reading makes equal. -/
theorem planComplete_planLate {b c : Blk} (h : planLate b = planLate c) : planComplete b = planComplete c := by
  rw [planComplete, planComplete, h]

theorem setFs_time (ps : List (Fld × Nat)) (b : Blk) : (setFs ps b).time = b.time := foldl_keeps Blk.time _ _ _ fun _ _ => rfl

theorem setFs_planFigures (f : Frame) (q p : Nat) (b : Blk) : setFs (planFigures f q p) b =
    setF Reg.PLAN.LAST_PEAK.P_LAUNCH p (setF Reg.PLAN.LAST_CLAMP.LATE (f.plan.getD 3 0)
      (setF Reg.PLAN.LAST_CLAMP.KICK_CLAMP (f.plan.getD 2 0) (setF Reg.PLAN.LAST_PLAN.ARMED_NB (f.plan.getD 1 0)
        (setF Reg.PLAN.LAST_PLAN.MOVED (f.plan.getD 0 0)
          (setF Reg.PLAN.LAST_TIME.T_PLAN ((q - f.planStart) / 4) b))))) := rfl

/-- The elements of a plan that are still eligible are armed, the figures shown, and the frame is planned. -/
theorem planComplete_read {b : Blk} {i : Nat} {f : Frame}
    (hi : i = (b.sched.queue.takeWhile fun f => f.stage != .planning).length) (hq : b.sched.queue[i]? = some f) (hp : f.plan ≠ []) :
    ∃ p, planComplete b = setFrame i { f with
      stage := .planned, armSet := armPlanned f b, pEnd := if chainN b = 0 then b.time.ns else f.pEnd }
        (setFs (planFigures f b.q p) (setArms (armPlanned f b) b)) := by
  generalize hc : setArms (armPlanned f b) b = c
  have he : c = { b with elems := c.elems } := hc ▸ (setArms_elemsTake (armPlanned f b) b).1
  have hcq : c.q = b.q := by rw [he]; rfl
  have hct : c.time = b.time := by rw [he]
  have hcn : chainN c = chainN b := by rw [he]; rfl
  refine ⟨launchPower (armPlanned f b) c, ?_⟩
  rw [← hcn, ← hct, ← hcq, ← chainN_planFigures f c.q (launchPower (armPlanned f b) c) c,
    ← setFs_time (planFigures f c.q (launchPower (armPlanned f b) c)) c]
  unfold planComplete
  rw [planLate_read hi hq hp]
  dsimp only
  rw [← hi, hq]
  dsimp only
  rw [← armPlanned, ← setArms, hc, setFs_planFigures]

end Sys2Proof.Machine

open Sys2Proof Sys2Proof.Machine

/-- Settles O28: the solver takes and ends its frame or trial, planning begins and reads, and its completion arms. -/
theorem framesAreSolvedAndPlanned : Obligations.FramesAreSolvedAndPlanned := by
  unfold Obligations.FramesAreSolvedAndPlanned
  intro s i f hq hm t
  refine ⟨fun hi hs hk hc hf => ?_, fun hi ht hd => ?_, fun ht hd => ?_, fun hi hs hr => ?_, planRead_eq i f s.b,
    fun hi hs hp => ?_, fun hi hs hp => ?_⟩
  · have run : exec .routeSolve s = .next { s with b := routeSolve s.b } := rfl
    rw [run, routeSolve_takes hi hq ⟨hs, hk, hc, hf⟩]
    rfl
  · have run : exec .routeSolveDone s = .next { s with b := routeSolveDone s.b } := rfl
    rw [run, routeSolveDone_frame hi hq ht hd]
  · have run : exec .routeSolveDone s = .next { s with b := routeSolveDone s.b } := rfl
    rw [run, routeSolveDone_trial ht hd]
  · have run : exec .planStart s = .next { s with b := planStart s.b } := rfl
    rw [run, planStart_begins hi hq ⟨hs, hr, hm⟩]
  · have run (b : Blk) : exec .planComplete { s with b := b } = .next { s with b := planComplete b } := rfl
    have late : planLate s.b = planLate (planRead i f s.b) := by
      rw [planLate_planRead hi hq hs, planLate_unread hi hq hp]
    rw [run, planComplete_planLate late]
    rfl
  · have run : exec .planComplete s = .next { s with b := planComplete s.b } := rfl
    obtain ⟨p, hc⟩ := planComplete_read hi hq hp
    exact ⟨setArms (armPlanned f s.b) s.b, p, by rw [run, hc]; rfl, setArms_elemsTake _ _⟩
end

section
/-!
PROOF. Span sequences and clears (O26): what a clear makes of each bank and of each output is said once, bank by bank; an output is
reached by the clear of its own bank only.
-/
set_option autoImplicit false

namespace Sys2Proof.Machine

/-! ### Changes of listed elements -/

/-- A change made of listed elements is made of each as often as it is listed. -/
theorem elem_updElems_iterate (es : List Nat) (f : Nat → Elem → Elem) (b : Blk) (e : Nat) :
    (updElems es f b).elem e = (f e)^[es.count e] (b.elem e) := by
  unfold updElems
  induction es generalizing b with
  | nil => rfl
  | cons i es ih =>
    rw [List.foldl_cons, ih, elem_updElem, List.count_cons]
    by_cases h : e = i
    · subst h
      simp
    · simp [h, Ne.symm h]

theorem elem_updElems_nodup (es : List Nat) (f : Nat → Elem → Elem) (b : Blk) (e : Nat) (hn : es.Nodup) :
    (updElems es f b).elem e = if e ∈ es then f e (b.elem e) else b.elem e := by
  rw [elem_updElems_iterate]
  split
  · next h => rw [List.count_eq_one_of_mem hn h]; rfl
  · next h => rw [List.count_eq_zero_of_not_mem h]; rfl

@[simp] theorem updElems_banks (es : List Nat) (f : Nat → Elem → Elem) (b : Blk) : (updElems es f b).banks = b.banks :=
  foldl_keeps Blk.banks _ _ _ fun _ _ => rfl

@[simp] theorem updElems_regs (es : List Nat) (f : Nat → Elem → Elem) (b : Blk) : (updElems es f b).regs = b.regs :=
  foldl_keeps Blk.regs _ _ _ fun _ _ => rfl

@[simp] theorem updElems_sys (es : List Nat) (f : Nat → Elem → Elem) (b : Blk) : (updElems es f b).sys = b.sys :=
  foldl_keeps Blk.sys _ _ _ fun _ _ => rfl

theorem bank_of_banks {b c : Blk} (h : c.banks = b.banks) (n : Nat) : c.bank n = b.bank n := by
  rw [Blk.bank, h]
  rfl

theorem flag_of_regs {b c : Blk} (h : c.regs = b.regs) (f : Fld) : flag c f = flag b f := by
  rw [flag, getF_of_regs h]
  rfl

theorem mem_bankElems (n e : Nat) : e ∈ bankElems n ↔ bankOf e = n := by
  simp only [bankElems, bankOf, List.mem_map, List.mem_range]
  constructor
  · rintro ⟨r, hr, rfl⟩
    omega
  · rintro rfl
    exact ⟨e % 256, by omega, by omega⟩

theorem bankElems_nodup (n : Nat) : (bankElems n).Nodup := by
  refine (List.nodup_map_iff_inj_on List.nodup_range).2 fun x _ y _ h => ?_
  exact Nat.add_left_cancel h

theorem elem_clearArms (b : Blk) (e : Nat) :
    (clearArms b).elem e = { b.elem e with drv := { (b.elem e).drv with arm := false } } := by
  unfold clearArms
  rw [elem_updElems]
  · split
    · rfl
    · next h => rw [elem_of_not_listed b e h]; rfl
  · exact fun _ _ => rfl

/-! ### A clear of one bank (R87, R88) -/

/-- A bank once cleared. -/
def clearedBank (b : Blk) (n : Nat) : Bank :=
  { b.bank n with cleared := true, rearm := false
                  parkCode := if (b.bank n).cleared then (b.bank n).parkCode else flag b (Reg.DRV.CFG.CLR_MODE n) }

/-- One bank is cleared: its outputs take the clear code where it is released and was not cleared before. -/
def clearBank (b : Blk) (n : Nat) : Blk :=
  setBank n (clearedBank b n) (if (b.bank n).released && !(b.bank n).cleared then
    updElems (bankElems n) (fun e x => clearElem b (clearedBank b n).parkCode e x) b else b)

theorem clearBanks_eq (b : Blk) : clearBanks b = (List.range 18).foldl clearBank (clearArms b) := rfl

@[simp] theorem clearBank_sys (b : Blk) (n : Nat) : (clearBank b n).sys = b.sys := by
  unfold clearBank
  rw [setBank_sys]
  split
  · exact updElems_sys _ _ _
  · rfl

@[simp] theorem clearBank_regs (b : Blk) (n : Nat) : (clearBank b n).regs = b.regs := by
  unfold clearBank
  rw [setBank_regs]
  split
  · exact updElems_regs _ _ _
  · rfl

@[simp] theorem clearBank_live (b : Blk) (n : Nat) : (clearBank b n).live = b.live := by
  unfold clearBank
  rw [(setBank_mem _ _ _).2]
  split
  · exact (updElems_mem _ _ _).2
  · rfl

theorem bank_clearBank (b : Blk) (n m : Nat) : (clearBank b n).bank m = if m = n then clearedBank b n else b.bank m := by
  unfold clearBank
  rw [bank_setBank]
  split
  · rfl
  · split
    · exact bank_of_banks (updElems_banks _ _ _) m
    · rfl

theorem elem_clearBank (b : Blk) (n e : Nat) : (clearBank b n).elem e =
    if bankOf e = n ∧ (b.bank n).released = true ∧ (b.bank n).cleared = false then
      clearElem b (flag b (Reg.DRV.CFG.CLR_MODE n)) e (b.elem e) else b.elem e := by
  unfold clearBank
  rw [elem_setBank]
  by_cases h : (b.bank n).released = true ∧ (b.bank n).cleared = false
  · rw [if_pos (by simp [h]), elem_updElems_nodup _ _ _ _ (bankElems_nodup n)]
    simp [mem_bankElems, clearedBank, h]
  · rw [if_neg (by simpa using h), if_neg fun hc => h hc.2]

/-! ### A clear of every bank (R88, R91) -/

theorem clearedBank_congr {b c : Blk} {n : Nat} (hr : c.regs = b.regs) (hb : c.bank n = b.bank n) :
    clearedBank c n = clearedBank b n := by
  rw [clearedBank, hb, flag_of_regs hr]
  rfl

theorem foldl_clearBank_regs (b : Blk) (k : Nat) : ((List.range k).foldl clearBank b).regs = b.regs :=
  foldl_keeps Blk.regs _ _ _ clearBank_regs

theorem foldl_clearBank_live (b : Blk) (k : Nat) : ((List.range k).foldl clearBank b).live = b.live :=
  foldl_keeps Blk.live _ _ _ clearBank_live

theorem bank_foldl_clearBank (b : Blk) (k n : Nat) :
    ((List.range k).foldl clearBank b).bank n = if n < k then clearedBank b n else b.bank n := by
  induction k with
  | zero => rfl
  | succ k ih =>
    rw [List.range_succ, List.foldl_append, List.foldl_cons, List.foldl_nil, bank_clearBank]
    by_cases hk : n = k
    · subst hk
      rw [if_neg (Nat.lt_irrefl n)] at ih
      rw [if_pos rfl, if_pos (Nat.lt_succ_self n)]
      exact clearedBank_congr (foldl_clearBank_regs b n) ih
    · rw [if_neg hk, ih]
      simp only [show (n < k + 1) = (n < k) by rw [eq_iff_iff]; omega]

/-- An output is reached by the clear of its own bank only. -/
theorem elem_foldl_clearBank (b : Blk) (k e : Nat) : ((List.range k).foldl clearBank b).elem e =
    if bankOf e < k then (clearBank ((List.range (bankOf e)).foldl clearBank b) (bankOf e)).elem e else b.elem e := by
  induction k with
  | zero => rfl
  | succ k ih =>
    rw [List.range_succ, List.foldl_append, List.foldl_cons, List.foldl_nil]
    by_cases hk : bankOf e = k
    · subst hk
      rw [if_pos (Nat.lt_succ_self _)]
    · rw [elem_clearBank, if_neg fun h => hk h.1, ih]
      simp only [show (bankOf e < k + 1) = (bankOf e < k) by rw [eq_iff_iff]; omega]

@[simp] theorem clearArms_regs (b : Blk) : (clearArms b).regs = b.regs := updElems_regs _ _ _

@[simp] theorem clearArms_banks (b : Blk) : (clearArms b).banks = b.banks := updElems_banks _ _ _

@[simp] theorem clearBanks_sys (b : Blk) : (clearBanks b).sys = b.sys :=
  (foldl_keeps Blk.sys _ _ _ clearBank_sys).trans (updElems_sys _ _ _)

@[simp] theorem clearBanks_regs (b : Blk) : (clearBanks b).regs = b.regs :=
  (foldl_clearBank_regs (clearArms b) 18).trans (clearArms_regs b)

theorem bank_clearBanks (b : Blk) {n : Nat} (hn : n < 18) : (clearBanks b).bank n = clearedBank b n := by
  rw [clearBanks_eq, bank_foldl_clearBank, if_pos hn]
  exact clearedBank_congr (clearArms_regs b) (bank_of_banks (clearArms_banks b) n)

theorem clearCode_of_live {b c : Blk} (h : c.live = b.live) (park : Bool) (e : Nat) : clearCode c park e = clearCode b park e := by
  unfold clearCode limitHtr
  rw [h]

theorem clearElem_arm (b : Blk) (park : Bool) (e : Nat) (x : Elem) : (clearElem b park e x).drv.arm = false := rfl

theorem setHtr_htrLive (x : Nat) (code : Half) (d : ElemDrv) : (d.setHtr x code).htrLive = code := by
  unfold ElemDrv.setHtr
  split
  · assumption
  · rfl

theorem clearElem_codes (b : Blk) (park : Bool) (e : Nat) (x : Elem) :
    ((clearElem b park e x).drv.htrLive, (clearElem b park e x).drv.trmLive) = clearCode b park e := by
  unfold clearElem
  rw [setHtr_htrLive]

/-- An output of a bank that is released and not yet cleared takes the clear code; of every other only the ARM bit clears. -/
theorem elem_clearBanks (b : Blk) {e : Nat} (he : e < 4608) : ∃ c, c.live = b.live ∧
    (clearBanks b).elem e = if (b.bank (bankOf e)).released = true ∧ (b.bank (bankOf e)).cleared = false then
      clearElem c (flag b (Reg.DRV.CFG.CLR_MODE (bankOf e))) e ((clearArms b).elem e) else (clearArms b).elem e := by
  have hb : bankOf e < 18 := Nat.div_lt_of_lt_mul he
  let c := (List.range (bankOf e)).foldl clearBank (clearArms b)
  have hr : c.regs = b.regs := (foldl_clearBank_regs _ _).trans (clearArms_regs b)
  have hl : c.live = b.live := (foldl_clearBank_live _ _).trans (updElems_mem _ _ _).2
  have hk : c.bank (bankOf e) = b.bank (bankOf e) := by
    rw [bank_foldl_clearBank, if_neg (Nat.lt_irrefl _)]
    exact bank_of_banks (clearArms_banks b) _
  have hx : c.elem e = (clearArms b).elem e := by
    rw [elem_foldl_clearBank, if_neg (Nat.lt_irrefl _)]
  refine ⟨c, hl, ?_⟩
  rw [clearBanks_eq, elem_foldl_clearBank, if_pos hb, elem_clearBank, hk, hx, flag_of_regs hr]
  simp only [true_and, c]

/-- Every bank is cleared (R91). -/
def AllCleared (b : Blk) : Prop := ∀ n, n < 18 → (b.bank n).cleared = true

theorem AllCleared.of_banks {b c : Blk} (h : c.banks = b.banks) (hb : AllCleared b) : AllCleared c :=
  fun n hn => by rw [bank_of_banks h]; exact hb n hn

theorem clearBanks_allCleared (b : Blk) : AllCleared (clearBanks b) := fun n hn => by rw [bank_clearBanks b hn]; rfl

/-! ### Span sequences (R76) -/

/-- What the end of its sequence makes of an output: the kept code in the new span. -/
def endSeq (b : Blk) (e : Nat) (x : Elem) : Elem :=
  match x.drv.seq with
  | some q => { x with drv := { x.drv with trmLive := q.kept, old := outsTo b b.q e x, seq := none } }
  | none => x

theorem endSeq_of_some {x : Elem} {q : SpanSeq} (b : Blk) (e : Nat) (h : x.drv.seq = some q) : endSeq b e x =
    { x with drv := { x.drv with trmLive := (x.drv.seq.map SpanSeq.kept).getD x.drv.trmLive, old := outsTo b b.q e x, seq := none } } := by
  unfold endSeq
  rw [h]
  rfl

theorem endSeq_endSeq (b : Blk) (e : Nat) (x : Elem) : endSeq b e (endSeq b e x) = endSeq b e x := by
  cases h : x.drv.seq with
  | none => simp [endSeq, h]
  | some q => rw [endSeq_of_some b e h]; rfl

theorem mem_bankListed (b : Blk) (n e : Nat) : e ∈ bankListed b n ↔ e ∈ b.listed ∧ bankOf e = n := by
  simp [bankListed]

theorem mem_spanDone (b : Blk) (n e : Nat) : e ∈ spanDone b n ↔ e ∈ b.listed ∧ bankOf e = n ∧
    ∃ q, (b.elem e).drv.seq = some q ∧ q.switched = true ∧ q.start + 2 ≤ b.tick := by
  simp [spanDone, mem_bankListed, Option.any_eq_true, and_assoc]

theorem spanSequenceDone_eq (n : Nat) (b : Blk) (h : spanDone b n ≠ []) :
    spanSequenceDone n b = raise (550 + 16 * n) (updElems (spanDone b n) (endSeq b) b) := by
  unfold spanSequenceDone drvSrc
  rw [if_neg h, show 544 + 16 * n + 6 = 550 + 16 * n by omega]
  rfl

theorem spanSwitch_eq {b : Blk} {e : Nat} {q : SpanSeq} (hq : (b.elem e).drv.seq = some q) (ht : q.start + 1 ≤ b.tick)
    (hs : q.switched = false) : spanSwitch e b =
      let k := b.bank (bankOf e)
      let d := (b.elem e).drv
      setElem e { b.elem e with drv := { d with
        span := k.released && spanReq b e, trmLive := if k.released && k.cleared then d.trmLive else 0
        old := outsTo b b.q e (b.elem e), seq := some { q with switched := true } } } b := by
  unfold spanSwitch
  rw [hq]
  exact if_pos ⟨ht, hs⟩

/-! ### CLR_N (R87, R90, R96) -/

theorem satInc_lt (limit n : Nat) : satInc limit n < limit + 1 := by
  rw [satInc_eq_min]
  omega

theorem chatter_key_ne {m n : Nat} (h : m ≠ n) : (Reg.DRV.STAT.CHATTER m).key ≠ (Reg.DRV.STAT.CHATTER n).key := by
  simp only [Reg.DRV.STAT.CHATTER, Fld.mk']
  omega

/-- The assertions of CLR_N are counted at the banks below `k`. -/
theorem foldl_chatter (b : Blk) (k n : Nat) :
    getF ((List.range k).foldl (fun b n => incF (Reg.DRV.STAT.CHATTER n) b) b) (Reg.DRV.STAT.CHATTER n) =
      if n < k then satInc 255 (getF b (Reg.DRV.STAT.CHATTER n)) else getF b (Reg.DRV.STAT.CHATTER n) := by
  induction k with
  | zero => rfl
  | succ k ih =>
    rw [List.range_succ, List.foldl_append, List.foldl_cons, List.foldl_nil, incF]
    by_cases hk : n = k
    · subst hk
      rw [getF_setF_same, ih, if_neg (Nat.lt_irrefl n), if_pos (Nat.lt_succ_self n)]
      exact Nat.mod_eq_of_lt (satInc_lt 255 _)
    · rw [getF_setF_ne _ _ _ _ (chatter_key_ne hk), ih]
      simp only [show (n < k + 1) = (n < k) by rw [eq_iff_iff]; omega]

/-- The block of an assertion of CLR_N, before its sources are raised. -/
def clrAsserted (b : Blk) : Blk :=
  (List.range 18).foldl (fun b n => incF (Reg.DRV.STAT.CHATTER n) b)
    (lifeAdd 12 1 (clearBanks { b with sys := { b.sys with clrLow := true } }))

theorem clrNAssert_eq {b : Blk} (hr : b.sys.mode ≠ .reset) (hl : b.sys.clrLow = false) :
    clrNAssert b = raiseAll ((List.range 18).map (fun k => 549 + 16 * k) ++ [1126]) (clrAsserted b) := by
  unfold clrNAssert
  rw [if_neg (by simp [hr, hl])]
  rfl

theorem clrAsserted_shows (b : Blk) : (clrAsserted b).sys.clrLow = true ∧ ∀ k < 18, ((clrAsserted b).bank k).cleared = true ∧
    getF (clrAsserted b) (Reg.DRV.STAT.CHATTER k) = satInc 255 (getF b (Reg.DRV.STAT.CHATTER k)) := by
  have hk := clearBanks_allCleared { b with sys := { b.sys with clrLow := true } }
  have hs := clearBanks_sys { b with sys := { b.sys with clrLow := true } }
  have hr := clearBanks_regs { b with sys := { b.sys with clrLow := true } }
  unfold clrAsserted
  generalize clearBanks { b with sys := { b.sys with clrLow := true } } = c at hk hs hr
  have hfs := foldl_keeps Blk.sys (List.range 18) (fun b n => incF (Reg.DRV.STAT.CHATTER n) b) (lifeAdd 12 1 c) fun _ _ => rfl
  have hfb := foldl_keeps Blk.banks (List.range 18) (fun b n => incF (Reg.DRV.STAT.CHATTER n) b) (lifeAdd 12 1 c) fun _ _ => rfl
  refine ⟨?_, fun k h => ⟨?_, ?_⟩⟩
  · rw [hfs, lifeAdd_sys, hs]
  · exact AllCleared.of_banks (hfb.trans (lifeAdd_banks 12 1 c)) hk k h
  · rw [foldl_chatter, if_pos h, getF_lifeAdd, getF_of_regs hr]
    rfl

end Sys2Proof.Machine

open Sys2Proof Sys2Proof.Machine

/-- Settles O26: span sequences switch and end, CLR_N clears and counts, and what a clear makes of each bank and output. -/
theorem spanSequencesAndTheClearPin : Obligations.SpanSequencesAndTheClearPin := by
  unfold Obligations.SpanSequencesAndTheClearPin
  intro e n s d past
  refine ⟨fun q hq ht hs => ?_, fun ⟨x, hx⟩ => ?_, fun hr hl => ?_, rfl, fun b k hk => bank_clearBanks b hk, fun b x hx => ?_⟩
  · have run : exec (.spanSwitch e) s = .next { s with b := spanSwitch e s.b } := rfl
    rw [run, spanSwitch_eq hq ht hs]
  · have run : exec (.spanSequenceDone n) s = .next { s with b := spanSequenceDone n s.b } := rfl
    have hd : spanDone s.b n ≠ [] := List.ne_nil_of_mem ((mem_spanDone s.b n x).2 hx)
    refine ⟨updElems (spanDone s.b n) (endSeq s.b) s.b, ⟨updElems_eq_elems _ _ _, fun y => ?_⟩, by rw [run, spanSequenceDone_eq n s.b hd]⟩
    rw [elem_updElems _ _ (endSeq_endSeq s.b)]
    refine ⟨fun hy => ?_, fun hy => if_neg fun h => hy ((mem_spanDone s.b n y).1 h)⟩
    rw [if_pos ((mem_spanDone s.b n y).2 hy)]
    obtain ⟨-, -, q, hq, -⟩ := hy
    exact endSeq_of_some s.b y hq
  · have run : exec .clrNAssert s = .next { s with b := clrNAssert s.b } := rfl
    obtain ⟨hc, hb⟩ := clrAsserted_shows s.b
    exact ⟨clrAsserted s.b, hc, hb, by rw [run, clrNAssert_eq hr hl]⟩
  · obtain ⟨c, hl, he⟩ := elem_clearBanks b hx
    intro k y
    refine ⟨?_, fun h1 h2 => ?_, fun h => ?_⟩
    · simp only [y]
      rw [he]
      split
      · exact clearElem_arm _ _ _ _
      · rw [elem_clearArms]
    · simp only [y]
      rw [he, if_pos ⟨h1, h2⟩, clearElem_codes, clearCode_of_live hl]
    · rw [he, if_neg, elem_clearArms]
      rintro ⟨h1, h2⟩
      rcases h with h | h
      · exact absurd (h1.symm.trans h) (by decide)
      · exact absurd (h2.symm.trans h) (by decide)
end

section
/-!
PROOF. Reactions (O42): a raise that reacts ends in SAFE or SHUTDOWN with every bank cleared, and what is raised behind it keeps that;
withdrawing frames touches neither the mode nor a bank.
-/
set_option autoImplicit false

namespace Sys2Proof.Machine

/-! ### What a withdrawal leaves of the mode and the banks -/

/-- The system's state and the banks stay. -/
structure KeepsBanks (b c : Blk) : Prop where
  sys : c.sys = b.sys
  banks : c.banks = b.banks

theorem KeepsBanks.refl (b : Blk) : KeepsBanks b b := ⟨rfl, rfl⟩

theorem KeepsBanks.trans {b c d : Blk} (h : KeepsBanks b c) (g : KeepsBanks c d) : KeepsBanks b d :=
  ⟨g.sys.trans h.sys, g.banks.trans h.banks⟩

theorem foldl_keepsBanks {α : Type} (l : List α) (g : Blk → α → Blk) (b : Blk) (h : ∀ b x, KeepsBanks b (g b x)) :
    KeepsBanks b (l.foldl g b) :=
  ⟨foldl_keeps Blk.sys l g b fun b x => (h b x).sys, foldl_keeps Blk.banks l g b fun b x => (h b x).banks⟩

theorem EventOnly.keepsBanks {b c : Blk} (h : EventOnly b c) : KeepsBanks b c := by
  obtain ⟨v, r, n, k, o, e, l, rfl, -⟩ := h
  exact ⟨rfl, rfl⟩

theorem updElems_keepsBanks (es : List Nat) (f : Nat → Elem → Elem) (b : Blk) : KeepsBanks b (updElems es f b) :=
  ⟨updElems_sys _ _ _, updElems_banks _ _ _⟩

theorem addCpl_keepsBanks (ring : Bool) (ws : List Word) (b : Blk) : KeepsBanks b (addCpl ring ws b) := by
  unfold addCpl
  split <;> exact ⟨rfl, rfl⟩

theorem postRecord_keepsBanks (ring : Bool) (peer : Option Peer) (msg : Word) (ws : List Word) (b : Blk) :
    KeepsBanks b (postRecord ring peer msg ws b) := by
  unfold postRecord
  refine ((addCpl_keepsBanks ring ws b).trans ?_).trans (foldl_keepsBanks _ _ _ fun b s => ?_)
  · split <;> exact ⟨rfl, rfl⟩
  · split <;> exact ⟨rfl, rfl⟩

theorem dropFrame_keepsBanks (i c : Nat) (b : Blk) : KeepsBanks b (dropFrame i c b) := by
  unfold dropFrame
  split
  · exact .refl b
  · refine KeepsBanks.trans (c := { b with sched := { b.sched with queue := b.sched.queue.eraseIdx i } }) ⟨rfl, rfl⟩ ?_
    dsimp only
    split
    · exact foldl_keepsBanks _ _ _ fun _ _ => (sendCell_only _ _ _ _ _ _ _).keepsBanks
    · exact postRecord_keepsBanks _ _ _ _ _

theorem disarm_keepsBanks (b : Blk) : KeepsBanks b (disarm b) :=
  KeepsBanks.trans (c := setFlag Reg.SEQ.STAT.ARMED false b) ⟨rfl, rfl⟩ (updElems_keepsBanks _ _ _)

theorem sendDown3_keepsBanks (typ : Nat) (seq : Word) (ws : List Word) (b : Blk) : KeepsBanks b (sendDown3 typ seq ws b) := by
  unfold sendDown3
  refine KeepsBanks.trans ?_ (foldl_keepsBanks _ _ _ fun _ _ => (sendCell_only _ _ _ _ _ _ _).keepsBanks)
  exact ⟨rfl, rfl⟩

theorem show2pc_keepsBanks (seq : Word) (res member code : Nat) (b : Blk) : KeepsBanks b (show2pc seq res member code b) :=
  ⟨rfl, rfl⟩

theorem showQueue_keepsBanks (b : Blk) : KeepsBanks b (showQueue b) := ⟨rfl, rfl⟩

theorem withdrawAll_keepsBanks (b : Blk) : KeepsBanks b (withdrawAll b) := by
  unfold withdrawAll withdrawFrom
  split
  · exact .refl b
  · next f rest _ =>
    have disarmed (p : Prop) [Decidable p] : KeepsBanks b (if p then disarm b else b) := by
      split
      · exact disarm_keepsBanks b
      · exact .refl b
    have aborted (p : Prop) [Decidable p] (c : Blk) :
        KeepsBanks c (if p then show2pc f.seq 2 0 0 (sendDown3 9 f.seq [f.seq] c) else c) := by
      split
      · exact (sendDown3_keepsBanks 9 f.seq [f.seq] c).trans (show2pc_keepsBanks f.seq 2 0 0 _)
      · exact .refl c
    exact ((((disarmed _).trans (aborted _ _)).trans (dropFrame_keepsBanks _ _ _)).trans
      (foldl_keepsBanks _ _ _ fun _ _ => dropFrame_keepsBanks _ _ _)).trans (showQueue_keepsBanks _)

/-! ### The mode that a reaction enters (R350, R453) -/

theorem setMode_mode (m : Mode) (b : Blk) : (setMode m b).sys.mode = m := by
  unfold setMode
  split
  · assumption
  · rfl

theorem setMode_banks (m : Mode) (b : Blk) : (setMode m b).banks = b.banks := by
  unfold setMode
  split <;> rfl

theorem enterMode_mode (m : Mode) (b : Blk) : (enterMode m b).sys.mode = m := setMode_mode m _

theorem enterMode_banks (m : Mode) (b : Blk) : (enterMode m b).banks = b.banks := by
  unfold enterMode
  rw [setMode_banks]
  split
  · exact (updElems_banks _ _ _).trans (withdrawAll_keepsBanks b).banks
  · rfl

/-- SAFE is entered with every bank cleared, from every mode that it can be entered from (R453). -/
theorem safeActions_enters (b : Blk) (h : b.sys.mode ∉ [Mode.reset, .boot, .shutdown]) :
    (safeActions b).sys.mode = .safe ∧ AllCleared (safeActions b) := by
  simp only [List.mem_cons, List.not_mem_nil, or_false, not_or] at h
  obtain ⟨hr, hb, hs⟩ := h
  unfold safeActions
  by_cases hm : b.sys.mode = .safe
  · simp only [hm, or_true, if_true]
    exact ⟨by rw [clearBanks_sys, hm], clearBanks_allCleared b⟩
  · rw [if_neg (by simp [hr, hb, hs, hm])]
    have counted (d : Blk) (hd : d.sys.mode = .safe) (hk : AllCleared d) :
        (lifeAdd 3 1 d).sys.mode = .safe ∧ AllCleared (lifeAdd 3 1 d) := ⟨hd, hk⟩
    exact counted _ (enterMode_mode .safe _) (.of_banks (enterMode_banks .safe _) (clearBanks_allCleared _))

theorem safeActions_stays (b : Blk) (h : b.sys.mode ∈ [Mode.reset, .boot, .shutdown]) : safeActions b = b := by
  unfold safeActions
  simp only [List.mem_cons, List.not_mem_nil, or_false] at h
  rcases h with h | h | h <;> simp [h]

/-- SHUTDOWN is entered with every bank cleared (R453). -/
theorem shutdownActions_enters (s : Nat) (b : Blk) (h : b.sys.mode ∉ [Mode.reset, .shutdown]) :
    (shutdownActions s b).sys.mode = .shutdown ∧ AllCleared (shutdownActions s b) := by
  simp only [List.mem_cons, List.not_mem_nil, or_false, not_or] at h
  unfold shutdownActions
  rw [if_neg (by simp [h])]
  have stopped (d : Blk) (hd : d.sys.mode = .shutdown) (hk : AllCleared d) :
      let e : Blk := { setF Reg.ACQ.RUN.RUN 0 d with acq := { d.acq with runReq := some false } }
      e.sys.mode = .shutdown ∧ AllCleared e := ⟨hd, hk⟩
  have recorded (d : Blk) (n : Nat) (hk : AllCleared d) : AllCleared (nvmCounters (nvmRecord 1 s 4 n (lifeAdd 4 1 d))) := hk
  exact stopped _ (enterMode_mode .shutdown _) (.of_banks (enterMode_banks .shutdown _) (recorded _ _ (clearBanks_allCleared _)))

theorem shutdownActions_stays (s : Nat) (b : Blk) (h : b.sys.mode = .shutdown) : shutdownActions s b = b :=
  if_pos (.inr h)

/-- What the classes of the sources raised together ask for (R350). -/
def react (c first : Nat) (b : Blk) : Blk :=
  if 4 ≤ c then shutdownActions first b else if 3 ≤ c then safeActions b else b

/-- SAFE or SHUTDOWN with every bank cleared. -/
def Halted (b : Blk) : Prop := (b.sys.mode = .safe ∨ b.sys.mode = .shutdown) ∧ AllCleared b

/-- SHUTDOWN with every bank cleared. -/
def Down (b : Blk) : Prop := b.sys.mode = .shutdown ∧ AllCleared b

theorem KeepsBanks.halted {b c : Blk} (h : KeepsBanks b c) (hb : Halted b) : Halted c :=
  ⟨h.sys ▸ hb.1, .of_banks h.banks hb.2⟩

theorem KeepsBanks.down {b c : Blk} (h : KeepsBanks b c) (hb : Down b) : Down c :=
  ⟨h.sys ▸ hb.1, .of_banks h.banks hb.2⟩

theorem react_down {b : Blk} (c first : Nat) (h : Down b) : Down (react c first b) := by
  unfold react
  split
  · rwa [shutdownActions_stays first b h.1]
  · split
    · rwa [safeActions_stays b (by simp [h.1])]
    · exact h

/-- A reaction of class SAFE or above halts a controller in every mode that it can leave. -/
theorem react_halts {b : Blk} {c : Nat} (first : Nat) (hc : 3 ≤ c) (h : b.sys.mode ∉ [Mode.reset, .boot, .shutdown]) :
    Halted (react c first b) := by
  unfold react
  split
  · obtain ⟨hm, hk⟩ := shutdownActions_enters first b fun hs => h (by simp at hs ⊢; tauto)
    exact ⟨.inr hm, hk⟩
  · obtain ⟨hm, hk⟩ := safeActions_enters b h
    exact ⟨.inl hm, hk⟩

theorem react_halted {b : Blk} (c first : Nat) (h : Halted b) : Halted (react c first b) := by
  obtain ⟨hs | hd, hk⟩ := h
  · by_cases hc : 3 ≤ c
    · exact react_halts first hc (by simp [hs])
    · rw [react, if_neg (by omega), if_neg hc]
      exact ⟨.inl hs, hk⟩
  · have hd : Down (react c first b) := react_down c first ⟨hd, hk⟩
    exact ⟨.inr hd.1, hd.2⟩

/-! ### A raise with its reaction (R350) -/

theorem latches_only (tx : Option (Nat × Nat × Nat)) (ss : List Nat) (b : Blk) : EventOnly b (ss.foldl (latch tx) b) := by
  induction ss generalizing b with
  | nil => exact .refl b
  | cons s ss ih => exact (latch_only tx b s).trans (ih _)

/-- Sources raised together are latched, the highest class among them and those raised with a reaction reacts, and those are
latched behind it. -/
theorem raiseTx_reacts (ss : List Nat) (tx : Option (Nat × Nat × Nat)) (b : Blk) (hs : ss ≠ []) :
    ∃ c more first, EventOnly b c ∧ more = (if 3 ≤ topClass b ss then safeSources c else []) ∧
      raiseTx ss tx b = more.foldl (latch none) (react (max (topClass b ss) (topClass c more)) first c) := by
  refine ⟨(byClass b ss).foldl (latch tx) b, _, (byClass b ss).headD 0, latches_only tx _ b, rfl, ?_⟩
  unfold raiseTx
  rw [if_neg hs]
  rfl

theorem raiseTx_down {b : Blk} (ss : List Nat) (tx : Option (Nat × Nat × Nat)) (h : Down b) : Down (raiseTx ss tx b) := by
  by_cases hs : ss = []
  · rwa [raiseTx, if_pos hs]
  · obtain ⟨c, more, first, hc, -, he⟩ := raiseTx_reacts ss tx b hs
    rw [he]
    exact (latches_only none more _).keepsBanks.down (react_down _ first (hc.keepsBanks.down h))

theorem raiseTx_halted {b : Blk} (ss : List Nat) (tx : Option (Nat × Nat × Nat)) (h : Halted b) : Halted (raiseTx ss tx b) := by
  by_cases hs : ss = []
  · rwa [raiseTx, if_pos hs]
  · obtain ⟨c, more, first, hc, -, he⟩ := raiseTx_reacts ss tx b hs
    rw [he]
    exact (latches_only none more _).keepsBanks.halted (react_halted _ first (hc.keepsBanks.halted h))

theorem flushLate_down {b : Blk} (h : Down b) : Down (flushLate b) := raiseTx_down _ _ h

theorem flushLate_halted {b : Blk} (h : Halted b) : Halted (flushLate b) := raiseTx_halted _ _ h

theorem flushLate_none {b : Blk} (h : b.ev.late = []) : flushLate b = b := by
  unfold flushLate
  rw [h, raiseTx, if_pos rfl, ← h]

theorem topClass_singleton (b : Blk) (s : Nat) : topClass b [s] = (evGet b s).cls := Nat.zero_max _

/-- A raise of class SAFE or above halts (R350, R453). -/
theorem raise_halts {b : Blk} {s : Nat} (hm : b.sys.mode ∉ [Mode.reset, .boot, .shutdown]) (hs : 3 ≤ (evGet b s).cls) :
    Halted (raise s b) := by
  obtain ⟨c, more, first, hc, -, he⟩ := raiseTx_reacts [s] none b (List.cons_ne_nil _ _)
  rw [topClass_singleton] at he
  refine flushLate_halted ?_
  rw [he]
  refine (latches_only none more _).keepsBanks.halted (react_halts first (le_max_of_le_left hs) ?_)
  rwa [hc.keepsBanks.sys]

/-- A raise of class SHUTDOWN leaves SHUTDOWN (R350, R453). -/
theorem raise_shuts {b : Blk} {s : Nat} (hm : b.sys.mode ∉ [Mode.reset, .shutdown]) (hs : 4 ≤ (evGet b s).cls) : Down (raise s b) := by
  obtain ⟨c, more, first, hc, -, he⟩ := raiseTx_reacts [s] none b (List.cons_ne_nil _ _)
  rw [topClass_singleton] at he
  refine flushLate_down ?_
  rw [he, react, if_pos (le_max_of_le_left hs)]
  refine (latches_only none more _).keepsBanks.down (shutdownActions_enters first c ?_)
  rwa [hc.keepsBanks.sys]

/-- In RESET and BOOT a raise of class SAFE changes no mode (R453). -/
theorem raise_safe_waits {b : Blk} {s : Nat} (hm : b.sys.mode ∈ [Mode.reset, .boot]) (hs : (evGet b s).cls = 3)
    (hl : b.ev.late = []) : (raise s b).sys = b.sys := by
  obtain ⟨c, more, first, hc, hmore, he⟩ := raiseTx_reacts [s] none b (List.cons_ne_nil _ _)
  rw [topClass_singleton, hs] at he hmore
  have hcm : c.sys.mode ∈ [Mode.reset, .boot] := by rwa [hc.keepsBanks.sys]
  have hcr : c.sys.mode = .reset ∨ c.sys.mode = .boot := by simpa using hcm
  have hnone : more = [] := by
    rw [hmore, if_pos (Nat.le_refl 3)]
    exact if_pos (by tauto)
  have hraised : raiseTx [s] none b = c := by
    rw [he, hnone]
    exact safeActions_stays c (by simp; tauto)
  have hlate : c.ev.late = [] := by
    obtain ⟨v, r, n, k, o, e, l, rfl, hv, -⟩ := hc
    exact hv.trans hl
  rw [raise, raiseAll, hraised, flushLate_none hlate, hc.keepsBanks.sys]

end Sys2Proof.Machine

open Sys2Proof Sys2Proof.Machine

/-- Settles O42: a raise that reacts halts the controller, one of class SHUTDOWN shuts it down, and in RESET and BOOT a SAFE waits. -/
theorem reactionsLeaveTheWorkingModes : Obligations.ReactionsLeaveTheWorkingModes := by
  unfold Obligations.ReactionsLeaveTheWorkingModes
  intro b x _
  refine ⟨fun hm hc => raise_halts hm (Nat.le_of_eq hc.symm), fun hm hc => raise_shuts hm (Nat.le_of_eq hc.symm),
    fun hm hc hl => ⟨?_, raise_latches x b⟩⟩
  rw [raise_safe_waits hm hc hl]
end

section
/-!
PROOF. The monitors' faults (O24): each command's condition decides it, and the source that it raises is the one its page counts.
-/
set_option autoImplicit false

open Sys2Proof Sys2Proof.Machine

/-- Settles O24: a frozen input, the end of a dither window, a limiting bias supply and a limiting trim output. -/
theorem monitorFaultsAreShownAndRaised : Obligations.MonitorFaultsAreShownAndRaised := by
  unfold Obligations.MonitorFaultsAreShownAndRaised
  intro x e n s hr i el w low win c
  refine ⟨fun y hy hn hf => ?_, fun ht hw => ?_, ?_, ?_⟩
  · have run : exec (.inputFrozen x) s = .next { s with b := inputFrozen x s.b } := rfl
    subst hy
    have frozen : inputFrozen x s.b = _ := if_pos ⟨hn, hf, hr⟩
    rw [run, frozen]
  · have run : exec (.ditherWindowEnd e) s = .next { s with b := ditherWindowEnd e s.b } := rfl
    have ended : ditherWindowEnd e s.b = _ := if_pos ⟨ht, hw, hr⟩
    rw [run, ended]
    simp only [Bool.and_eq_true]
    rfl
  · have run : exec (.biasFault n) s = .next { s with b := biasFault n s.b } := rfl
    have source : 832 + 7 * n.val + 4 = 836 + 7 * n.val := by omega
    rw [run, biasFault, if_neg hr, source]
    cases h : (evGet s.b (836 + 7 * n)).raw <;> rfl
  · have run : exec (.trmIlim e) s = .next { s with b := trmIlim e s.b } := rfl
    have source : drvSrc (bankOf e) 1 = 545 + 16 * (e.val / 256) := by
      unfold drvSrc bankOf
      omega
    rw [run, trmIlim, if_neg hr]
    dsimp only
    rw [source]
    rfl
end

section
/-!
PROOF. Loop commands and clearing writes (O13): a write that its page's checks pass takes effect, a loop command as the command that
waits for the next tick and a clearing write as zeros in the fields it names.
-/
set_option autoImplicit false

namespace Sys2Proof.Machine

/-! ### A write that takes effect (R13 to R16) -/

/-- Outside RESET and BOOT a host's write with its reserved bits 0 that the register's own checks pass takes effect. -/
theorem pageWrite_effect {page off : Nat} {g : Pg} {i : Nat} {v : Word} {b : Blk} (hp : pgOf page = some (g, i)) (hb : b.heard = true)
    (hr : v.toNat &&& g.reserved i off = 0) (he : ownErrs .m0 g i off v b = []) (ho : off < 4096 ∧ off % 4 = 0) :
    pageWrite page off v b = regDo g i page off v b :=
  pageWrite_hears page off _ g i v b hp ho.1 ho.2 rfl (by simp [hears, hb, hr]) he

theorem pgOf_eng (e : Fin 68) : pgOf (0x20 + e.val) = some (.eng, e.val) := by
  revert e
  decide

theorem pgOf_drv (n : Fin 18) : pgOf (0x80 + n.val) = some (.drv, n.val) := by
  revert n
  decide

theorem pgOf_sns (n : Fin 9) : pgOf (0xA0 + n.val) = some (.sns, n.val) := by
  revert n
  decide

/-! ### The loop commands (R156) -/

section

variable {op : Nat} (hop : op < 4) (scope : Fin 4) (target : BitVec 13)
include hop

theorem loopWord_toNat : (loopWord op scope target).toNat = target.toNat + scope.val * 8192 + op * 65536 := by
  have := target.isLt
  rw [loopWord, BitVec.toNat_ofNat, Nat.mod_eq_of_lt (by omega)]

theorem loopWord_bits : (loopWord op scope target).bits 16 2 = op ∧ (loopWord op scope target).bits 13 2 = scope.val ∧
    (loopWord op scope target).bits 0 13 = target.toNat := by
  have := target.isLt
  unfold Word.bits
  rw [loopWord_toNat hop]
  refine ⟨?_, ?_, ?_⟩ <;> omega

/-- Bits 15 and 18 on of a loop command are 0. -/
theorem loopWord_reserved : (loopWord op scope target).toNat &&& Pg.reserved .lclass 0 0x40 = 0 := by
  have := target.isLt
  have mask : Pg.reserved .lclass 0 0x40 = 2 ^ 15 + (2 ^ 14 - 1) * 2 ^ 18 := by decide
  have low : (loopWord op scope target).toNat < 2 ^ 18 := by rw [loopWord_toNat hop]; omega
  have bit15 : (loopWord op scope target).toNat.testBit 15 = false := by
    rw [loopWord_toNat hop, Nat.testBit_eq_decide_div_mod_eq, decide_eq_false_iff_not]
    omega
  rw [mask]
  refine Nat.eq_of_testBit_eq fun i => ?_
  rw [Nat.testBit_and, Nat.zero_testBit]
  by_cases hi : i < 18
  · by_cases h15 : i = 15
    · rw [h15, bit15, Bool.false_and]
    · have clear : ∀ j : Fin 18, j.val ≠ 15 → (2 ^ 15 + (2 ^ 14 - 1) * 2 ^ 18).testBit j.val = false := by decide
      rw [clear ⟨i, hi⟩ h15, Bool.and_false]
  · rw [Nat.testBit_lt_two_pow (Nat.lt_of_lt_of_le low (Nat.pow_le_pow_right (by decide) (Nat.le_of_not_lt hi))), Bool.false_and]

/-- An accepted loop command waits for the next tick, shows BUSY and clears both counts. -/
theorem loopCmdDo_loopWord (b : Blk) : loopCmdDo (loopWord op scope target) b =
    { setFs [(Reg.LCLASS.CMD_STAT.BUSY, 1), (Reg.LCLASS.CMD_STAT.SKIPPED, 0), (Reg.LCLASS.CMD_STAT.AFFECTED, 0)] b with
      cmd := some { op := op, scope := scope.val, target := target.toNat, tick := b.tick + 1 } } := by
  obtain ⟨h1, h2, h3⟩ := loopWord_bits hop scope target
  unfold loopCmdDo
  rw [h1, h2, h3]
  rfl

theorem loopCmdErrs_nil {b : Blk} (h0 : op ≠ 0) (hbusy : flag b Reg.LCLASS.CMD_STAT.BUSY = false)
    (ht : targetOk scope.val target.toNat = true) (hclose : op = 2 → b.sys.mode.working = true)
    (hmode : op ≠ 2 → b.sys.mode ∉ [Mode.reset, .boot, .safe, .shutdown, .factoryTest])
    (hfits : scope.val = 0 → elementErrs b op target.toNat = []) : loopCmdErrs (loopWord op scope target) b = [] := by
  obtain ⟨h1, h2, h3⟩ := loopWord_bits hop scope target
  have close : ¬ (op = 2 ∧ b.sys.mode.working = false) := fun h => by simp [hclose h.1] at h
  have other : ¬ ((op = 1 ∨ op = 3) ∧ b.sys.mode ∈ [Mode.reset, .boot, .safe, .shutdown, .factoryTest]) := fun h =>
    hmode (by omega) h.2
  have element : (if scope.val = 0 ∧ target.toNat < 4608 then elementErrs b op target.toNat else []) = [] := by
    split
    · next h => exact hfits h.1
    · rfl
  unfold loopCmdErrs
  dsimp only
  rw [h1, h2, h3, if_neg close, if_neg other, element]
  simp [hbusy, ht, h0]

theorem pageWrite_loopWord {b : Blk} (hb : b.heard = true) (he : loopCmdErrs (loopWord op scope target) b = []) :
    pageWrite 0xC0 0x40 (loopWord op scope target) b = loopCmdDo (loopWord op scope target) b :=
  pageWrite_effect (g := .lclass) (by decide) hb (loopWord_reserved hop scope target) he (by decide)

end

end Sys2Proof.Machine

open Sys2Proof Sys2Proof.Machine

/-- Settles O13: a loop command that passes its checks waits, and each clearing write puts zeros. -/
theorem loopCommandsAndClearingWrites : Obligations.LoopCommandsAndClearingWrites := by
  unfold Obligations.LoopCommandsAndClearingWrites
  refine ⟨fun scope target s hb hbusy ht => ?_, fun e n m w page v s hb => ?_⟩
  · intro waits fits
    have quiet {ms : List Mode} (h : s.b.sys.mode ∉ ms) : s.b.sys.mode ∉ [Mode.reset, .boot] ++ ms :=
      fun hm => (List.mem_append.1 hm).elim (heard_modes hb) h
    have waiting {op : Nat} (hop : op < 4) (h0 : op ≠ 0) (hclose : op = 2 → s.b.sys.mode.working = true)
        (hmode : op ≠ 2 → s.b.sys.mode ∉ [Mode.safe, .shutdown, .factoryTest]) (hfits : fits op) :
        Host.Outcome.next { s with b := pageWrite 0xC0 0x40 (loopWord op scope target) s.b } = waits op := by
      rw [pageWrite_loopWord hop scope target hb (loopCmdErrs_nil hop scope target h0 hbusy ht hclose (fun h => quiet (hmode h)) hfits),
        loopCmdDo_loopWord hop]
    exact ⟨fun hm hf => waiting (by decide) (by decide) (fun h => absurd h (by decide)) (fun _ => hm) hf,
      fun hm hf => waiting (by decide) (by decide) (fun _ => hm) (fun h => absurd rfl h) hf,
      fun hm hf => waiting (by decide) (by decide) (fun h => absurd h (by decide)) (fun _ => hm) hf⟩
  · intro zeros
    obtain ⟨diag, peak, first⟩ : (∀ e : Fin 68, (0x80000000 : Word).toNat &&& Pg.reserved .eng e.val 0x4C = 0) ∧
        (∀ n : Fin 18, (0x80000000 : Word).toNat &&& Pg.reserved .drv n.val 0x58 = 0) ∧
        (∀ m : Fin 9, (0x80000000 : Word).toNat &&& Pg.reserved .sns m.val 0x5C = 0) := by decide
    have takes {page off : Nat} {g : Pg} {i : Nat} {v : Word} {c : Blk} (hp : pgOf page = some (g, i))
        (hr : v.toNat &&& g.reserved i off = 0) (he : ownErrs .m0 g i off v s.b = []) (ho : off < 4096 ∧ off % 4 = 0)
        (hc : regDo g i page off v s.b = c) :
        (Host.Outcome.next { s with b := pageWrite page off v s.b } : Host.Outcome State Fault Refusal) = .next { s with b := c } := by
      rw [pageWrite_effect hp hb hr he ho, hc]
    refine ⟨takes (g := .lclass) (i := 0) (by decide) (by decide) rfl (by decide) rfl,
      takes (pgOf_eng e) (diag e) rfl (by decide) rfl,
      takes (pgOf_drv n) (peak n) rfl (by decide) rfl, takes (pgOf_sns m) (first m) rfl (by decide) rfl,
      takes (g := .fcap) (i := 0) (by decide) (by decide) rfl (by decide) rfl,
      takes (g := .xbar) (i := 0) (by decide) (by decide) rfl (by decide) rfl,
      takes (g := .xbar) (i := 0) (by decide) (by decide) rfl (by decide) rfl,
      takes (g := .xbar) (i := 0) (by decide) (by decide) rfl (by decide) rfl, fun hw hp hv => ?_⟩
    obtain ⟨⟨g, i⟩, hg⟩ := Option.isSome_iff_exists.1 hp
    have run : exec (.errCountClear w page v) s = .next { s with b := hostWrite w (page.val * 4096 + 0x24) v s.b } := rfl
    have hd : (page.val * 4096 + 0x24) / 4096 = page.val := by omega
    have hm : (page.val * 4096 + 0x24) % 4096 = 0x24 := by omega
    have heard : hears 0xFFFF0000 v s.b = true := by simp [hears, hb, hv]
    have write := hostWrite_hears w (page.val * 4096 + 0x24) 0xFFFF0000 g i v s.b (by rw [hd, hg]) hw (by rw [hm]) (by rw [hm]; rfl)
      heard (by rw [hm]; rfl)
    rw [hd, hm] at write
    rw [run, write]
    rfl
end

section
/-!
PROOF. The registers of the banks and monitors (O25): a window of a DRV page has no reserved bits, one check and one effect, and
each effect changes the fields, the bank or the elements that it names.
-/
set_option autoImplicit false

namespace Sys2Proof.Machine

/-! ### Changes of listed elements as `ElemsTake` says them -/

/-- Listed elements take a change that is made once and for all; an element not listed takes it where it is no change. -/
theorem updElems_elemsTake {p : Nat → Prop} {es : List Nat} {f : Nat → Elem → Elem} {b : Blk} (hf : ∀ e x, f e (f e x) = f e x)
    (hes : ∀ e ∈ es, p e) (hp : ∀ e, p e → e ∉ es → f e (b.elem e) = b.elem e) : ElemsTake p f b (updElems es f b) := by
  refine ⟨updElems_eq_elems es f b, fun e => ?_⟩
  rw [elem_updElems es f hf]
  refine ⟨fun h => ?_, fun h => if_neg fun he => h (hes e he)⟩
  split
  · rfl
  · next he => exact (hp e h he).symm

theorem updElem_elemsTake (k : Nat) (g : Elem → Elem) (b : Blk) : ElemsTake (fun e => e = k) (fun _ x => g x) b (updElem k g b) := by
  refine ⟨rfl, fun e => ?_⟩
  rw [elem_updElem]
  exact ⟨fun h => by rw [if_pos h, h], fun h => if_neg h⟩

theorem elemsTake_none {p : Nat → Prop} {f : Nat → Elem → Elem} (b : Blk) (h : ∀ e, ¬ p e) : ElemsTake p f b b :=
  ⟨rfl, fun e => ⟨fun he => absurd he (h e), fun _ => rfl⟩⟩

/-! ### The windows of a DRV page (R97) -/

/-- The fields of SPAN, HOST_CODE, LAUNCH and ARM fill their words. -/
theorem fields_drv_window {off : Nat} (i : Nat) (h : (0x80 ≤ off ∧ off < 0xA0) ∨ (0x400 ≤ off ∧ off < 0xC20)) :
    ∃ fs, Pg.fields .drv i off = some fs ∧ resvMask fs = 0 := by
  have word (k : Nat) : (off - k) % 4 / 4 = 0 := by omega
  simp only [Pg.fields, Pg.rows, Reg.DRV.rows, RegRow.index, List.findSome?_cons, List.findSome?_nil, true_or, and_true, word]
  simp (disch := omega) only [if_neg, Option.map_none]
  by_cases h1 : off < 0xA0
  · rw [if_pos (by omega)]
    exact ⟨_, rfl, rfl⟩
  by_cases h2 : off < 0x800
  · rw [if_neg (by omega), if_pos (by omega)]
    exact ⟨_, rfl, rfl⟩
  by_cases h3 : off < 0xC00
  · rw [if_neg (by omega), if_neg (by omega), if_pos (by omega)]
    exact ⟨_, rfl, rfl⟩
  · rw [if_neg (by omega), if_neg (by omega), if_neg (by omega), if_pos (by omega)]
    exact ⟨_, rfl, rfl⟩

/-- No bit of SPAN, HOST_CODE, LAUNCH and ARM is reserved. -/
theorem reserved_drv_window {off : Nat} (i : Nat) (h : (0x80 ≤ off ∧ off < 0xA0) ∨ (0x400 ≤ off ∧ off < 0xC20)) :
    Pg.reserved .drv i off = 0 := by
  obtain ⟨fs, hf, hm⟩ := fields_drv_window i h
  unfold Pg.reserved
  split
  case h_13 => rw [hf]; exact hm
  all_goals omega

/-- In a window of a DRV page the window's own check and effect decide. -/
theorem drv_window {m : Master} {i page off : Nat} {v : Word} {b c : Blk} {es : List Nat} (ho : 0x40 ≤ off)
    (he : arrayErrs m .drv i off v b = es) (hd : arrayDo .drv i off v b = some c) :
    ownErrs m .drv i off v b = es ∧ regDo .drv i page off v b = c := by
  refine ⟨?_, ?_⟩
  · rw [ownErrs, if_neg (Nat.not_lt.2 ho), he]
    rfl
  · rw [regDo, if_neg (Nat.not_lt.2 ho)]
    simp only [planeDo, serviceDo, hd, Option.getD_some]

section

variable {m : Master} {i page off : Nat} {v : Word} {b : Blk}

theorem drv_span_window (h : 0x80 ≤ off ∧ off < 0xA0) : ownErrs m .drv i off v b = spanErrs i ((off - 0x80) / 4) v b ∧
    regDo .drv i page off v b = spanDo i ((off - 0x80) / 4) v b :=
  drv_window (by omega) (by simp (disch := omega) only [arrayErrs, if_neg, if_pos])
    (by simp (disch := omega) only [arrayDo, if_neg, if_pos])

theorem drv_host_window (h : 0x400 ≤ off ∧ off < 0x800) : ownErrs m .drv i off v b = hostCodeErrs b ∧
    regDo .drv i page off v b = hostCodeDo i ((off - 0x400) / 4) v b :=
  drv_window (by omega) (by simp (disch := omega) only [arrayErrs, if_neg, if_pos])
    (by simp (disch := omega) only [arrayDo, if_neg, if_pos])

theorem drv_launch_window (h : 0x800 ≤ off ∧ off < 0xC00) : ownErrs m .drv i off v b = launchShadowErrs m ∧
    regDo .drv i page off v b = launchShadowDo i ((off - 0x800) / 4) v b :=
  drv_window (by omega) (by simp (disch := omega) only [arrayErrs, if_neg, if_pos])
    (by simp (disch := omega) only [arrayDo, if_neg, if_pos])

theorem drv_arm_window (h : 0xC00 ≤ off ∧ off < 0xC20) : ownErrs m .drv i off v b = launchShadowErrs m ∧
    regDo .drv i page off v b = armDo i ((off - 0xC00) / 4) v b :=
  drv_window (by omega) (by simp (disch := omega) only [arrayErrs, if_neg, if_pos])
    (by simp (disch := omega) only [arrayDo, if_neg, if_pos])

end

/-! ### Spans (R75, R76) -/

/-- The elements whose span bit a write of word `k` of bank `n` changes. -/
def spanTurned (n k : Nat) (v : Word) (b : Blk) : List Nat :=
  (List.range 32).filterMap fun j =>
    if v.bit j ≠ (natBits (getF b (Reg.DRV.SPAN.SPAN n k)) j 1 == 1) then some (256 * n + 32 * k + j) else none

theorem mem_spanTurned (n k : Nat) (v : Word) (b : Blk) (e : Nat) : e ∈ spanTurned n k v b ↔
    e / 32 = 8 * n + k ∧ v.bit (e % 32) ≠ (natBits (getF b (Reg.DRV.SPAN.SPAN n k)) (e % 32) 1 == 1) := by
  simp only [spanTurned, List.mem_filterMap, List.mem_range, Option.ite_none_right_eq_some, Option.some.injEq]
  constructor
  · rintro ⟨j, hj, hv, rfl⟩
    have hm : (256 * n + 32 * k + j) % 32 = j := by omega
    exact ⟨by omega, by rwa [hm]⟩
  · rintro ⟨hd, hv⟩
    exact ⟨e % 32, by omega, hv, by omega⟩

theorem spanErrs_nil {n k : Nat} {v : Word} {b : Blk} (h : ∀ e ∈ spanTurned n k v b,
    closed b e = false ∧ (b.bank n).cleared = false ∧ (b.elem e).drv.seq = none) : spanErrs n k v b = [] := by
  have hc : anyClosed b (spanTurned n k v b) = false := by
    rw [anyClosed, List.any_eq_false]
    exact fun e he => by simp [(h e he).1]
  have hs : (spanTurned n k v b).any (fun e => (b.elem e).drv.seq.isSome) = false := by
    rw [List.any_eq_false]
    exact fun e he => by simp [(h e he).2.2]
  have hk : ¬ (spanTurned n k v b ≠ [] ∧ (b.bank n).cleared = true) := fun ⟨hn, ht⟩ => by
    obtain ⟨e, he⟩ := List.exists_mem_of_ne_nil _ hn
    simp [(h e he).2.1] at ht
  unfold spanErrs
  dsimp only
  rw [← spanTurned, hc, hs, if_neg hk]
  rfl

theorem spanDo_takes (n k : Nat) (v : Word) (b : Blk) :
    ElemsTake (fun e => (b.bank n).released = true ∧ e / 32 = 8 * n + k ∧
        v.bit (e % 32) ≠ (natBits (getF b (Reg.DRV.SPAN.SPAN n k)) (e % 32) 1 == 1))
      (fun _ x => { x with drv := { x.drv with
        seq := some { start := b.tick + 1, src := x.drv.trmLive, kept := x.drv.trmTick, switched := false } } })
      (setF (Reg.DRV.SPAN.SPAN n k) v.toNat b) (spanDo n k v b) := by
  unfold spanDo
  dsimp only
  rw [← spanTurned, bank_setF]
  split
  · next hr =>
    exact updElems_elemsTake (fun _ _ => rfl) (fun e he => ⟨hr, (mem_spanTurned n k v b e).1 he⟩)
      fun e he hn => absurd ((mem_spanTurned n k v b e).2 he.2) hn
  · next hr => exact elemsTake_none _ fun e he => hr he.1

/-! ### Rails and ARM words (R71, R82) -/

theorem drvCfgDo_takes (n : Nat) (v : Word) (b : Blk) :
    ElemsTake (fun e => v.bit 2 = false ∧ bankOf e = n) (fun _ x => { x with sns := { x.sns with dithNow := false } })
      (setFs [(Reg.DRV.CFG.RAIL n, v.bits 0 1), (Reg.DRV.CFG.CLR_MODE n, v.bits 1 1), (Reg.DRV.CFG.DITH_EN n, v.bits 2 1)] b)
      (drvCfgDo n v b) := by
  unfold drvCfgDo
  change ElemsTake _ _ _ (if v.bit 2 then _ else _)
  split
  · next h => exact elemsTake_none _ fun e he => by simp [h] at he
  · next h =>
    refine updElems_elemsTake (fun _ _ => rfl) (fun e he => ⟨by simpa using h, ((mem_bankListed _ n e).1 he).2⟩) fun e he hn => ?_
    have hl : e ∉ b.listed := fun hl => hn ((mem_bankListed _ n e).2 ⟨hl, he.2⟩)
    have unlisted (c : Blk) (hc : c.elem e = Elem.reset) :
        { c.elem e with sns := { (c.elem e).sns with dithNow := false } } = c.elem e := by
      rw [hc]
      rfl
    exact unlisted _ (elem_of_not_listed b e hl)

theorem armDo_takes (n i : Nat) (v : Word) (b : Blk) :
    ElemsTake (fun e => e / 32 = 8 * n + i) (fun e x => { x with drv := { x.drv with arm := v.bit (e % 32) } }) b (armDo n i v b) := by
  have mem (e : Nat) : e ∈ (List.range 32).map (fun j => 256 * n + 32 * i + j) ↔ e / 32 = 8 * n + i := by
    simp only [List.mem_map, List.mem_range]
    exact ⟨by rintro ⟨j, hj, rfl⟩; omega, fun h => ⟨e % 32, by omega, by omega⟩⟩
  exact updElems_elemsTake (fun _ _ => rfl) (fun e he => (mem e).1 he) fun e he hn => absurd ((mem e).2 he) hn

/-- The sequencer's and the planner's writes of a DRV page's windows take effect in BOOT too. -/
theorem hostWrite_drv_window {m : Master} {n : Fin 18} {off : Nat} {v : Word} {b : Blk} (hm : m = .m2 ∨ m = .m3)
    (hr : b.sys.mode ≠ .reset) (h4 : off % 4 = 0) (ho : 0x800 ≤ off ∧ off < 0xC20)
    (he : ownErrs m .drv n.val off v b = launchShadowErrs m) :
    hostWrite m ((0x80 + n.val) * 4096 + off) v b = regDo .drv n.val (0x80 + n.val) off v b := by
  have hd : ((0x80 + n.val) * 4096 + off) / 4096 = 0x80 + n.val := by omega
  have hl : ((0x80 + n.val) * 4096 + off) % 4096 = off := by omega
  have hw : off / 4 * 4 = off := by omega
  have hb : bootErrs m ((0x80 + n.val) * 4096 + off) b = [] := by
    rcases hm with rfl | rfl <;> simp [bootErrs, codeIf]
  have hs : launchShadowErrs m = [] := if_pos hm
  have hc : regErrs m .drv n.val (0x80 + n.val) off v b = [] := by
    rw [hs, ownErrs] at he
    rw [regErrs, hw, reserved_drv_window n.val (.inr ⟨by omega, ho.2⟩), hb, he]
    simp [codeIf, h4]
  have hm4 : m ≠ .m4 := by
    rcases hm with rfl | rfl <;> decide
  have write := hostWrite_accepted m ((0x80 + n.val) * 4096 + off) v b .drv n.val hr hm4
  rw [hd, hl, hc] at write
  exact write (pgOf_drv n) rfl

end Sys2Proof.Machine

open Sys2Proof Sys2Proof.Machine

/-- Settles O25: each register's check passes under its premises, and its effect is the one stated. -/
theorem bankRegistersTakeTheirWrites : Obligations.BankRegistersTakeTheirWrites := by
  unfold Obligations.BankRegistersTakeTheirWrites
  intro m n k row p off v s bk old turned put
  have answers {c d : Blk} (h : c = d) :
      (Host.Outcome.next { s with b := c } : Host.Outcome State Fault Refusal) = .next { s with b := d } := by rw [h]
  refine ⟨fun hh hc => ?_, fun hh hc => ?_, fun hb hm hl => ?_, fun hb ht => ?_, fun hm => ?_, fun hm hr h4 h1 h2 => ?_,
    fun hm hr h4 h1 h2 => ?_, fun hh h0 h3 hc => ?_⟩
  · have reserved : ∀ n : Fin 18, Pg.reserved .drv n.val 0x40 = 0xFFFFFFF8 := by decide
    have errs : drvCfgErrs n.val v s.b = [] := if_neg fun ⟨hv, hk⟩ => by simp [hc hv] at hk
    have write := pageWrite_hears (0x80 + n.val) 0x40 _ .drv n.val v s.b (pgOf_drv n) (by decide) rfl (reserved n) hh errs
    exact ⟨{ s with b := drvCfgDo n.val v s.b }, answers write, rfl, drvCfgDo_takes n.val v s.b⟩
  · have errs : drvEnErrs n.val v s.b = [] := if_neg fun ⟨hv, hk, hcl⟩ => by simp [hc hv hk] at hcl
    have write := pageWrite_hears (0x80 + n.val) 0x08 _ .drv n.val v s.b (pgOf_drv n) (by decide) rfl rfl hh errs
    exact answers write
  · have reserved : ∀ n : Fin 18, (1 : Word).toNat &&& Pg.reserved .drv n.val 0x48 = 0 := by decide
    have errs : rearmErrs 1 s.b = [] := by simp [rearmErrs, hm, hl]
    have write := pageWrite_effect (pgOf_drv n) hb (reserved n) errs (by decide)
    exact answers write
  · have at_k : (0x80 + 4 * k.val - 0x80) / 4 = k.val := by omega
    have window : 0x80 ≤ 0x80 + 4 * k.val ∧ 0x80 + 4 * k.val < 0xA0 := by omega
    obtain ⟨errs, effect⟩ := drv_span_window (m := .m0) (i := n.val) (page := 0x80 + n.val) (v := v) (b := s.b) window
    rw [at_k] at errs effect
    rw [spanErrs_nil fun e he => ht e ((mem_spanTurned n.val k.val v s.b e).1 he)] at errs
    have write := (pageWrite_effect (pgOf_drv n) hb (by rw [reserved_drv_window n.val (.inl window)]; exact Nat.and_zero _) errs
      (by omega)).trans effect
    exact ⟨{ s with b := spanDo n.val k.val v s.b }, answers write, rfl,
      spanDo_takes n.val k.val v s.b⟩
  · have at_row : (0x400 + 4 * row.val - 0x400) / 4 = row.val := by omega
    have window : 0x400 ≤ 0x400 + 4 * row.val ∧ 0x400 + 4 * row.val < 0x800 := by omega
    obtain ⟨errs, effect⟩ := drv_host_window (m := .m0) (i := n.val) (page := 0x80 + n.val) (v := v) (b := s.b) window
    rw [at_row] at effect
    have write := (pageWrite_effect (pgOf_drv n) (by simp [Blk.heard, hm])
      (by rw [reserved_drv_window n.val (.inr ⟨by omega, by omega⟩)]; exact Nat.and_zero _) (errs.trans (if_pos hm)) (by omega)).trans effect
    refine (answers write).trans ?_
    unfold hostCodeDo
    simp only [put, bk, bank_setF, Bool.and_eq_true, Bool.not_eq_true', if_true]
    rfl
  · obtain ⟨errs, effect⟩ := drv_launch_window (m := m) (i := n.val) (page := 0x80 + n.val) (v := v) (b := s.b) ⟨h1, h2⟩
    have write := (hostWrite_drv_window hm hr h4 ⟨h1, by omega⟩ errs).trans effect
    exact ⟨{ s with b := launchShadowDo n.val ((off.toNat - 0x800) / 4) v s.b }, answers write, rfl,
      updElem_elemsTake _ _ s.b⟩
  · obtain ⟨errs, effect⟩ := drv_arm_window (m := m) (i := n.val) (page := 0x80 + n.val) (v := v) (b := s.b) ⟨h1, h2⟩
    have write := (hostWrite_drv_window hm hr h4 ⟨by omega, h2⟩ errs).trans effect
    exact ⟨{ s with b := armDo n.val ((off.toNat - 0xC00) / 4) v s.b }, answers write, rfl,
      armDo_takes n.val _ v s.b⟩
  · have reserved : ∀ p : Fin 9, Pg.reserved .sns p.val 0x40 = 0xFFFFFFE0 := by decide
    have errs : snsCfgErrs p.val v s.b = [] := by
      have open2 : ¬ (v.bits 0 2 ≠ getF s.b (Reg.SNS.CFG.PD_BIAS p.val) ∧
          (bankClosed s.b (2 * p.val) = true ∨ bankClosed s.b (2 * p.val + 1) = true)) := fun ⟨hv, hk⟩ => by
        simp [hc hv] at hk
      unfold snsCfgErrs
      rw [if_neg (by tauto), if_neg open2]
      rfl
    have write := pageWrite_hears (0xA0 + p.val) 0x40 _ .sns p.val v s.b (pgOf_sns p) (by decide) rfl (reserved p) hh errs
    exact answers write
end

section
/-!
PROOF. The comparator and the strobe (O30): when the armed frame's comparator matches, and what the strobe makes of each output, however
often the block lists it.
-/
set_option autoImplicit false

namespace Sys2Proof.Machine

/-! ### The match (R253, R272, R311) -/

theorem matchEdges_eq (b : Blk) (l : Nat) :
    let past : Int := b.time.ns - ((l : Int) - 40)
    let ahead : Int := if flag b Reg.TIME.CFG.FMT = false then -past
      else if past % 2 ^ 32 < 2 ^ 31 then 0 else 2 ^ 32 - past % 2 ^ 32
    matchEdges b l = ceilDiv (ahead * 2 ^ 28 - b.time.frac).toNat (getF b Reg.TIME.INCR.INCR) := by
  intro past ahead
  have count : (b.time.ns : Int) - l + 40 = past := by omega
  have second : (l : Int) - 40 - b.time.ns = -past := by omega
  unfold matchEdges
  rw [count, second]
  cases h : flag b Reg.TIME.CFG.FMT <;> simp [ahead, h]

theorem comparatorMatch_armed {b : Blk} {f : Frame} (hq : b.sched.queue[firstUnlaunched b]? = some f) (hs : f.stage = .armed)
    (hr : b.sys.mode ≠ .reset) (ht : b.edge + matchEdges b f.launch < 250) :
    comparatorMatch b = matched f (toEdge (b.edge + matchEdges b f.launch) b) := by
  unfold comparatorMatch
  rw [hq]
  exact (if_pos ⟨hs, hr⟩).trans (if_pos ht)

/-- A frame that needs no COMMIT or has it launches, unless FREEZE_N is low. -/
theorem matched_committed {f : Frame} {b : Blk} (h : (f.casc = false ∧ chainN b = 0) ∨ f.commit = true) : matched f b =
    if b.sys.frozenLow = false then launch f b
    else if f.casc then suppress f b else raiseAll (994 :: withdrawn2 b) (withdrawAll b) := by
  have committed : ((f.casc || decide (0 < chainN b)) && !f.commit) = false := by
    rcases h with ⟨hc, hn⟩ | hc
    · simp [hc, hn]
    · simp [hc]
  unfold matched
  rw [committed]
  cases b.sys.frozenLow <;> cases f.casc <;> simp

/-! ### The elements of a strobe (R81, R84) -/

/-- The moved elements of a frame. -/
def movedElems (f : Frame) : List Nat := (f.states.zipIdx.filter fun x => natBits x.1.toNat 4 1 == 1).map Prod.snd

theorem mem_movedElems (f : Frame) (e : Nat) : e ∈ movedElems f ↔ natBits (f.states.getD e 0).toNat 4 1 = 1 := by
  simp only [movedElems, List.mem_map, List.mem_filter, beq_iff_eq, Prod.exists, exists_eq_right, List.mem_zipIdx_iff_getElem?,
    List.getD_eq_getElem?_getD]
  cases h : f.states[e]? with
  | none => simp [natBits]
  | some x => simp

/-- The moved elements as the strobe looks them up. -/
def movedMarks (f : Frame) : Array Bool :=
  (movedElems f).foldl (fun (a : Array Bool) e => a.setIfInBounds e true) (List.replicate 4608 false).toArray

theorem getD_foldl_mark (l : List Nat) (a : Array Bool) (e : Nat) (he : e < a.size) :
    (l.foldl (fun (a : Array Bool) e => a.setIfInBounds e true) a).getD e false = (decide (e ∈ l) || a.getD e false) := by
  induction l generalizing a with
  | nil => simp
  | cons i l ih =>
    rw [List.foldl_cons, ih _ (by simpa using he)]
    by_cases h : e = i
    · subst h
      simp [he]
    · simp [h, Ne.symm h]

theorem getD_movedMarks (f : Frame) {e : Nat} (he : e < 4608) : (movedMarks f).getD e false = decide (e ∈ movedElems f) := by
  have size : e < (List.replicate 4608 false).toArray.size := by rwa [List.size_toArray, List.length_replicate]
  have unmarked (n : Nat) : (List.replicate n false).toArray.getD e false = false := by
    simp only [List.toArray_replicate, Array.getD_eq_getD_getElem?, Array.getElem?_replicate]
    split <;> rfl
  rw [movedMarks, getD_foldl_mark _ _ _ size, unmarked, Bool.or_false]

/-- The armed elements of the banks that take the strobe. -/
def strobeGo (b : Blk) : List Nat :=
  (b.listed.filter fun e => (b.elem e).drv.arm).filter fun e => !bankShut b (bankOf e)

theorem mem_strobeGo {b : Blk} {e : Nat} (hs : bankShut b (bankOf e) = false) : e ∈ strobeGo b ↔ (b.elem e).drv.arm = true := by
  simp only [strobeGo, List.mem_filter, hs, Bool.not_false, and_true]
  refine ⟨And.right, fun h => ⟨?_, h⟩⟩
  by_contra hl
  rw [elem_of_not_listed b e hl] at h
  exact absurd h (by decide)

/-! ### The strobe (R81, R84, R136, R172, R226) -/

section

variable (b : Blk) (f : Frame) (mv : Bool) (e : Nat)

/-- What repeating the strobe on an element finds as it was. -/
theorem launchElem_iterate (n : Nat) (x : Elem) :
    let z := (launchElem b f mv e)^[n] x
    z.drv.htrSh = x.drv.htrSh ∧ z.drv.trmSh = x.drv.trmSh ∧ (x.drv.seq = none → z.drv.seq = none) ∧ (mv = false → z.lp.st = x.lp.st) := by
  induction n with
  | zero => exact ⟨rfl, rfl, id, fun _ => rfl⟩
  | succ n ih =>
    obtain ⟨hh, ht, hq, hl⟩ := ih
    rw [Function.iterate_succ_apply']
    refine ⟨hh, ht, fun h => ?_, fun h => ?_⟩
    · exact congrArg (Option.map _) (hq h)
    · rw [← hl h, h]
      rfl

/-- What the strobe makes of an element `x` that it reaches. -/
structure Launched (x y : Elem) : Prop where
  moved : mv = true → y.lp.st = .transit ∧ y.trk = some (newTracker f .tracking)
  unmoved : mv = false → y.lp.st = x.lp.st ∧ y.trk = none
  heater : y.drv.htrLive = limitHtr b e x.drv.htrSh.toNat
  trim : x.drv.seq = none → y.drv.trmLive = x.drv.trmSh

/-- The strobe launches an element that it reaches, however often. -/
theorem launchElem_launches {n : Nat} (hn : n ≠ 0) (x : Elem) : Launched b f mv e x ((launchElem b f mv e)^[n] x) := by
  obtain ⟨k, rfl⟩ := Nat.exists_eq_succ_of_ne_zero hn
  obtain ⟨hh, ht, hq, hl⟩ := launchElem_iterate b f mv e k x
  rw [Function.iterate_succ_apply']
  generalize (launchElem b f mv e)^[k] x = z at hh ht hq hl
  refine ⟨fun h => ?_, fun h => ?_, ?_, fun h => ?_⟩
  · rw [h]
    exact ⟨rfl, rfl⟩
  · rw [← hl h, h]
    exact ⟨rfl, rfl⟩
  · rw [← hh]
    rfl
  · rw [← ht]
    have hz : (z.drv.runTo b.edge).seq.isSome = false := congrArg Option.isSome (hq h)
    exact if_neg (by rw [hz]; decide)

end

/-- The armed outputs have taken their launch codes. -/
def strobeTaken (f : Frame) (b : Blk) : Blk :=
  updElems (strobeGo b) (fun e x => launchElem b f ((movedMarks f).getD e false) e x) b

/-- The block after the strobe, before the shut banks' sources are raised. -/
def struck (f : Frame) (b : Blk) : Blk :=
  clearArms { updElems ((movedElems f).filter fun e => decide (e ∉ strobeGo b))
    (fun _ x => { x with trk := some (newTracker f .notLaunched) }) (strobeTaken f b) with strobe := none }

theorem strobe_eq (f : Frame) (b : Blk) : strobe f b =
    raiseAll (((List.range 18).filter fun n => bankShut (struck f b) n).map fun n => 544 + 16 * n + 4) (struck f b) := rfl

theorem struck_keeps (f : Frame) (b : Blk) :
    (struck f b).strobe = none ∧ (struck f b).banks = b.banks ∧ (struck f b).ev = b.ev := by
  have keeps (es : List Nat) (g : Nat → Elem → Elem) (c : Blk) :
      (updElems es g c).strobe = c.strobe ∧ (updElems es g c).banks = c.banks ∧ (updElems es g c).ev = c.ev := by
    rw [updElems_eq_elems]
    exact ⟨rfl, rfl, rfl⟩
  unfold struck strobeTaken clearArms
  simp only [keeps, and_self]

/-- The strobe with every bank open and nothing waiting to be raised. -/
theorem strobe_open {f : Frame} {b : Blk} (hs : ∀ k < 18, bankShut b k = false) (hl : b.ev.late = []) : strobe f b = struck f b := by
  obtain ⟨-, hb, he⟩ := struck_keeps f b
  have same (k : Nat) : bankShut (struck f b) k = bankShut b k := by
    rw [bankShut, bank_of_banks hb]
    rfl
  have shut : (List.range 18).filter (fun n => bankShut (struck f b) n) = [] :=
    List.filter_eq_nil_iff.2 fun k hk => by simp [same, hs k (List.mem_range.1 hk)]
  rw [strobe_eq, shut]
  exact flushLate_none (he ▸ hl)

/-- Armed elements of an open bank launch, moved ones that are not armed end as not launched, and no other changes. -/
theorem elem_struck {f : Frame} {b : Blk} {e : Nat} (he : e < 4608) (hs : bankShut b (bankOf e) = false) :
    let x := b.elem e
    let y := (struck f b).elem e
    y.drv.arm = false ∧
    (x.drv.arm = true → Launched b f (decide (e ∈ movedElems f)) e x y) ∧
    (x.drv.arm = false → e ∈ movedElems f → y = { x with trk := some (newTracker f .notLaunched) }) ∧
    (x.drv.arm = false → e ∉ movedElems f → y = x) := by
  intro x y
  let z := (updElems ((movedElems f).filter fun e => decide (e ∉ strobeGo b))
    (fun _ x => { x with trk := some (newTracker f .notLaunched) }) (strobeTaken f b)).elem e
  have cleared : y = { z with drv := { z.drv with arm := false } } := elem_clearArms _ e
  have kept (h : z.drv.arm = false) : y = z := by rw [cleared, ← h]
  have taken : (strobeTaken f b).elem e = (launchElem b f (decide (e ∈ movedElems f)) e)^[(strobeGo b).count e] x := by
    rw [strobeTaken, elem_updElems_iterate, getD_movedMarks f he]
  have missed : z = if e ∈ movedElems f ∧ e ∉ strobeGo b then
      { (strobeTaken f b).elem e with trk := some (newTracker f .notLaunched) } else (strobeTaken f b).elem e := by
    have hm := elem_updElems ((movedElems f).filter fun e => decide (e ∉ strobeGo b))
      (fun _ x => { x with trk := some (newTracker f .notLaunched) }) (fun _ _ => rfl) (strobeTaken f b) e
    simpa only [List.mem_filter, decide_eq_true_eq] using hm
  have waits (ha : x.drv.arm = false) : e ∉ strobeGo b ∧ (strobeTaken f b).elem e = x := by
    have hg : e ∉ strobeGo b := fun hg => by simp [(mem_strobeGo hs).1 hg, x] at ha
    rw [taken, List.count_eq_zero_of_not_mem hg]
    exact ⟨hg, rfl⟩
  refine ⟨by rw [cleared], fun ha => ?_, fun ha hm => ?_, fun ha hm => ?_⟩
  · have hg : e ∈ strobeGo b := (mem_strobeGo hs).2 ha
    obtain ⟨k, hk⟩ := Nat.exists_eq_succ_of_ne_zero (Nat.ne_of_gt (List.count_pos_iff.2 hg))
    rw [if_neg fun h => h.2 hg, taken, hk] at missed
    have arm : z.drv.arm = false := by
      rw [missed, Function.iterate_succ_apply']
      rfl
    rw [kept arm, missed]
    exact launchElem_launches b f _ e (Nat.succ_ne_zero k) x
  · obtain ⟨hg, ht⟩ := waits ha
    rw [if_pos ⟨hm, hg⟩, ht] at missed
    exact (kept (by rw [missed]; exact ha)).trans missed
  · obtain ⟨-, ht⟩ := waits ha
    rw [if_neg fun h => hm h.1, ht] at missed
    exact (kept (by rw [missed]; exact ha)).trans missed

end Sys2Proof.Machine

open Sys2Proof Sys2Proof.Machine

/-- Settles O30: the match at the first edge due, what it does to the frame, and the strobe element by element. -/
theorem theComparatorLaunchesTheArmedFrame : Obligations.TheComparatorLaunchesTheArmedFrame := by
  unfold Obligations.TheComparatorLaunchesTheArmedFrame
  intro s f past ahead n c
  have due : matchEdges s.b f.launch = n := matchEdges_eq s.b f.launch
  refine ⟨fun hq hs hr ht hc => ?_, fun b e hs hl => ?_⟩
  · have run : exec .comparatorMatch s = .next { s with b := comparatorMatch s.b } := rfl
    have reached := comparatorMatch_armed hq hs hr (due.symm ▸ ht)
    have frozen : c.sys.frozenLow = s.b.sys.frozenLow := rfl
    rw [due, matched_committed (f := f) (b := c) hc, frozen] at reached
    exact ⟨fun h => by rw [run, reached, if_pos h], fun h => by rw [run, reached, if_neg (by simp [h])]⟩
  · intro x y moved
    obtain ⟨harm, hgo, hmiss, hstay⟩ := elem_struck (f := f) e.isLt (hs (bankOf e) (Nat.div_lt_of_lt_mul e.isLt))
    rw [← strobe_open hs hl] at harm hgo hmiss hstay
    have named : moved ↔ e.val ∈ movedElems f := (mem_movedElems f e).symm
    refine ⟨?_, harm, fun ha hm => (hgo ha).moved (decide_eq_true (named.1 hm)),
      fun ha hm => (hgo ha).unmoved (decide_eq_false fun h => hm (named.2 h)), fun ha => ⟨(hgo ha).heater, (hgo ha).trim⟩,
      fun ha hm => hmiss ha (named.1 hm), fun ha hm => hstay ha fun h => hm (named.2 h)⟩
    rw [strobe_open hs hl]
    exact (struck_keeps f b).1
end

section
/-!
PROOF. The monitors' inputs (O23): the two outcomes of a frame's check that compute no ε and the one that does; what the samples and the
check of a frame make of their element, and the count of frozen inputs beside it.
-/
set_option autoImplicit false

namespace Sys2Proof.Machine

/-! ### The check of a frame (R110 to R113) -/

theorem epsOf_le (num den : Int) : epsOf num den ≤ 0xFFFE := by
  have clamped (n : Int) : (clampI 0 0xFFFE n).toNat ≤ 0xFFFE := by
    unfold clampI
    omega
  exact clamped _

section
variable (b : Blk) (e g : Nat) (byte : Byte) (x : Elem)

/-- ε of a frame by the state of its element: BAR, CROSS, or a split (R112). -/
def frameEps : Nat :=
  let ia : Int := x.sns.a.at_ g
  let ib : Int := x.sns.b.at_ g
  let d := (frameD b e g byte x).getD 0
  let p := inputPowers b e g x
  match byte.toNat % 4 with
  | 0 => epsOf (32768 * (d - (ia - ib))) d
  | 1 => epsOf (32768 * (d + (ia - ib))) d
  | _ => epsOf (65536 * (ia + ib)) ((p.1 : Int) + p.2)

theorem frameEps_le : frameEps b e g byte x ≤ 0xFFFE := by
  unfold frameEps
  split <;> exact epsOf_le _ _

/-- A check is DARK or UNOBS without ε, or compares ε with the lock threshold. -/
theorem checkFrame_cases : checkFrame b e g byte x = (2, none) ∨ checkFrame b e g byte x = (3, none) ∨
    checkFrame b e g byte x =
      (if frameEps b e g byte x ≤ b.epsLock then 1 else 0, some (frameEps b e g byte x)) := by
  have outcome (dark unobs : Prop) [Decidable dark] [Decidable unobs] {r r2 r3 : Nat × Option Nat} :
      let c := if dark then r2 else if unobs then r3 else r
      c = r2 ∨ c = r3 ∨ c = r := by
    dsimp only
    split
    · exact .inl rfl
    · split
      · exact .inr (.inl rfl)
      · exact .inr (.inr rfl)
  exact outcome _ _

theorem checkFrame_some {n : Nat} (h : (checkFrame b e g byte x).2 = some n) :
    n = frameEps b e g byte x ∧ (checkFrame b e g byte x).1 = if n ≤ b.epsLock then 1 else 0 := by
  rcases checkFrame_cases b e g byte x with hc | hc | hc <;> rw [hc] at h ⊢ <;> cases h
  exact ⟨rfl, rfl⟩

theorem checkFrame_none (h : (checkFrame b e g byte x).2 = none) :
    (checkFrame b e g byte x).1 = 2 ∨ (checkFrame b e g byte x).1 = 3 := by
  rcases checkFrame_cases b e g byte x with hc | hc | hc <;> rw [hc] at h ⊢
  · exact .inl rfl
  · exact .inr rfl
  · cases h

theorem checkFrame_belowFloor (hs : byte.toNat % 4 ≠ 2)
    (h : (x.sns.a.at_ g : Int) + x.sns.b.at_ g < getF b (Reg.SNS.FLOOR.I_FLOOR (snsPage e))) :
    checkFrame b e g byte x = (2, none) := by
  refine if_pos (.inr (.inr ?_))
  rwa [if_neg hs]

theorem checkFrame_unlit (hs : byte.toNat % 4 ≠ 2) (h : ¬ (byte.toNat / 4 % 2 = 1 ∨ byte.toNat / 8 % 2 = 1)) :
    checkFrame b e g byte x = (2, none) := by
  obtain ⟨h0, h1⟩ := not_or.1 h
  exact if_pos (.inl ⟨hs, beq_false_of_ne h0, beq_false_of_ne h1⟩)

end

/-! ### What a frame makes of its element (R104 to R106, R111, R114, R117, R224) -/

/-- The input latch is all that its step may change. -/
theorem latchStep_keeps (b : Blk) (e g t : Nat) (byte : Byte) (x : Elem) : let y := latchStep b e g t byte x
    y.sns.a = x.sns.a ∧ y.sns.b = x.sns.b ∧ y.sns.cur = x.sns.cur ∧ y.trk = x.trk ∧ y.lp = x.lp ∧ y.drv = x.drv := by
  unfold latchStep
  dsimp only
  split <;> exact ⟨rfl, rfl, rfl, rfl, rfl, rfl⟩

/-- Element `y` once check `c` with D `d` is recorded and the codes `ca` and `cb` of frame `j` are taken. -/
def frameTaken (b : Blk) (e j : Nat) (ca cb : BitVec 14) (c : Nat × Option Nat) (d : Option Int) (y : Elem) : Elem :=
  let g := 8 * b.tick + j
  let sa := sampleIn b e 0 g ca y.sns.a
  let sb := sampleIn b e 1 g cb y.sns.b
  let r := addSums b e j sa.corr sb.corr (addD (if j = 0 then none else d) (addCheck c y.sns.cur))
  { y with sns := { y.sns with a := sa, b := sb, cur := r }, trk := y.trk.map (Tracker.check (checkInstant b j) c) }

/-- SNS.STAT.FROZEN once the inputs of element `e` have gone from those of `x` to those of `z` (R128). -/
def unfreezeBoth (e : Nat) (x z : Elem) (b : Blk) : Blk :=
  unfreeze x.sns.a.frozen z.sns.a.frozen (snsPage e) (unfreeze x.sns.b.frozen z.sns.b.frozen (snsPage e) b)

theorem unfreeze_eq_regs (was now : Bool) (n : Nat) (b : Blk) :
    unfreeze was now n b = { b with regs := (unfreeze was now n b).regs } := by
  unfold unfreeze
  split <;> rfl

theorem getF_unfreeze {was now : Bool} {n : Nat} {b : Blk} {f : Fld} (h : f.key ≠ (Reg.SNS.STAT.FROZEN n).key) :
    getF (unfreeze was now n b) f = getF b f := by
  unfold unfreeze
  split
  · exact getF_setF_ne _ _ _ _ h
  · rfl

theorem unfreezeBoth_eq_regs (e : Nat) (x z : Elem) (b : Blk) :
    unfreezeBoth e x z b = { b with regs := (unfreezeBoth e x z b).regs } := by
  unfold unfreezeBoth
  rw [unfreeze_eq_regs, unfreeze_eq_regs x.sns.b.frozen]

theorem unfreezeBoth_elems (e : Nat) (x z : Elem) (b : Blk) : (unfreezeBoth e x z b).elems = b.elems := by
  rw [unfreezeBoth_eq_regs]

theorem unfreezeBoth_elem (e : Nat) (x z : Elem) (b : Blk) (i : Nat) : (unfreezeBoth e x z b).elem i = b.elem i := by
  rw [Blk.elem, unfreezeBoth_elems, Blk.elem]

theorem unfreezeBoth_keepsRegs (e : Nat) (x z : Elem) (b : Blk) :
    KeepsRegsBut [Reg.SNS.STAT.FROZEN (snsPage e)] b (unfreezeBoth e x z b) := by
  intro f hf
  have other : f.key ≠ (Reg.SNS.STAT.FROZEN (snsPage e)).key := by simpa using hf
  rw [unfreezeBoth, getF_unfreeze other, getF_unfreeze other]

/-- A check whose turn it is runs at its instant, which lies in the present tick. -/
theorem exec_extinctionCheck {e : Fin 4608} {j : Fin 8} {ra rb : BitVec 14} {s : State} (hr : s.b.sys.mode ≠ .reset)
    (hj : (s.b.elem e.val).sns.cur.chk.length = j.val) : exec (.extinctionCheck e j ra rb) s =
      .next { s with b := extinctionCheck e.val j.val ra rb (s.b.atEdge (checkInstant s.b j.val)) } := by
  have due : s.b.due (checkInstant s.b j.val) = true := by
    simp only [Blk.due, Bool.and_eq_true, decide_eq_true_eq, bne_iff_ne]
    unfold checkInstant
    exact ⟨by omega, hr⟩
  have run : exec (.extinctionCheck e j ra rb) s = execExtinctionCheck e j ra rb s := rfl
  rw [run, execExtinctionCheck, if_pos hj, atQ_due _ due]

end Sys2Proof.Machine

open Sys2Proof Sys2Proof.Machine

/-- Settles O23: the samples and the check by what they make of their element, and the check's outcomes. -/
theorem checksCompareAndAreRecordedInOrder : Obligations.ChecksCompareAndAreRecordedInOrder := by
  unfold Obligations.ChecksCompareAndAreRecordedInOrder
  refine ⟨?_, ?_⟩
  · intro e j ra rb s hr hj c x g byte y r d
    let z := frameTaken c e.val j.val ra rb r d y
    let f := unfreezeBoth e.val x z (setElem e.val z c)
    obtain ⟨ha, hb, hcur, htrk, hlp, hdrv⟩ : y.sns.a = x.sns.a ∧ y.sns.b = x.sns.b ∧ y.sns.cur = x.sns.cur ∧
        y.trk = x.trk ∧ y.lp = x.lp ∧ y.drv = x.drv := by
      by_cases hg : g = 0
      · rw [show y = x from if_pos hg]
        exact ⟨rfl, rfl, rfl, rfl, rfl, rfl⟩
      · rw [show y = latchStep c e.val (g - 1) (checkInstant s.b j.val) byte x from if_neg hg]
        exact latchStep_keeps ..
    have self : f.elem e.val = z := by
      rw [unfreezeBoth_elem, elem_setElem, if_pos rfl]
    have rest (i : Nat) (hi : i ≠ e.val) : f.elem i = s.b.elem i := by
      rw [unfreezeBoth_elem, elem_setElem, if_neg hi]
      rfl
    have parts : f = { c with elems := f.elems, regs := f.regs } := by
      rw [show f.elems = (setElem e.val z c).elems from unfreezeBoth_elems ..]
      exact unfreezeBoth_eq_regs ..
    refine ⟨f, exec_extinctionCheck hr hj, ?_⟩
    dsimp only
    rw [self]
    exact ⟨congrArg (sampleIn c e.val 0 g ra) ha, congrArg (sampleIn c e.val 1 g rb) hb,
      congrArg (fun m : MonRec => m.chk ++ [r.1]) hcur, congrArg (fun m : MonRec => r.2.getD m.epsLast) hcur,
      congrArg (Option.map (Tracker.check (checkInstant s.b j.val) r)) htrk, hlp, hdrv,
      rest, unfreezeBoth_keepsRegs e.val x z (setElem e.val z c), parts⟩
  · intro b e g byte x r ia ib d lit
    refine ⟨fun n hn => ?_, checkFrame_none b e g byte x, fun hs => checkFrame_belowFloor b e g byte x hs,
      fun hs => checkFrame_unlit b e g byte x hs, fun n hs hn => ?_, fun n hs hn => ?_⟩
    · obtain ⟨eps, passes⟩ := checkFrame_some b e g byte x hn
      exact ⟨eps ▸ frameEps_le b e g byte x, passes⟩
    · rw [(checkFrame_some b e g byte x hn).1, frameEps, hs]
      rfl
    · rw [(checkFrame_some b e g byte x hn).1, frameEps, hs]
      rfl
end

section
/-!
PROOF. SKIP, OUT and REP where they are carried out (O8): what each writes on the datapath of its engine, and which codes OUT changes.
-/
set_option autoImplicit false

namespace Sys2Proof.Machine

/-- A syllable that is carried out makes its writes and counts its bundle (R166, R192; log 15). -/
theorem exec_ready {i : Instr} {u : Eng} {s : State} (hu : engineOfCmd i = some u) (hr : engReady u s.b = true)
    (hw : i.wf = true) : exec i s = .next { s with
      b := withDp u { (issued u i s.b).2 with issued := (issued u i s.b).2.issued + 1 } (issued u i s.b).1 } :=
  (exec_syllable hu s).trans (issue_ready u i s hr hw)

theorem engDp_skip_of_ready {u : Eng} {b : Blk} (h : engReady u b = true) : (engDp u b).skip = 0 := by
  simp only [engReady, Bool.and_eq_true, beq_iff_eq] at h
  exact h.2

/-! ### SKIP (R191) -/

/-- Where no bundle is suppressed, SKIP sets its number if its condition holds, and 0 bundles stay suppressed if not. -/
theorem issued_skip {u : Eng} {b : Blk} (h : (engDp u b).skip = 0) (f : Fin 8) (neg : Bool) (n : Fin 16) (alw : Bool) :
    issued u (.skip u f neg n alw) b =
      (b, { engDp u b with skip := if alw = true ∨ (engDp u b).rF f ≠ neg then n.val else 0 }) := by
  have cond : (alw || ((engDp u b).rF f ^^ neg)) = true ↔ alw = true ∨ (engDp u b).rF f ≠ neg := by simp
  have writes : sylWr ⟨b, engDp u b, u⟩ (.skip u f neg n alw) =
      if (alw || ((engDp u b).rF f ^^ neg)) = true then [.skip n] else [] := rfl
  rw [issued, writes]
  by_cases hc : alw = true ∨ (engDp u b).rF f ≠ neg
  · rw [if_pos hc, if_pos (cond.2 hc)]
    rfl
  · rw [if_neg hc, if_neg (mt cond.1 hc), ← h]
    rfl

/-! ### OUT (R134, R190) -/

theorem issued_out (u : Eng) (dh dt : Fin 32) (b : Blk) : issued u (.out u dh dt) b =
    (outCodes u ((engDp u b).rD dh) ((engDp u b).rD dt) b, { engDp u b with outDone := true }) := rfl

theorem outCodes_calibrate {b : Blk} (hm : b.sys.mode = .calibrate) (e : Fin 4608) (h t : Half) :
    outCodes (.slot e) h t b = b := if_pos hm

theorem outCodes_of_not_calibrate {b : Blk} (hm : b.sys.mode ≠ .calibrate) (e : Fin 4608) (h t : Half) :
    outCodes (.slot e) h t b =
      updElem e.val (fun x => { x with drv := { x.drv with htrTick := h, trmTick := t } }) b := if_neg hm

/-- OUT reaches the elements only. -/
theorem outCodes_eq_elems (e : Fin 4608) (h t : Half) (b : Blk) :
    outCodes (.slot e) h t b = { b with elems := (outCodes (.slot e) h t b).elems } := by
  by_cases hm : b.sys.mode = .calibrate
  · rw [outCodes_calibrate hm]
  · rw [outCodes_of_not_calibrate hm]
    rfl

/-- OUT reaches no element but the slot's. -/
theorem outCodes_elem_ne {e : Fin 4608} {x : Nat} (hx : x ≠ e.val) (h t : Half) (b : Blk) :
    (outCodes (.slot e) h t b).elem x = b.elem x := by
  by_cases hm : b.sys.mode = .calibrate
  · rw [outCodes_calibrate hm]
  · rw [outCodes_of_not_calibrate hm, elem_updElem, if_neg hx]

theorem withDp_elems (u : Eng) (dp : Dp) (b : Blk) : (withDp u dp b).elems = b.elems := by
  cases u <;> rfl

theorem withDp_elem (u : Eng) (dp : Dp) (b : Blk) (x : Nat) : (withDp u dp b).elem x = b.elem x :=
  congrArg (fun l : Tbl Elem => l.get Elem.reset x) (withDp_elems u dp b)

/-! ### REP (R204) -/

theorem issued_rep (u : Eng) (n : Fin 32) (c : Fin 4097) (b : Blk) : issued u (.rep u n c) b =
    (b, { engDp u b with repN := n.val, repCount := c.val, repBody := [] }) := rfl

end Sys2Proof.Machine

open Sys2Proof Sys2Proof.Machine

/-- Settles O8: each syllable's one write, carried out where its engine is ready. -/
theorem controlSyllablesSkipOutputAndRepeat : Obligations.ControlSyllablesSkipOutputAndRepeat := by
  unfold Obligations.ControlSyllablesSkipOutputAndRepeat
  intro u e pl f neg alw n dh dt r c s
  refine ⟨fun hw hr => ?_, fun hr => ?_, fun hw hr => ?_⟩
  · rw [exec_ready rfl hr hw, issued_skip (engDp_skip_of_ready hr)]
  · refine ⟨_, exec_ready rfl hr rfl, ?_⟩
    rw [issued_out]
    refine ⟨?_, rfl, fun x hx => ?_, fun hm => ?_, fun hm => ?_⟩
    · rw [withDp_elems]
      exact congrArg (withDp (.slot e) _) (outCodes_eq_elems e _ _ s.b)
    · rw [withDp_elem, outCodes_elem_ne hx]
    · rw [withDp_elems, outCodes_calibrate hm]
    · rw [withDp_elem, outCodes_of_not_calibrate hm, elem_updElem, if_pos rfl]
      rfl
  · rw [exec_ready rfl hr hw, issued_rep]
end

section
/-!
PROOF. The laws of the states that close no loop (O22): one equation for each, and the trajectory's step in TRANSIT.
-/
set_option autoImplicit false

namespace Sys2Proof.Machine

section

variable {s : Sl} (q : SlIn) (eLast : Int)

/-- PARKED gives the park codes (R130). -/
theorem law_parked (h : s.x.lp.st = .parked) :
    s.law q eLast = (((parkHtr q.b.live q.e : Int), parkTrm q.b.live q.e), s) := by
  rw [Sl.law, h]

/-- HOLD and DARK give the held heater code with the change of feed-forward since, and the held trim code (R130). -/
theorem law_held (h : s.x.lp.st = .hold ∨ s.x.lp.st = .dark) :
    s.law q eLast = ((clampI 0 q.hmax (s.c.hH + s.c.ff - s.c.ffH), s.c.tH), s) := by
  rcases h with h | h
  · rw [Sl.law, h]
  · rw [Sl.law, h]

/-- FAULT gives both held codes (R130). -/
theorem law_fault (h : s.x.lp.st = .fault) : s.law q eLast = (((s.c.hH : Int), s.c.tH), s) := by
  rw [Sl.law, h]

/-- TRANSIT gives the codes of its trajectory and goes on (R137, R223). -/
theorem law_transit (h : s.x.lp.st = .transit) : s.law q eLast = s.transit q := by
  rw [Sl.law, h]

end

end Sys2Proof.Machine

open Sys2Proof Sys2Proof.Machine

/-- Settles O22: each state's law is one equation. -/
theorem eachStateHasItsLaw : Obligations.EachStateHasItsLaw := by
  unfold Obligations.EachStateHasItsLaw
  intro q el s
  refine ⟨fun h => ?_, fun h => ?_, fun h => ?_, fun h => ?_⟩
  · rw [law_parked q el h]
    exact ⟨rfl, rfl⟩
  · rw [law_held q el h]
    exact ⟨rfl, rfl⟩
  · rw [law_fault q el h]
    exact ⟨rfl, rfl⟩
  · rw [law_transit q el h]
    exact ⟨rfl, rfl⟩
end

section
/-!
SUPPORT. What the writes of a syllable leave: a register read after a write, the block after writes that store nothing, both lanes of a
dual-MAC syllable, and a syllable that writes one register.
-/
set_option autoImplicit false

namespace Sys2Proof.Machine

/-! ### Tables and accumulators -/

/-- A read after a write that is made only under a condition. -/
theorem Tbl.get_ite_set {β : Type} [DecidableEq β] (p : Prop) [Decidable p] (t : Tbl β) (d : β) (k n : Nat) (v : β) :
    (if p then t.set d k v else t).get d n = if p ∧ n = k then v else t.get d n := by
  by_cases hp : p
  · simp only [hp, if_true, true_and, Tbl.get_set_dflt]
  · simp only [hp, if_false, false_and]

/-- What an accumulator holds is in its range, so storing it changes nothing (R176). -/
theorem satA_accI (x : Acc40) : satA (accI x) = accI x := by
  have hl := BitVec.le_toInt x
  have hh := BitVec.toInt_lt (x := x)
  unfold satA clampI accI
  omega

@[simp] theorem accOf_accI (x : Acc40) : accOf (accI x) = x := by
  rw [accOf, satA_accI]
  exact BitVec.ofInt_toInt

@[simp] theorem accOver_accI (x : Acc40) : accOver (accI x) = false := by
  rw [accOver, satA_accI, decide_eq_false_iff_not]
  exact fun h => h rfl

theorem KeepsMemory.of_eq {b c : Blk} (hs : c.shadow = b.shadow) (hl : c.live = b.live) : KeepsMemory b c :=
  ⟨fun a => by rw [hs], fun a => by rw [hl]⟩

theorem KeepsMemory.withDp {b c : Blk} (h : KeepsMemory b c) (u : Eng) (dp : Dp) : KeepsMemory b (withDp u dp c) := by
  obtain ⟨hs, hl⟩ := withDp_mem u dp c
  exact ⟨fun a => by rw [hs, h.1], fun a => by rw [hl, h.2]⟩

/-! ### The block after the writes of a syllable (R174, R176) -/

/-- A write that stores into memory. -/
def Wr.stores : Wr → Bool
  | .mem .. | .mems .. => true
  | _ => false

/-- A write that reaches registers only and saturates nothing. -/
def Wr.quiet : Wr → Bool
  | .a _ v => !accOver v
  | .mem .. | .mems .. | .badRead | .out .. => false
  | _ => true

/-- A saturation and an access outside the program's reach count, and a code of OUT reaches an element: no byte changes. -/
theorem doWr_live_of_not_stores (u : Eng) (x : Blk × Dp) (w : Wr) (h : w.stores = false) : (doWr u x w).1.live = x.1.live := by
  cases w with
  | mem => cases h
  | mems => cases h
  | a i v =>
    change (if accOver v = true then accSat u x.1 else x.1).live = _
    split
    · exact (accSat_mem u x.1).2
    · rfl
  | badRead => exact (addrErr_mem u x.1).2
  | out dh dt => exact (outCodes_mem u dh dt x.1).2
  | _ => rfl

theorem doWr_block_of_quiet (u : Eng) (x : Blk × Dp) (w : Wr) (h : w.quiet = true) : (doWr u x w).1 = x.1 := by
  cases w with
  | a i v => exact if_neg (by simpa [Wr.quiet] using h)
  | mem => cases h
  | mems => cases h
  | badRead => cases h
  | out => cases h
  | _ => rfl

/-- What each of some writes leaves of the block, all of them leave. -/
theorem foldl_doWr_keeps {γ : Type} (g : Blk → γ) (u : Eng) (ws : List Wr) (x : Blk × Dp)
    (h : ∀ w ∈ ws, ∀ x, g (doWr u x w).1 = g x.1) : g (ws.foldl (doWr u) x).1 = g x.1 := by
  induction ws generalizing x with
  | nil => rfl
  | cons w ws ih =>
    rw [List.forall_mem_cons] at h
    exact (ih _ h.2).trans (h.1 x)

/-- The mark of a read leaves the datapath and every live byte (R174). -/
theorem foldl_badIf (u : Eng) (ok : Bool) (x : Blk × Dp) :
    ((badIf ok).foldl (doWr u) x).2 = x.2 ∧ ((badIf ok).foldl (doWr u) x).1.live = x.1.live := by
  cases ok with
  | true => exact ⟨rfl, rfl⟩
  | false => exact ⟨rfl, (addrErr_mem u x.1).2⟩

theorem issued_keepsMemory {u : Eng} {i : Instr} {b : Blk} (h : ∀ w ∈ sylWr ⟨b, engDp u b, u⟩ i, w.stores = false) :
    KeepsMemory b (issued u i b).1 :=
  .of_eq (foldl_fst_shadow _ _ _ fun x w => doWr_shadow u x w)
    (foldl_doWr_keeps Blk.live u _ _ fun w hw x => doWr_live_of_not_stores u x w (h w hw))

theorem issued_block_of_quiet {u : Eng} {i : Instr} {b : Blk} (h : ∀ w ∈ sylWr ⟨b, engDp u b, u⟩ i, w.quiet = true) :
    (issued u i b).1 = b :=
  foldl_doWr_keeps id u _ _ fun w hw x => doWr_block_of_quiet u x w (h w hw)

/-! ### The datapath after a bundle -/

/-- The datapath with one more bundle counted (R166). -/
def Dp.counted (dp : Dp) : Dp := { dp with issued := dp.issued + 1 }

section

variable (dp : Dp) (u : Eng) (n : Nat)

@[simp] theorem Dp.rD_counted : dp.counted.rD n = dp.rD n := rfl
@[simp] theorem Dp.rA_counted : dp.counted.rA n = dp.rA n := rfl
@[simp] theorem Dp.rF_counted : dp.counted.rF n = dp.rF n := rfl
@[simp] theorem Dp.rP_counted : dp.counted.rP u n = dp.rP u n := rfl

end

/-- The datapath after both lanes, each of which makes `lane` of it; lane b is idle where it repeats lane a (R181, R192). -/
def bothLanes (lane : Nat → MacLane → Dp → Dp) (k : Fin 4) (a c : MacLane) (dp : Dp) : Dp :=
  if c = a then lane (2 * k.val) a dp else lane (2 * k.val + 1) c (lane (2 * k.val) a dp)

theorem foldl_dual {u : Eng} {lane : Nat → MacLane → List Wr} {after : Nat → MacLane → Dp → Dp} {a c : MacLane}
    (h : ∀ n, ∀ q, q = a ∨ q = c → ∀ x, ((lane n q).foldl (doWr u) x).2 = after n q x.2) (k : Fin 4) (x : Blk × Dp) :
    ((dual lane k a c).foldl (doWr u) x).2 = bothLanes after k a c x.2 := by
  unfold dual bothLanes
  rw [List.foldl_append]
  split
  · exact h _ a (.inl rfl) x
  · rw [h _ c (.inr rfl), h _ a (.inl rfl)]

theorem forall_mem_dual {lane : Nat → MacLane → List Wr} {k : Fin 4} {a c : MacLane} {P : Wr → Prop}
    (h : ∀ n, ∀ q, q = a ∨ q = c → ∀ w ∈ lane n q, P w) : ∀ w ∈ dual lane k a c, P w := by
  intro w hw
  rcases List.mem_append.1 hw with hw | hw
  · exact h _ a (.inl rfl) w hw
  · split at hw
    · cases hw
    · exact h _ c (.inr rfl) w hw

/-- Where the high bits of X are 0, X names an accumulator or a pointer (R182). -/
theorem MacLane.low_x (q : MacLane) : q.low true false = true ↔ q.x.val % 8 = q.x.val := by
  simp only [MacLane.low, Bool.not_true, Bool.not_false, Bool.false_or, Bool.true_or, Bool.and_true, decide_eq_true_eq]
  omega

theorem MacLane.low_xy (q : MacLane) : q.low true true = true ↔ q.x.val % 8 = q.x.val ∧ q.y.val % 8 = q.y.val := by
  simp only [MacLane.low, Bool.not_true, Bool.false_or, Bool.and_eq_true, decide_eq_true_eq]
  omega

/-- The four modifiers. -/
theorem md_cases (md : BitVec 2) : md = 0 ∨ md = 1 ∨ md = 2 ∨ md = 3 := by
  revert md
  decide

/-! ### A syllable that stores nothing -/

/-- `exec_ready` with its bundle counted. -/
theorem exec_issued {i : Instr} {u : Eng} {s : State} (hu : engineOfCmd i = some u) (hr : engReady u s.b = true)
    (hw : i.wf = true) :
    exec i s = .next { s with b := withDp u (issued u i s.b).2.counted (issued u i s.b).1 } := exec_ready hu hr hw

/-- A syllable whose writes `ws` store nothing leaves the datapath that they make, with its bundle counted, and every byte as it was;
the rest of the block changes only where a write counts something (R166, R192). -/
theorem exec_writes {i : Instr} {u : Eng} {s : State} (ws : List Wr) {dq : Dp} (hu : engineOfCmd i = some u)
    (hr : engReady u s.b = true) (hw : i.wf = true) (hi : sylWr ⟨s.b, engDp u s.b, u⟩ i = ws)
    (hd : (ws.foldl (doWr u) (s.b, engDp u s.b)).2 = dq) (hs : ∀ w ∈ ws, w.stores = false) :
    ∃ t, exec i s = .next t ∧ engLeft u t.b = dq.counted ∧ KeepsMemory s.b t.b ∧ t.pending = s.pending ∧
      ((∀ w ∈ ws, w.quiet = true) → t.b = withDp u dq.counted s.b) := by
  subst hi hd
  exact ⟨_, exec_issued hu hr hw, engLeft_withDp .., (issued_keepsMemory hs).withDp .., rfl,
    fun hq => congrArg (withDp u _) (issued_block_of_quiet hq)⟩

/-- A syllable whose one write is D register `d`. -/
theorem exec_takesD {i : Instr} {u : Eng} {s : State} (d : Fin 32) {v : Half} (hu : engineOfCmd i = some u)
    (hr : engReady u s.b = true) (hw : i.wf = true) (hi : sylWr ⟨s.b, engDp u s.b, u⟩ i = [.d d v]) :
    ∃ t, exec i s = .next t ∧ TakesD u d v s t := by
  obtain ⟨t, ht, hq, -, hp, hb⟩ := exec_writes [.d d v] (dq := { engDp u s.b with d := (engDp u s.b).d.set 0 (d.val % 32) v })
    hu hr hw hi rfl (by simp [Wr.stores])
  refine ⟨t, ht, ?_⟩
  unfold TakesD
  rw [hq]
  refine ⟨fun n => ?_, rfl, hb (by simp [Wr.quiet]), hp⟩
  rw [Nat.mod_eq_of_lt d.isLt]
  exact Tbl.get_set_dflt ..

end Sys2Proof.Machine
end

section
/-!
SUPPORT. One store of an engine (O4, O6): where the slot's memory takes it, what it leaves in the slot's datapath and in the live bytes.
-/
set_option autoImplicit false

namespace Sys2Proof.Machine

/-! ### The places that take a store (R169, R171, R174) -/

theorem writable_cases (a : Nat) : a < 0x80 ∨ a = 0x90 ∨ (0x100 ≤ a ∧ a < 0x180) ∨ writable a = false := by
  simp only [writable, decide_eq_false_iff_not]
  omega

section

variable (e : Fin 4608) {a : Nat} (v : Half) (x : Blk × Dp)

/-- The context takes a store. -/
theorem store_context (h : a < 0x80) : store (.slot e) a v x =
    ({ x.1 with live := wrH x.1.live (ctxAddr e.val 0 + 2 * a) v.toNat }, { x.2 with wrote := x.2.wrote ++ [(a, v.toNat)] }) := by
  have hw : writable a = true := decide_eq_true (.inl h)
  have h9 : a ≠ 0x90 := by omega
  simp [store, storeSlot, hw, h9, h]

/-- ESTAT takes the state of its element. -/
theorem store_estat : store (.slot e) 0x90 v x = storeState e.val (LoopState.ofCode (v.toNat / 256)) x := rfl

/-- The scratch takes a store. -/
theorem store_scratch (hl : 0x100 ≤ a) (hh : a < 0x180) : store (.slot e) a v x =
    (x.1, { x.2 with wrote := x.2.wrote ++ [(a, v.toNat)], scr := x.2.scr.set 0 (a - 0x100) v }) := by
  have hw : writable a = true := decide_eq_true (.inr (.inr ⟨hl, hh⟩))
  have h9 : a ≠ 0x90 := by omega
  have h8 : ¬ a < 0x80 := by omega
  simp [store, storeSlot, hw, h9, h8]

/-- Any other address is counted and takes nothing. -/
theorem store_unwritable (h : writable a = false) : store (.slot e) a v x = (addrErr (.slot e) x.1, x.2) := by
  simp [store, h]

end

/-! ### What a store leaves -/

/-- The slot's own records of a store: its scratch, its data memory writes and the state it stored last. -/
def storeMarks (u : Eng) (a : Nat) (v : Half) (dp : Dp) : Dp :=
  match u with
  | .planner _ => dp
  | .slot _ =>
    if a < 0x80 then { dp with wrote := dp.wrote ++ [(a, v.toNat)] }
    else if a = 0x90 then { dp with stored := some (LoopState.ofCode (v.toNat / 256)) }
    else if 0x100 ≤ a ∧ a < 0x180 then { dp with wrote := dp.wrote ++ [(a, v.toNat)], scr := dp.scr.set 0 (a - 0x100) v }
    else dp

/-- A store's records are the same whatever the block holds. -/
theorem store_snd (u : Eng) (a : Nat) (v : Half) (x : Blk × Dp) : (store u a v x).2 = storeMarks u a v x.2 := by
  cases u with
  | planner p => rfl
  | slot e =>
    unfold storeMarks
    rcases writable_cases a with h | rfl | ⟨hl, hh⟩ | h
    · rw [store_context e v x h]
      simp [h]
    · rfl
    · rw [store_scratch e v x hl hh]
      simp [hl, hh, show ¬ a < 0x80 by omega, show a ≠ 0x90 by omega]
    · rw [store_unwritable e v x h]
      simp only [writable, decide_eq_false_iff_not, not_or] at h
      simp [h]

/-- A store leaves every register of the datapath. -/
theorem storeMarks_frame (u : Eng) (a : Nat) (v : Half) (dp : Dp) : storeMarks u a v dp = { dp with
    scr := (storeMarks u a v dp).scr, wrote := (storeMarks u a v dp).wrote, stored := (storeMarks u a v dp).stored } := by
  cases u with
  | planner p => rfl
  | slot e =>
    unfold storeMarks
    dsimp only
    split
    · rfl
    · split
      · rfl
      · split <;> rfl

/-- Of the live bytes a store reaches its context's only. -/
theorem store_live (u : Eng) (a : Nat) (v : Half) (x : Blk × Dp) :
    (store u (a % ptrMod u) v x).1.live = storeLive u x.1.live a v := by
  cases u with
  | planner p => rfl
  | slot e =>
    change (store (.slot e) (a % 4096) v x).1.live =
      if a % 4096 < 0x80 then wrH x.1.live (ctxAddr e.val 0 + 2 * (a % 4096)) v.toNat else x.1.live
    rcases writable_cases (a % 4096) with h | h | ⟨hl, hh⟩ | h
    · rw [store_context e v x h, if_pos h]
    · rw [h, store_estat, (storeState_mem ..).2, if_neg (by decide)]
    · rw [store_scratch e v x hl hh, if_neg (by omega)]
    · have h8 : ¬ a % 4096 < 0x80 := fun h8 => by simp [writable, h8] at h
      rw [store_unwritable e v x h, if_neg h8, (addrErr_mem ..).2]

end Sys2Proof.Machine
end

section
/-!
PROOF. The dual-MAC syllables (O2, O3): what one lane writes, and both lanes from it.
-/
set_option autoImplicit false

namespace Sys2Proof.Machine

/-! ### One accumulator in each lane (R175, R176, R182) -/

/-- The datapath after a lane that writes its accumulator. -/
def accLane (val : MacLane → Int) (_ : Nat) (q : MacLane) (dp : Dp) : Dp := { dp with a := dp.a.set 0 q.acc (accOf (val q)) }

@[simp] theorem rA_accLane (val : MacLane → Int) (n : Nat) (q : MacLane) (dp : Dp) (m : Nat) :
    (accLane val n q dp).rA m = if m = q.acc.val then accOf (val q) else dp.rA m := Tbl.get_set_dflt ..

/-- A syllable each of whose lanes writes its accumulator. -/
theorem exec_accLanes {i : Instr} {u : Eng} {s : State} (k : Fin 4) {a c : MacLane} {lane : Nat → MacLane → List Wr}
    (val : MacLane → Int) (hu : engineOfCmd i = some u) (hr : engReady u s.b = true) (hw : i.wf = true)
    (hi : sylWr ⟨s.b, engDp u s.b, u⟩ i = dual lane k a c)
    (hl : ∀ n, ∀ q, q = a ∨ q = c → lane n q = [.a q.acc (val q)]) :
    ∃ t, exec i s = .next t ∧ AccLanes u a c val s t := by
  obtain ⟨t, ht, hq, hm, hp, hb⟩ := exec_writes _ hu hr hw hi
    (foldl_dual (after := accLane val) (fun n q hq x => by
      rw [hl n q hq]
      rfl) k _)
    (forall_mem_dual fun n q hq w hw => by
      rw [hl n q hq, List.mem_singleton] at hw
      rw [hw]
      rfl)
  have quiet (ha : accOver (val a) = false) (hc : accOver (val c) = false) : ∀ w ∈ dual lane k a c, w.quiet = true :=
    forall_mem_dual fun n q hq w hw => by
      rw [hl n q hq, List.mem_singleton] at hw
      rcases hq with rfl | rfl <;> simp [Wr.quiet, *]
  refine ⟨t, ht, ?_⟩
  unfold AccLanes
  rw [hq]
  refine ⟨fun n => ?_, ?_, hm, hp, fun ha hc => hb (quiet ha hc)⟩
  · by_cases hca : c = a <;> simp [hca, bothLanes]
  · unfold bothLanes
    split <;> rfl

/-! ### Operand numbers below 8 (R182) -/

section

variable {u : Eng} {k : Fin 4} {md : BitVec 2} {a c : MacLane}

theorem wf_aop (h : (Instr.aop u k md a c).wf = true) : ∀ q, q = a ∨ q = c → q.x.val % 8 = q.x.val := by
  simp only [Instr.wf, Bool.and_eq_true, MacLane.low_x] at h
  rintro q (rfl | rfl) <;> tauto

theorem wf_sha (h : (Instr.sha u k md a c).wf = true) :
    ∀ q, q = a ∨ q = c → (md = 0 ∨ md = 1) ∧ q.x.val % 8 = q.x.val := by
  simp only [Instr.wf, Bool.and_eq_true, MacLane.low_x, decide_eq_true_eq] at h
  have hmd : md = 0 ∨ md = 1 := by
    rcases md_cases md with rfl | rfl | rfl | rfl <;> simp_all
  rintro q (rfl | rfl) <;> tauto

theorem wf_clamp (h : (Instr.clamp u k md a c).wf = true) :
    ∀ q, q = a ∨ q = c → q.x.val % 8 = q.x.val ∧ q.y.val % 8 = q.y.val := by
  simp only [Instr.wf, Bool.and_eq_true, MacLane.low_xy] at h
  rintro q (rfl | rfl) <;> tauto

end

end Sys2Proof.Machine

open Sys2Proof Sys2Proof.Machine

/-- Settles O2: each lane's one accumulator. -/
theorem laneArithmeticWritesAccumulators : Obligations.LaneArithmeticWritesAccumulators := by
  unfold Obligations.LaneArithmeticWritesAccumulators
  intro u k md a c s hr A D
  refine ⟨fun hw => exec_accLanes k _ rfl hr hw rfl fun _ _ _ => rfl, fun hw => exec_accLanes k _ rfl hr hw rfl fun _ _ _ => rfl,
    fun hw => exec_accLanes k _ rfl hr hw rfl fun _ _ _ => rfl, fun hw => exec_accLanes k _ rfl hr hw rfl fun _ _ _ => rfl,
    fun hw => exec_accLanes k _ rfl hr hw rfl fun _ _ _ => rfl, fun hw => ?_, fun hw => ?_, fun hw => ?_⟩
  · refine exec_accLanes (lane := fun _ => aopLane ⟨s.b, engDp u s.b, u⟩ md) k _ rfl hr hw rfl fun n q hq => ?_
    rcases md_cases md with rfl | rfl | rfl | rfl <;> simp [aopLane, wf_aop hw q hq, A]
  · refine exec_accLanes (lane := fun _ => shaLane ⟨s.b, engDp u s.b, u⟩ md) k _ rfl hr hw rfl fun n q hq => ?_
    obtain ⟨hmd, hx⟩ := wf_sha hw q hq
    rcases hmd with rfl | rfl <;> simp [shaLane, hx, A, D]
  · refine exec_accLanes (lane := fun _ => clampLane ⟨s.b, engDp u s.b, u⟩) k _ rfl hr hw rfl fun n q hq => ?_
    obtain ⟨hx, hy⟩ := wf_clamp hw q hq
    simp [clampLane, hx, hy, A]
end

section
/-!
PROOF. CMPSEL, NORM, RCP and SATD (O3): the registers that each lane writes, lane b after lane a.
-/
set_option autoImplicit false

namespace Sys2Proof.Machine

section

variable (r : Rd) (md : BitVec 2) (n : Nat) (q : MacLane)

/-! ### The datapath after one lane (R182, R186 to R188) -/

/-- CMPSEL: the flag, and the accumulator where the flag is 1. -/
def cmpselAfter (dp : Dp) : Dp :=
  let t := condHolds (condOf md) (accI (r.dp.rA q.acc)) (accI (r.dp.rA q.x))
  { dp with f := dp.f.set false n t, a := if t = true then dp.a.set 0 q.acc (r.dp.rA q.y) else dp.a }

/-- NORM: the shifted accumulator, its count and the flag of 0. -/
def normAfter (dp : Dp) : Dp :=
  let x := accI (r.dp.rA q.x)
  { dp with
    a := dp.a.set 0 q.acc (accOf (shiftA x (normCount x)))
    d := dp.d.set 0 q.y (toHalf (normCount x))
    f := dp.f.set false n (decide (x = 0)) }

/-- RCP: the reciprocal, and the flag set where the operand is not normalised. -/
def rcpAfter (dp : Dp) : Dp :=
  let t := rcp (r.dp.rD q.x)
  { dp with a := dp.a.set 0 q.acc (accOf t.1), f := if t.2 = true then dp.f.set false n true else dp.f }

/-- SATD: the D register. -/
def satdAfter (_ : Nat) (q : MacLane) (dp : Dp) : Dp :=
  let x := accI (r.dp.rA q.acc)
  { dp with d := dp.d.set 0 q.y (if md = 0 then satStore .rne false x 16 else if md = 1 then satStore .rne false x 15
    else if md = 2 then satStore .rne true x 15 else satStore .rne false x 17) }

section

variable (dp : Dp) (m : Nat)

@[simp] theorem rF_cmpselAfter : (cmpselAfter r md n q dp).rF m =
    if m = n then condHolds (condOf md) (accI (r.dp.rA q.acc)) (accI (r.dp.rA q.x)) else dp.rF m := Tbl.get_set_dflt ..

@[simp] theorem rA_cmpselAfter : (cmpselAfter r md n q dp).rA m =
    if condHolds (condOf md) (accI (r.dp.rA q.acc)) (accI (r.dp.rA q.x)) = true ∧ m = q.acc.val then r.dp.rA q.y
    else dp.rA m := Tbl.get_ite_set ..

@[simp] theorem rA_normAfter : (normAfter r n q dp).rA m =
    if m = q.acc.val then accOf (shiftA (accI (r.dp.rA q.x)) (normCount (accI (r.dp.rA q.x)))) else dp.rA m :=
  Tbl.get_set_dflt ..

@[simp] theorem rD_normAfter : (normAfter r n q dp).rD m =
    if m = q.y.val then toHalf (normCount (accI (r.dp.rA q.x))) else dp.rD m := Tbl.get_set_dflt ..

@[simp] theorem rF_normAfter : (normAfter r n q dp).rF m =
    if m = n then decide (accI (r.dp.rA q.x) = 0) else dp.rF m := Tbl.get_set_dflt ..

@[simp] theorem rA_rcpAfter : (rcpAfter r n q dp).rA m =
    if m = q.acc.val then accOf (rcp (r.dp.rD q.x)).1 else dp.rA m := Tbl.get_set_dflt ..

@[simp] theorem rF_rcpAfter : (rcpAfter r n q dp).rF m =
    if (rcp (r.dp.rD q.x)).2 = true ∧ m = n then true else dp.rF m := Tbl.get_ite_set ..

@[simp] theorem rD_satdAfter : (satdAfter r md n q dp).rD m =
    if m = q.y.val then
      (if md = 0 then satStore .rne false (accI (r.dp.rA q.acc)) 16
        else if md = 1 then satStore .rne false (accI (r.dp.rA q.acc)) 15
        else if md = 2 then satStore .rne true (accI (r.dp.rA q.acc)) 15 else satStore .rne false (accI (r.dp.rA q.acc)) 17)
    else dp.rD m := Tbl.get_set_dflt ..

end

/-! ### The writes of one lane -/

variable (u : Eng) (x : Blk × Dp)

theorem foldl_cmpselLane (hx : q.x.val % 8 = q.x.val) (hy : q.y.val % 8 = q.y.val) :
    ((cmpselLane r md n q).foldl (doWr u) x).2 = cmpselAfter r md n q x.2 := by
  unfold cmpselLane cmpselAfter
  simp only [hx, hy]
  split <;> simp [doWr]

theorem foldl_normLane (hx : q.x.val % 8 = q.x.val) : ((normLane r n q).foldl (doWr u) x).2 = normAfter r n q x.2 := by
  unfold normLane normAfter
  simp [doWr, hx, Nat.mod_eq_of_lt q.y.isLt]

theorem foldl_rcpLane : ((rcpLane r n q).foldl (doWr u) x).2 = rcpAfter r n q x.2 := by
  unfold rcpLane rcpAfter
  dsimp only
  split <;> simp [doWr]

theorem foldl_satdLane : ((satdLane r md q).foldl (doWr u) x).2 = satdAfter r md n q x.2 := by
  unfold satdLane satdAfter
  rcases md_cases md with rfl | rfl | rfl | rfl <;> simp [doWr, Nat.mod_eq_of_lt q.y.isLt]

/-! ### None of them stores, and CMPSEL and SATD saturate no accumulator -/

theorem cmpselLane_quiet : ∀ w ∈ cmpselLane r md n q, w.stores = false ∧ w.quiet = true := by
  unfold cmpselLane
  dsimp only
  split <;> simp [Wr.stores, Wr.quiet]

theorem normLane_stores : ∀ w ∈ normLane r n q, w.stores = false := by
  simp [normLane, Wr.stores]

theorem rcpLane_stores : ∀ w ∈ rcpLane r n q, w.stores = false := by
  unfold rcpLane
  dsimp only
  split <;> simp [Wr.stores]

theorem satdLane_quiet : ∀ w ∈ satdLane r md q, w.stores = false ∧ w.quiet = true := by
  simp [satdLane, Wr.stores, Wr.quiet]

end

/-! ### Operand numbers below 8 (R182) -/

section

variable {u : Eng} {k : Fin 4} {md : BitVec 2} {a c : MacLane}

theorem wf_cmpsel (h : (Instr.cmpsel u k md a c).wf = true) :
    ∀ q, q = a ∨ q = c → q.x.val % 8 = q.x.val ∧ q.y.val % 8 = q.y.val := by
  simp only [Instr.wf, Bool.and_eq_true, MacLane.low_xy] at h
  rintro q (rfl | rfl) <;> tauto

theorem wf_norm (h : (Instr.norm u k md a c).wf = true) : ∀ q, q = a ∨ q = c → q.x.val % 8 = q.x.val := by
  simp only [Instr.wf, Bool.and_eq_true, MacLane.low_x] at h
  rintro q (rfl | rfl) <;> tauto

end

end Sys2Proof.Machine

open Sys2Proof Sys2Proof.Machine

/-- Settles O3: each register by both lanes' writes. -/
theorem laneTestsWriteFlagsAndRegisters : Obligations.LaneTestsWriteFlagsAndRegisters := by
  unfold Obligations.LaneTestsWriteFlagsAndRegisters
  intro u k md a c s hr dp A T N R S
  refine ⟨fun hw => ?_, fun hw => ?_, fun hw => ?_, fun hw => ?_⟩
  · obtain ⟨t, ht, hq, -, hp, hb⟩ := exec_writes (dual (cmpselLane ⟨s.b, dp, u⟩ md) k a c) rfl hr hw rfl
      (foldl_dual (after := cmpselAfter ⟨s.b, dp, u⟩ md) (fun n q hq x =>
        foldl_cmpselLane _ _ n q u x (wf_cmpsel hw q hq).1 (wf_cmpsel hw q hq).2) k _)
      (forall_mem_dual fun n q _ w hm => (cmpselLane_quiet _ _ n q w hm).1)
    replace hb := hb (forall_mem_dual fun n q _ w hm => (cmpselLane_quiet _ _ n q w hm).2)
    refine ⟨t, ht, ?_⟩
    dsimp only
    rw [hq]
    refine ⟨fun n => ?_, fun n => ?_, ?_, hb, hp⟩
    · by_cases hca : c = a <;> simp [hca, bothLanes, T, A, dp]
    · by_cases hca : c = a <;> simp [hca, bothLanes, T, A, dp]
    · unfold bothLanes
      split <;> rfl
  · obtain ⟨t, ht, hq, hm, hp, -⟩ := exec_writes (dual (normLane ⟨s.b, dp, u⟩) k a c) rfl hr hw rfl
      (foldl_dual (after := normAfter ⟨s.b, dp, u⟩) (fun n q hq x => foldl_normLane _ n q u x (wf_norm hw q hq)) k _)
      (forall_mem_dual fun n q _ => normLane_stores _ n q)
    refine ⟨t, ht, ?_⟩
    dsimp only
    rw [hq]
    refine ⟨fun n => ?_, fun n => ?_, fun n => ?_, ?_, hm, hp⟩
    · by_cases hca : c = a <;> simp [hca, bothLanes, N, A, dp]
    · by_cases hca : c = a <;> simp [hca, bothLanes, N, A, dp]
    · by_cases hca : c = a <;> simp [hca, bothLanes, A, dp]
    · unfold bothLanes
      split <;> rfl
  · obtain ⟨t, ht, hq, hm, hp, -⟩ := exec_writes (dual (rcpLane ⟨s.b, dp, u⟩) k a c) rfl hr hw rfl
      (foldl_dual (after := rcpAfter ⟨s.b, dp, u⟩) (fun n q _ x => foldl_rcpLane _ n q u x) k _)
      (forall_mem_dual fun n q _ => rcpLane_stores _ n q)
    refine ⟨t, ht, ?_⟩
    dsimp only
    rw [hq]
    refine ⟨fun n => ?_, fun n => ?_, ?_, hm, hp⟩
    · by_cases hca : c = a <;> simp [hca, bothLanes, R, dp]
    · by_cases hca : c = a <;> simp [hca, bothLanes, R, dp, and_comm]
    · unfold bothLanes
      split <;> rfl
  · obtain ⟨t, ht, hq, -, hp, hb⟩ := exec_writes (dual (fun _ => satdLane ⟨s.b, dp, u⟩ md) k a c) rfl hr hw rfl
      (foldl_dual (after := satdAfter ⟨s.b, dp, u⟩ md) (fun n q _ x => foldl_satdLane _ _ n q u x) k _)
      (forall_mem_dual fun _ q _ w hm => (satdLane_quiet _ _ q w hm).1)
    replace hb := hb (forall_mem_dual fun _ q _ w hm => (satdLane_quiet _ _ q w hm).2)
    refine ⟨t, ht, ?_⟩
    dsimp only
    rw [hq]
    refine ⟨fun n => ?_, ?_, hb, hp⟩
    · by_cases hca : c = a <;> simp [hca, bothLanes, S, A, dp]
    · unfold bothLanes
      split <;> rfl
end

section
/-!
PROOF. FTAPM and the two NOPs (O4): what one lane of FTAPM makes of the datapath and of the live bytes, and both lanes from it.
-/
set_option autoImplicit false

namespace Sys2Proof.Machine

/-- `dq` differs from `dp` in what FTAPM can change only: accumulators, pointers, and the records of stores. -/
def TapFrame (dp dq : Dp) : Prop := dq = { dp with a := dq.a, p := dq.p, scr := dq.scr, wrote := dq.wrote, stored := dq.stored }

theorem TapFrame.trans {dp dq dr : Dp} (h : TapFrame dp dq) (g : TapFrame dq dr) : TapFrame dp dr := by
  unfold TapFrame at *
  refine Eq.trans g ?_
  rw [h]

/-! ### One lane (R184) -/

section

variable (r : Rd) (md : BitVec 2) (q : MacLane)

/-- The sample at pointer Y. -/
def tapSample : Half := (readMem r.blk r.dp r.u (r.dp.rP r.u q.y)).1

/-- Where the sample goes. -/
def tapDest : Nat := advance r.u r.dp q.y (r.dp.rP r.u q.y) 1

/-- The accumulator with coefficient times sample. -/
def tapSum : Int :=
  accI (r.dp.rA q.acc) + product md (readMem r.blk r.dp r.u (r.dp.rP r.u q.x)).1 (tapSample r q)

/-- The datapath with the sum and the sample stored. -/
def tapStored (dp : Dp) : Dp :=
  storeMarks r.u (tapDest r q % ptrMod r.u) (tapSample r q) { dp with a := dp.a.set 0 q.acc (accOf (tapSum r md q)) }

/-- The datapath after one lane: the pointers move last. -/
def ftapmAfter (r : Rd) (md : BitVec 2) (_ : Nat) (q : MacLane) (dp : Dp) : Dp :=
  { tapStored r md q dp with
    p := (dp.p.set (ptrPreset r.u q.x) q.x (advance r.u r.dp q.x (r.dp.rP r.u q.x) 1)).set (ptrPreset r.u q.y) q.y
      (advance r.u r.dp q.y (r.dp.rP r.u q.y) (-1)) }

variable (n : Nat) (dp : Dp)

theorem tapStored_frame : tapStored r md q dp = { dp with
    a := dp.a.set 0 q.acc (accOf (tapSum r md q))
    scr := (tapStored r md q dp).scr
    wrote := (tapStored r md q dp).wrote
    stored := (tapStored r md q dp).stored } := storeMarks_frame ..

theorem ftapmAfter_frame : TapFrame dp (ftapmAfter r md n q dp) := by
  unfold TapFrame ftapmAfter
  rw [tapStored_frame]

@[simp] theorem rA_ftapmAfter (m : Nat) : (ftapmAfter r md n q dp).rA m =
    if m = q.acc.val then accOf (tapSum r md q) else dp.rA m := by
  unfold ftapmAfter
  rw [tapStored_frame]
  exact Tbl.get_set_dflt ..

@[simp] theorem rP_ftapmAfter (m : Nat) : (ftapmAfter r md n q dp).rP r.u m =
    if m = q.y.val then advance r.u r.dp q.y (r.dp.rP r.u q.y) (-1)
    else if m = q.x.val then advance r.u r.dp q.x (r.dp.rP r.u q.x) 1 else dp.rP r.u m := by
  refine (Tbl.get_set_fun ..).trans ?_
  rw [Tbl.get_set_fun]
  rfl

/-- The writes of one lane after the marks of its two reads. -/
def tapWrites : List Wr :=
  [.a q.acc (tapSum r md q), .mem (tapDest r q) (tapSample r q), .p q.x (advance r.u r.dp q.x (r.dp.rP r.u q.x) 1),
    .p q.y (advance r.u r.dp q.y (r.dp.rP r.u q.y) (-1))]

variable (x : Blk × Dp) (hx : q.x.val % 8 = q.x.val) (hy : q.y.val % 8 = q.y.val)

include hx hy

/-- A lane's writes begin on a datapath and live bytes that the marks of its reads have not changed. -/
theorem foldl_ftapmLane : ∃ y : Blk × Dp, y.2 = x.2 ∧ y.1.live = x.1.live ∧
    (ftapmLane r md q).foldl (doWr r.u) x = (tapWrites r md q).foldl (doWr r.u) y := by
  have lane : ftapmLane r md q = (r.mem (r.dp.rP r.u q.x)).2 ++ ((r.mem (r.dp.rP r.u q.y)).2 ++ tapWrites r md q) := by
    simp only [ftapmLane, hx, hy, List.append_assoc]
    rfl
  obtain ⟨h1, h2⟩ := foldl_badIf r.u (readMem r.blk r.dp r.u (r.dp.rP r.u q.x)).2 x
  obtain ⟨h3, h4⟩ := foldl_badIf r.u (readMem r.blk r.dp r.u (r.dp.rP r.u q.y)).2
    ((badIf (readMem r.blk r.dp r.u (r.dp.rP r.u q.x)).2).foldl (doWr r.u) x)
  refine ⟨_, h3.trans h1, h4.trans h2, ?_⟩
  rw [lane, List.foldl_append, List.foldl_append]
  rfl

theorem foldl_ftapmLane_snd : ((ftapmLane r md q).foldl (doWr r.u) x).2 = ftapmAfter r md n q x.2 := by
  obtain ⟨y, hy2, -, hy⟩ := foldl_ftapmLane r md q x hx hy
  rw [hy, ← hy2]
  simp only [tapWrites, List.foldl_cons, List.foldl_nil, doWr]
  rw [store_snd]
  unfold ftapmAfter tapStored
  rw [storeMarks_frame]

theorem foldl_ftapmLane_live :
    ((ftapmLane r md q).foldl (doWr r.u) x).1.live = storeLive r.u x.1.live (tapDest r q) (tapSample r q) := by
  obtain ⟨y, -, hl, hy⟩ := foldl_ftapmLane r md q x hx hy
  rw [hy, ← hl]
  refine (store_live ..).trans (congrArg (storeLive r.u · _ _) ?_)
  exact doWr_live_of_not_stores r.u y (.a q.acc (tapSum r md q)) rfl

end

/-! ### Both lanes -/

theorem wf_ftapm {u : Eng} {k : Fin 4} {md : BitVec 2} {a c : MacLane} (h : (Instr.ftapm u k md a c).wf = true) :
    ∀ q, q = a ∨ q = c → q.x.val % 8 = q.x.val ∧ q.y.val % 8 = q.y.val := by
  simp only [Instr.wf, Bool.and_eq_true, MacLane.low_xy] at h
  rintro q (rfl | rfl) <;> tauto

end Sys2Proof.Machine

open Sys2Proof Sys2Proof.Machine

/-- Settles O4: FTAPM by what each lane makes of the datapath and the live bytes, and the NOPs, which write nothing. -/
theorem filterTapMovesSamplesAndNopsWriteNothing : Obligations.FilterTapMovesSamplesAndNopsWriteNothing := by
  unfold Obligations.FilterTapMovesSamplesAndNopsWriteNothing
  intro u k md a c s hr dp P M V dest
  refine ⟨fun hw => ?_, fun hw => exec_ready rfl hr hw, exec_ready rfl hr rfl⟩
  let r : Rd := ⟨s.b, dp, u⟩
  obtain ⟨hxa, hya⟩ := wf_ftapm hw a (.inl rfl)
  obtain ⟨hxc, hyc⟩ := wf_ftapm hw c (.inr rfl)
  have hd : (issued u (.ftapm u k md a c) s.b).2 = bothLanes (ftapmAfter r md) k a c dp :=
    foldl_dual (fun n q hq x => foldl_ftapmLane_snd r md q n x (wf_ftapm hw q hq).1 (wf_ftapm hw q hq).2) k _
  have hl : (issued u (.ftapm u k md a c) s.b).1.live = (if c = a then storeLive u s.b.live (dest a) (M (P a.y))
      else storeLive u (storeLive u s.b.live (dest a) (M (P a.y))) (dest c) (M (P c.y))) := by
    change (List.foldl (doWr r.u) (s.b, dp) (dual (fun _ => ftapmLane r md) k a c)).1.live = _
    unfold dual
    rw [List.foldl_append]
    split
    · exact foldl_ftapmLane_live r md a _ hxa hya
    · rw [foldl_ftapmLane_live r md c _ hxc hyc, foldl_ftapmLane_live r md a _ hxa hya]
      rfl
  have hs : (issued u (.ftapm u k md a c) s.b).1.shadow = s.b.shadow := foldl_fst_shadow _ _ _ fun x w => doWr_shadow u x w
  refine ⟨_, exec_issued rfl hr hw, ?_⟩
  dsimp only
  rw [engLeft_withDp, (withDp_mem ..).2, hl, hd]
  refine ⟨fun n => ?_, fun n => ?_, ?_, fun x => ?_, rfl, rfl⟩
  · by_cases hca : c = a <;> simp [hca, bothLanes, V, P, M, tapSum, tapSample, r]
  · have hru : u = r.u := rfl
    rw [hru]
    by_cases hca : c = a <;> simp [hca, bothLanes, P] <;> rfl
  · have hf : TapFrame dp (bothLanes (ftapmAfter r md) k a c dp) := by
      unfold bothLanes
      split
      · exact ftapmAfter_frame ..
      · exact (ftapmAfter_frame ..).trans (ftapmAfter_frame ..)
    unfold Dp.counted
    rw [hf]
  · rw [(withDp_mem ..).1, hs]
end

section
/-!
PROOF. The loads (O5): a syllable that marks its reads and then writes registers, and the run of registers that LDV fills.
-/
set_option autoImplicit false

namespace Sys2Proof.Machine

/-! ### A syllable that reads and then writes registers (R174) -/

theorem Wr.stores_of_quiet {w : Wr} (h : w.quiet = true) : w.stores = false := by
  cases w
  case mem => cases h
  case mems => cases h
  all_goals rfl

/-- Reads are marked before anything is written, and nothing but the datapath changes where every address read is mapped. -/
theorem exec_reads {i : Instr} {u : Eng} {s : State} (ok : Bool) (ws : List Wr) {dq : Dp} (hu : engineOfCmd i = some u)
    (hr : engReady u s.b = true) (hw : i.wf = true) (hi : sylWr ⟨s.b, engDp u s.b, u⟩ i = badIf ok ++ ws)
    (hd : ∀ b, (ws.foldl (doWr u) (b, engDp u s.b)).2 = dq) (hq : ∀ w ∈ ws, w.quiet = true) :
    ∃ t, exec i s = .next t ∧ engLeft u t.b = dq.counted ∧ KeepsMemory s.b t.b ∧ t.pending = s.pending ∧
      (ok = true → t.b = withDp u dq.counted s.b) := by
  have mark : ∀ w ∈ badIf ok, w.stores = false := by
    cases ok <;> simp [badIf, Wr.stores]
  have after : ((badIf ok ++ ws).foldl (doWr u) (s.b, engDp u s.b)).2 = dq := by
    rw [List.foldl_append]
    obtain ⟨h, -⟩ := foldl_badIf u ok (s.b, engDp u s.b)
    exact (congrArg (fun dp => (ws.foldl (doWr u) (_, dp)).2) h).trans (hd _)
  obtain ⟨t, ht, hl, hm, hp, hb⟩ := exec_writes (badIf ok ++ ws) hu hr hw hi after fun w hw =>
    (List.mem_append.1 hw).elim (mark w) fun h => Wr.stores_of_quiet (hq w h)
  refine ⟨t, ht, hl, hm, hp, fun h => hb ?_⟩
  rw [h]
  exact hq

theorem movesP_set (u : Eng) (dp : Dp) (p : Nat) (m : Int) {dq : Dp}
    (h : dq.p = dp.p.set (ptrPreset u p) p (advance u dp p (dp.rP u p) m)) : MovesP u p m dp dq := by
  intro n
  unfold Dp.rP
  rw [h, Tbl.get_set_fun]
  rfl

/-! ### The run of registers that LDV fills (R179) -/

/-- A read after writes of `n` keys in a row. -/
theorem Tbl.get_set_run {β : Type} [DecidableEq β] (t : Tbl β) (d : β) (k n m : Nat) (v : Nat → β) :
    ((List.range n).foldl (fun t i => t.set d (k + i) (v i)) t).get d m =
      if k ≤ m ∧ m < k + n then v (m - k) else t.get d m := by
  induction n with
  | zero => rw [if_neg (by omega)]; rfl
  | succ n ih =>
    rw [List.range_succ, List.foldl_append, List.foldl_cons, List.foldl_nil, Tbl.get_set_dflt, ih]
    by_cases h : m = k + n
    · rw [if_pos h, if_pos (by omega), h, Nat.add_sub_cancel_left]
    · rw [if_neg h]
      exact if_congr (by omega) rfl rfl

theorem foldl_dRun (u : Eng) (d : Nat) (v : Nat → Half) (n : Nat) (h : d + n ≤ 32) (x : Blk × Dp) :
    ((List.range n).map fun i => Wr.d (d + i) (v i)).foldl (doWr u) x =
      (x.1, { x.2 with d := (List.range n).foldl (fun t i => t.set 0 (d + i) (v i)) x.2.d }) := by
  induction n with
  | zero => rfl
  | succ n ih =>
    rw [List.range_succ, List.map_append, List.foldl_append, List.foldl_append, ih (by omega)]
    simp only [List.map_cons, List.map_nil, List.foldl_cons, List.foldl_nil, doWr]
    rw [Nat.mod_eq_of_lt (by omega)]

theorem accOver_sext32 (x : Nat) : accOver (sext 32 x) = false := by
  rw [accOver, decide_eq_false_iff_not, not_not]
  simp only [sext, satA, clampI]
  omega

end Sys2Proof.Machine

open Sys2Proof Sys2Proof.Machine

/-- Settles O5: each load marks its read, fills its registers and moves the pointer. -/
theorem loadsFillRegistersAndMoveThePointer : Obligations.LoadsFillRegistersAndMoveThePointer := by
  unfold Obligations.LoadsFillRegistersAndMoveThePointer
  intro u d a p m s hr dp P M ok
  let moved := dp.p.set (ptrPreset u p) p (advance u dp p P m.toInt)
  let move : Wr := .p p (advance u dp p P m.toInt)
  have two (h0 : ok (P / 2 * 2)) (h1 : ok (P / 2 * 2 + 1)) :
      ((List.range 2).all fun i => (readMem s.b dp u (P / 2 * 2 + i)).2) = true := by
    simpa [List.range_succ] using ⟨h0, h1⟩
  refine ⟨?_, fun hw => ?_, fun hw => ?_, ?_⟩
  · obtain ⟨t, ht, hq, hm, hp, hb⟩ := exec_reads (i := .ld u d p m) (readMem s.b dp u P).2 [.d d (M P), move]
      (dq := { dp with d := dp.d.set 0 (d.val % 32) (M P), p := moved }) rfl hr rfl rfl (fun b => rfl) (by simp [Wr.quiet, move])
    refine ⟨t, ht, ?_⟩
    dsimp only
    rw [hq]
    refine ⟨fun n => ?_, movesP_set u dp p _ rfl, rfl, hm, hp, hb⟩
    rw [Nat.mod_eq_of_lt d.isLt]
    exact Tbl.get_set_dflt ..
  · have hd : d.val % 32 = d.val ∧ (d.val + 1) % 32 = d.val + 1 := by
      simp only [Instr.wf, decide_eq_true_eq] at hw
      omega
    obtain ⟨t, ht, hq, hm, hp, hb⟩ := exec_reads (i := .ldw u d p m)
      ((List.range 2).all fun i => (readMem s.b dp u (P / 2 * 2 + i)).2)
      [.d d (M (P / 2 * 2)), .d (d + 1) (M (P / 2 * 2 + 1)), move]
      (dq := { dp with
        d := (dp.d.set 0 (d.val % 32) (M (P / 2 * 2))).set 0 ((d.val + 1) % 32) (M (P / 2 * 2 + 1)), p := moved })
      rfl hr hw rfl (fun b => rfl) (by simp [Wr.quiet, move])
    refine ⟨t, ht, ?_⟩
    dsimp only
    rw [hq]
    refine ⟨fun n => ?_, movesP_set u dp p _ rfl, rfl, hm, hp, fun h0 h1 => hb (two h0 h1)⟩
    rw [hd.1, hd.2]
    exact (Tbl.get_set_dflt ..).trans (if_congr Iff.rfl rfl (Tbl.get_set_dflt ..))
  · have hd : d.val + 8 ≤ 32 := by
      simp only [Instr.wf, decide_eq_true_eq] at hw
      omega
    obtain ⟨t, ht, hq, hm, hp, hb⟩ := exec_reads (i := .ldv u d p m)
      ((List.range 8).all fun i => (readMem s.b dp u (P / 8 * 8 + i)).2)
      (((List.range 8).map fun i => Wr.d (d + i) (M (P / 8 * 8 + i))) ++ [move])
      (dq := { dp with
        d := (List.range 8).foldl (fun t i => t.set 0 (d + i) (M (P / 8 * 8 + i))) dp.d, p := moved })
      rfl hr hw (List.append_assoc ..) (fun b => by
        rw [List.foldl_append, foldl_dRun u d _ 8 hd]
        rfl) (fun w h => by
        rcases List.mem_append.1 h with h | h
        · obtain ⟨i, -, rfl⟩ := List.mem_map.1 h
          rfl
        · rw [List.mem_singleton.1 h]
          rfl)
    refine ⟨t, ht, ?_⟩
    dsimp only
    rw [hq]
    exact ⟨fun n => Tbl.get_set_run dp.d 0 d 8 n fun i => M (P / 8 * 8 + i), movesP_set u dp p _ rfl, rfl, hm, hp,
      fun h => hb (List.all_eq_true.2 fun i hi => h i (List.mem_range.1 hi))⟩
  · obtain ⟨t, ht, hq, hm, hp, hb⟩ := exec_reads (i := .lda u a p m)
      ((List.range 2).all fun i => (readMem s.b dp u (P / 2 * 2 + i)).2)
      [.a a (sext 32 ((M (P / 2 * 2)).toNat + 65536 * (M (P / 2 * 2 + 1)).toNat)), move]
      (dq := { dp with
        a := dp.a.set 0 a (accOf (sext 32 ((M (P / 2 * 2)).toNat + 65536 * (M (P / 2 * 2 + 1)).toNat))), p := moved })
      rfl hr rfl rfl (fun b => rfl) (by simp [Wr.quiet, move, accOver_sext32])
    refine ⟨t, ht, ?_⟩
    dsimp only
    rw [hq]
    exact ⟨fun n => Tbl.get_set_dflt .., movesP_set u dp p _ rfl, rfl, hm, hp, fun h0 h1 => hb (two h0 h1)⟩
end

section
/-!
PROOF. The stores (O6): a store's syllable is its store and the move of its pointer; what each place of the slot's memory makes of a
store, and a store of several halfwords from those of one.
-/
set_option autoImplicit false

namespace Sys2Proof.Machine

/-! ### A halfword of a table copy (R18) -/

theorem byteOf_toNat (v i : Nat) : (byteOf v i).toNat = v / 256 ^ i % 256 := by
  simp [byteOf]

theorem rdH_wrH (m : Tbl Byte) (a : Nat) (v : Half) : rdH (wrH m a v.toNat) a = v.toNat := by
  have hv := v.isLt
  simp only [rdH, wrH, rdB_wrB, if_true, if_neg (show a ≠ a + 1 by omega), byteOf_toNat, pow_zero, pow_one, Nat.div_one]
  omega

theorem rdB_wrH_ne (m : Tbl Byte) (a v : Nat) {x : Nat} (h0 : x ≠ a) (h1 : x ≠ a + 1) : rdB (wrH m a v) x = rdB m x := by
  rw [wrH, rdB_wrB, rdB_wrB, if_neg h1, if_neg h0]

/-! ### ESTAT and the scratch (R171, R172) -/

section

variable (e : Nat) (st : LoopState) (x : Blk × Dp)

/-- A strobe that moves the element in the cycle of the store stands. -/
theorem storeState_strobe (h : strobeWins x.1 x.2 (x.1.elem e) = true) : (storeState e st x).1 = x.1 := if_pos h

theorem storeState_moves (h : strobeWins x.1 x.2 (x.1.elem e) = false) : (storeState e st x).1 =
    updElem e (fun el => { el with drv := { el.drv with old := outsState x.1 e st el }, lp := { el.lp with st := st } }) x.1 :=
  if_neg (by simp [h])

end

/-- The scratch reads what was stored. -/
theorem readSlot_scratch (b : Blk) (dp : Dp) (e : Nat) {a : Nat} (hl : 0x100 ≤ a) (hh : a < 0x180) :
    readSlot b dp e a = (dp.scr.get 0 (a - 0x100), true) := by
  simp only [readSlot, if_neg (show ¬ a < 0x80 by omega), if_neg (show ¬ a < 0xA0 by omega), if_neg (show ¬ a < 0xC0 by omega),
    if_neg (show ¬ a < 0xD4 by omega), if_neg (show ¬ a < 0xE0 by omega), if_neg (show ¬ a < 0xF0 by omega),
    if_neg (show ¬ a < 0x100 by omega), if_pos hh]

/-! ### Several halfwords in one access (R174, R179) -/

/-- A slot's program stores the halfwords that it may write, and the access counts once where it meets another address. -/
theorem storeAll_slot (e : Fin 4608) (a : Nat) (vs : List Half) (x : Blk × Dp) :
    let u := Eng.slot e
    let y := vs.zipIdx.foldl (fun x v => if u.isSlot && !writable (a + v.2) then x else store u (a + v.2) v.1 x) x
    storeAll u a vs x =
      (if u.isSlot && !(List.range vs.length).all fun i => writable (a + i) then addrErr u y.1 else y.1, y.2) := by
  have one : (fun (x : Blk × Dp) (v : Half × Nat) => if writable (a + v.2) then storeSlot e.val (a + v.2) v.1 x else x) =
      fun x v => if (Eng.slot e).isSlot && !writable (a + v.2) then x else store (.slot e) (a + v.2) v.1 x := by
    funext x v
    cases h : writable (a + v.2) <;> simp [store, Eng.isSlot, h]
  intro u y
  change (fun z : Blk × Dp => (if (List.range vs.length).all fun i => writable (a + i) then z.1 else addrErr u z.1, z.2))
    (vs.zipIdx.foldl _ x) = _
  rw [one]
  cases (List.range vs.length).all fun i => writable (a + i) <;> rfl

end Sys2Proof.Machine

open Sys2Proof Sys2Proof.Machine

/-- Settles O6: each store's syllable, each place that a store can reach, and the store of several halfwords. -/
theorem storesReachThePointerOnly : Obligations.StoresReachThePointerOnly := by
  unfold Obligations.StoresReachThePointerOnly
  refine ⟨fun u d a p m sh rm uns s hr => ?_, fun e pl a v b dp => ?_, fun u a vs x => ?_⟩
  · intro dp P put fin w
    exact ⟨exec_ready rfl hr rfl, fun hw => exec_ready rfl hr hw, fun hw => exec_ready rfl hr hw, exec_ready rfl hr rfl,
      fun hw => exec_ready rfl hr hw, fun hw => exec_takesD d rfl hr hw rfl⟩
  · refine ⟨fun h => ?_, ?_, fun hl hh => ?_, fun h => ?_, ?_⟩
    · rw [store_context e v (b, dp) h]
      exact ⟨rdH_wrH .., rfl, rfl, fun x h0 h1 => rdB_wrH_ne _ _ _ h0 h1⟩
    · rw [store_estat]
      refine ⟨rfl, storeState_strobe e.val _ (b, dp), fun h => ?_⟩
      rw [storeState_moves e.val _ (b, dp) h]
      refine ⟨?_, fun x hx => ?_, rfl⟩
      · rw [elem_updElem, if_pos rfl]
      · rw [elem_updElem, if_neg hx]
    · rw [store_scratch e v (b, dp) hl hh]
      refine ⟨rfl, ?_, rfl, fun x hx => Tbl.get_set_ne _ _ _ _ _ _ hx⟩
      rw [readSlot_scratch _ _ _ hl hh]
      exact Tbl.get_set_same ..
    · obtain ⟨hs, hl⟩ := addrErr_mem (.slot e) b
      exact ⟨store_unwritable e v (b, dp) h, .of_eq hs hl⟩
    · exact ⟨Tbl.get_set_same .., rfl, rfl⟩
  · cases u with
    | planner p => rfl
    | slot e => exact storeAll_slot e a vs x
end

section
/-!
PROOF. The scalar control syllables (O7): each makes one write, of a D register, a flag, or a pointer, base or length register.
-/
set_option autoImplicit false

namespace Sys2Proof.Machine

/-- A syllable whose one write is flag `f`. -/
theorem exec_takesF {i : Instr} {u : Eng} {s : State} (f : Nat) {v : Bool} (hu : engineOfCmd i = some u)
    (hr : engReady u s.b = true) (hw : i.wf = true) (hi : sylWr ⟨s.b, engDp u s.b, u⟩ i = [.f f v]) :
    ∃ t, exec i s = .next t ∧ TakesF u f v s t := by
  obtain ⟨t, ht, hq, -, hp, hb⟩ := exec_writes [.f f v] (dq := { engDp u s.b with f := (engDp u s.b).f.set false f v })
    hu hr hw hi rfl (by simp [Wr.stores])
  refine ⟨t, ht, ?_⟩
  unfold TakesF
  rw [hq]
  exact ⟨fun n => Tbl.get_set_dflt .., rfl, hb (by simp [Wr.quiet]), hp⟩

end Sys2Proof.Machine

open Sys2Proof Sys2Proof.Machine

/-- Settles O7: the one write of each syllable. -/
theorem scalarSyllablesWriteOneRegister : Obligations.ScalarSyllablesWriteOneRegister := by
  unfold Obligations.ScalarSyllablesWriteOneRegister
  intro u d x y f fa fb i k p fn ff cond uns src imm im s hr dp
  refine ⟨exec_takesD d rfl hr rfl rfl, exec_takesD d rfl hr rfl rfl, exec_takesD d rfl hr rfl rfl, exec_takesD d rfl hr rfl rfl,
    exec_takesD d rfl hr rfl ?_, ?_, exec_takesF f rfl hr rfl rfl, exec_takesF f rfl hr rfl rfl, ?_, ?_, ?_⟩
  · cases src
    · rfl
    · cases u <;> rfl
  · obtain ⟨t, ht, hq, hm, hp, hb⟩ := exec_reads (i := .pwlin u d x y p)
      ((List.range 32).all fun j => (readMem s.b dp u (dp.rP u p + j)).2)
      [.d d (BitVec.ofNat 16 (min (pwl (fun j => (readMem s.b dp u (dp.rP u p + j)).1.toNat) (dp.rD x).toNat) (dp.rD y).toNat))]
      (dq := { dp with d := dp.d.set 0 (d.val % 32) (BitVec.ofNat 16
        (min (pwl (fun j => (readMem s.b dp u (dp.rP u p + j)).1.toNat) (dp.rD x).toNat) (dp.rD y).toNat)) })
      rfl hr rfl rfl (fun b => rfl) (by simp [Wr.quiet])
    refine ⟨t, ht, hm, hp, ?_⟩
    dsimp only
    rw [hq]
    refine ⟨fun n => ?_, rfl, fun h => hb (List.all_eq_true.2 fun j hj => h j (List.mem_range.1 hj))⟩
    rw [Nat.mod_eq_of_lt d.isLt]
    exact Tbl.get_set_dflt ..
  · obtain ⟨t, ht, hq, -, hp, hb⟩ := exec_writes (i := .setp u .p i im) [.p i im.toNat]
      (dq := { dp with p := dp.p.set (ptrPreset u i) i im.toNat }) rfl hr rfl rfl rfl (by simp [Wr.stores])
    rw [← hq] at hb
    exact ⟨t, ht, hp, fun n => hq ▸ Tbl.get_set_fun .., hq ▸ rfl, hb (by simp [Wr.quiet])⟩
  · obtain ⟨t, ht, hq, -, hp, hb⟩ := exec_writes (i := .setp u .b i im) [.b i im.toNat]
      (dq := { dp with b := dp.b.set (ptrPreset u i) i im.toNat }) rfl hr rfl rfl rfl (by simp [Wr.stores])
    rw [← hq] at hb
    exact ⟨t, ht, hp, fun n => hq ▸ Tbl.get_set_fun .., hq ▸ rfl, hb (by simp [Wr.quiet])⟩
  · obtain ⟨t, ht, hq, -, hp, hb⟩ := exec_writes (i := .setp u .l i im) [.l i im.toNat]
      (dq := { dp with l := dp.l.set 0 i im.toNat }) rfl hr rfl rfl rfl (by simp [Wr.stores])
    rw [← hq] at hb
    exact ⟨t, ht, hp, fun n => hq ▸ Tbl.get_set_dflt .., hq ▸ rfl, hb (by simp [Wr.quiet])⟩
end

section
/-!
PROOF. The rounding of saturating stores (O10): each mode by the quotient and remainder of its own division, for every divisor.
-/
set_option autoImplicit false

namespace Sys2Proof.Machine

/-! ### The four modes over a divisor `d` (R4, R177) -/

section

variable (n : Int) {d : Nat} (hd : 0 < d)

include hd

/-- To nearest: at most half a unit away, and at a tie on an even value. -/
theorem rne_nearest : 2 * (rne n d * d - n).natAbs ≤ d ∧ (2 * (rne n d * d - n).natAbs = d → rne n d % 2 = 0) := by
  have hq := Int.emod_add_mul_ediv n d
  have hr0 := Int.emod_nonneg n (b := (d : Int)) (by omega)
  have hrd := Int.emod_lt_of_pos n (b := (d : Int)) (by omega)
  have down : n / d * (d : Int) = d * (n / d) := Int.mul_comm _ _
  have up : (n / d + 1) * (d : Int) = d * (n / d) + d := by ring
  unfold rne
  dsimp only
  split
  · rw [down]
    omega
  · split
    · rw [up]
      omega
    · split
      · rw [down]
        omega
      · rw [up]
        omega

/-- Down: the value lies in the unit above the result. -/
theorem ediv_floor : n / d * (d : Int) ≤ n ∧ n < (n / d + 1) * d :=
  ⟨Int.ediv_mul_le n (by omega), Int.lt_ediv_add_one_mul_self n (by omega)⟩

/-- Half a unit up and then down: at most half a unit away, and a tie goes up. -/
theorem half_up : 2 * ((2 * n + d) / (2 * d) * d - n).natAbs ≤ d ∧
    (2 * ((2 * n + d) / (2 * d) * d - n).natAbs = d → n ≤ (2 * n + d) / (2 * d) * d) := by
  obtain ⟨hl, hu⟩ := ediv_floor (2 * n + d) (d := 2 * d) (by omega)
  push_cast at hl hu
  generalize (2 * n + d) / (2 * (d : Int)) = k at *
  have twice : k * (2 * (d : Int)) = 2 * (k * d) := by ring
  have next : (k + 1) * (2 * (d : Int)) = 2 * (k * d) + 2 * d := by ring
  omega

end

section

variable (n : Int) (sh : Nat)

/-- Towards zero: no larger in size, and less than a unit away. -/
theorem roundShift_rtz : (roundShift .rtz n sh * (2 ^ sh : Nat)).natAbs ≤ n.natAbs ∧
    (n - roundShift .rtz n sh * (2 ^ sh : Nat)).natAbs < 2 ^ sh := by
  have hd := Nat.two_pow_pos sh
  unfold roundShift
  dsimp only
  generalize 2 ^ sh = d at *
  split
  · next h =>
    obtain ⟨hl, hu⟩ := ediv_floor n hd
    have hp : 0 ≤ n / d * (d : Int) := Int.mul_nonneg (Int.ediv_nonneg h (by omega)) (by omega)
    rw [Int.add_mul, Int.one_mul] at hu
    omega
  · next h =>
    obtain ⟨hl, hu⟩ := ediv_floor (-n) hd
    have hp : 0 ≤ -n / d * (d : Int) := Int.mul_nonneg (Int.ediv_nonneg (by omega) (by omega)) (by omega)
    rw [Int.add_mul, Int.one_mul] at hu
    rw [Int.neg_mul]
    omega

/-- To nearest, ties away from zero: at a tie the result is no smaller in size. -/
theorem roundShift_rha : 2 * (roundShift .rha n sh * (2 ^ sh : Nat) - n).natAbs ≤ 2 ^ sh ∧
    (2 * (roundShift .rha n sh * (2 ^ sh : Nat) - n).natAbs = 2 ^ sh →
      n.natAbs ≤ (roundShift .rha n sh * (2 ^ sh : Nat)).natAbs) := by
  have hd := Nat.two_pow_pos sh
  unfold roundShift
  dsimp only
  generalize 2 ^ sh = d at *
  split
  · next h =>
    have hk := half_up n hd
    omega
  · next h =>
    have hk := half_up (-n) hd
    rw [Int.neg_mul]
    omega

/-- With shift 0 no rounding occurs. -/
theorem roundShift_zero (rm : Rnd) : roundShift rm n 0 = n := by
  cases rm
  case rne =>
    have h := (rne_nearest n (d := 1) (by decide)).1
    change rne n 1 = n
    omega
  case rtz =>
    have h := (roundShift_rtz n 0).2
    omega
  case rdn => exact Int.ediv_one n
  case rha =>
    have h := (roundShift_rha n 0).1
    omega

end

/-! ### Saturation to S16 and U16 -/

theorem toHalf_toInt {x : Int} (hl : -32768 ≤ x) (hh : x ≤ 32767) : (toHalf x).toInt = x := by
  rw [toHalf, BitVec.toInt_ofInt]
  exact Int.bmod_eq_of_le hl (by omega)

theorem toHalf_toNat {x : Int} (hl : 0 ≤ x) (hh : x ≤ 65535) : ((toHalf x).toNat : Int) = x := by
  rw [toHalf, BitVec.toNat_ofInt]
  omega

theorem satStore_signed (rm : Rnd) (n : Int) (sh : Nat) :
    (satStore rm false n sh).toInt = min (max (-32768) (roundShift rm n sh)) 32767 := by
  change (toHalf (satS16 (roundShift rm n sh))).toInt = _
  rw [satS16, clampI, toHalf_toInt (by omega) (by omega)]
  omega

theorem satStore_unsigned (rm : Rnd) (n : Int) (sh : Nat) :
    ((satStore rm true n sh).toNat : Int) = min (max 0 (roundShift rm n sh)) 65535 := by
  change ((toHalf (satU16 (roundShift rm n sh))).toNat : Int) = _
  rw [satU16, clampI, toHalf_toNat (by omega) (by omega)]
  omega

end Sys2Proof.Machine

open Sys2Proof Sys2Proof.Machine

/-- Settles O10, mode by mode, then the saturation of each store. -/
theorem roundingIsAsTheModeSays : Obligations.RoundingIsAsTheModeSays := by
  unfold Obligations.RoundingIsAsTheModeSays
  intro n sh d r
  have hd := Nat.two_pow_pos sh
  obtain ⟨near, even⟩ := rne_nearest n hd
  exact ⟨⟨near, fun tie _ => even tie⟩, roundShift_rtz n sh, ediv_floor n hd, roundShift_rha n sh,
    fun rm => ⟨satStore_signed rm n sh, satStore_unsigned rm n sh,
      fun h => (congrArg (roundShift rm n) h).trans (roundShift_zero n rm)⟩⟩
end

section
/-!
PROOF. Reads and writes through BAR2 (O39): one lemma for each outcome of a read and of a write; an accepted write of a table by the
bytes that its strobes let through, one of a context by the halves that they make.
-/
set_option autoImplicit false

namespace Sys2Proof.Machine

/-! ### A read of one word (R398 to R401, R407, R411, R412) -/

/-- A crossbar read finds only what is known already, so no live byte changes. -/
theorem eccFind_live (tx : EccWord → Option (Nat × Nat × Nat)) (mine : EccWord → Bool) (b : Blk) :
    (eccFind tx mine b).live = b.live := by
  unfold eccFind
  dsimp only
  split
  · rfl
  · obtain ⟨hd, hl⟩ := foldl_live_of_inv (b.xb.single.filter mine)
      (fun b w => flushLate (raiseTx [962] (tx w) (foundSingle w b))) b (fun c => c.xb.double = b.xb.double)
      (fun w _ c hc => ⟨by simp [foundSingle_double, hc], by simp⟩) rfl
    refine (foldl_live_of_inv _ _ _ (fun c => c.xb.double = b.xb.double) (fun w hw c hc => ?_) hd).2.trans hl
    have known : w ∈ c.xb.double := hc ▸ (List.mem_filter.1 hw).1
    rw [foundDouble_known w c known]
    exact ⟨by simp [hc], by simp⟩

section

variable (m : Master) (a : Nat) (b : Blk) (hr : b.sys.mode ≠ .reset) (ha : a < 0x10000000) (h4 : a % 4 = 0)

include hr ha h4

/-- Where nothing is mapped or readable, T9 answers. -/
theorem busRead_window_refused (h : (bar2Target a 4).filter (mayRead m) = none) : busRead m (0x10000000 + a) 4 b =
    complete m [0x20] (send (.answer m (0x10000000 + a) 0x20 0) (decodeErr m false (0x10000000 + a) b)) := by
  have t0 : ¬ 0x10000000 + a < 0x1000000 := by omega
  have bar2 : 0x10000000 ≤ 0x10000000 + a ∧ 0x10000000 + a < 0x20000000 := by omega
  have store : inStore (0x10000000 + a) 4 = false := by
    simp only [inStore, Bool.or_eq_false_iff, decide_eq_false_iff_not]
    omega
  have word : (0x10000000 + a) / 4 * 4 = 0x10000000 + a := by omega
  have inWord : (0x10000000 + a) % 4 + 4 ≤ 4 := by omega
  simp [busRead, readRefused, hr, t0, bar2, h, store, wordsTouched_single _ 4 (by decide) inWord, word]

/-- What the target's read finds of errors is raised with the transaction, and the word is answered from the copy that is the
master's. -/
theorem busRead_window (g : Nat) (h : (bar2Target a 4).filter (mayRead m) = some g) :
    let live := readsLive m g a
    let c := eccFind (fun w => some (masterNo m, 1, w.addr.toNat)) (beatWord g live (a / 16 * 16) (a / 16 * 16 + 16)) b
    let code := tableCode g live b a
    busRead m (0x10000000 + a) 4 b = complete m [code] (send (.answer m (0x10000000 + a) code (BitVec.ofNat 32
      (if code = 0 then rdW (if live then b.live else b.shadow) a else 0))) c) := by
  have t0 : ¬ 0x10000000 + a < 0x1000000 := by omega
  have bar2 : 0x10000000 ≤ 0x10000000 + a ∧ 0x10000000 + a < 0x20000000 := by omega
  have word : a / 4 * 4 = a := by omega
  have beat : (a + 4 + 15) / 16 * 16 = a / 16 * 16 + 16 := by omega
  simp [busRead, tableRead, hr, t0, bar2, h, wordsTouched_single a 4 (by decide) (by omega), word, beat, eccFind_live]

end

/-! ### A write, accepted or not (R400, R401, R408, R482) -/

section

variable (m : Master) (a : Nat) (bytes : List (Option Byte)) (b : Blk) (hr : b.sys.mode ≠ .reset) (hb : bytes ≠ [])

include hr hb

theorem windowWrite_refused (h : (bar2Target a bytes.length).filter (mayWrite m) = none) :
    windowWrite m a bytes b = decodeErr m true (0x10000000 + a) b := by
  simp [windowWrite, hr, hb, h]

variable {g : Nat} (h : (bar2Target a bytes.length).filter (mayWrite m) = some g)

include h

theorem windowWrite_rejected (hc : firstCode (windowErrs m a (strobed a bytes) b) ≠ 0) : windowWrite m a bytes b =
    reject (rejectPage a (strobed a bytes) (firstCode (windowErrs m a (strobed a bytes) b)) b) 0xFFF
      (firstCode (windowErrs m a (strobed a bytes) b)) m b := by
  simp [windowWrite, hr, hb, h, hc]

theorem windowWrite_accepted (hc : firstCode (windowErrs m a (strobed a bytes) b) = 0) : windowWrite m a bytes b =
    if isContext a then contextDo m a (strobed a bytes) b else tableDo g a (strobed a bytes) b := by
  simp [windowWrite, hr, hb, h, hc]

end

/-- Where no injection is armed for the target, a write takes no error (R382). -/
theorem injectEcc_unarmed {t : Nat} {b : Blk} (h : flag b Reg.FTEST.ECC.GO = true → getF b Reg.FTEST.ECC.TARGET ≠ t)
    (live : Bool) (a : Nat) : injectEcc t live a b = (false, b) := if_neg fun ⟨hg, ht⟩ => h hg ht

/-! ### The bytes whose strobes are on (R398) -/

theorem mem_strobed (a : Nat) (bytes : List (Option Byte)) (x : Nat) (y : Byte) :
    (x, y) ∈ strobed a bytes ↔ ∃ i, x = a + i ∧ bytes[i]? = some (some y) := by
  induction bytes generalizing a with
  | nil => simp [strobed]
  | cons v t ih =>
    have tail : (∃ i, x = a + 1 + i ∧ t[i]? = some (some y)) ↔
        ∃ i, x = a + (i + 1) ∧ (v :: t)[i + 1]? = some (some y) := by
      simp only [List.getElem?_cons_succ, Nat.add_assoc, Nat.add_comm 1]
    have head : (∃ i, x = a + i ∧ (v :: t)[i]? = some (some y)) ↔
        (x = a ∧ v = some y) ∨ ∃ i, x = a + (i + 1) ∧ (v :: t)[i + 1]? = some (some y) := by
      constructor
      · rintro ⟨i, hx, hi⟩
        cases i with
        | zero => exact .inl ⟨hx, Option.some.inj hi⟩
        | succ i => exact .inr ⟨i, hx, hi⟩
      · rintro (⟨hx, hv⟩ | ⟨i, hx, hi⟩)
        · exact ⟨0, hx, congrArg some hv⟩
        · exact ⟨i + 1, hx, hi⟩
    rw [head, ← tail, ← ih (a + 1)]
    cases v with
    | none => simp [strobed]
    | some v => simp [strobed, eq_comm]

/-- No address is named twice. -/
theorem strobed_distinct (a : Nat) (bytes : List (Option Byte)) : (strobed a bytes).Pairwise fun x y => x.1 ≠ y.1 :=
  (strobed_bounds a bytes).2.imp fun h => Nat.ne_of_lt h

section

variable (k : Tbl Byte) (a : Nat) (bytes : List (Option Byte))

theorem rdB_wrPairs_strobed {i : Nat} {y : Byte} (hi : bytes[i]? = some (some y)) :
    rdB (wrPairs k (strobed a bytes)) (a + i) = y :=
  rdB_wrPairs k _ (a + i, y) ((mem_strobed a bytes _ y).2 ⟨i, rfl, hi⟩) (strobed_distinct a bytes)

theorem rdB_wrPairs_unstrobed {x : Nat} (hx : ∀ y, (x, y) ∉ strobed a bytes) :
    rdB (wrPairs k (strobed a bytes)) x = rdB k x :=
  rdB_wrPairs_ne k _ x fun p hp hpx => hx p.2 (hpx ▸ hp)

end

/-! ### An accepted write of a table (R231, R324, R412) -/

/-- What a write of target `t` does with no injection armed: its words have no error any more, its bytes stand in the target's copy,
and the CRC of the crosstalk table starts. -/
def tableTaken (t : Nat) (ps : List (Nat × Byte)) (b : Blk) : Blk :=
  { b with
    xb := (healedBytes ps b).xb
    shadow := if t = 5 then b.shadow else wrPairs b.shadow ps
    live := if t = 5 then wrPairs b.live ps else b.live
    regs := if t = 2 then (setFlag Reg.PLAN.XT_STAT.CRC_BUSY true b).regs else b.regs }

theorem healedBytes_eq_xb (ps : List (Nat × Byte)) (b : Blk) : healedBytes ps b = { b with xb := (healedBytes ps b).xb } := by
  induction ps generalizing b with
  | nil => rfl
  | cons p ps ih => exact ih _

/-- Of the registers only the crosstalk table's CRC_BUSY can change. -/
theorem getF_tableTaken (t : Nat) (ps : List (Nat × Byte)) (b : Blk) {f : Fld} (hf : f.key ≠ Reg.PLAN.XT_STAT.CRC_BUSY.key) :
    getF (tableTaken t ps b) f = getF b f := by
  by_cases h2 : t = 2
  · exact (getF_of_regs (if_pos h2) f).trans (getF_setF_ne _ _ _ _ hf)
  · exact getF_of_regs (if_neg h2) f

theorem flag_tableTaken_busy (t : Nat) (ps : List (Nat × Byte)) (b : Blk) :
    flag (tableTaken t ps b) Reg.PLAN.XT_STAT.CRC_BUSY = (t == 2 || flag b Reg.PLAN.XT_STAT.CRC_BUSY) := by
  by_cases h2 : t = 2
  · rw [flag_of_regs (if_pos h2), flag, setFlag, getF_setF_same, h2]
    rfl
  · rw [flag_of_regs (if_neg h2), beq_false_of_ne h2, Bool.false_or]

section

variable (t a : Nat) (bytes : List (Option Byte)) (b : Blk)

/-- Each byte whose strobe is on stands in the target's copy. -/
theorem tableTaken_strobed {i : Nat} {y : Byte} (hi : bytes[i]? = some (some y)) :
    rdB (if t = 5 then (tableTaken t (strobed a bytes) b).live else (tableTaken t (strobed a bytes) b).shadow) (a + i) = y := by
  by_cases h5 : t = 5
  · simp only [tableTaken, h5, if_true]
    exact rdB_wrPairs_strobed _ a bytes hi
  · simp only [tableTaken, h5, if_false]
    exact rdB_wrPairs_strobed _ a bytes hi

/-- No other byte of the shadow copy changes, and none where the target is the acquisition buffer. -/
theorem tableTaken_shadow {x : Nat} (h : t = 5 ∨ ∀ y, (x, y) ∉ strobed a bytes) :
    rdB (tableTaken t (strobed a bytes) b).shadow x = rdB b.shadow x := by
  by_cases h5 : t = 5
  · simp only [tableTaken, h5, if_true]
  · simp only [tableTaken, h5, if_false]
    exact rdB_wrPairs_unstrobed _ a bytes (h.resolve_left h5)

/-- No other byte of the live copy changes, and none where the target is a table. -/
theorem tableTaken_live {x : Nat} (h : t ≠ 5 ∨ ∀ y, (x, y) ∉ strobed a bytes) :
    rdB (tableTaken t (strobed a bytes) b).live x = rdB b.live x := by
  by_cases h5 : t = 5
  · simp only [tableTaken, h5, if_true]
    exact rdB_wrPairs_unstrobed _ a bytes (h.resolve_left (not_not_intro h5))
  · simp only [tableTaken, h5, if_false]

end

theorem tableDo_unarmed {t : Nat} {b : Blk} (h : flag b Reg.FTEST.ECC.GO = true → getF b Reg.FTEST.ECC.TARGET ≠ t) (a : Nat)
    (ps : List (Nat × Byte)) : tableDo t a ps b = tableTaken t ps b := by
  have taken : tableDo t a ps b = (injectEcc t false a (tableTaken t ps b)).2 := by
    unfold tableDo
    rw [healedBytes_eq_xb]
    by_cases h5 : t = 5
    · subst h5
      rfl
    · by_cases h2 : t = 2
      · subst h2
        rfl
      · simp only [tableTaken, if_neg h5, if_neg h2]
  rw [taken, injectEcc_unarmed]
  rw [flag, getF_tableTaken _ _ _ (by decide), getF_tableTaken _ _ _ (by decide)]
  exact h

/-! ### The halves of an accepted context write (R197 to R199) -/

/-- The halves that rising bytes make: each stands at an even address that a byte names, a byte at an even address and the next one
make one, and the halves rise too. -/
theorem halvesOf_of_rising (ps : List (Nat × Byte)) (hs : List (Nat × Nat)) (h : halvesOf ps = some hs)
    (hp : ps.Pairwise fun x y => x.1 < y.1) :
    (∀ x ∈ hs, x.1 % 2 = 0 ∧ ∃ y, (x.1, y) ∈ ps) ∧
    (∀ x y z, x % 2 = 0 → (x, y) ∈ ps → (x + 1, z) ∈ ps → (x, y.toNat + 256 * z.toNat) ∈ hs) ∧
    hs.Pairwise fun x y => x.1 < y.1 := by
  induction ps using halvesOf.induct generalizing hs with
  | case1 =>
    cases h
    simp
  | case2 p q t hpq ih =>
    obtain ⟨hpe, hq⟩ := hpq
    rw [halvesOf, if_pos ⟨hpe, hq⟩, Option.map_eq_some_iff] at h
    obtain ⟨r, hr, rfl⟩ := h
    rw [List.pairwise_cons, List.pairwise_cons] at hp
    obtain ⟨hpl, hql, ht⟩ := hp
    obtain ⟨hnamed, hmade, hrise⟩ := ih r hr ht
    refine ⟨?_, fun x y z hx hy hz => ?_, List.pairwise_cons.2 ⟨fun w hw => ?_, hrise⟩⟩
    · rw [List.forall_mem_cons]
      refine ⟨⟨hpe, p.2, List.mem_cons_self⟩, fun x hx => ?_⟩
      obtain ⟨he, y, hy⟩ := hnamed x hx
      exact ⟨he, y, by simp [hy]⟩
    · have hlt : ∀ w ∈ t, p.1 + 1 < w.1 := fun w hw => hq ▸ hql w hw
      rcases List.mem_cons.1 hy with rfl | hy
      · rcases List.mem_cons.1 hz with hz | hz
        · cases hz
        rcases List.mem_cons.1 hz with rfl | hz
        · exact List.mem_cons_self
        · exact absurd (hlt _ hz) (lt_irrefl _)
      rcases List.mem_cons.1 hy with rfl | hy
      · simp only at hq
        omega
      have hxl := hlt _ hy
      rcases List.mem_cons.1 hz with rfl | hz
      · simp only at hxl
        omega
      rcases List.mem_cons.1 hz with rfl | hz
      · simp only at hxl hq
        omega
      exact List.mem_cons_of_mem _ (hmade x y z hx hy hz)
    · obtain ⟨-, y, hy⟩ := hnamed w hw
      exact hpl _ (List.mem_cons_of_mem _ hy)
  | case3 p q t hpq =>
    rw [halvesOf, if_neg hpq] at h
    cases h
  | case4 l h0 h2 =>
    match l with
    | [] => exact (h0 rfl).elim
    | [_] => cases h
    | x :: y :: t => exact (h2 x y t rfl).elim

/-- The half that waits for its boundary. -/
def waiting (host : Bool) (b : Blk) (v : Nat) : PendHalf :=
  { val := BitVec.ofNat 16 v, tick := if b.edge < 234 then b.tick else b.tick + 1, host := host }

/-- Every half of a write waits with the tick of the write, for a half changes neither tick nor edge. -/
theorem ctxHalves_eq_pend (host : Bool) (hs : List (Nat × Nat)) (b : Blk) :
    ctxHalves host hs b = { b with pend := hs.foldl (fun t h => t.put h.1 (waiting host b h.2)) b.pend } := by
  induction hs generalizing b with
  | nil => rfl
  | cons h hs ih => exact ih (putHalf host h.1 h.2 b)

section

variable {β : Type} (w : Nat → β) (hs : List (Nat × Nat)) (t : Tbl β)

theorem Tbl.find_foldl_put_ne {k : Nat} (h : ∀ x ∈ hs, x.1 ≠ k) :
    (hs.foldl (fun t h => t.put h.1 (w h.2)) t).find k = t.find k := by
  induction hs generalizing t with
  | nil => rfl
  | cons x hs ih =>
    rw [List.forall_mem_cons] at h
    rw [List.foldl_cons, ih _ h.2, Tbl.find_put, if_neg (Ne.symm h.1)]

theorem Tbl.find_foldl_put {k v : Nat} (hd : hs.Pairwise fun x y => x.1 < y.1) (h : (k, v) ∈ hs) :
    (hs.foldl (fun t h => t.put h.1 (w h.2)) t).find k = some (w v) := by
  induction hs generalizing t with
  | nil => cases h
  | cons x hs ih =>
    obtain ⟨hx, hd⟩ := List.pairwise_cons.1 hd
    rw [List.foldl_cons]
    rcases List.mem_cons.1 h with rfl | h
    · rw [Tbl.find_foldl_put_ne w hs _ fun y hy => Nat.ne_of_gt (hx y hy), Tbl.find_put, if_pos rfl]
    · exact ih _ hd h

end

/-- With no injection armed, a context write leaves its halves waiting. -/
theorem contextDo_unarmed {b : Blk} (h : flag b Reg.FTEST.ECC.GO = true → getF b Reg.FTEST.ECC.TARGET ≠ 4) (m : Master) (a : Nat)
    {ps : List (Nat × Byte)} {hs : List (Nat × Nat)} (hh : halvesOf ps = some hs) :
    contextDo m a ps b = ctxHalves (decide (m = .m0)) hs b := by
  have armed : flag (ctxHalves (decide (m = .m0)) hs b) Reg.FTEST.ECC.GO = true →
      getF (ctxHalves (decide (m = .m0)) hs b) Reg.FTEST.ECC.TARGET ≠ 4 := by
    rw [ctxHalves_eq_pend]
    exact h
  unfold contextDo
  rw [hh]
  dsimp only [Option.getD_some]
  rw [injectEcc_unarmed armed]
  rfl

/-- Two bytes as a halfword, the lower one last (R18). -/
theorem append_eq_ofNat (y z : Byte) : z ++ y = BitVec.ofNat 16 (y.toNat + 256 * z.toNat) := by
  have hy := y.isLt
  have hz := z.isLt
  refine BitVec.eq_of_toNat_eq ?_
  rw [BitVec.toNat_append, BitVec.toNat_ofNat, ← Nat.shiftLeft_add_eq_or_of_lt hy, Nat.shiftLeft_eq]
  omega

end Sys2Proof.Machine

open Sys2Proof Sys2Proof.Machine

/-- Settles O39: a read's two outcomes, a write's three, and the halves of a context write. -/
theorem windowWritesReachTheirCopies : Obligations.WindowWritesReachTheirCopies := by
  unfold Obligations.WindowWritesReachTheirCopies
  refine ⟨fun m a s hr ha h4 => ?_, fun m a bytes s hr hb => ?_, fun m a bytes s hr hb hx => ?_⟩
  · intro x fin
    have run : exec (.nowNsRead ⟨m, x, 4⟩) s = .next { s with b := busRead m x 4 s.b } := rfl
    refine ⟨fun h => ?_, fun g h => ?_⟩
    · rw [run, busRead_window_refused m a s.b hr ha h4 h, complete_single]
    · intro live spoilt c d
      refine ⟨.of_eq (eccFind_shadow ..) (eccFind_live ..), ?_⟩
      have code : tableCode g live s.b a = if spoilt = true then 0x17 else 0 := rfl
      rw [run, busRead_window m a s.b hr ha h4 g h, complete_single]
      change Host.Outcome.next { s with b := fin (tableCode g live s.b a) (send (.answer m x (tableCode g live s.b a)
        (BitVec.ofNat 32 (if tableCode g live s.b a = 0 then rdW (if live then s.b.live else s.b.shadow) a else 0))) c) } = _
      rw [code]
      by_cases hs : spoilt = true
      · simp [d, hs]
      · simp [d, hs]
  · intro n ps code
    have table : exec (.tableWrite m a bytes) s = .next { s with b := windowWrite m a bytes s.b } := rfl
    have context : exec (.contextWrite m a bytes) s = .next { s with b := windowWrite m a bytes s.b } := rfl
    refine ⟨fun h => ?_, fun g h => ⟨fun hc => ?_, fun hc hx hg => ⟨_, table, ?_⟩⟩⟩
    · rw [table, context, windowWrite_refused m a bytes s.b hr hb h]
      exact ⟨rfl, rfl⟩
    · rw [table, context, windowWrite_rejected m a bytes s.b hr hb h hc]
      exact ⟨rfl, rfl⟩
    · rw [windowWrite_accepted m a bytes s.b hr hb h hc, hx, if_neg Bool.false_ne_true, tableDo_unarmed hg]
      exact ⟨rfl, fun i y hi => tableTaken_strobed g a bytes s.b hi, fun x hx => tableTaken_shadow g a bytes s.b hx,
        fun x hx => tableTaken_live g a bytes s.b hx, flag_tableTaken_busy ..,
        fun f hf => getF_tableTaken _ _ _ (by simpa using hf)⟩
  · intro ps hg he hi
    have run : exec (.contextWrite m a bytes) s = .next { s with b := windowWrite m a bytes s.b } := rfl
    obtain ⟨hs, hh⟩ : ∃ hs, halvesOf ps = some hs := by
      cases hh : halvesOf ps with
      | some hs => exact ⟨hs, rfl⟩
      | none => simp [windowErrs, codeIf, hx, hh] at he
    obtain ⟨named, made, rise⟩ := halvesOf_of_rising ps hs hh (strobed_bounds a bytes).2
    refine ⟨_, run, ?_⟩
    rw [windowWrite_accepted m a bytes s.b hr hb hg (by rw [he]; rfl), hx, if_pos rfl, contextDo_unarmed hi m a hh,
      ctxHalves_eq_pend]
    refine ⟨rfl, fun i y z h2 hy hz => ?_, fun h hn => ?_⟩
    · rw [append_eq_ofNat]
      exact Tbl.find_foldl_put _ hs _ rise (made _ y z h2 ((mem_strobed a bytes _ y).2 ⟨i, rfl, hy⟩)
        ((mem_strobed a bytes _ z).2 ⟨i + 1, Nat.add_assoc .., hz⟩))
    · refine Tbl.find_foldl_put_ne _ hs _ fun x hx hxh => ?_
      obtain ⟨heven, y, hy⟩ := named x hx
      rcases hn with hn | hn
      · omega
      · exact hn y (hxh ▸ hy)
end

section
/-!
PROOF. The writes of the scheduling and planning registers (O11): a write of the SCHED or the PLAN page has the plane's checks and no
others, and each register's effect is its field store, with OVERDRAWN for a budget and a pending threshold for EPS_LOCK.
-/
set_option autoImplicit false

namespace Sys2Proof.Machine

/-! ### The checks (R227, R229, R232, R243) -/

section

variable {v : Word} {b : Blk}

/-- From 0x40 on, a write of the SCHED or the PLAN page has no checks but the plane's. -/
theorem ownErrs_scheduling {g : Pg} {off : Nat} (hg : g = .sched ∨ g = .plan) (ho : 0x40 ≤ off) :
    ownErrs .m0 g 0 off v b = planeErrs g off v b := by
  rw [ownErrs, if_neg (Nat.not_lt.2 ho)]
  rcases hg with rfl | rfl <;> simp [serviceErrs, arrayErrs]

theorem budgetErrs_nil (hle : v.bits 0 13 ≤ v.bits 16 13) (hmax : v.bits 16 13 ≤ 8000) : budgetErrs v = [] :=
  if_neg (by omega)

theorem planeErrs_epsLock_nil (hmin : 1 ≤ v.bits 0 16) (hmax : v.bits 0 16 ≤ 65534) : planeErrs .plan 0x44 v b = [] := by
  have inside : decide (v.bits 0 16 < 1 ∨ 65534 < v.bits 0 16) = false := decide_eq_false (by omega)
  simp only [planeErrs, inside]
  rfl

theorem planeErrs_xtSh_nil (hmax : v.bits 0 3 ≤ 4) : planeErrs .plan 0x40 v b = [] := by
  simp [planeErrs, codeIf, hmax]

theorem dlogRpErrs_nil (h : (v.bits 0 9 + 512 - getF b Reg.PLAN.DLOG_RP.RP) % 512 ≤
    (getF b Reg.PLAN.DLOG_WP.WP + 512 - getF b Reg.PLAN.DLOG_RP.RP) % 512) : dlogRpErrs v b = [] :=
  if_neg (Nat.not_lt.2 h)

/-! ### The effects (R229, R232, R243, R249) -/

/-- The budgets are stored, and the metered power against which the new one is held is the old one. -/
theorem budgetDo_eq : budgetDo v b =
    let c := setFs [(Reg.SCHED.BUDGET.STEADY, v.bits 0 13), (Reg.SCHED.BUDGET.PEAK, v.bits 16 13)] b
    if 10 * v.bits 0 13 ≤ getF b Reg.SCHED.METER.P_MS then setOverdrawn true c else c := by
  have meter : getF (setF Reg.SCHED.BUDGET.PEAK (v.bits 16 13) (setF Reg.SCHED.BUDGET.STEADY (v.bits 0 13) b))
      Reg.SCHED.METER.P_MS = getF b Reg.SCHED.METER.P_MS := by
    rw [getF_setF_ne _ _ _ _ (by decide), getF_setF_ne _ _ _ _ (by decide)]
  rw [budgetDo, meter]
  rfl

/-! ### The writes -/

theorem pageWrite_budget (h : hears 0xE000E000 v b = true) (hle : v.bits 0 13 ≤ v.bits 16 13) (hmax : v.bits 16 13 ≤ 8000) :
    pageWrite 0x08 0x44 v b = budgetDo v b :=
  pageWrite_hears 0x08 0x44 0xE000E000 .sched 0 v b (by decide) (by decide) rfl (by decide) h
    ((ownErrs_scheduling (.inl rfl) (by decide)).trans (budgetErrs_nil hle hmax))

/-- A write of a register of the PLAN page that the plane's checks pass takes effect. -/
theorem pageWrite_plan {off mask : Nat} (ho : 0x40 ≤ off ∧ off < 4096 ∧ off % 4 = 0) (hr : Pg.reserved .plan 0 off = mask)
    (h : hears mask v b = true) (he : planeErrs .plan off v b = []) :
    pageWrite 0x0A off v b = regDo .plan 0 0x0A off v b := by
  obtain ⟨hlow, hhigh, haligned⟩ := ho
  exact pageWrite_hears 0x0A off mask .plan 0 v b (by decide) hhigh haligned hr h
    ((ownErrs_scheduling (.inr rfl) hlow).trans he)

theorem pageWrite_epsLock (h : hears 0xFFFF0000 v b = true) (hmin : 1 ≤ v.bits 0 16) (hmax : v.bits 0 16 ≤ 65534) :
    pageWrite 0x0A 0x44 v b = { setF Reg.PLAN.EPS.EPS_LOCK (v.bits 0 16) b with epsPend := true } :=
  pageWrite_plan (by decide) (by decide) h (planeErrs_epsLock_nil hmin hmax)

theorem pageWrite_xtSh (h : hears 0xFFFFFFF8 v b = true) (hmax : v.bits 0 3 ≤ 4) :
    pageWrite 0x0A 0x40 v b = setF Reg.PLAN.CFG.XT_SH (v.bits 0 3) b :=
  pageWrite_plan (by decide) (by decide) h (planeErrs_xtSh_nil hmax)

theorem pageWrite_dlogRp (h : hears 0xFFFFFE00 v b = true) (hp : (v.bits 0 9 + 512 - getF b Reg.PLAN.DLOG_RP.RP) % 512 ≤
    (getF b Reg.PLAN.DLOG_WP.WP + 512 - getF b Reg.PLAN.DLOG_RP.RP) % 512) :
    pageWrite 0x0A 0x78 v b = setF Reg.PLAN.DLOG_RP.RP (v.bits 0 9) b :=
  pageWrite_plan (by decide) (by decide) h (dlogRpErrs_nil hp)

theorem pageWrite_dlogLost (hb : b.heard = true) :
    pageWrite 0x0A 0x7C 0x80000000 b = setF Reg.PLAN.DLOG_LOST.LOST 0 b :=
  pageWrite_effect (g := .plan) (i := 0) (by decide) hb (by decide) rfl (by decide)

end

end Sys2Proof.Machine

open Sys2Proof Sys2Proof.Machine

/-- Settles O11: each register's write passes its checks and has its one effect. -/
theorem schedulingRegistersTakeTheirWrites : Obligations.SchedulingRegistersTakeTheirWrites := by
  unfold Obligations.SchedulingRegistersTakeTheirWrites
  intro v s
  have answers {c d : Blk} (h : c = d) :
      (Host.Outcome.next { s with b := c } : Host.Outcome State Fault Refusal) = .next { s with b := d } := by rw [h]
  exact ⟨fun h hle hmax => answers ((pageWrite_budget h hle hmax).trans budgetDo_eq),
    fun h hmin hmax => answers (pageWrite_epsLock h hmin hmax), fun h hmax => answers (pageWrite_xtSh h hmax),
    fun h hp => answers (pageWrite_dlogRp h hp), fun hb => answers (pageWrite_dlogLost hb)⟩
end

section
/-!
PROOF. The evaluation of arrivals (O27): the earliest stamp wins the fold over the arrivals, the first failing check gives the
result, and an accepted and a rejected frame each have their one outcome.
-/
set_option autoImplicit false

namespace Sys2Proof.Machine

/-! ### The order of arrivals (R236) -/

/-- The arrival kept so far, or the one at hand where it comes first. -/
def earlierOf (m : Option (Nat × Arrival)) (x : Arrival × Nat) : Option (Nat × Arrival) :=
  match m with
  | none => some (x.2, x.1)
  | some y =>
    if x.1.stamp < y.2.stamp ∨ (x.1.stamp = y.2.stamp ∧ x.1.peer = none ∧ y.2.peer ≠ none) then some (x.2, x.1) else m

theorem nextArrival_eq_foldl (as : List Arrival) : nextArrival as = as.zipIdx.foldl earlierOf none := rfl

/-- Of two arrivals, the one kept has no later stamp than either. -/
theorem earlierOf_some (y : Nat × Arrival) (x : Arrival × Nat) :
    ∃ z, earlierOf (some y) x = some z ∧ (z = y ∨ z = (x.2, x.1)) ∧ z.2.stamp ≤ y.2.stamp ∧ z.2.stamp ≤ x.1.stamp := by
  by_cases h : x.1.stamp < y.2.stamp ∨ (x.1.stamp = y.2.stamp ∧ x.1.peer = none ∧ y.2.peer ≠ none)
  · exact ⟨(x.2, x.1), if_pos h, .inr rfl, by dsimp only; omega, Nat.le_refl _⟩
  · exact ⟨y, if_neg h, .inl rfl, Nat.le_refl _, by omega⟩

/-- The fold ends with its start or with one of the list, and with no later stamp than any of them. -/
theorem foldl_earlierOf_some (xs : List (Arrival × Nat)) (y : Nat × Arrival) :
    ∃ z, xs.foldl earlierOf (some y) = some z ∧ (z = y ∨ (z.2, z.1) ∈ xs) ∧ z.2.stamp ≤ y.2.stamp ∧
      ∀ x ∈ xs, z.2.stamp ≤ x.1.stamp := by
  induction xs generalizing y with
  | nil => exact ⟨y, rfl, .inl rfl, Nat.le_refl _, by simp⟩
  | cons x xs ih =>
    obtain ⟨w, hw, kept, notAfterY, notAfterX⟩ := earlierOf_some y x
    obtain ⟨z, hz, found, notAfterW, least⟩ := ih w
    refine ⟨z, by rw [List.foldl_cons, hw, hz], ?_, by omega, fun u hu => ?_⟩
    · rcases found with rfl | hm
      · rcases kept with rfl | rfl
        · exact .inl rfl
        · exact .inr List.mem_cons_self
      · exact .inr (List.mem_cons_of_mem _ hm)
    · rcases List.mem_cons.1 hu with rfl | hu
      · omega
      · exact least u hu

/-- The arrival evaluated next stands at its position, and no stamp is earlier than its own. -/
theorem nextArrival_some {as : List Arrival} {i : Nat} {a : Arrival} (h : nextArrival as = some (i, a)) :
    as[i]? = some a ∧ ∀ y ∈ as, a.stamp ≤ y.stamp := by
  cases as with
  | nil => cases h
  | cons first rest =>
    rw [nextArrival_eq_foldl, List.zipIdx_cons, List.foldl_cons] at h
    obtain ⟨z, hz, found, notAfterFirst, least⟩ := foldl_earlierOf_some (rest.zipIdx 1) (0, first)
    obtain rfl : (i, a) = z := Option.some.inj (h.symm.trans hz)
    refine ⟨?_, fun y hy => ?_⟩
    · refine List.mk_mem_zipIdx_iff_getElem?.1 ?_
      rcases found with h0 | hm
      · cases h0
        exact List.mem_cons_self
      · exact List.mem_cons_of_mem _ hm
    · rcases List.mem_cons.1 hy with rfl | hy
      · exact notAfterFirst
      · rw [← List.zipIdx_map_fst 1 rest] at hy
        obtain ⟨x, hx, rfl⟩ := List.mem_map.1 hy
        exact least x hx

/-! ### The result of the checks (R241) -/

theorem admissionResult_of_all_pass {b : Blk} {ws : List Word} (h : ∀ x ∈ admissionChecks b ws, x.2.1 = false) :
    admissionResult b ws = (0, 0) := by
  have none_fails : (admissionChecks b ws).find? (fun x => x.2.1) = none :=
    List.find?_eq_none.2 fun x hx => by simp [h x hx]
  rw [admissionResult, none_fails]

theorem admissionResult_of_first_fail {b : Blk} {ws : List Word} {n : Nat} {x : Nat × Bool × Nat}
    (hn : (admissionChecks b ws)[n]? = some x) (hx : x.2.1 = true)
    (first : ∀ m < n, ∀ y : Nat × Bool × Nat, (admissionChecks b ws)[m]? = some y → y.2.1 = false) :
    admissionResult b ws = (x.1, x.2.2) := by
  obtain ⟨hlen, rfl⟩ := List.getElem?_eq_some_iff.1 hn
  have found : (admissionChecks b ws).find? (fun x => x.2.1) = some (admissionChecks b ws)[n] :=
    List.find?_eq_some_iff_getElem.2 ⟨hx, n, hlen, rfl, fun m hm => by
      simp [first m hm _ (List.getElem?_eq_getElem (hm.trans hlen))]⟩
  rw [admissionResult, found]

/-! ### The evaluation (R242) -/

theorem frameAdmission_of_next {b : Blk} {i : Nat} {a : Arrival} (h : nextArrival b.sched.arrivals = some (i, a)) :
    frameAdmission b = admitFrame a { b with sched := { b.sched with arrivals := b.sched.arrivals.eraseIdx i } } := by
  rw [frameAdmission, h]

theorem admitFrame_accepted {a : Arrival} {b : Blk} (h : (admissionResult b a.words).1 = 0) :
    admitFrame a b =
      let d := showLast a.words (admissionResult b a.words) b
      let e := lifeAdd64 5 (incF Reg.SCHED.CNT_ACC.COUNT (showQueue { d with
        sched := { d.sched with queue := d.sched.queue ++ [frameOf b a] } }))
      let g := solveDirects (postRecord a.peer.isNone a.peer a.msg
        (recordWords e 1 (frameOf b a).seq (frameOf b a).tp 0 0 e.time.ns 0) e)
      flushLate (if g.sched.queue.length = 56 then raise 1029 g else g) := by
  simp only [admitFrame, if_pos h, raiseIf, beq_iff_eq]

theorem admitFrame_rejected {a : Arrival} {b : Blk} (h : (admissionResult b a.words).1 ≠ 0) :
    admitFrame a b =
      let c := incF Reg.SCHED.CNT_REJ.COUNT (showLast a.words (admissionResult b a.words) b)
      raise 1024 (postRecord a.peer.isNone a.peer a.msg
        (recordWords c (1 + (admissionResult b a.words).2 * 256) (frameOf b a).seq 0 0 0 c.time.ns 0) c) := by
  rw [admitFrame, if_neg h]

end Sys2Proof.Machine

open Sys2Proof Sys2Proof.Machine

/-- Settles O27: the earliest arrival is taken, its first failing check decides, and each decision has its one outcome. -/
theorem arrivalsAreEvaluatedInOrder : Obligations.ArrivalsAreEvaluatedInOrder := by
  unfold Obligations.ArrivalsAreEvaluatedInOrder
  intro s i a h
  obtain ⟨stands, earliest⟩ := nextArrival_some h
  have run : exec .frameAdmission s = .next { s with b := frameAdmission s.b } := rfl
  rw [run, frameAdmission_of_next h]
  refine ⟨stands, earliest, fun pass => ?_, fun n x hn hx first => admissionResult_of_first_fail hn hx first,
    fun accepted => ?_, fun rejected => ?_⟩
  · rw [admissionResult_of_all_pass pass]
  · rw [admitFrame_accepted accepted]
  · rw [admitFrame_rejected rejected]
end

section
/-!
PROOF. The sequencer's vote (O29): what a channel presents where no flip is armed, the outcome of a vote whose channels differ at
most in the launch command, and what each outcome makes of the block.
-/
set_option autoImplicit false

namespace Sys2Proof.Machine

/-! ### The vote over one value (R254, R255) -/

section

variable {α : Type} [DecidableEq α] {x y z : Option α}

theorem voteOne_all_agree (h : x ≠ none) : voteOne x x x = some 3 := by simp [voteOne, h]

theorem voteOne_first_odd (hy : y ≠ none) (h : x ≠ y) : voteOne x y y = some 0 := by simp [voteOne, hy, h]

theorem voteOne_no_two_agree (hxy : x ≠ y) (hxz : x ≠ z) (hyz : y ≠ z) : voteOne x y z = none := by
  simp [voteOne, hxy, hxz, hyz]

end

/-! ### What the channels present -/

section

variable {b : Blk} {v : VoteIn} (c d : Nat)

theorem chanCmd_of_present (h : (chanOf v c).present = true) : chanCmd v c = some (chanOf v c).cmd := if_pos h

theorem chanWord_ne_none (h : (chanOf v c).present = true) (w : Nat) : chanWord b v c w ≠ none := by simp [chanWord, h]

/-- Where no flip is armed, channels that alter the same words present the same words. -/
theorem chanWord_congr (hflip : flag b Reg.FTEST.SEQ_FLIP.GO = false) (hp : (chanOf v c).present = (chanOf v d).present)
    (hw : (chanOf v c).words = (chanOf v d).words) (w : Nat) : chanWord b v c w = chanWord b v d w := by
  simp [chanWord, hflip, hp, hw]

end

/-! ### The outcome of a vote (R255, R256) -/

/-- The outcome of the vote over the channels in service. -/
def voteOutcome (b : Blk) (v : VoteIn) : VoteOut :=
  let cs := (List.range 3).filter fun c => inService b c
  if cs.length = 3 then voteTriplex b v else voteDuplex b v (cs.getD 0 0) (cs.getD 1 0)

/-- The outcome in TRIPLEX where every word agrees and the vote over the launch command is `c`. -/
def triplexOf (c : Option Nat) : VoteOut :=
  let odd := (List.range 3).filter fun k => c == some k
  { odd := if c.isNone then [0, 1, 2] else odd, halt := c.isNone || decide (2 ≤ odd.length), cmd := c != some 3, word := 0 }

/-- The outcome in DUPLEX between `p` and `q` where every word agrees and the launch commands do or do not differ. -/
def duplexOf (p q : Nat) (differ : Bool) : VoteOut :=
  { odd := if differ then [p, q] else [], halt := differ, cmd := differ, word := 0 }

section

variable {b : Blk} {v : VoteIn}

theorem voteTriplex_of_words_agree
    (h : ∀ w, voteOne (chanWord b v 0 w) (chanWord b v 1 w) (chanWord b v 2 w) = some 3) :
    voteTriplex b v = triplexOf (voteOne (chanCmd v 0) (chanCmd v 1) (chanCmd v 2)) := by
  have decided : (((votedWords b v).map fun w => (w, some 3)).map Prod.snd).any Option.isNone = false := by simp
  have noWord : ((votedWords b v).map fun w => (w, some 3)).find? (fun x => x.2 != some 3) = none := by simp
  have outvoted (c : Option Nat) : ((List.range 3).filter fun k => c == some k ||
      (((votedWords b v).map fun w => (w, some 3)).map Prod.snd).any fun x => x == some k) =
      (List.range 3).filter fun k => c == some k := by
    refine List.filter_congr fun k hk => ?_
    have : 3 ≠ k := (List.mem_range.1 hk).ne'
    simp [this]
  simp only [voteTriplex, triplexOf, h, List.any_cons, decided, noWord, outvoted, Bool.or_false, Option.map_none,
    Option.getD_none]

theorem voteDuplex_of_words_agree {p q : Nat} (h : ∀ w, chanWord b v p w = chanWord b v q w)
    (hn : ∀ w, chanWord b v q w ≠ none) :
    voteDuplex b v p q = duplexOf p q (decide (chanCmd v p ≠ chanCmd v q ∨ chanCmd v p = none)) := by
  have noWord : (votedWords b v).find? (fun w => decide (chanWord b v p w ≠ chanWord b v q w ∨ chanWord b v p w = none)) =
      none := by simp [h, hn]
  simp only [voteDuplex, noWord, duplexOf, Option.isSome_none, Bool.or_false, Option.getD_none]

end

section

variable {b : Blk} {v : VoteIn} (hflip : flag b Reg.FTEST.SEQ_FLIP.GO = false) (hwp : v.p.words = v.l.words)
  (hl : v.l.present = true) (hp : v.p.present = true) (hinL : inService b 1 = true) (hinP : inService b 2 = true)

include hflip hwp hl hp hinL hinP

/-- In TRIPLEX with the same words in every channel, the launch commands alone decide. -/
theorem voteOutcome_triplex (hwi : v.i.words = v.l.words) (hi : v.i.present = true) (hinI : inService b 0 = true) :
    voteOutcome b v = triplexOf (voteOne (some v.i.cmd) (some v.l.cmd) (some v.p.cmd)) := by
  have three : voteOutcome b v = voteTriplex b v := by simp [voteOutcome, List.range_succ, hinI, hinL, hinP]
  have words (w : Nat) : voteOne (chanWord b v 0 w) (chanWord b v 1 w) (chanWord b v 2 w) = some 3 := by
    rw [chanWord_congr 0 1 hflip (hi.trans hl.symm) hwi, chanWord_congr 2 1 hflip (hp.trans hl.symm) hwp]
    exact voteOne_all_agree (chanWord_ne_none 1 hl w)
  rw [three, voteTriplex_of_words_agree words, chanCmd_of_present 0 hi, chanCmd_of_present 1 hl, chanCmd_of_present 2 hp]
  rfl

/-- In DUPLEX of Lupin and Phlox with the same words in both, the launch commands alone decide. -/
theorem voteOutcome_without_iris (hinI : inService b 0 = false) :
    voteOutcome b v = duplexOf 1 2 (decide (v.l.cmd ≠ v.p.cmd)) := by
  have two : voteOutcome b v = voteDuplex b v 1 2 := by simp [voteOutcome, List.range_succ, hinI, hinL, hinP]
  have words (w : Nat) : chanWord b v 1 w = chanWord b v 2 w := chanWord_congr 1 2 hflip (hl.trans hp.symm) hwp.symm w
  rw [two, voteDuplex_of_words_agree words (chanWord_ne_none 2 hp), chanCmd_of_present 1 hl, chanCmd_of_present 2 hp]
  simp [chanOf]

end

/-! ### What an outcome makes of the block (R254 to R258, R264) -/

/-- The block after a vote with outcome `o` about frame `i`, whose voted values are `g`. -/
def carryOut (o : VoteOut) (i : Nat) (g : Frame) (b : Blk) : Blk :=
  let c := setFlag Reg.FTEST.SEQ_FLIP.GO false (showDis o (incF Reg.SEQ.VOTES.COUNT b))
  if o.halt then seqHalt c
  else
    let d := match o.odd with
      | k :: _ => retire k c
      | [] => c
    if firstUnlaunched d < d.sched.queue.length then armFrame i g d else d

theorem sequencerVote_of_planned {v : VoteIn} {b : Blk} {f : Frame} {o : VoteOut}
    (hq : b.sched.queue[firstUnlaunched b]? = some f) (hs : f.stage = .planned) (hc : getF b Reg.SEQ.STAT.CONFIG ≠ 2)
    (ho : voteOutcome b v = o) :
    sequencerVote v b = carryOut o (firstUnlaunched b) (votedFrame b v o.odd f) b := by
  subst ho
  simp only [sequencerVote, hq, if_pos (And.intro hs hc)]
  rfl

theorem carryOut_halt {o : VoteOut} (h : o.halt = true) (i : Nat) (g : Frame) (b : Blk) :
    carryOut o i g b = seqHalt (setF Reg.FTEST.SEQ_FLIP.GO 0 (showDis o (incF Reg.SEQ.VOTES.COUNT b))) := if_pos h

/-- Where no channel is odd, nothing is shown and the frame is armed. -/
theorem carryOut_unanimous {o : VoteOut} {i : Nat} {b : Blk} (hh : o.halt = false) (ho : o.odd = [])
    (hi : firstUnlaunched b < b.sched.queue.length) (g : Frame) :
    carryOut o i g b = armFrame i g (setF Reg.FTEST.SEQ_FLIP.GO 0 (incF Reg.SEQ.VOTES.COUNT b)) := by
  simp only [carryOut, hh, ho, showDis, if_true, Bool.false_eq_true, if_false]
  exact if_pos hi

/-- A channel that is odd is shown and retired, and the frame is armed where it still stands in the queue. -/
theorem carryOut_retire {o : VoteOut} {k : Nat} {ks : List Nat} (hh : o.halt = false) (ho : o.odd = k :: ks) (i : Nat)
    (g : Frame) (b : Blk) :
    carryOut o i g b =
      let c := retire k (setF Reg.FTEST.SEQ_FLIP.GO 0 (showDis o (incF Reg.SEQ.VOTES.COUNT b)))
      if firstUnlaunched c < c.sched.queue.length then armFrame i g c else c := by
  simp only [carryOut, hh, ho, Bool.false_eq_true, if_false]
  rfl

/-- SEQ.LAST_DIS where the channels differ in the launch command (R264). -/
def showCmdDis (p q r : Nat) (b : Blk) : Blk :=
  setFs [(Reg.SEQ.LAST_DIS.ODD_I, p), (Reg.SEQ.LAST_DIS.ODD_L, q), (Reg.SEQ.LAST_DIS.ODD_P, r), (Reg.SEQ.LAST_DIS.WHAT, 0),
    (Reg.SEQ.LAST_DIS.VALID, 1), (Reg.SEQ.LAST_DIS.WORD, 0)] b

theorem showDis_iris (b : Blk) : showDis (triplexOf (some 0)) b = showCmdDis 1 0 0 b := rfl

theorem showDis_all (b : Blk) : showDis (triplexOf none) b = showCmdDis 1 1 1 b := rfl

theorem showDis_lupin_phlox (b : Blk) : showDis (duplexOf 1 2 true) b = showCmdDis 0 1 1 b := rfl

end Sys2Proof.Machine

open Sys2Proof Sys2Proof.Machine

/-- Settles O29: the words agree throughout, so the vote over the launch command decides what is shown, retired, armed or halted. -/
theorem theVoteArmsRetiresOrHalts : Obligations.TheVoteArmsRetiresOrHalts := by
  unfold Obligations.TheVoteArmsRetiresOrHalts
  intro s v f i ins voted shown hq hs hc hflip hwi hwp
  have inQueue : i < s.b.sched.queue.length := (List.getElem?_eq_some_iff.1 hq).1
  have run : exec (.sequencerVote v) s = .next { s with b := sequencerVote v s.b } := rfl
  have voteOf {o : VoteOut} (ho : voteOutcome s.b v = o) := sequencerVote_of_planned hq hs hc ho
  refine ⟨fun ⟨inI, inL, inP⟩ hi hl hp => ?_, fun ⟨inI, inL, inP⟩ hi hl hp hne => ?_,
    fun ⟨inI, inL, inP⟩ hi hl hp hil hip hlp => ?_, fun ⟨inI, inL, inP⟩ hl hp hne => ?_, fun ⟨inI, inL, inP⟩ hl hp => ?_⟩
  · have agree := voteOutcome_triplex hflip hwp (hl ▸ hi) (hp ▸ hi) inL inP hwi hi inI
    rw [hl, hp, voteOne_all_agree (Option.some_ne_none _)] at agree
    rw [run, voteOf agree, carryOut_unanimous rfl rfl inQueue]
    rfl
  · have irisOdd := voteOutcome_triplex hflip hwp hl (hp ▸ hl) inL inP hwi hi inI
    rw [hp, voteOne_first_odd (Option.some_ne_none _) (by simpa using hne)] at irisOdd
    rw [run, voteOf irisOdd, carryOut_retire rfl rfl, showDis_iris]
    rfl
  · have noMajority := voteOutcome_triplex hflip hwp hl hp inL inP hwi hi inI
    rw [voteOne_no_two_agree (by simpa using hil) (by simpa using hip) (by simpa using hlp)] at noMajority
    rw [run, voteOf noMajority, carryOut_halt rfl, showDis_all]
    rfl
  · have differ := voteOutcome_without_iris hflip hwp hl hp inL inP inI
    rw [decide_eq_true hne] at differ
    rw [run, voteOf differ, carryOut_halt rfl, showDis_lupin_phlox]
    rfl
  · have agree := voteOutcome_without_iris hflip hwp hl (hp ▸ hl) inL inP inI
    rw [hp, decide_eq_false (not_not.2 rfl)] at agree
    rw [run, voteOf agree, carryOut_unanimous rfl rfl inQueue]
    rfl
end

section
/-!
PROOF. The writes of the TIME page and the read of NOW_NS (O14): a write of the TIME page has the plane's checks and no others, and
leaving PTP unselects the two ports one by one.
-/
set_option autoImplicit false

namespace Sys2Proof.Machine

/-! ### Writes of the TIME page (R267, R269, R276, R277) -/

section

variable {v : Word} {b : Blk}

theorem hears_of_no_mask (h : b.heard = true) (v : Word) : hears 0 v b = true := by simp [hears, h]

theorem regDo_of_planeDo {g : Pg} {i page off : Nat} {c : Blk} (ho : 0x40 ≤ off) (hd : planeDo g i off v b = some c) :
    regDo g i page off v b = c := by
  rw [regDo, if_neg (Nat.not_lt.2 ho)]
  dsimp only
  rw [hd]

/-- A write of a register of the TIME page that its checks pass takes effect. -/
theorem pageWrite_time (off mask : Nat) {c : Blk} (ho : 0x40 ≤ off ∧ off < 4096 ∧ off % 4 = 0)
    (hr : Pg.reserved .time 0 off = mask) (h : hears mask v b = true) (he : planeErrs .time off v b = [])
    (hd : planeDo .time 0 off v b = some c) : pageWrite 0x04 off v b = c := by
  obtain ⟨hlow, hhigh, haligned⟩ := ho
  have own : ownErrs .m0 .time 0 off v b = [] := by
    rw [ownErrs, if_neg (Nat.not_lt.2 hlow), he]
    rfl
  rw [pageWrite_hears 0x04 off mask .time 0 v b (by decide) hhigh haligned hr h own, regDo_of_planeDo hlow hd]

theorem pageWrite_timeCfg (h : hears 0xFFFFFFF0 v b = true) (he : timeCfgErrs v b = []) :
    pageWrite 0x04 0x40 v b = timeCfgDo v b := pageWrite_time 0x40 0xFFFFFFF0 (by decide) (by decide) h he rfl

theorem pageWrite_incr (h : b.heard = true) (he : incrErrs v b = []) :
    pageWrite 0x04 0x44 v b = setF Reg.TIME.INCR.INCR v.toNat (anchor b) :=
  pageWrite_time 0x44 0 (by decide) (by decide) (hears_of_no_mask h v) he rfl

theorem pageWrite_pauseClr (h : b.heard = true) (he : pauseClrErrs b = []) :
    pageWrite 0x04 0x78 1 b = sendCell .dn 15 0 true 1 [] (setF Reg.TIME.STAT.PAUSED 0 b) :=
  pageWrite_time 0x78 0xFFFFFFFE (by decide) (by decide) (by simp [hears, h]) he rfl

/-! ### When the checks pass -/

theorem timeCfgErrs_nil
    (hmode : (v.bits 0 1 ≠ getF b Reg.TIME.CFG.FMT ∨ v.bits 1 2 ≠ getF b Reg.TIME.CFG.SRC) →
      b.sys.mode ∈ [Mode.idle, .calibrate, .openHold])
    (hlink : v.bits 0 1 ≠ getF b Reg.TIME.CFG.FMT → flag b Reg.GLEW.CFG.EN = false)
    (hmember : v.bits 1 2 = 2 → isMember b = true) : timeCfgErrs v b = [] := by
  have quiet : ((decide (v.bits 0 1 ≠ getF b Reg.TIME.CFG.FMT) || decide (v.bits 1 2 ≠ getF b Reg.TIME.CFG.SRC)) &&
      !decide (b.sys.mode ∈ [Mode.idle, .calibrate, .openHold])) = false := by
    rw [Bool.and_eq_false_imp, Bool.or_eq_true, decide_eq_true_eq, decide_eq_true_eq]
    exact fun h => by rw [decide_eq_true (hmode h), Bool.not_true]
  have chain : ((decide (v.bits 0 1 ≠ getF b Reg.TIME.CFG.FMT) && flag b Reg.GLEW.CFG.EN) ||
      (decide (v.bits 1 2 = 2) && !isMember b)) = false := by
    rw [Bool.or_eq_false_iff, Bool.and_eq_false_imp, Bool.and_eq_false_imp, decide_eq_true_eq, decide_eq_true_eq]
    exact ⟨hlink, fun h => by rw [hmember h, Bool.not_true]⟩
  simp only [timeCfgErrs, quiet, chain]
  rfl

/-- The host may set the clock: no source steers it, or the host runs the servo. -/
theorem not_steered (h : getF b Reg.TIME.CFG.SRC = 0 ∨ flag b Reg.TIME.CFG.SERVO_HOST = true) :
    ¬ (getF b Reg.TIME.CFG.SRC ≠ 0 ∧ flag b Reg.TIME.CFG.SERVO_HOST = false) := by
  rintro ⟨hne, hfree⟩
  exact h.elim hne fun hs => Bool.false_ne_true (hfree.symm.trans hs)

theorem incrErrs_nil (hmin : 0x3FF7CED9 ≤ v.toNat) (hmax : v.toNat ≤ 0x40083127)
    (hsrc : getF b Reg.TIME.CFG.SRC = 0 ∨ flag b Reg.TIME.CFG.SERVO_HOST = true) : incrErrs v b = [] := by
  rw [incrErrs, if_neg (not_steered hsrc), if_neg (by omega), List.append_nil]

theorem pauseClrErrs_nil (h : isMember b = false) : pauseClrErrs b = [] := by simp [pauseClrErrs, h]

end

/-! ### Leaving PTP (R285) -/

/-- A port is no longer selected; where it is enabled and not FAULTY it is LISTENING. -/
def unselect (b : Blk) (p : Nat) : Blk :=
  setFlag (Reg.PTP.STATE.SELECTED p) false (if ptpOn b p then setF (Reg.PTP.STATE.PORT_STATE p) 4 b else b)

theorem showSelected_none (fresh : Bool) (b : Blk) : showSelected none fresh b = unselect (unselect b 0) 1 := rfl

theorem unselect_regs (b : Blk) (p : Nat) : unselect b p = { b with regs := (unselect b p).regs } := by
  unfold unselect
  split <;> rfl

theorem getF_unselect_ne (b : Blk) (p : Nat) (f : Fld) (hs : f.key ≠ (Reg.PTP.STATE.SELECTED p).key)
    (ht : f.key ≠ (Reg.PTP.STATE.PORT_STATE p).key) : getF (unselect b p) f = getF b f := by
  rw [unselect, setFlag, getF_setF_ne _ _ _ _ hs]
  split
  · exact getF_setF_ne _ _ _ _ ht
  · rfl

theorem isSelected_unselect (b : Blk) (p : Nat) : isSelected (unselect b p) p = false := by
  rw [isSelected, flag, unselect, setFlag, getF_setF_same]
  rfl

/-- Where no master is followed, only what the two ports show has changed, and neither is selected. -/
theorem showSelected_none_keeps (fresh : Bool) (b : Blk) :
    showSelected none fresh b = { b with regs := (showSelected none fresh b).regs } ∧
    KeepsRegsBut ((List.range 2).flatMap fun p => [Reg.PTP.STATE.SELECTED p, Reg.PTP.STATE.PORT_STATE p]) b
      (showSelected none fresh b) ∧
    ∀ p < 2, isSelected (showSelected none fresh b) p = false := by
  rw [showSelected_none]
  refine ⟨?_, fun f hf => ?_, fun p hp => ?_⟩
  · rw [unselect_regs, unselect_regs b]
  · simp only [List.range_succ, List.range_zero, List.nil_append, List.flatMap_cons, List.flatMap_nil, List.cons_append,
      List.map_cons, List.map_nil, List.mem_cons, List.not_mem_nil, or_false, not_or] at hf
    obtain ⟨hs0, ht0, hs1, ht1⟩ := hf
    rw [getF_unselect_ne _ 1 f hs1 ht1, getF_unselect_ne _ 0 f hs0 ht0]
  · rcases (by omega : p = 0 ∨ p = 1) with rfl | rfl
    · rw [isSelected, flag, getF_unselect_ne _ _ _ (by decide) (by decide)]
      exact isSelected_unselect b 0
    · exact isSelected_unselect _ 1

/-! ### TIME.CFG (R269) -/

/-- The fields that TIME.CFG takes. -/
def timeCfgFields (v : Word) : List (Fld × Nat) :=
  [(Reg.TIME.CFG.FMT, v.bits 0 1), (Reg.TIME.CFG.SRC, v.bits 1 2), (Reg.TIME.CFG.SERVO_HOST, v.bits 3 1)]

/-- The fields stored, and the master dropped where PTP is the source no longer. -/
def timeCfgStored (v : Word) (b : Blk) : Blk :=
  if getF b Reg.TIME.CFG.SRC = 1 ∧ v.bits 1 2 ≠ 1 then
    let c := setFs (timeCfgFields v) b
    showSelected none true { c with time := { c.time with master := none } }
  else setFs (timeCfgFields v) b

/-- What else begins with the source: the sums of a chain, the timeout of a pulse. -/
theorem timeCfgDo_eq (v : Word) (b : Blk) : timeCfgDo v b =
    let c := timeCfgStored v b
    let old := getF b Reg.TIME.CFG.SRC
    { c with
      glew := if old ≠ 2 ∧ v.bits 1 2 = 2 then { c.glew with oSum := 0, oN := 0 } else c.glew
      time := { c.time with ppsSeen := if old ≠ 3 ∧ v.bits 1 2 = 3 then some c.q else c.time.ppsSeen } } := by
  have stored : timeCfgDo v b =
      let c := timeCfgStored v b
      let d := if getF b Reg.TIME.CFG.SRC ≠ 2 ∧ v.bits 1 2 = 2 then { c with glew := { c.glew with oSum := 0, oN := 0 } } else c
      if getF b Reg.TIME.CFG.SRC ≠ 3 ∧ v.bits 1 2 = 3 then { d with time := { d.time with ppsSeen := some d.q } } else d := rfl
  rw [stored]
  generalize timeCfgStored v b = c
  dsimp only
  split <;> split <;> rfl

theorem timeCfgStored_shows (v : Word) (b : Blk) :
    let c := timeCfgStored v b
    c = { b with regs := c.regs, time := { b.time with master := c.time.master } } ∧
    KeepsRegsBut ((List.range 2).flatMap fun p => [Reg.PTP.STATE.SELECTED p, Reg.PTP.STATE.PORT_STATE p])
      (setFs (timeCfgFields v) b) c ∧
    if getF b Reg.TIME.CFG.SRC = 1 ∧ v.bits 1 2 ≠ 1 then c.time.master = none ∧ ∀ p < 2, isSelected c p = false
      else c.time.master = b.time.master ∧ c.regs = (setFs (timeCfgFields v) b).regs := by
  by_cases h : getF b Reg.TIME.CFG.SRC = 1 ∧ v.bits 1 2 ≠ 1
  · obtain ⟨hc, hk, hs⟩ := showSelected_none_keeps true
      { setFs (timeCfgFields v) b with time := { (setFs (timeCfgFields v) b).time with master := none } }
    have stored : timeCfgStored v b = _ := if_pos h
    dsimp only
    rw [stored, if_pos h]
    refine ⟨?_, hk, ?_, hs⟩
    · rw [hc]
      rfl
    · rw [hc]
  · have stored : timeCfgStored v b = _ := if_neg h
    dsimp only
    rw [stored, if_neg h]
    exact ⟨rfl, fun _ _ => rfl, rfl, rfl⟩

end Sys2Proof.Machine

open Sys2Proof Sys2Proof.Machine

/-- Settles O14: each write passes its checks and has its effect, and the read of NOW_NS is a read of one word. -/
theorem timeRegistersTakeTheirWrites : Obligations.TimeRegistersTakeTheirWrites := by
  unfold Obligations.TimeRegistersTakeTheirWrites
  intro v m s old cfg
  refine ⟨fun h hmode hlink hmember => ?_, fun hb hmin hmax hsrc => ?_, fun hb hm => ?_, fun hr hm => ?_⟩
  · have run : exec (.timeCfgWrite v) s = .next { s with b := pageWrite 0x04 0x40 v s.b } := rfl
    obtain ⟨hc, hk, hs⟩ := timeCfgStored_shows v s.b
    rw [run, pageWrite_timeCfg h (timeCfgErrs_nil hmode hlink hmember), timeCfgDo_eq]
    refine ⟨_, rfl, ?_, hk, hs, ?_⟩
    · dsimp only
      rw [hc]
    · dsimp only
      rw [hc]
      rfl
  · have run : exec (.incrWrite v) s = .next { s with b := pageWrite 0x04 0x44 v s.b } := rfl
    rw [run, pageWrite_incr hb (incrErrs_nil hmin hmax hsrc)]
  · have run : exec .pauseClr s = .next { s with b := pageWrite 0x04 0x78 1 s.b } := rfl
    rw [run, pageWrite_pauseClr hb (pauseClrErrs_nil hm)]
  · have run : exec (.nowNsRead ⟨m, 0x4048, 4⟩) s = .next { s with b := busRead m 0x4048 4 s.b } := rfl
    rw [run, busRead_single m 0x4048 4 s.b hr (by decide) (by decide) (by decide), regReadCode_whole m 0x4048 hm (by decide),
      complete_single]
    rfl
end

section
/-!
PROOF. Offset updates (O16): what every update shows, in one block that the servo starts from, and the servo's two branches.
-/
set_option autoImplicit false

namespace Sys2Proof.Machine

theorem clampI_of_mem {lo hi x : Int} (hl : lo ≤ x) (hh : x ≤ hi) : clampI lo hi x = x := by
  rw [clampI, min_eq_right hh, max_eq_right hl]

/-! ### What every offset update shows (R278, R281 to R283) -/

section

variable (o : Int) (nom : Nat) (force : Bool) (b : Blk)

/-- The offset is at most LOCK_THR. -/
def goodOffset : Bool := decide (o.natAbs ≤ getF b Reg.TIME.LOCK_THR.THR)

/-- The good updates in a row after this one, up to 8. -/
def goodRun : Nat := if goodOffset o b then min 8 (b.time.good + 1) else 0

/-- The fields that an offset update shows. -/
def offsetFields : List (Fld × Nat) :=
  [(Reg.TIME.HOLD_CNT.SEC, holdSeconds b), (Reg.TIME.STAT.HOLDOVER, 0), (Reg.TIME.OFFSET.O, toBits 32 o),
    (Reg.TIME.STAT.SYNCED,
      if goodOffset o b = true ∧ (flag b Reg.TIME.STAT.SYNCED = true ∨ 8 ≤ goodRun o b) then 1 else 0)]

/-- The block after an offset update, before the servo. -/
def offsetShown : Blk :=
  setFs (offsetFields o b) { b with time := { b.time with good := goodRun o b }, ev := (setRaw 928 false b).ev }

theorem getF_offsetShown (f : Fld) (h : f.key ∉ [Reg.TIME.HOLD_CNT.SEC.key, Reg.TIME.STAT.HOLDOVER.key,
    Reg.TIME.OFFSET.O.key, Reg.TIME.STAT.SYNCED.key]) : getF (offsetShown o b) f = getF b f := by
  simp only [List.mem_cons, List.not_mem_nil, or_false, not_or] at h
  refine (getF_setFs _ _ f ?_).trans rfl
  simpa [offsetFields] using h

/-- An offset update before SYNCED is decided. -/
def offsetNoted : Blk :=
  setF Reg.TIME.OFFSET.O (toBits 32 o)
    (setRaw 928 false (setFlag Reg.TIME.STAT.HOLDOVER false (setF Reg.TIME.HOLD_CNT.SEC (holdSeconds b) b)))

theorem getF_offsetNoted (f : Fld) (h : f.key ∉ [Reg.TIME.HOLD_CNT.SEC.key, Reg.TIME.STAT.HOLDOVER.key, Reg.TIME.OFFSET.O.key]) :
    getF (offsetNoted o b) f = getF b f := by
  simp only [List.mem_cons, List.not_mem_nil, or_false, not_or] at h
  obtain ⟨hc, hh, ho⟩ := h
  rw [offsetNoted, getF_setF_ne _ _ _ _ ho, setRaw, getF_evSet, setFlag, getF_setF_ne _ _ _ _ hh, getF_setF_ne _ _ _ _ hc]

/-- SYNCED follows eight good updates. -/
theorem lockStep_offsetNoted : lockStep o (offsetNoted o b) = offsetShown o b := by
  have hthr : getF (offsetNoted o b) Reg.TIME.LOCK_THR.THR = getF b Reg.TIME.LOCK_THR.THR := getF_offsetNoted o b _ (by decide)
  have hsync : flag (offsetNoted o b) Reg.TIME.STAT.SYNCED = flag b Reg.TIME.STAT.SYNCED := by
    rw [flag, getF_offsetNoted o b _ (by decide), flag]
  by_cases h : o.natAbs ≤ getF b Reg.TIME.LOCK_THR.THR
  · have good : goodOffset o b = true := decide_eq_true h
    have run : goodRun o b = min 8 (b.time.good + 1) := if_pos good
    rw [lockStep, if_pos (hthr ▸ h), hsync, offsetShown, offsetFields, run, good]
    simp only [true_and, setFlag, Bool.or_eq_true, decide_eq_true_eq]
    rfl
  · have bad : goodOffset o b = false := decide_eq_false h
    have run : goodRun o b = 0 := if_neg (by simp [bad])
    rw [lockStep, if_neg (hthr ▸ h), offsetShown, offsetFields, run, bad]
    rfl

/-! ### The servo (R279) -/

variable {o}

theorem offsetUpdate_eq (hl : -2147483648 ≤ o) (hh : o ≤ 2147483647) :
    offsetUpdate o nom force b =
      if flag b Reg.TIME.CFG.SERVO_HOST then offsetShown o b
      else if force ∨ getF b Reg.TIME.STEP_THR.THR < o.natAbs then stepLocal (-o * 2 ^ 28) (offsetShown o b)
      else slew o nom (offsetShown o b) := by
  have servo : offsetUpdate o nom force b =
      let c := lockStep (satS32 o) (offsetNoted (satS32 o) b)
      if flag c Reg.TIME.CFG.SERVO_HOST then c
      else if force ∨ getF c Reg.TIME.STEP_THR.THR < (satS32 o).natAbs then stepLocal (-satS32 o * 2 ^ 28) c
      else slew (satS32 o) nom c := rfl
  rw [servo, satS32, clampI_of_mem hl hh, lockStep_offsetNoted]
  dsimp only
  rw [flag, getF_offsetShown o b Reg.TIME.CFG.SERVO_HOST (by decide), getF_offsetShown o b Reg.TIME.STEP_THR.THR (by decide), flag]

variable (o)

theorem slew_offsetShown :
    slew o nom (offsetShown o b) =
      let i := clampI (-137438976) 137438976 (sext 32 (getF b Reg.TIME.INTEG.I) + getF b Reg.TIME.SERVO.KI * o)
      let d := satS32 (rne (getF b Reg.TIME.SERVO.KP * o + i) 256)
      let x := clampI 0x3FF7CED9 0x40083127 ((nom : Int) - d)
      let slewed := setFs [(Reg.TIME.INTEG.I, toBits 32 i), (Reg.TIME.INCR.INCR, x.toNat)] (anchor (offsetShown o b))
      if x = (nom : Int) - d then slewed else raise 931 slewed := by
  rw [slew, getF_offsetShown o b Reg.TIME.INTEG.I (by decide), getF_offsetShown o b Reg.TIME.SERVO.KI (by decide),
    getF_offsetShown o b Reg.TIME.SERVO.KP (by decide)]
  simp only [raiseIf, decide_eq_true_eq, ne_eq, ite_not]
  rfl

end

end Sys2Proof.Machine

open Sys2Proof Sys2Proof.Machine

/-- Settles O16: every update shows the same, and the servo steps, slews or is left to the host. -/
theorem offsetUpdatesSteerTheClock : Obligations.OffsetUpdatesSteerTheClock := by
  unfold Obligations.OffsetUpdatesSteerTheClock
  intro o nom force b hl hh good n c i d x slewed
  refine ⟨fun hs => ?_, fun hs hstep => ?_, fun hs hforce hthr => ?_, getF_offsetShown o b _ (by decide), by decide⟩
  · rw [offsetUpdate_eq nom force b hl hh, if_pos hs]
    rfl
  · rw [offsetUpdate_eq nom force b hl hh, hs, if_neg Bool.false_ne_true, if_pos hstep]
    rfl
  · have noStep : ¬ (force = true ∨ getF b Reg.TIME.STEP_THR.THR < o.natAbs) := by
      rw [hforce]
      exact fun h => h.elim Bool.false_ne_true (Nat.not_lt.2 hthr)
    rw [offsetUpdate_eq nom force b hl hh, hs, if_neg Bool.false_ne_true, if_neg noStep, slew_offsetShown]
    rfl
end

section
/-!
PROOF. Steps of the clock and the pulses per second (O15): a raise with its reactions leaves the clock, so a step that raises has
moved local time by just its size.
-/
set_option autoImplicit false

namespace Sys2Proof.Machine

/-! ### A raise with its reactions leaves the clock (R350) -/

theorem EventOnly.time {b c : Blk} (h : EventOnly b c) : c.time = b.time := by
  obtain ⟨v, r, n, k, o, e, l, rfl, -⟩ := h
  rfl

@[simp] theorem updElems_time (es : List Nat) (f : Nat → Elem → Elem) (b : Blk) : (updElems es f b).time = b.time :=
  foldl_keeps Blk.time _ _ _ fun _ _ => rfl

@[simp] theorem sendUp3_time (typ : Nat) (seq : Word) (ws : List Word) (b : Blk) : (sendUp3 typ seq ws b).time = b.time :=
  foldl_keeps Blk.time _ _ _ fun _ _ => (sendCell_only _ _ _ _ _ _ _).time

@[simp] theorem sendDown3_time (typ : Nat) (seq : Word) (ws : List Word) (b : Blk) : (sendDown3 typ seq ws b).time = b.time :=
  foldl_keeps Blk.time _ _ _ fun _ _ => (sendCell_only _ _ _ _ _ _ _).time

@[simp] theorem show2pc_time (seq : Word) (res member code : Nat) (b : Blk) : (show2pc seq res member code b).time = b.time := rfl

@[simp] theorem showQueue_time (b : Blk) : (showQueue b).time = b.time := rfl

@[simp] theorem postRecord_time (ring : Bool) (peer : Option Peer) (msg : Word) (ws : List Word) (b : Blk) :
    (postRecord ring peer msg ws b).time = b.time := by
  have queued : (addCpl ring ws b).time = b.time := by
    unfold addCpl
    split <;> rfl
  unfold postRecord
  refine (foldl_keeps Blk.time _ _ _ fun c s => ?_).trans ?_
  · split <;> rfl
  · split <;> exact queued

@[simp] theorem dropFrame_time (i c : Nat) (b : Blk) : (dropFrame i c b).time = b.time := by
  unfold dropFrame
  split
  · rfl
  · dsimp only
    split
    · exact sendUp3_time _ _ _ _
    · exact postRecord_time _ _ _ _ _

@[simp] theorem withdrawAll_time (b : Blk) : (withdrawAll b).time = b.time := by
  unfold withdrawAll withdrawFrom
  split
  · rfl
  · next f rest _ =>
    have disarmed (p : Prop) [Decidable p] : (if p then disarm b else b).time = b.time := by
      split
      · exact updElems_time _ _ _
      · rfl
    have aborted (p : Prop) [Decidable p] (c : Blk) :
        (if p then show2pc f.seq 2 0 0 (sendDown3 9 f.seq [f.seq] c) else c).time = c.time := by
      split
      · rw [show2pc_time, sendDown3_time]
      · rfl
    dsimp only
    rw [showQueue_time, foldl_keeps Blk.time _ _ _ fun _ _ => dropFrame_time _ _ _, dropFrame_time, aborted, disarmed]

@[simp] theorem clearBanks_time (b : Blk) : (clearBanks b).time = b.time := by
  rw [clearBanks_eq]
  refine (foldl_keeps Blk.time _ _ _ fun c n => ?_).trans (updElems_time _ _ _)
  rw [clearBank, setBank_time]
  split
  · exact updElems_time _ _ _
  · rfl

@[simp] theorem dropReq_time (b : Blk) : (dropReq b).time = b.time := by
  unfold dropReq
  split <;> rfl

@[simp] theorem enterMode_time (m : Mode) (b : Blk) : (enterMode m b).time = b.time := by
  have set (c : Blk) : (setMode m c).time = c.time := by
    unfold setMode
    split <;> rfl
  unfold enterMode
  refine (set _).trans ?_
  split
  · exact (updElems_time _ _ _).trans (withdrawAll_time b)
  · rfl

@[simp] theorem nvmRecord_time (kind src cls detail : Nat) (b : Blk) : (nvmRecord kind src cls detail b).time = b.time := rfl

@[simp] theorem nvmCounters_time (b : Blk) : (nvmCounters b).time = b.time := rfl

theorem react_time (c first : Nat) (b : Blk) : (react c first b).time = b.time := by
  unfold react
  split
  · unfold shutdownActions
    split
    · rfl
    · dsimp only
      split <;> simp
  · split
    · unfold safeActions
      repeat' split
      all_goals simp
    · rfl

theorem raiseTx_time (ss : List Nat) (tx : Option (Nat × Nat × Nat)) (b : Blk) : (raiseTx ss tx b).time = b.time := by
  by_cases hs : ss = []
  · rw [raiseTx, if_pos hs]
  · obtain ⟨c, more, first, hc, -, he⟩ := raiseTx_reacts ss tx b hs
    rw [he]
    exact (latches_only none more _).time.trans ((react_time _ _ _).trans hc.time)

@[simp] theorem raiseAll_time (ss : List Nat) (b : Blk) : (raiseAll ss b).time = b.time :=
  (raiseTx_time _ none _).trans (raiseTx_time ss none b)

@[simp] theorem raise_time (s : Nat) (b : Blk) : (raise s b).time = b.time := raiseAll_time [s] b

/-! ### A record of the stream leaves the clock (R328, R332) -/

theorem putRec_time (hdr : Nat) (ws : List Nat) (b : Blk) : (putRec hdr ws b).time = b.time := by
  have injected (t : Nat) (live : Bool) (a : Nat) (c : Blk) : (injectEcc t live a c).2.time = c.time := by
    unfold injectEcc
    split
    · dsimp only
      split <;> rfl
    · rfl
  exact injected _ _ _ _

theorem putSync_time (b : Blk) : (putSync b).time = b.time := by
  unfold putSync
  dsimp only
  rw [putRec_time]

theorem enterDrop_time (b : Blk) : (enterDrop b).time = b.time := by
  refine (raise_time 1120 _).trans (foldl_keeps Blk.time _ _ _ fun c k => ?_)
  unfold losePart
  dsimp only
  split <;> rfl

theorem acqStepped_time (b : Blk) : (acqStepped b).time = b.time := by
  unfold acqStepped dueSync
  split
  · rfl
  · split
    · exact enterDrop_time _
    · exact putSync_time _

/-! ### A step (R265, R273 to R275) -/

/-- The range of local time, in units of 2^-28 ns. -/
def localRange : Int := 2 ^ 48 * 1000000000 * 2 ^ 28

theorem local28_addLocal (d : Int) (b : Blk) : local28 (addLocal d b) = (local28 b + d) % localRange := by
  have split (x : Nat) : ((x / 2 ^ 28 : Nat) : Int) * 2 ^ 28 + ((x % 2 ^ 28 : Nat) : Int) = x := by omega
  refine (split _).trans (Int.toNat_of_nonneg (Int.emod_nonneg _ ?_))
  decide

theorem local28_of_time {b c : Blk} (hn : c.time.ns = b.time.ns) (hf : c.time.frac = b.time.frac) : local28 c = local28 b := by
  rw [local28, local28, hn, hf]

/-- A step that is applied moves local time by its size, modulo the range. -/
theorem local28_applyStep (d : Int) (b : Blk) : local28 (applyStep d b) = (local28 b + d) % localRange := by
  have moved : (applyStep d b).time = { (addLocal d b).time with good := 0 } := by
    unfold applyStep
    rw [acqStepped_time, raiseAll_time]
    dsimp only
    split
    · rw [withdrawAll_time]
      rfl
    · rfl
  rw [← local28_addLocal]
  exact local28_of_time (by rw [moved]) (by rw [moved])

/-- A step of `d` waits: it is small, and the armed comparator is near (R274). -/
def StepWaits (d : Int) (b : Blk) : Prop :=
  d.natAbs ≤ 1000 * 2 ^ 28 ∧ ∃ x, toCompare b = some x ∧ 0 ≤ x ∧ x < 2000 * 2 ^ 28

theorem stepWaits_iff (d : Int) (b : Blk) : (d.natAbs ≤ 1000 * 2 ^ 28 ∧
    (toCompare b).any (fun c => decide (0 ≤ c) && decide (c < 2000 * 2 ^ 28)) = true) ↔ StepWaits d b := by
  simp [StepWaits, Option.any_eq_true]

theorem stepLocal_applies {d : Int} {b : Blk} (h0 : d ≠ 0) (hw : ¬ StepWaits d b) : stepLocal d b = applyStep d b := by
  rw [stepLocal, if_neg h0, if_neg (mt (stepWaits_iff d b).1 hw)]

theorem stepLocal_waits {d : Int} {b : Blk} (h0 : d ≠ 0) (hw : StepWaits d b) : stepLocal d b =
    raise 932 (setF Reg.TIME.STAT.STEP_DEFER 1 { b with time := { b.time with defer := some d } }) := by
  rw [stepLocal, if_neg h0, if_pos ((stepWaits_iff d b).2 hw)]
  rfl

/-- A deferred step is applied at the first edge that R274 allows, where that lies in the present tick. -/
theorem deferredStep_applies {b : Blk} {d : Int} (hd : b.time.defer = some d) (hc : toCompare b = none) (hr : b.sys.mode ≠ .reset)
    (he : deferEdge b ≤ 250 * (b.tick + 1)) : deferredStep b = applyStep d (setFlag Reg.TIME.STAT.STEP_DEFER false
      (toEdge (deferEdge b - 250 * b.tick) { b with time := { b.time with defer := none } })) := by
  unfold deferredStep
  rw [hd]
  dsimp only
  rw [hc]
  exact (if_neg (by simp)).trans (if_pos ⟨by omega, hr⟩)

/-! ### SET_GO and ADJ (R277) -/

theorem getF_toEdge (x : Nat) (b : Blk) (f : Fld) : getF (toEdge x b) f = getF b f := by
  unfold toEdge getF
  rfl

section

variable {v : Word} {b : Blk}

theorem hostStepErrs_nil (hsrc : getF b Reg.TIME.CFG.SRC = 0 ∨ flag b Reg.TIME.CFG.SERVO_HOST = true)
    (hd : b.time.defer = none) : hostStepErrs b = [] :=
  if_neg fun h => h.elim (not_steered hsrc) fun hs => by simp [hd] at hs

theorem pageWrite_setGo (h : hears 0xFFFFFFFE v b = true) (he : hostStepErrs b = []) :
    pageWrite 0x04 0x6C v b = setGoDo v b := by
  refine pageWrite_time 0x6C 0xFFFFFFFE (by decide) (by decide) h (?_ : (if v.bit 0 then hostStepErrs b else []) = []) rfl
  rw [he, ite_self]

theorem pageWrite_adj (h : b.heard = true) (he : hostStepErrs b = []) : pageWrite 0x04 0x70 v b = adjDo v b :=
  pageWrite_time 0x70 0 (by decide) (by decide) (hears_of_no_mask h v) he rfl

/-- The time that SET_NS, SET_SLO and SET_SHI give, in units of 2^-28 ns. -/
def timeSet (b : Blk) : Int :=
  (((getF b Reg.TIME.SET_SHI.SEC * 2 ^ 32 + getF b Reg.TIME.SET_SLO.SEC) * 1000000000 + getF b Reg.TIME.SET_NS.NS : Nat) : Int)
    * 2 ^ 28

theorem timeSet_nextStep (b : Blk) : timeSet (nextStep b) = timeSet b := by
  rw [nextStep, timeSet, getF_toEdge, getF_toEdge, getF_toEdge, timeSet]

theorem setGoDo_eq (h : v.bit 0 = true) : setGoDo v b = stepLocal (timeSet b - local28 (nextStep b)) (nextStep b) := by
  rw [← timeSet_nextStep]
  exact if_pos h

theorem adjDo_eq (h : v.toNat ≠ 0) : adjDo v b = stepLocal (v.toInt * 2 ^ 28) (nextStep b) := if_neg h

theorem adj_ne_zero (h : v.toNat ≠ 0) : v.toInt * 2 ^ 28 ≠ 0 := by
  have : v.toInt ≠ 0 := fun h0 => h (congrArg BitVec.toNat (BitVec.eq_of_toInt_eq (h0.trans BitVec.toInt_zero.symm)))
  omega

end

/-! ### The pulse per second (R282, R288, R289) -/

section

variable {b : Blk}

theorem getF_withTime (t : TimeSt) (f : Fld) (b : Blk) : getF { b with time := t } f = getF b f := rfl

/-- The second that an edge of PPS_IN sampled now is within 100 ms of. -/
def ppsNear (b : Blk) : Option Nat :=
  let st := (b.time.ns + (2 ^ 48 * 1000000000 - 12)) % (2 ^ 48 * 1000000000)
  if st % 1000000000 < 100000000 then some (st / 1000000000)
  else if 900000000 ≤ st % 1000000000 then some ((st / 1000000000 + 1) % 2 ^ 48) else none

/-- The distance of an edge of PPS_IN sampled now from the second it is nearest to. -/
def ppsOffset (b : Blk) : Int :=
  let st := (b.time.ns + (2 ^ 48 * 1000000000 - 12)) % (2 ^ 48 * 1000000000)
  if st % 1000000000 < 500000000 then ((st % 1000000000 : Nat) : Int) else ((st % 1000000000 : Nat) : Int) - 1000000000

/-- An accepted edge of PPS_IN: its second is served, it is counted and its offset shown. -/
def ppsTaken (b : Blk) : Blk :=
  setF Reg.TIME.PPS_IN.O (toBits 32 (ppsOffset b)) (incF Reg.TIME.PPS_CNT.ACCEPTED
    { b with time := { b.time with ppsSec := ppsNear b, ppsSeen := some b.q } })

theorem ppsInEdge_running (hr : b.sys.mode ≠ .reset) : ppsInEdge b =
    if (ppsNear b).isSome ∧ ppsNear b ≠ b.time.ppsSec then
      if getF (ppsTaken b) Reg.TIME.CFG.SRC = 3 then offsetUpdate (ppsOffset b) 0x40000000 false (ppsTaken b) else ppsTaken b
    else raise 933 (incF Reg.TIME.PPS_CNT.DISCARDED b) := if_neg hr

theorem getF_ppsTaken_source (b : Blk) : getF (ppsTaken b) Reg.TIME.CFG.SRC = getF b Reg.TIME.CFG.SRC := by
  rw [ppsTaken, getF_setF_ne _ _ _ _ (by decide), incF, getF_setF_ne _ _ _ _ (by decide)]
  exact getF_withTime _ _ _

theorem ppsInEdge_accepted (hr : b.sys.mode ≠ .reset) (hn : ppsNear b ≠ none) (hs : ppsNear b ≠ b.time.ppsSec) :
    ppsInEdge b =
      if getF b Reg.TIME.CFG.SRC = 3 then offsetUpdate (ppsOffset b) 0x40000000 false (ppsTaken b) else ppsTaken b := by
  rw [ppsInEdge_running hr, if_pos ⟨Option.isSome_iff_ne_none.2 hn, hs⟩, getF_ppsTaken_source]

theorem ppsInEdge_discarded (hr : b.sys.mode ≠ .reset) (h : ppsNear b = none ∨ ppsNear b = b.time.ppsSec) :
    ppsInEdge b = raise 933 (incF Reg.TIME.PPS_CNT.DISCARDED b) := by
  rw [ppsInEdge_running hr, if_neg]
  rintro ⟨hn, hs⟩
  exact h.elim (Option.isSome_iff_ne_none.1 hn) hs

theorem ppsTimeout_due {t : Nat} (ht : b.time.ppsSeen = some t) (hs : getF b Reg.TIME.CFG.SRC = 3)
    (hh : flag b Reg.TIME.STAT.HOLDOVER = false) (hd : b.due (t + 12000000000) = true) :
    ppsTimeout b = enterHoldover false (b.atEdge (t + 12000000000)) := by
  unfold ppsTimeout
  rw [ht]
  exact (if_pos ⟨hs, hh⟩).trans (atQ_due _ hd)

/-- The edges until local time reaches its next second. -/
def edgesToSecond (b : Blk) : Nat :=
  ceilDiv ((b.time.ns / 1000000000 + 1) * 1000000000 * 2 ^ 28 - (b.time.ns * 2 ^ 28 + b.time.frac)) (getF b Reg.TIME.INCR.INCR)

theorem ppsOutRise_reached (he : flag b Reg.TIME.PPS_OUT.EN = true) (ho : b.time.ppsOut = false) (hr : b.sys.mode ≠ .reset)
    (hn : b.edge + edgesToSecond b ≤ 250) : ppsOutRise b = let d := toEdge (b.edge + edgesToSecond b) b
      send (.pin pinPps true)
        { d with time := { d.time with ppsOut := true, ppsEnd := d.q + 4000 * getF b Reg.TIME.PPS_OUT.WIDTH } } := by
  unfold ppsOutRise secOf
  dsimp only
  rw [← edgesToSecond, if_pos ⟨he, ho, hr, hn⟩, getF_toEdge]

theorem ppsOutFall_due (ho : b.time.ppsOut = true) (hd : b.due b.time.ppsEnd = true) :
    ppsOutFall b = let d := b.atEdge b.time.ppsEnd
      send (.pin pinPps false) { d with time := { d.time with ppsOut := false } } := by
  rw [ppsOutFall, if_pos ho, atQ_due _ hd]
  exact if_pos ho

end

end Sys2Proof.Machine

open Sys2Proof Sys2Proof.Machine

/-- Settles O15: a step lands or waits, an edge of PPS_IN is taken or discarded, and the pulse and its timeout come when due. -/
theorem stepsOfTheClockAndPulsesPerSecond : Obligations.StepsOfTheClockAndPulsesPerSecond := by
  unfold Obligations.StepsOfTheClockAndPulsesPerSecond
  refine ⟨fun v s => ?_, fun s hr => ?_⟩
  · intro c goal waits mayStep lands
    have lands_applyStep (d : Int) : lands d { s with b := applyStep d c } := ⟨local28_applyStep d c, rfl⟩
    refine ⟨fun h hv ⟨hsrc, hd⟩ h0 hw => ?_, fun hb hv ⟨hsrc, hd⟩ hw => ?_, fun hb hv ⟨hsrc, hd⟩ hw => ?_, fun d hd hc hr he => ?_⟩
    · have run : exec (.setGo v) s = .next { s with b := pageWrite 0x04 0x6C v s.b } := rfl
      rw [run, pageWrite_setGo h (hostStepErrs_nil hsrc hd), setGoDo_eq hv]
      exact ⟨_, rfl, stepLocal_applies (b := c) (sub_ne_zero.2 h0) hw ▸ lands_applyStep _⟩
    · have run : exec (.adj v) s = .next { s with b := pageWrite 0x04 0x70 v s.b } := rfl
      rw [run, pageWrite_adj hb (hostStepErrs_nil hsrc hd), adjDo_eq hv]
      exact ⟨_, rfl, stepLocal_applies (b := c) (adj_ne_zero hv) hw ▸ lands_applyStep _⟩
    · have run : exec (.adj v) s = .next { s with b := pageWrite 0x04 0x70 v s.b } := rfl
      rw [run, pageWrite_adj hb (hostStepErrs_nil hsrc hd), adjDo_eq hv]
      exact congrArg (fun b => Host.Outcome.next { s with b := b }) (stepLocal_waits (b := c) (adj_ne_zero hv) hw)
    · have run : exec .deferredStep s = .next { s with b := deferredStep s.b } := rfl
      rw [run, deferredStep_applies hd hc hr he]
      exact ⟨_, rfl, rfl, local28_applyStep d _⟩
  · intro st near o c goal n
    refine ⟨fun hn hs => ?_, fun h => ?_, fun t ht hs hh hd => ?_, fun he ho hn => ?_, fun ho hd => ?_⟩
    · have run : exec .ppsInEdge s = .next { s with b := ppsInEdge s.b } := rfl
      rw [run, ppsInEdge_accepted hr hn hs]
      rfl
    · have run : exec .ppsInEdge s = .next { s with b := ppsInEdge s.b } := rfl
      rw [run, ppsInEdge_discarded hr h]
    · have run : exec .ppsTimeout s = .next { s with b := ppsTimeout s.b } := rfl
      rw [run, ppsTimeout_due ht hs hh hd]
    · have run : exec .ppsOutRise s = .next { s with b := ppsOutRise s.b } := rfl
      rw [run, ppsOutRise_reached he ho hr hn]
      rfl
    · have run : exec .ppsOutFall s = .next { s with b := ppsOutFall s.b } := rfl
      rw [run, ppsOutFall_due ho hd]
end

section
/-!
PROOF. Sync and the delay messages (O17): a message that a port does not take is counted, one that it takes is read on the block as it
stands, for the counts of the messages are no field that a measurement reads.
-/
set_option autoImplicit false

namespace Sys2Proof.Machine

/-! ### Messages taken and discarded (R284) -/

section

variable {p : Nat} {x : PtpMsg} {b : Blk}

theorem ptpHears_iff : ptpHears p x b = true ↔
    (b.sys.mode ≠ .reset ∧ ptpOn b p = true) ∧ ptpFormOk b p x = true ∧ x.domain.val = getF b (Reg.PTP.CFG.DOMAIN p) := by
  simp [ptpHears, and_assoc]

theorem ptpTake_hears (f : Blk → Blk) (h : ptpHears p x b = true) : ptpTake p x b f = f b := by
  obtain ⟨⟨hr, hon⟩, hform, hdomain⟩ := ptpHears_iff.1 h
  rw [ptpTake, if_neg (by simp [hr, hon]), if_neg (by simp [hform, hdomain])]

theorem ptpTake_discards (f : Blk → Blk) (hr : b.sys.mode ≠ .reset) (hon : ptpOn b p = true) (h : ptpHears p x b = false) :
    ptpTake p x b f = incF (Reg.PTP.CNT_ERR.DISCARD p) b := by
  have unfit : ptpFormOk b p x = false ∨ x.domain.val ≠ getF b (Reg.PTP.CFG.DOMAIN p) := by
    by_contra hc
    rw [not_or, Bool.not_eq_false, not_not] at hc
    exact Bool.false_ne_true (h.symm.trans (ptpHears_iff.2 ⟨⟨hr, hon⟩, hc⟩))
  rw [ptpTake, if_neg (by simp [hr, hon]), if_pos unfit]

end

/-! ### What the counts and the transmissions leave (R286, R292) -/

section

variable (p : Nat) (b : Blk)

theorem getF_setPtp (q : PtpSt) (f : Fld) : getF (setPtp p q b) f = getF b f := by
  unfold setPtp getF
  rfl

/-- A field of the page's registers below its counts is none of the counts. -/
theorem getF_incF_count {f g : Fld} (hg : g = Reg.PTP.CNT_RX.SYNC p ∨ g = Reg.PTP.CNT_ERR.TS_MISS p)
    (hf : f ∈ [Reg.PTP.CORR.ING p, Reg.PTP.CORR.EGR p, Reg.PTP.ASYM.NS p, Reg.PTP.DELAY.MEAN p, Reg.PTP.UPD.COUNT p]) :
    getF (incF g b) f = getF b f := by
  refine getF_setF_ne _ _ _ _ ?_
  simp only [List.mem_cons, List.not_mem_nil, or_false] at hf
  rcases hg with rfl | rfl <;> rcases hf with rfl | rfl | rfl | rfl | rfl <;>
    simp only [Fld.mk', Reg.PTP.CNT_RX.SYNC, Reg.PTP.CNT_ERR.TS_MISS, Reg.PTP.CORR.ING, Reg.PTP.CORR.EGR, Reg.PTP.ASYM.NS,
      Reg.PTP.DELAY.MEAN, Reg.PTP.UPD.COUNT] <;> omega

theorem ingress_of_fields {c : Blk} (ht : c.time = b.time) (hf : getF c (Reg.PTP.CORR.ING p) = getF b (Reg.PTP.CORR.ING p)) :
    ingress c p = ingress b p := by rw [ingress, ht, hf, ingress]

theorem egress_of_fields {c : Blk} (ht : c.time = b.time) (hf : getF c (Reg.PTP.CORR.EGR p) = getF b (Reg.PTP.CORR.EGR p)) :
    egress c p = egress b p := by rw [egress, ht, hf, egress]

/-- A Sync of the parent is counted, and one before it whose Follow_Up is missing. -/
def syncCounted : Blk :=
  incF (Reg.PTP.CNT_RX.SYNC p) (if (ptpSt b p).sync.isSome then incF (Reg.PTP.CNT_ERR.TS_MISS p) b else b)

theorem syncCounted_time : (syncCounted p b).time = b.time := by
  rw [syncCounted, incF_time]
  split <;> rfl

theorem syncCounted_ptp : (syncCounted p b).ptp = b.ptp := by
  rw [syncCounted, incF_ptp]
  split <;> rfl

theorem getF_syncCounted {f : Fld} (hf : f ∈ [Reg.PTP.CORR.ING p, Reg.PTP.CORR.EGR p, Reg.PTP.ASYM.NS p, Reg.PTP.DELAY.MEAN p,
    Reg.PTP.UPD.COUNT p]) : getF (syncCounted p b) f = getF b f := by
  rw [syncCounted, getF_incF_count p _ (.inl rfl) hf]
  split
  · exact getF_incF_count p b (.inr rfl) hf
  · rfl

theorem ptpSt_of_ptp {c : Blk} (h : c.ptp = b.ptp) : ptpSt c p = ptpSt b p := by rw [ptpSt, h, ptpSt]

end

/-! ### Sync and Follow_Up (R278, R284, R286) -/

section

variable {p : Nat} {x : PtpMsg} {b : Blk}

/-- The block `c` after a complete Sync of origin `t1` and arrival `t2`, measured by the port as it stands in `b`. -/
def syncMeasured (p : Nat) (b : Blk) (t1 t2 : Int) (c : Blk) : Blk :=
  let d := setPtp p { ptpSt b p with sync := none, last := some (t1, t2) } c
  let o := satS32 (rne (t2 - t1 - sext 32 (getF b (Reg.PTP.DELAY.MEAN p)) * 65536) 65536)
  if (ptpSt b p).delayKnown then offsetUpdate o 0x40000000 false (setFs [(Reg.PTP.OFFSET.O p, toBits 32 o),
    (Reg.PTP.UPD.COUNT p, getF b (Reg.PTP.UPD.COUNT p) + 1), (Reg.PTP.STATE.PORT_STATE p, 9)] d) else d

theorem syncDone_eq {c : Blk} (t1 t2 : Int) (hq : c.ptp = b.ptp)
    (hm : getF c (Reg.PTP.DELAY.MEAN p) = getF b (Reg.PTP.DELAY.MEAN p))
    (hu : getF c (Reg.PTP.UPD.COUNT p) = getF b (Reg.PTP.UPD.COUNT p)) : syncDone p t1 t2 c = syncMeasured p b t1 t2 c := by
  unfold syncDone syncMeasured
  rw [ptpSt_of_ptp p b hq]
  dsimp only
  rw [getF_setPtp, getF_setPtp, hm, hu]
  rfl

/-- A Sync whose interval lies in [2^-7, 2] s. -/
def timely (x : PtpMsg) : Prop := -7 ≤ x.logIntv ∧ x.logIntv ≤ 1

theorem not_timely_iff : ¬ timely x ↔ x.logIntv < -7 ∨ 1 < x.logIntv := by
  unfold timely
  omega

theorem syncDo_discards (h : ptpHears p x b = true) (ht : ¬ timely x) :
    syncDo p x b = incF (Reg.PTP.CNT_ERR.DISCARD p) b := by
  rw [syncDo, ptpTake_hears _ h, if_pos (not_timely_iff.1 ht)]

/-- The arrival of a message, its corrections taken off. -/
def arrival (b : Blk) (p : Nat) (x : PtpMsg) : Int := ingress b p - x.corr - asym b p

theorem arrival_syncCounted : arrival (syncCounted p b) p x = arrival b p x := by
  rw [arrival, ingress_of_fields p b (syncCounted_time p b) (getF_syncCounted p b (by simp)), asym,
    getF_syncCounted p b (by simp), arrival, asym]

theorem syncDo_parent (h : ptpHears p x b = true) (hp : fromParent b p x = true) (ht : timely x) :
    syncDo p x b =
      if x.twoStep then setPtp p { ptpSt b p with sync := some (x.seqId.toNat, arrival b p x, 0) } (syncCounted p b)
      else syncMeasured p b (x.origin * 65536) (arrival b p x) (syncCounted p b) := by
  rw [syncDo, ptpTake_hears _ h, if_neg (mt not_timely_iff.2 (not_not.2 ht)), if_pos hp, ← arrival_syncCounted,
    ← syncDone_eq _ _ (syncCounted_ptp p b) (getF_syncCounted p b (by simp)) (getF_syncCounted p b (by simp))]
  rfl

theorem followUpDo_measured {y : Nat × Int × Int} (h : ptpHears p x b = true) (hp : fromParent b p x = true)
    (hy : (ptpSt b p).sync = some y) (hs : y.1 = x.seqId.toNat) :
    followUpDo p x b = syncMeasured p b (x.origin * 65536 + x.corr) y.2.1 b := by
  rw [followUpDo, ptpTake_hears _ h, hy]
  exact (if_pos ⟨hp, hs⟩).trans (syncDone_eq _ _ rfl rfl rfl)

end

/-! ### Egress stamps (R287) -/

section

variable {p : Nat} {b : Blk}

/-- A transmission whose egress stamp is missing: the third in a row makes the port FAULTY. -/
def stampMissed (p : Nat) (q : PtpSt) (b : Blk) : Blk :=
  let c := incF (Reg.PTP.CNT_ERR.TS_MISS p) (setPtp p { q with missed := q.missed + 1 } b)
  if 2 ≤ q.missed then ptpFault p c else c

theorem stampOf_eq (g : EgressIn) (q : PtpSt) (f : PtpSt → Blk → Blk) :
    stampOf p g q b f = if g.stamped = true then f { q with missed := 0 } b else stampMissed p q b := by
  have third : 3 ≤ q.missed + 1 ↔ 2 ≤ q.missed := by omega
  simp only [stampOf, stampMissed, third]

theorem ptpSt_sendPtp (kind : Nat) (ws : List Nat) : ptpSt (sendPtp p kind ws b) p = ptpSt b p := rfl

theorem egress_sendPtp (kind : Nat) (ws : List Nat) : egress (sendPtp p kind ws b) p = egress b p :=
  egress_of_fields p b rfl (getF_send _ _ _)

/-- A request with the port's own sequence number. -/
def request (p kind : Nat) (b : Blk) : Blk := sendPtp p kind [(ptpSt b p).seq, toBits 64 (-asym b p)] b

theorem transmit_request (g : EgressIn) (kind : Nat) (f : PtpSt → Blk → Blk) :
    transmit p g (request p kind b) f =
      let q := { ptpSt b p with seq := ((ptpSt b p).seq + 1) % 65536 }
      if g.stamped = true then f { q with missed := 0 } (request p kind b) else stampMissed p q (request p kind b) := by
  rw [transmit, stampOf_eq, request, ptpSt_sendPtp]

/-! ### The requests (R284, R286) -/

/-- The port runs: enabled and not FAULTY, outside RESET. -/
def ptpRuns (b : Blk) (p : Nat) : Prop :=
  b.sys.mode ≠ .reset ∧ flag b (Reg.PTP.CFG.EN p) = true ∧ getF b (Reg.PTP.STATE.PORT_STATE p) ≠ 2

theorem delayReqDo_sends (g : EgressIn) (h : ptpRuns b p) (hm : flag b (Reg.PTP.CFG.MECH p) = false) (hs : isSelected b p = true) :
    delayReqDo p g b =
      let q := { ptpSt b p with seq := ((ptpSt b p).seq + 1) % 65536 }
      if g.stamped = true then
        setPtp p { q with missed := 0, dreq := some ((q.seq + 65535) % 65536, egress b p) } (request p 1 b)
      else stampMissed p q (request p 1 b) := by
  obtain ⟨hr, he, hf⟩ := h
  rw [delayReqDo, if_neg (by simp [hr, he, hm]), if_neg hf, if_pos hs, ← request, transmit_request, request, egress_sendPtp]

theorem pdelayIntervalDo_sends (g : EgressIn) (h : ptpRuns b p) (hm : flag b (Reg.PTP.CFG.MECH p) = true) :
    pdelayIntervalDo p g b =
      let q := { ptpSt b p with seq := ((ptpSt b p).seq + 1) % 65536 }
      if g.stamped = true then
        setPtp p { q with missed := 0, preq := some ((q.seq + 65535) % 65536, egress b p), presp := none }
          (if (ptpSt b p).presp.isSome then incF (Reg.PTP.CNT_ERR.TS_MISS p) (request p 2 b) else request p 2 b)
      else stampMissed p q (request p 2 b) := by
  obtain ⟨hr, he, hf⟩ := h
  have stamp : egress (if (ptpSt b p).presp.isSome then incF (Reg.PTP.CNT_ERR.TS_MISS p) (request p 2 b) else request p 2 b) p =
      egress b p := by
    split
    · exact (egress_of_fields p (request p 2 b) (c := incF (Reg.PTP.CNT_ERR.TS_MISS p) (request p 2 b)) rfl
        (getF_incF_count p _ (f := Reg.PTP.CORR.EGR p) (.inr rfl) (by simp))).trans (egress_sendPtp _ _)
    · exact egress_sendPtp _ _
  rw [pdelayIntervalDo, if_neg (by simp [hr, he, hm]), if_neg hf, ← request, transmit_request, ← stamp]

end

/-! ### The answers (R286) -/

section

variable {p : Nat} {x : PtpMsg} {b : Blk}

theorem delayRespDo_known {d : Nat × Int} {l : Int × Int} (h : ptpHears p x b = true) (hd : (ptpSt b p).dreq = some d)
    (hl : (ptpSt b p).last = some l) (hu : x.forUs = true) (hs : d.1 = x.seqId.toNat) (hp : fromParent b p x = true) :
    delayRespDo p x b =
      setDelay p ((l.2 - l.1) + (x.origin * 65536 - x.corr - d.2)) { ptpSt b p with dreq := none } b := by
  rw [delayRespDo, ptpTake_hears _ h]
  dsimp only
  rw [hd, hl]
  exact if_pos ⟨hu, hs, hp⟩

theorem pdelayReqDo_answers (g : EgressIn) (h : ptpHears p x b = true) (hm : flag b (Reg.PTP.CFG.MECH p) = true) :
    pdelayReqDo p x g b =
      let c := sendPtp p 3 [x.seqId.toNat, toBits 96 (ingress b p)] b
      if g.stamped = true then sendPtp p 10 [x.seqId.toNat, toBits 96 (egress b p), toBits 64 x.corr]
        (setPtp p { ptpSt b p with missed := 0 } c)
      else stampMissed p (ptpSt b p) c := by
  rw [pdelayReqDo, ptpTake_hears _ h, if_pos hm, stampOf_eq, egress_sendPtp]

theorem pdelayRespDo_known {r : Nat × Int} (h : ptpHears p x b = true) (hr : (ptpSt b p).preq = some r) (hu : x.forUs = true)
    (hs : r.1 = x.seqId.toNat) (hm : flag b (Reg.PTP.CFG.MECH p) = true) :
    pdelayRespDo p x b =
      if x.twoStep = true then setPtp p { ptpSt b p with presp := some (r.1, x.origin * 65536, arrival b p x, 0) } b
      else setDelay p (arrival b p x - r.2) { ptpSt b p with preq := none } b := by
  rw [pdelayRespDo, ptpTake_hears _ h]
  dsimp only
  rw [hr]
  exact if_pos ⟨hu, hs, hm⟩

theorem pdelayFollowDo_known {r : Nat × Int} {y : Nat × Int × Int × Int} (h : ptpHears p x b = true)
    (hr : (ptpSt b p).preq = some r) (hy : (ptpSt b p).presp = some y) (hu : x.forUs = true) (hs : y.1 = x.seqId.toNat) :
    pdelayFollowDo p x b = setDelay p ((y.2.2.1 - r.2) - (x.origin * 65536 + x.corr - y.2.1))
      { ptpSt b p with preq := none, presp := none } b := by
  rw [pdelayFollowDo, ptpTake_hears _ h]
  dsimp only
  rw [hr, hy]
  exact if_pos ⟨hu, hs⟩

end

end Sys2Proof.Machine

open Sys2Proof Sys2Proof.Machine

/-- Settles O17: each message by its command's one outcome where the port takes it, and by the count where it does not. -/
theorem syncAndDelayMessagesMeasureTheMaster : Obligations.SyncAndDelayMessagesMeasureTheMaster := by
  unfold Obligations.SyncAndDelayMessagesMeasureTheMaster
  refine ⟨fun p x s => ?_, fun p x g s => ?_⟩
  · intro q t2 done heard timely
    have sync : exec (.sync p x) s = .next { s with b := syncDo p.val x s.b } := rfl
    refine ⟨fun h hp ht hx => ?_, fun h hp ht hx => ?_, fun h ht => ?_, fun y h hp hy hs => ?_, fun hr hon h g c hc => ?_⟩
    · rw [sync, syncDo_parent h hp ht, if_pos hx]
      rfl
    · rw [sync, syncDo_parent h hp ht, hx]
      rfl
    · rw [sync, syncDo_discards h ht]
    · have run : exec (.followUp p x) s = .next { s with b := followUpDo p.val x s.b } := rfl
      rw [run, followUpDo_measured h hp hy hs]
      rfl
    · have discards (f : Blk → Blk) : Host.Outcome.next { s with b := ptpTake p.val x s.b f } =
          (Host.Outcome.next { s with b := incF (Reg.PTP.CNT_ERR.DISCARD p.val) s.b } : Host.Outcome State Fault Refusal) := by
        rw [ptpTake_discards f hr hon h]
      simp only [List.mem_cons, List.not_mem_nil, or_false] at hc
      rcases hc with rfl | rfl | rfl | rfl | rfl | rfl | rfl <;> exact discards _
  · intro q runs req next known t4 miss
    refine ⟨fun hr hm hs => ?_, fun d l h hd hl hu hs hp => ?_, fun hr hm => ?_, fun h hm => ?_, fun r h hr hu hs hm => ?_,
      fun r y h hr hy hu hs => ?_⟩
    · have run : exec (.delayReq p g) s = .next { s with b := delayReqDo p.val g s.b } := rfl
      rw [run, delayReqDo_sends g hr hm hs]
      rfl
    · have run : exec (.delayResp p x) s = .next { s with b := delayRespDo p.val x s.b } := rfl
      rw [run, delayRespDo_known h hd hl hu hs hp]
      rfl
    · have run : exec (.pdelayReqInterval p g) s = .next { s with b := pdelayIntervalDo p.val g s.b } := rfl
      rw [run, pdelayIntervalDo_sends g hr hm]
      rfl
    · have run : exec (.pdelayReq p ⟨x, g⟩) s = .next { s with b := pdelayReqDo p.val x g s.b } := rfl
      rw [run, pdelayReqDo_answers g h hm]
      rfl
    · have run : exec (.pdelayResp p x) s = .next { s with b := pdelayRespDo p.val x s.b } := rfl
      rw [run, pdelayRespDo_known h hr hu hs hm]
      rfl
    · have run : exec (.pdelayRespFollowUp p x) s = .next { s with b := pdelayFollowDo p.val x s.b } := rfl
      rw [run, pdelayFollowDo_known h hr hy hu hs]
      rfl
end

section
/-!
PROOF. The choice of the master (O18): on foreign masters whose grandmasters agree, the data set comparison is a lexicographic order of
grandmaster and path, so the candidate that the choice keeps is one that no candidate precedes.
-/
set_option autoImplicit false

namespace Sys2Proof.Machine

/-! ### The candidate that a choice keeps -/

section

variable {α β : Type} {lt : α → α → Bool}

/-- Of a kept candidate and a new one, the new one where it precedes. -/
def keepFirst (lt : α → α → Bool) (m : Option α) (x : α) : Option α :=
  match m with
  | some y => if lt x y then some x else some y
  | none => some x

theorem keepFirst_eq (m : Option α) (x : α) :
    keepFirst lt m x = some x ∨ ∃ y, m = some y ∧ keepFirst lt m x = some y ∧ lt x y = false := by
  cases m with
  | none => exact .inl rfl
  | some y =>
    cases h : lt x y with
    | true => exact .inl (if_pos h)
    | false => exact .inr ⟨y, rfl, if_neg (by simp [h]), h⟩

theorem foldl_keepFirst_append (l : List α) (x : α) :
    (l ++ [x]).foldl (keepFirst lt) none = keepFirst lt (l.foldl (keepFirst lt) none) x := by simp

theorem mem_of_foldl_keepFirst (l : List α) : ∀ r, l.foldl (keepFirst lt) none = some r → r ∈ l := by
  induction l using List.reverseRecOn with
  | nil => exact fun r h => nomatch h
  | append_singleton l x ih =>
    intro r h
    rw [foldl_keepFirst_append] at h
    rcases keepFirst_eq (l.foldl (keepFirst lt) none) x with hx | ⟨y, hm, hy, -⟩
    · obtain rfl := Option.some.inj (hx.symm.trans h)
      exact List.mem_append_right _ (List.mem_singleton_self _)
    · obtain rfl := Option.some.inj (hy.symm.trans h)
      exact List.mem_append_left _ (ih y hm)

theorem eq_nil_of_foldl_keepFirst_none (l : List α) (h : l.foldl (keepFirst lt) none = none) : l = [] := by
  induction l using List.reverseRecOn with
  | nil => rfl
  | append_singleton l x _ =>
    rw [foldl_keepFirst_append] at h
    rcases keepFirst_eq (l.foldl (keepFirst lt) none) x with hx | ⟨y, -, hy, -⟩
    · exact nomatch hx.symm.trans h
    · exact nomatch hy.symm.trans h

/-- Where the comparison is the order of a rank, the candidate kept has the least rank. -/
theorem rank_le_of_foldl_keepFirst [LinearOrder β] (rank : α → β) (l : List α)
    (hlt : ∀ x ∈ l, ∀ y ∈ l, (lt x y = true ↔ rank x < rank y)) :
    ∀ r, l.foldl (keepFirst lt) none = some r → ∀ z ∈ l, rank r ≤ rank z := by
  induction l using List.reverseRecOn with
  | nil => exact fun r h => nomatch h
  | append_singleton l x ih =>
    have least := ih fun y hy z hz => hlt y (List.mem_append_left _ hy) z (List.mem_append_left _ hz)
    have hx : x ∈ l ++ [x] := List.mem_append_right _ (List.mem_singleton_self _)
    intro r h z hz
    rw [foldl_keepFirst_append] at h
    rw [List.mem_append, List.mem_singleton] at hz
    cases hm : l.foldl (keepFirst lt) none with
    | none =>
      obtain rfl := eq_nil_of_foldl_keepFirst_none l hm
      obtain rfl := Option.some.inj h
      rcases hz with hz | rfl
      · exact nomatch hz
      · exact le_rfl
    | some y =>
      have hy : y ∈ l ++ [x] := List.mem_append_left _ (mem_of_foldl_keepFirst l y hm)
      rw [hm, keepFirst] at h
      split at h
      · next precedes =>
        obtain rfl := Option.some.inj h
        rcases hz with hz | rfl
        · exact ((hlt x hx y hy).1 precedes).le.trans (least y hm z hz)
        · exact le_rfl
      · next stays =>
        obtain rfl := Option.some.inj h
        rcases hz with hz | rfl
        · exact least y hm z hz
        · exact not_lt.1 (mt (hlt z hx y hy).2 stays)

end

/-! ### The data set comparison (R285) -/

/-- What a grandmaster is compared by, and then the path to it on port `p`. -/
def masterRank (m : Nat × Foreign) : List Nat ×ₗ List Nat :=
  toLex ([m.2.prio1, m.2.quality, m.2.prio2, m.2.gm.toNat], [m.2.steps, m.2.src.clock.toNat, m.2.src.num.toNat, m.1])

/-- Two foreign masters of one grandmaster say the same of it. -/
def sameMaster (x y : Foreign) : Prop := x.gm = y.gm → x.prio1 = y.prio1 ∧ x.quality = y.quality ∧ x.prio2 = y.prio2

theorem better_iff_masterRank {x y : Nat × Foreign} (h : sameMaster x.2 y.2) :
    better x.2 x.1 y.2 y.1 = true ↔ masterRank x < masterRank y := by
  rw [masterRank, masterRank, Prod.Lex.toLex_lt_toLex, better]
  by_cases hg : x.2.gm = y.2.gm
  · obtain ⟨h1, hq, h2⟩ := h hg
    simp [hg, h1, hq, h2]
  · have keys : x.2.gm.toNat ≠ y.2.gm.toNat := mt BitVec.eq_of_toNat_eq hg
    simp [hg, keys]

/-- The foreign masters among which the choice is made. -/
def candidates (b : Blk) : List (Nat × Foreign) :=
  [0, 1].flatMap fun p => if ptpOn b p then ((ptpSt b p).foreign.filter (qualified b p)).map fun f => (p, f) else []

theorem mem_candidates {b : Blk} {m : Nat × Foreign} :
    m ∈ candidates b ↔ m.1 < 2 ∧ ptpOn b m.1 = true ∧ m.2 ∈ (ptpSt b m.1).foreign ∧ qualified b m.1 m.2 = true := by
  have listed (p : Nat) :
      m ∈ (if ptpOn b p then ((ptpSt b p).foreign.filter (qualified b p)).map fun f => (p, f) else []) ↔
        m.1 = p ∧ ptpOn b p = true ∧ m.2 ∈ (ptpSt b p).foreign ∧ qualified b p m.2 = true := by
    cases ptpOn b p with
    | false => simp
    | true =>
      rw [if_pos rfl, List.mem_map]
      simp only [List.mem_filter]
      constructor
      · rintro ⟨f, hf, rfl⟩
        exact ⟨rfl, trivial, hf⟩
      · rintro ⟨rfl, -, h⟩
        exact ⟨m.2, h, rfl⟩
  rw [candidates, List.mem_flatMap]
  constructor
  · rintro ⟨p, hp, hm⟩
    obtain ⟨rfl, h⟩ := (listed p).1 hm
    exact ⟨by simp only [List.mem_cons, List.not_mem_nil, or_false] at hp; omega, h⟩
  · rintro ⟨h2, h⟩
    exact ⟨m.1, by simp only [List.mem_cons, List.not_mem_nil, or_false]; omega, (listed m.1).2 ⟨rfl, h⟩⟩

theorem bestMaster_eq (b : Blk) :
    bestMaster b = (candidates b).foldl (keepFirst fun x y => better x.2 x.1 y.2 y.1) none :=
  List.foldl_ext _ _ none fun m _ _ => by cases m <;> rfl

theorem bestMaster_mem {b : Blk} {r : Nat × Foreign} (h : bestMaster b = some r) : r ∈ candidates b :=
  mem_of_foldl_keepFirst _ r ((bestMaster_eq b).symm.trans h)

theorem not_better_bestMaster {b : Blk} {r m : Nat × Foreign} (h : bestMaster b = some r) (hm : m ∈ candidates b)
    (agree : ∀ x ∈ candidates b, ∀ y ∈ candidates b, sameMaster x.2 y.2) : better m.2 m.1 r.2 r.1 = false := by
  have ranked := fun x hx y hy => better_iff_masterRank (agree x hx y hy)
  have least := rank_le_of_foldl_keepFirst masterRank _ ranked r ((bestMaster_eq b).symm.trans h) m hm
  exact Bool.eq_false_iff.2 fun hb => least.not_gt ((ranked m hm r (bestMaster_mem h)).1 hb)

theorem qualified_iff {b : Blk} {p : Nat} {f : Foreign} :
    qualified b p f = true ↔ 2 ≤ f.n ∧ f.steps < 255 ∧ (isParent b p f = true ∨ b.q ≤ f.prev + 4 * f.intv) := by
  simp [qualified, and_assoc]

/-! ### The messages and timers that make the choice (R282, R285, R287) -/

section

variable {p : Nat} {b : Blk}

theorem announceTimeout_due {g : Foreign} (h : (ptpSt b p).foreign.find? (isParent b p) = some g)
    (hd : b.due (g.last + getF b (Reg.PTP.INTV.ANN_TO p) * g.intv) = true) :
    announceTimeout p b = forgetParent p (b.atEdge (g.last + getF b (Reg.PTP.INTV.ANN_TO p) * g.intv)) := by
  rw [announceTimeout, announceDue, h]
  exact atQ_due _ hd

theorem ptpRecover_due {t : Nat} (h : (ptpSt b p).recoverAt = some t) (hs : getF b (Reg.PTP.STATE.PORT_STATE p) = 2)
    (hl : flag b (Reg.ETH.STAT.LINK p) = true) (hd : b.due t = true) :
    ptpRecover p b =
      setF (Reg.PTP.STATE.PORT_STATE p) 4 (setPtp p { ptpSt b p with recoverAt := none, missed := 0 } (b.atEdge t)) := by
  rw [ptpRecover, h]
  dsimp only
  rw [if_pos ⟨hs, hl⟩, atQ_due _ hd]
  rfl

end

end Sys2Proof.Machine

open Sys2Proof Sys2Proof.Machine

/-- Settles O18: the messages and timers by their commands, and the choice as the candidate of least rank. -/
theorem announceMessagesChooseTheMaster : Obligations.AnnounceMessagesChooseTheMaster := by
  unfold Obligations.AnnounceMessagesChooseTheMaster
  intro p x s q n agree old f
  have announce : exec (.announce p x) s = .next { s with b := announceDo p.val x s.b } := rfl
  have timeout : exec (.announceReceiptTimeout p) s = .next { s with b := announceTimeout p.val s.b } := rfl
  have recover : exec (.ptpPortRecover p) s = .next { s with b := ptpRecover p.val s.b } := rfl
  refine ⟨fun h => ?_, fun g hg => fun hd => ?_, fun b r hr => ?_, fun t ht hs hl hd => ?_⟩
  · rw [announce, announceDo, ptpTake_hears _ h]
    rfl
  · rw [timeout, announceTimeout_due hg hd]
    rfl
  · obtain ⟨-, on, mem, qual⟩ := mem_candidates.1 (bestMaster_mem hr)
    obtain ⟨hn, hsteps, htime⟩ := qualified_iff.1 qual
    refine ⟨mem, on, hn, hsteps, htime, fun ha j hj hon g hg hq => ?_⟩
    refine not_better_bestMaster (m := (j, g)) hr (mem_candidates.2 ⟨hj, hon, hg, hq⟩) fun y hy z hz => ?_
    obtain ⟨hy2, -, hymem, -⟩ := mem_candidates.1 hy
    obtain ⟨hz2, -, hzmem, -⟩ := mem_candidates.1 hz
    exact ha y.1 hy2 z.1 hz2 y.2 hymem z.2 hzmem
  · rw [recover, ptpRecover_due ht hs hl hd]

end

section
/-!
PROOF. The Ethernet ports (O47): a write of ETHn.CFG stores the register's fields, disabling the port resets M1 once more for the host's
transactions, and a reset without bursts changes DROP and the subscriptions only.
-/
set_option autoImplicit false

namespace Sys2Proof.Machine

/-! ### A write that no check rejects -/

section

variable {g : Pg} {i page off mask : Nat} {v : Word} {b : Blk}

theorem regErrs_hears (ha : off % 4 = 0) (hr : g.reserved i off = mask) (h : hears mask v b = true)
    (he : ownErrs .m0 g i off v b = []) : regErrs .m0 g i page off v b = [] := by
  simp only [hears, Blk.heard, Bool.and_eq_true, bne_iff_ne, ne_eq, beq_iff_eq] at h
  obtain ⟨⟨-, hboot⟩, hmask⟩ := h
  have aligned : off / 4 * 4 = off := by omega
  have boot : bootErrs .m0 (page * 4096 + off) b = [] := by simp [bootErrs, codeIf, hboot]
  unfold ownErrs at he
  unfold regErrs
  rw [aligned, hr, hmask, boot, he]
  simp [codeIf, ha]

theorem accepted_hears (hp : pgOf page = some (g, i)) (ho : off < 4096) (ha : off % 4 = 0) (hr : g.reserved i off = mask)
    (h : hears mask v b = true) (he : ownErrs .m0 g i off v b = []) : accepted .m0 (page * 4096 + off) v b = true := by
  have hpage : (page * 4096 + off) / 4096 = page := by omega
  have hoff : (page * 4096 + off) % 4096 = off := by omega
  have running : b.sys.mode ≠ .reset := by
    simp only [hears, Blk.heard, Bool.and_eq_true, bne_iff_ne] at h
    exact h.1.1
  rw [accepted, hpage, hoff, hp, Option.any_some, regErrs_hears ha hr h he]
  simp [running, firstCode, codeOrder]

end

/-! ### The CFG of a port (R409, R434, R450) -/

section

variable {v : Word} {b : Blk}

/-- The fields of ETHn.CFG as a write stores them. -/
def ethCfgStored (p : Nat) (v : Word) : Blk → Blk :=
  setFs [(Reg.ETH.CFG.EN p, v.bits 0 1), (Reg.ETH.CFG.AN_EN p, v.bits 1 1), (Reg.ETH.CFG.CMD_EN p, v.bits 2 1),
    (Reg.ETH.CFG.VLAN_EN p, v.bits 3 1), (Reg.ETH.CFG.VID p, v.bits 4 12), (Reg.ETH.CFG.PCP p, v.bits 16 3)]

theorem storeFields_ethCfg (p : Nat) (v : Word) (b : Blk) :
    storeFields (0x1E + p) 0x40 v ((Pg.fields .eth p 0x40).getD []) b = ethCfgStored p v b := rfl

theorem pgOf_eth (p : Fin 2) : pgOf (0x1E + p.val) = some (.eth, p.val) := by
  revert p
  decide

theorem reserved_ethCfg (p : Nat) : Pg.reserved .eth p 0x40 = 0xFFF80000 := rfl

theorem regDo_ethCfg (p : Nat) (v : Word) (b : Blk) :
    regDo .eth p (0x1E + p) 0x40 v b = if v.bit 0 = true then ethCfgStored p v b else portReset p ⟨0, []⟩ (ethCfgStored p v b) := by
  rw [← storeFields_ethCfg]
  rfl

theorem ethCfgWrite_hears (p : Fin 2) (x : MstReset) (h : hears 0xFFF80000 v b = true) :
    ethCfgWrite p.val v x b = if v.bit 0 = true then ethCfgStored p.val v b
      else masterReset 1 x (portReset p.val ⟨0, []⟩ (ethCfgStored p.val v b)) := by
  have own : ownErrs .m0 .eth p.val 0x40 v b = [] := rfl
  have taken := accepted_hears (pgOf_eth p) (by decide) (by decide) (reserved_ethCfg p.val) h own
  have effect := pageWrite_hears (0x1E + p.val) 0x40 _ .eth p.val v b (pgOf_eth p) (by decide) (by decide) (reserved_ethCfg p.val) h own
  rw [pageWrite, regDo_ethCfg] at effect
  rw [ethCfgWrite, taken, effect]
  cases v.bit 0 <;> rfl

end

/-! ### The reset of a port (R409, R434, R450) -/

section

variable (p : Nat) (x : MstReset) (b : Blk)

theorem portReset_no_bursts (h : x.bursts = []) :
    portReset p x b = setF Reg.XBAR.DROP.COUNT
      (min 65535 (getF (keepSubs (fun u => u.peer.port.val != p) b) Reg.XBAR.DROP.COUNT + x.waiting))
      (keepSubs (fun u => u.peer.port.val != p) b) := by
  rw [portReset, masterReset, h, List.foldl_nil]

theorem showSubs_keeps : KeepsRegsBut [Reg.ETH.STAT.SUBS 0, Reg.ETH.STAT.SUBS 1] b (showSubs b) := by
  intro f hf
  simp only [List.map_cons, List.map_nil, List.mem_cons, List.not_mem_nil, or_false, not_or] at hf
  obtain ⟨h0, h1⟩ := hf
  exact (getF_setF_ne _ _ _ _ h1).trans (getF_setF_ne _ _ _ _ h0)

theorem keepSubs_keeps (k : Sub → Bool) : KeepsRegsBut [Reg.ETH.STAT.SUBS 0, Reg.ETH.STAT.SUBS 1] b (keepSubs k b) :=
  fun f hf => showSubs_keeps _ f hf

/-- A reset of M1 for a port without bursts drops its subscriptions and counts what waited. -/
theorem portReset_drops (h : x.bursts = []) :
    (portReset p x b).eth.subs = (b.eth.subs.filter fun u => u.peer.port.val != p) ∧
    portReset p x b = { b with regs := (portReset p x b).regs, eth := { b.eth with subs := (portReset p x b).eth.subs } } ∧
    KeepsRegsBut [Reg.XBAR.DROP.COUNT, Reg.ETH.STAT.SUBS 0, Reg.ETH.STAT.SUBS 1] b (portReset p x b) := by
  rw [portReset_no_bursts p x b h]
  refine ⟨rfl, rfl, fun f hf => ?_⟩
  rw [List.map_cons, List.mem_cons, not_or] at hf
  exact (getF_setF_ne _ _ _ _ hf.1).trans (keepSubs_keeps b _ f hf.2)

end

/-! ### The link (R287, R434) -/

theorem ethUp_running (p : Nat) (b : Blk) (h : b.sys.mode ≠ .reset) :
    ethUp p b = setFs [(Reg.ETH.STAT.LINK p, 1), (Reg.ETH.STAT.AN_DONE p, if flag b (Reg.ETH.CFG.AN_EN p) then 1 else 0)] b := by
  rw [ethUp, if_neg h]
  cases flag b (Reg.ETH.CFG.AN_EN p) <;> rfl

/-! ### Frames that the port may not accept (R284, R432) -/

section

variable {f : List Byte}

theorem frameBad_long (h : 9216 < f.length) : frameBad f = true := by
  simp [frameBad, h]

theorem frameBad_fcs (h : bytesWords (f.drop (f.length - 4)) ≠ [BitVec.ofNat 32 (crc32 (f.take (f.length - 4)))]) :
    frameBad f = true := by
  have bad := bne_iff_ne.2 h
  simp only [frameBad, bad, Bool.or_true, Bool.true_or]

theorem frameBad_ipv4 (ht : be16 f 12 = 0x0800)
    (h : f.getD 14 0 ≠ 0x45 ∨ ipSum f 14 ≠ 65535 ∨ be16 f 20 % 16384 ≠ 0) : frameBad f = true := by
  have header : (f.getD 14 0 != 0x45 || ipSum f 14 != 65535 || be16 f 20 % 16384 != 0) = true := by
    simpa [or_assoc] using h
  have untagged : be16 f 12 ≠ 0x8100 := by omega
  simp only [frameBad, if_neg untagged, Nat.reduceSub, Nat.reduceAdd]
  simp only [ht, header, Bool.true_or, Bool.and_true, BEq.rfl, Bool.or_true]

end

end Sys2Proof.Machine

open Sys2Proof Sys2Proof.Machine

/-- Settles O47: each command by the one function that answers it, the write of CFG by the fields that it stores. -/
theorem ethernetPortsAnswerAndDiscard : Obligations.EthernetPortsAnswerAndDiscard := by
  unfold Obligations.EthernetPortsAnswerAndDiscard
  intro s p x v ip data n cfg down lost own
  have up : exec (.ethLinkUp p) s = .next { s with b := ethUp n s.b } := rfl
  have loss : exec (.ethLinkLoss p x) s = .next { s with b := ethLoss n x s.b } := rfl
  have write : exec (.ethCfgWrite p v x) s = .next { s with b := ethCfgWrite n v x s.b } := rfl
  have request : exec (.arpRequest p ip) s = .next { s with b := arp n ip s.b } := rfl
  have echo : exec (.icmpEcho p ip data) s = .next { s with b := icmp n ip data s.b } := rfl
  have frame : ∀ y, exec (.discardedFrame p y) s = .next { s with b := discarded n y.overflow y.bytes s.b } := fun _ => rfl
  refine ⟨fun h => ?_, fun h => ?_, fun h hv => ?_, fun h hv => ?_, fun b h => portReset_drops n x b h, fun hon => ?_, fun f hf => ?_⟩
  · rw [up, ethUp_running n s.b h]
  · rw [loss, ethLoss, if_pos h]
    rfl
  · rw [write, ethCfgWrite_hears p x h, if_pos hv]
    rfl
  · rw [write, ethCfgWrite_hears p x h, hv, if_neg Bool.false_ne_true]
    rfl
  · have taken : ¬ ethOn s.b n = false := by simp [hon]
    refine ⟨fun ho => ?_, fun ho hd => ?_, fun hd => ?_, fun f hf => ?_, fun f => ?_⟩
    · rw [request, arp, if_pos ⟨hon, ho⟩]
    · rw [echo, icmp, if_neg taken, if_pos ⟨ho, hd⟩]
    · rw [echo, icmp, if_neg taken, if_neg hd, dropFrameRx]
    · rw [frame, discarded, if_neg taken, if_neg Bool.false_ne_true, if_pos hf, dropFrameRx]
    · rw [frame, discarded, if_neg taken, if_pos rfl, dropFrameRx]
  · rcases hf with hlong | hfcs | ⟨htype, hheader⟩
    · exact frameBad_long hlong
    · exact frameBad_fcs hfcs
    · exact frameBad_ipv4 htype hheader

end

section
/-!
PROOF. Event commands and the watchdog (O43): a latch clear by what it makes of each record and what the vectors' signals leave, every
other command by the one effect of its register.
-/
set_option autoImplicit false

namespace Sys2Proof.Machine

/-! ### Signals leave the event records (R349) -/

/-- From `b` to `c` messages left, fell due or became pending: no event record and no other register field changed. -/
def SignalOnly (b c : Blk) : Prop :=
  c = { b with ev := c.ev, sent := c.sent, regs := c.regs } ∧ c.ev.tab = b.ev.tab ∧
  KeepsRegsBut [Reg.PCIE.MSIX_PBA.W 0, Reg.PCIE.MSIX_PBA.W 1] b c

theorem SignalOnly.refl (b : Blk) : SignalOnly b b := ⟨rfl, rfl, fun _ _ => rfl⟩

theorem SignalOnly.trans {b c d : Blk} (h : SignalOnly b c) (g : SignalOnly c d) : SignalOnly b d := by
  obtain ⟨hc, htab, hregs⟩ := h
  obtain ⟨hd, gtab, gregs⟩ := g
  refine ⟨?_, gtab.trans htab, fun f hf => (gregs f hf).trans (hregs f hf)⟩
  rw [hc] at hd
  exact hd

theorem signalMsix_signals (v : Nat) (b : Blk) : SignalOnly b (signalMsix v b) := by
  unfold signalMsix
  dsimp only
  split
  · refine ⟨rfl, rfl, fun f hf => getF_setF_ne _ _ _ _ fun hk => hf ?_⟩
    rcases Nat.mod_two_eq_zero_or_one (v / 32) with h | h <;> simp [hk, h]
  · exact ⟨rfl, rfl, fun _ _ => rfl⟩

theorem signalVec_signals (v : Nat) (b : Blk) : SignalOnly b (signalVec v b) := by
  unfold signalVec
  dsimp only
  split
  · exact SignalOnly.trans ⟨rfl, rfl, fun _ _ => rfl⟩ (signalMsix_signals v _)
  · split
    · exact SignalOnly.refl b
    · exact ⟨rfl, rfl, fun _ _ => rfl⟩

theorem foldl_signals (p : Blk → Nat → Bool) (vs : List Nat) (b : Blk) :
    SignalOnly b (vs.foldl (fun b x => if p b x then signalVec x b else b) b) := by
  induction vs generalizing b with
  | nil => exact SignalOnly.refl b
  | cons x t ih =>
    refine SignalOnly.trans ?_ (ih _)
    dsimp only
    split
    · exact signalVec_signals x b
    · exact SignalOnly.refl b

/-! ### Latches written 1 (R348) -/

/-- A record whose latch bit is written 1. -/
def EvRec.cleared (r : EvRec) : EvRec := if r.raw then r else { r with latch := false, lcls := 0 }

theorem EvRec.cleared_cleared (r : EvRec) : r.cleared.cleared = r.cleared := by
  unfold EvRec.cleared
  cases h : r.raw <;> simp [h]

/-- The latch bit of source `s` is written 1. -/
def clearLatch (b : Blk) (s : Nat) : Blk :=
  if (evGet b s).raw then b else evSet s { evGet b s with latch := false, lcls := 0 } b

theorem evGet_clearLatch (b : Blk) (s x : Nat) :
    evGet (clearLatch b s) x = if x = s then (evGet b x).cleared else evGet b x := by
  unfold clearLatch EvRec.cleared
  cases h : (evGet b s).raw <;> by_cases hx : x = s <;> simp [hx, h]

theorem clearLatch_eq_tab (b : Blk) (s : Nat) :
    clearLatch b s = { b with ev := { b.ev with tab := (clearLatch b s).ev.tab } } := by
  unfold clearLatch
  split <;> rfl

theorem evGet_foldl_clearLatch (ss : List Nat) (b : Blk) (x : Nat) :
    evGet (ss.foldl clearLatch b) x = if x ∈ ss then (evGet b x).cleared else evGet b x := by
  induction ss generalizing b with
  | nil => rfl
  | cons s t ih =>
    rw [List.foldl_cons, ih, evGet_clearLatch]
    by_cases hs : x = s <;> by_cases ht : x ∈ t <;> simp [hs, ht, EvRec.cleared_cleared]

theorem foldl_clearLatch_eq_tab (ss : List Nat) (b : Blk) :
    ss.foldl clearLatch b = { b with ev := { b.ev with tab := (ss.foldl clearLatch b).ev.tab } } := by
  induction ss generalizing b with
  | nil => rfl
  | cons s t ih =>
    rw [List.foldl_cons, ih, clearLatch_eq_tab]

theorem mem_writtenSources (base n : Nat) (v : Word) (x : Nat) :
    x ∈ ((List.range n).filter fun i => v.bit i).map (fun i => base + i) ↔
      base ≤ x ∧ x < base + n ∧ v.bit (x - base) = true := by
  simp only [List.mem_map, List.mem_filter, List.mem_range]
  constructor
  · rintro ⟨i, ⟨hi, hv⟩, rfl⟩
    exact ⟨by omega, by omega, by rwa [Nat.add_sub_cancel_left]⟩
  · rintro ⟨hl, hh, hv⟩
    exact ⟨x - base, ⟨by omega, hv⟩, by omega⟩

/-- Each record after a W1C write of the latches of `base + i`, `i < n`; beside the records only signals follow. -/
theorem clearLatches_clears (base n : Nat) (v : Word) (b : Blk) :
    let c := clearLatches base n v b
    c = { b with ev := c.ev, sent := c.sent, regs := c.regs } ∧
    KeepsRegsBut [Reg.PCIE.MSIX_PBA.W 0, Reg.PCIE.MSIX_PBA.W 1] b c ∧
    ∀ x, evGet c x = if base ≤ x ∧ x < base + n ∧ v.bit (x - base) = true ∧ (evGet b x).raw = false
      then { evGet b x with latch := false, lcls := 0 } else evGet b x := by
  intro c
  let ss := ((List.range n).filter fun i => v.bit i).map fun i => base + i
  have records : ss.foldl clearLatch b = { b with ev := { b.ev with tab := (ss.foldl clearLatch b).ev.tab } } :=
    foldl_clearLatch_eq_tab ss b
  obtain ⟨hc, htab, hregs⟩ : SignalOnly (ss.foldl clearLatch b) c := foldl_signals vecPending _ _
  rw [records] at hc
  refine ⟨hc, fun f hf => (hregs f hf).trans ?_, fun x => ?_⟩
  · rw [records]
    rfl
  · rw [evGet_of_tab htab, evGet_foldl_clearLatch, EvRec.cleared]
    simp only [ss, mem_writtenSources]
    by_cases hx : base ≤ x ∧ x < base + n ∧ v.bit (x - base) = true
    · cases hr : (evGet b x).raw <;> simp [hx]
    · rw [if_neg hx, if_neg fun h => hx ⟨h.1, h.2.1, h.2.2.1⟩]

/-! ### Writes that a register's own checks decide (R482, R484) -/

section

variable {m : Master} {g : Pg} {i page off : Nat} {v : Word} {b : Blk}

theorem modes_of_heard (hb : b.heard = true) : b.sys.mode ≠ .reset ∧ b.sys.mode ≠ .boot := by
  simpa using heard_modes hb

/-- Outside RESET and BOOT, of an aligned write with its reserved bits 0, the register's own checks are the only ones. -/
theorem regErrs_eq_ownErrs (hb : b.heard = true) (hr : v.toNat &&& g.reserved i off = 0) (h4 : off % 4 = 0) :
    regErrs m g i page off v b = ownErrs m g i off v b := by
  obtain ⟨-, notBoot⟩ := modes_of_heard hb
  have aligned : off / 4 * 4 = off := by omega
  simp [regErrs, ownErrs, aligned, hr, h4, bootErrs, codeIf, notBoot]

theorem hostWrite_effect (hm : m ≠ .m4) (hp : pgOf page = some (g, i)) (hb : b.heard = true) (hr : v.toNat &&& g.reserved i off = 0)
    (he : ownErrs m g i off v b = []) (ho : off < 4096 ∧ off % 4 = 0) :
    hostWrite m (page * 4096 + off) v b = regDo g i page off v b := by
  have inPage : (page * 4096 + off) / 4096 = page := by omega
  have inOff : (page * 4096 + off) % 4096 = off := by omega
  have passes := regErrs_eq_ownErrs (m := m) (page := page) hb hr ho.2
  rw [← inPage] at hp
  rw [hostWrite_accepted m _ v b g i (modes_of_heard hb).1 hm hp (by rw [inPage, inOff, passes, he]; rfl), inPage, inOff]

theorem firstCode_singleton {c : Nat} (hc : c ∈ codeOrder) : firstCode [c] = c := by
  rw [mem_codeOrder] at hc
  rcases hc with rfl | rfl | rfl | rfl | rfl | rfl | rfl | rfl | rfl <;> rfl

theorem pageWrite_rejected {c : Nat} (hp : pgOf page = some (g, i)) (hb : b.heard = true) (hr : v.toNat &&& g.reserved i off = 0)
    (he : ownErrs .m0 g i off v b = [c]) (hc : c ∈ codeOrder) (ho : off < 4096 ∧ off % 4 = 0) (hs : off ≠ 0x74) :
    pageWrite page off v b = reject page off c .m0 b := by
  have inPage : (page * 4096 + off) / 4096 = page := by omega
  have inOff : (page * 4096 + off) % 4096 = off := by omega
  have code : firstCode (regErrs .m0 g i page off v b) = c := by
    rw [regErrs_eq_ownErrs hb hr ho.2, he, firstCode_singleton hc]
  have nonzero : c ≠ 0 := by
    rintro rfl
    simp at hc
  rw [← inPage] at hp
  have rejected := hostWrite_rejected .m0 (page * 4096 + off) v b g i (modes_of_heard hb).1 (by decide) hp
    (by rwa [inPage, inOff, code]) (by rw [inOff]; exact fun _ => hs)
  rwa [inPage, inOff, code] at rejected

theorem hostWrite_latchView (hm : m ≠ .m4) (hp : pgOf page = some (g, i)) (hb : b.heard = true)
    (hr : v.toNat &&& g.reserved i 0x14 = 0) :
    hostWrite m (page * 4096 + 0x14) v b = clearLatches (g.events i).1 (g.events i).2 v b :=
  hostWrite_effect hm hp hb hr rfl (by decide)

theorem hostWrite_latchGroup {k : Nat} (hm : m ≠ .m4) (hk : k < 36) (hb : b.heard = true)
    (hr : v.toNat &&& Pg.reserved .evt 0 (0x100 + 4 * k) = 0) :
    hostWrite m (0x10100 + 4 * k) v b = clearLatches (32 * k) 32 v b := by
  have own : ownErrs m .evt 0 (0x100 + 4 * k) v b = [] := by
    rw [ownErrs, if_neg (by omega)]
    simp only [planeErrs, serviceErrs, arrayErrs, List.nil_append, List.append_nil]
    exact if_neg (by omega)
  have effect : regDo .evt 0 0x10 (0x100 + 4 * k) v b = clearLatches (32 * k) 32 v b := by
    have base : 8 * (0x100 + 4 * k - 0x100) = 32 * k := by omega
    rw [regDo, if_neg (by omega)]
    simp (disch := omega) only [planeDo, serviceDo, if_neg, if_pos, base]
  have write := hostWrite_effect (page := 0x10) hm (by decide) hb hr own (by omega)
  rw [effect] at write
  rw [← write]
  congr 1
  omega

/-! ### EVT_FORCE and CNT_CLR (R374, R376) -/

theorem pageWrite_force (hp : pgOf page = some (g, i)) (hr : v.toNat &&& g.reserved i 0x1C = 0) (hm : b.sys.mode = .factoryTest) :
    pageWrite page 0x1C v b = raiseAll (((List.range (g.events i).2).filter fun j => v.bit j).map fun j => (g.events i).1 + j) b := by
  have heard : b.heard = true := by simp [Blk.heard, hm]
  have own : ownErrs .m0 g i 0x1C v b = [] := if_pos hm
  exact pageWrite_effect hp heard hr own (by decide)

theorem pageWrite_force_rejected (hp : pgOf page = some (g, i)) (hr : v.toNat &&& g.reserved i 0x1C = 0) (hb : b.heard = true)
    (hm : b.sys.mode ≠ .factoryTest) : pageWrite page 0x1C v b = reject page 0x1C 2 .m0 b := by
  have own : ownErrs .m0 g i 0x1C v b = [2] := if_neg hm
  exact pageWrite_rejected hp hb hr own (by decide) (by decide) (by decide)

theorem pageWrite_cntClr (hb : b.heard = true) : pageWrite 0x10 0x50 1 b = cntClrDo 1 b :=
  pageWrite_effect (g := .evt) (i := 0) (by decide) hb (by decide) rfl (by decide)

/-- Each listed record loses its count; one that is not listed has none. -/
theorem get_foldl_clearCounts (ks : List Nat) (t : Tbl EvRec) (x : Nat) :
    (ks.foldl (fun t s => t.set (EvRec.reset s) s { t.get (EvRec.reset s) s with count := 0 }) t).get (EvRec.reset x) x =
      if x ∈ ks then { t.get (EvRec.reset x) x with count := 0 } else t.get (EvRec.reset x) x := by
  induction ks generalizing t with
  | nil => rfl
  | cons k ks ih =>
    rw [List.foldl_cons, ih, Tbl.get_set_fun t EvRec.reset k x]
    by_cases hk : x = k <;> by_cases hx : x ∈ ks <;> simp [hk, hx]

theorem Tbl.get_of_not_mem {β : Type} (t : Tbl β) (d : β) (k : Nat) (h : k ∉ t.map Prod.fst) : t.get d k = d := by
  induction t with
  | nil => rfl
  | cons e t ih =>
    obtain ⟨j, v⟩ := e
    rw [List.map_cons, List.mem_cons, not_or] at h
    rw [Tbl.get_cons_of_ne j v t d k h.1, ih h.2]

theorem evGet_cntClrDo (x : Nat) (b : Blk) : evGet (cntClrDo 1 b) x = { evGet b x with count := 0 } := by
  have counts := get_foldl_clearCounts (b.ev.tab.map Prod.fst) b.ev.tab x
  refine counts.trans ?_
  split
  · rfl
  · next hx => simp only [evGet, Tbl.get_of_not_mem _ _ _ hx, EvRec.reset]

/-! ### The reaction table (R352) -/

theorem reserved_reactTable {w : Nat} (hw : w < 288) : Pg.reserved .react 0 (0x400 + 4 * w) = 0 := by
  have fields : Pg.fields .react 0 (0x400 + 4 * w) = some [⟨0, 32, .rw, 0, false⟩] := by
    have word : (0x400 + 4 * w - 0x400) % 4 / 4 = 0 := by omega
    simp only [Pg.fields, Pg.rows, Reg.REACT.rows, RegRow.index, List.findSome?_cons, true_or, and_true, word]
    rw [if_neg (by omega), if_pos (by omega)]
    rfl
  unfold Pg.reserved
  split
  case h_13 => rw [fields]; rfl
  all_goals omega

/-- The upper half of each byte is 0 where the mask of the upper halves finds nothing. -/
theorem upper_halves_zero (h : v.toNat &&& 0xF0F0F0F0 = 0) {j : Nat} (hj : j < 4) : v.bits (8 * j + 4) 4 = 0 := by
  have mask : ∀ j < 4, ∀ k < 4, Nat.testBit 0xF0F0F0F0 (8 * j + 4 + k) = true := by decide
  refine Nat.eq_of_testBit_eq fun k => ?_
  rw [Word.bits, Nat.testBit_mod_two_pow, Nat.testBit_div_two_pow, Nat.zero_testBit, Bool.and_eq_false_iff, decide_eq_false_iff_not]
  by_cases hk : k < 4
  · have bit := congrArg (Nat.testBit · (8 * j + 4 + k)) h
    simp only [Nat.testBit_and, mask j hj k hk, Bool.and_true, Nat.zero_testBit] at bit
    exact .inr (by rwa [Nat.add_comm])
  · exact .inl hk

/-- The word's reserved bits are 0, its four classes exist, and source 898 keeps class 4. -/
def ReactFits (w : Nat) (v : Word) : Prop :=
  v.toNat &&& 0xF0F0F0F0 = 0 ∧ (∀ j < 4, v.bits (8 * j) 3 < 5) ∧ (w = 224 → v.bits 16 3 = 4)

theorem reactWordErrs_fits {w : Nat} (h : ReactFits w v) :
    reactWordErrs w v b = if flag b Reg.REACT.CTL.LOCK = true then [3] else [] := by
  obtain ⟨hres, hcls, h898⟩ := h
  have reserved : ((List.range 4).any fun j => v.bits (8 * j + 4) 4 != 0) = false := by
    simpa using fun j hj => upper_halves_zero hres hj
  have classes : ((List.range 4).any fun j => decide (5 ≤ v.bits (8 * j) 3)) = false := by
    simpa using hcls
  have fixed : ¬ (w = 224 ∧ v.bits 16 3 ≠ 4) := fun ⟨hw, hv⟩ => hv (h898 hw)
  simp [reactWordErrs, reactErrs, codeIf, reserved, classes, fixed]

theorem ownErrs_reactTable {w : Nat} (hw : w < 288) (h : ReactFits w v) : ownErrs .m0 .react 0 (0x400 + 4 * w) v b =
    if flag b Reg.REACT.CTL.LOCK = true then [3] else [] := by
  have word : (0x400 + 4 * w - 0x400) / 4 = w := by omega
  rw [ownErrs, if_neg (by omega), ← reactWordErrs_fits h]
  simp (disch := omega) only [planeErrs, serviceErrs, arrayErrs, if_neg, if_pos, List.nil_append, List.append_nil, word]

theorem pageWrite_reactTable {w : Nat} (hw : w < 288) (hb : b.heard = true) (h : ReactFits w v)
    (hl : flag b Reg.REACT.CTL.LOCK = false) : pageWrite 0x11 (0x400 + 4 * w) v b = reactDo w v b := by
  have word : (0x400 + 4 * w - 0x400) / 4 = w := by omega
  have own : ownErrs .m0 .react 0 (0x400 + 4 * w) v b = [] := by
    rw [ownErrs_reactTable hw h, hl]
    rfl
  rw [pageWrite_effect (g := .react) (i := 0) (by decide) hb (by rw [reserved_reactTable hw, Nat.and_zero]) own (by omega),
    regDo, if_neg (by omega)]
  simp (disch := omega) only [planeDo, serviceDo, if_neg, if_pos, word]

theorem pageWrite_reactTable_locked {w : Nat} (hw : w < 288) (hb : b.heard = true) (h : ReactFits w v)
    (hl : flag b Reg.REACT.CTL.LOCK = true) : pageWrite 0x11 (0x400 + 4 * w) v b = reject 0x11 (0x400 + 4 * w) 3 .m0 b := by
  have own : ownErrs .m0 .react 0 (0x400 + 4 * w) v b = [3] := by rw [ownErrs_reactTable hw h, if_pos hl]
  exact pageWrite_rejected (g := .react) (i := 0) (by decide) hb (by rw [reserved_reactTable hw, Nat.and_zero]) own (by decide)
    (by omega) (by omega)

/-- The four sources of word `w` take their entries, and nothing else changes. -/
theorem reactDo_takes (w : Nat) (v : Word) (b : Blk) :
    reactDo w v b = { b with ev := { b.ev with tab := (reactDo w v b).ev.tab } } ∧
    ∀ x, evGet (reactDo w v b) x = if x / 4 = w then
      { evGet b x with cls := v.bits (8 * (x % 4)) 3, log := v.bit (8 * (x % 4) + 3) } else evGet b x := by
  refine ⟨rfl, fun x => ?_⟩
  have word : x / 4 = w ↔ x = 4 * w ∨ x = 4 * w + 1 ∨ x = 4 * w + 2 ∨ x = 4 * w + 3 := by omega
  by_cases hx : x / 4 = w
  · rw [if_pos hx]
    rcases word.1 hx with rfl | rfl | rfl | rfl <;> simp [reactDo, List.range_succ]
  · rw [if_neg hx]
    rw [word] at hx
    simp only [not_or] at hx
    simp [reactDo, List.range_succ, hx]

theorem pageWrite_reactLock (hb : b.heard = true) (h : flag b reactWritten = false) :
    pageWrite 0x11 0x40 1 b = setFlag reactWritten true (setF Reg.REACT.CTL.LOCK 1 b) := by
  have own : ownErrs .m0 .react 0 0x40 1 b = [] := by
    simp [ownErrs, planeErrs, serviceErrs, arrayErrs, codeIf, h]
  exact pageWrite_effect (g := .react) (i := 0) (by decide) hb (by decide) own (by decide)

end

/-! ### ALIVE and the watchdog (R356, R357, R379) -/

section

variable {v : Word} {b : Blk}

theorem aliveOk_iff : aliveOk b = true ↔ b.sys.mode ∉ [Mode.reset, .boot, .safe, .shutdown] ∧ latchedClass b [3, 4] = false ∧
    (flag b Reg.ALIVE.CFG.WD_EN = true → b.ev.wdOver = false) := by
  simp only [aliveOk, stopMode, stopEvt, stopWd, Bool.and_eq_true, Bool.not_eq_true', decide_eq_false_iff_not, and_assoc]
  cases flag b Reg.ALIVE.CFG.WD_EN <;> simp

theorem setFlag_not (f : Fld) (l : Bool) (b : Blk) : setFlag f (!l) b = setF f (if l then 0 else 1) b := by
  cases l <;> rfl

theorem aliveToggle_runs (hn : 100 ≤ b.ev.aliveN) (hok : aliveOk b = true) : aliveToggle b =
    send (.pin pinAlive (!flag b Reg.ALIVE.STAT.LEVEL)) (setF Reg.ALIVE.STAT.LEVEL (if flag b Reg.ALIVE.STAT.LEVEL then 0 else 1)
      { b with ev := { b.ev with aliveN := b.ev.aliveN - 100 } }) := by
  rw [← setFlag_not]
  exact if_pos ⟨hn, hok⟩

theorem pageWrite_kick (h : hears 0xFFFFFFFE v b = true) : pageWrite 0x13 0x44 v b = kickDo v b :=
  pageWrite_hears 0x13 0x44 0xFFFFFFFE .alive 0 v b (by decide) (by decide) (by decide) (by decide) h rfl

theorem pageWrite_aliveCfg (h : hears 0xFFFE0000 v b = true) (hmin : 1 ≤ v.bits 1 16) (hmax : v.bits 1 16 ≤ 60000) :
    pageWrite 0x13 0x40 v b = aliveCfgDo v b := by
  have bounds : aliveCfgErrs v = [] := if_neg (by omega)
  have own : ownErrs .m0 .alive 0 0x40 v b = [] := by simp [ownErrs, planeErrs, serviceErrs, arrayErrs, bounds]
  exact pageWrite_hears 0x13 0x40 0xFFFE0000 .alive 0 v b (by decide) (by decide) (by decide) (by decide) h own

end

/-! ### The oldest member event (R317) -/

theorem busRead_mevt {m : Master} {b : Blk} {e : Nat × Nat × Nat} {es : List (Nat × Nat × Nat)} (hr : b.sys.mode ≠ .reset)
    (hm : m ≠ .m4) (h : b.glew.mevt = e :: es) : busRead m 0x1C06C 4 b =
      complete m [0] (send (.answer m 0x1C06C 0 (BitVec.ofNat 32 (2147483648 + 16384 * e.2.2 + 2048 * e.2.1 + e.1)))
        (setF Reg.GLEW.MEVT_STAT.COUNT es.length { b with glew := { b.glew with mevt := es } })) := by
  have value : 2147483648 + 16384 * e.2.2 + 2048 * e.2.1 + e.1 = e.1 + 2048 * e.2.1 + 16384 * e.2.2 + 2147483648 := by omega
  have code : regReadCode m 0x1C06C 4 0x1C06C = 0 := regReadCode_whole m 0x1C06C hm (by decide)
  have read : regRead m 0 0x1C06C b = mevtRead m b := rfl
  rw [busRead_single m 0x1C06C 4 b hr (by decide) (by decide) (by decide), code, read, mevtRead, h, value]

end Sys2Proof.Machine

open Sys2Proof Sys2Proof.Machine

/-- Settles O43: each write by the one effect of its register, and each event at its instant. -/
theorem eventCommandsAndTheWatchdog : Obligations.EventCommandsAndTheWatchdog := by
  unfold Obligations.EventCommandsAndTheWatchdog
  refine ⟨?_, ?_, ?_⟩
  · intro s m v p g i clears
    have cleared {a base n : Nat} (h : hostWrite m a v s.b = clearLatches base n v s.b) : clears a base n := by
      obtain ⟨rest, regs, records⟩ := clearLatches_clears base n v s.b
      have run : exec (.eventLatchClear m a v) s = .next { s with b := clearLatches base n v s.b } := by
        rw [← h]
        rfl
      exact ⟨_, run, congrArg (fun b => { s with b }) rest, regs, records⟩
    exact ⟨fun hb hm hp hr => cleared (hostWrite_latchView hm hp hb hr),
      fun hb hm k hk hr => cleared (hostWrite_latchGroup hm hk hb hr)⟩
  · intro s v page w m g i e es fits
    have force : exec (.evtForce page v) s = .next { s with b := pageWrite page.val 0x1C v s.b } := rfl
    have count : exec .evtCntClr s = .next { s with b := pageWrite 0x10 0x50 1 s.b } := rfl
    have table : exec (.reactTableWrite w v) s = .next { s with b := pageWrite 0x11 (0x400 + 4 * w.val) v s.b } := rfl
    have lock : exec .reactLock s = .next { s with b := pageWrite 0x11 0x40 1 s.b } := rfl
    have read : exec (.mevtRead m) s = .next { s with b := busRead m 0x1C06C 4 s.b } := rfl
    refine ⟨fun hp hr => ⟨fun hm => ?_, fun hb hm => ?_⟩, fun hb => ?_, fun hb hf hl => ?_, fun hb hf hl => ?_, fun hb hw => ?_,
      fun hr hm he => ?_⟩
    · rw [force, pageWrite_force hp hr hm]
    · rw [force, pageWrite_force_rejected hp hr hb hm]
    · rw [count, pageWrite_cntClr hb]
      exact ⟨_, rfl, rfl, fun x => evGet_cntClrDo x s.b⟩
    · rw [table, pageWrite_reactTable w.isLt hb hf hl]
      obtain ⟨rest, records⟩ := reactDo_takes w.val v s.b
      exact ⟨_, rfl, congrArg (fun b => { s with b }) rest, records⟩
    · rw [table, pageWrite_reactTable_locked w.isLt hb hf hl]
    · rw [lock, pageWrite_reactLock hb hw]
      refine ⟨_, rfl, rfl, ?_, fun f hf => ?_⟩
      · rw [flag, setFlag, getF_setF_ne _ _ _ _ (by decide), getF_setF_same]
        rfl
      have other : f.key ≠ reactWritten.key ∧ f.key ≠ Reg.REACT.CTL.LOCK.key := by
        constructor <;> rintro h <;> exact hf (by rw [h]; rfl)
      exact (getF_setF_ne _ _ _ _ other.1).trans (getF_setF_ne _ _ _ _ other.2)
    · rw [read, busRead_mevt hr hm he]
  · intro s v wdEnd d set restarts level
    have toggle : exec .aliveToggle s = .next { s with b := aliveToggle s.b } := rfl
    have expire : exec .watchdog s = .next { s with b := watchdog s.b } := rfl
    have kick : exec (.kick v) s = .next { s with b := pageWrite 0x13 0x44 v s.b } := rfl
    have cfg : exec (.aliveCfgWrite v) s = .next { s with b := pageWrite 0x13 0x40 v s.b } := rfl
    refine ⟨fun hn hmode hclass hwd => ?_, fun he hd hdue => ?_, fun h hv he => ?_, fun h hmin hmax => ?_⟩
    · rw [toggle, aliveToggle_runs hn (aliveOk_iff.2 ⟨hmode, hclass, hwd⟩)]
    · rw [expire, watchdog, if_pos ⟨he, hd⟩, atQ_due _ hdue]
    · rw [kick, pageWrite_kick h, kickDo, if_pos ⟨hv, he⟩]
    · rw [cfg, pageWrite_aliveCfg h hmin hmax, aliveCfgDo]
      simp only [restarts, ne_comm (a := v.bits 1 16)]
      rfl

end

section
/-!
PROOF. Training and time over Glewlink (O50): what a port's state and record read after a change of either, the one way a port in
training falls back, and a TIME cell as what it makes of its port's record and of a member's sums.
-/
set_option autoImplicit false

namespace Sys2Proof.Machine

/-! ### The state and the record of a port (R300, R319) -/

section

variable (d : Port) (b : Blk)

theorem portState_of_regs {c : Blk} (h : c.regs = b.regs) : portState c d = portState b d := by
  cases d <;> exact getF_of_regs h _

@[simp] theorem setPort_regs (x : PortSt) : (setPort d x b).regs = b.regs := by cases d <;> rfl

@[simp] theorem portState_setPort (d' : Port) (x : PortSt) : portState (setPort d x b) d' = portState b d' :=
  portState_of_regs d' b (setPort_regs d b x)

@[simp] theorem portSt_setPort (x : PortSt) : portSt (setPort d x b) d = x := by cases d <;> rfl

theorem setPort_eq_glew (x : PortSt) : setPort d x b = { b with glew := (setPort d x b).glew } := by cases d <;> rfl

@[simp] theorem portState_setPortState (v : Nat) : portState (setPortState d v b) d = v % 8 := by
  cases d <;> exact getF_setF_same _ _ _

theorem getF_setPortState_ne (v : Nat) (f : Fld) (h : f.key ∉ [Reg.GLEW.LINK.UP_STATE.key, Reg.GLEW.LINK.DN_STATE.key]) :
    getF (setPortState d v b) f = getF b f := by
  simp only [List.mem_cons, List.not_mem_nil, or_false, not_or] at h
  cases d
  · exact getF_setF_ne _ _ _ _ h.1
  · exact getF_setF_ne _ _ _ _ h.2

theorem connected_of_fields {c : Blk} (hid : getF c Reg.GLEW.ID.CASC_ID = getF b Reg.GLEW.ID.CASC_ID)
    (hchain : getF c Reg.GLEW.CFG.CHAIN = getF b Reg.GLEW.CFG.CHAIN) : connected c d = connected b d := by
  cases d
  · simp only [connected, isMember, hid]
  · rw [connected, connected, ownId, ownId, hid, hchain]

end

/-! ### Into training and out of it (R300) -/

section

variable {d : Port} {b : Blk}

theorem startPort_down (h : portState b d = 0) :
    startPort b d = if flag b Reg.GLEW.CFG.EN = true ∧ connected b d = true then setPortState d 1 b else b := by
  simp [startPort, h]

/-- The port DOWN, its neighbour's serial kept (R304). -/
def portLow (d : Port) (b : Blk) : Blk := setPortState d 0 (setPort d { PortSt.reset with serial := (portSt b d).serial } b)

theorem getF_portLow (f : Fld) (h : f.key ∉ [Reg.GLEW.LINK.UP_STATE.key, Reg.GLEW.LINK.DN_STATE.key]) :
    getF (portLow d b) f = getF b f :=
  (getF_setPortState_ne d _ 0 f h).trans (getF_of_regs (setPort_regs d b _) f)

theorem startPort_portLow : startPort (portLow d b) d =
    if flag b Reg.GLEW.CFG.EN = true ∧ connected b d = true then setPortState d 1 (portLow d b) else portLow d b := by
  have low : portState (portLow d b) d = 0 := portState_setPortState d _ 0
  have enabled : flag (portLow d b) Reg.GLEW.CFG.EN = flag b Reg.GLEW.CFG.EN := by
    rw [flag, getF_portLow _ (by decide), flag]
  have linked : connected (portLow d b) d = connected b d :=
    connected_of_fields d b (getF_portLow _ (by decide)) (getF_portLow _ (by decide))
  rw [startPort_down low, enabled, linked]

/-- Out of training a port only falls back to DOWN, and to LOCK where it may train again. -/
theorem leaveRun_training (y : MstReset) (h0 : portState b d ≠ 0) (h5 : portState b d ≠ 5) :
    leaveRun d y b = startPort (portLow d b) d := by
  have alone : ¬ (d = .up ∧ portState b .up = 5 ∧ isMember b = true) := fun ⟨hd, h, _⟩ => h5 (hd ▸ h)
  have trained : (portState b d == 5) = false := by simpa using h5
  rw [leaveRun, if_neg h5, portDown, if_neg alone, dropPort, if_neg h0]
  simp only [trained]
  rfl

theorem leaveRun_run (y : MstReset) (h : portState b d = 5) : leaveRun d y b = portDown d (masterReset 5 y b) := by
  rw [leaveRun, if_pos h]

theorem portState_portRun : portState (portRun d b) d = 5 := by
  cases d
  · exact (portState_of_regs .up _ (resendImage_regs _)).trans (portState_setPortState .up b 5)
  · exact portState_setPortState .dn b 5

end

/-! ### Cells whose CRC fails (R297, R300) -/

/-- The count of a port's cells whose CRC failed. -/
def cntCrc (d : Port) : Fld :=
  match d with
  | .up => Reg.GLEW.CNT_CRC.UP
  | .dn => Reg.GLEW.CNT_CRC.DN

/-- A cell of port `d` is discarded and counted. -/
def crcCounted (d : Port) (b : Blk) : Blk := raise 1095 (incF (cntCrc d) b)

/-- One more bad TIME cell in a row. -/
def badTime (d : Port) (b : Blk) : Blk := setPort d { portSt b d with bad := (portSt b d).bad + 1 } b

theorem badCell_plain (d : Port) (y : MstReset) (b : Blk) : badCell d false y b = crcCounted d b := by
  cases d <;> rfl

theorem badCell_time (d : Port) (y : MstReset) (b : Blk) : badCell d true y b =
    if 15 ≤ (portSt (crcCounted d b) d).bad ∧ portState (crcCounted d b) d = 5 then
      portDown d (masterReset 5 y (badTime d (crcCounted d b))) else badTime d (crcCounted d b) := by
  have unfolded : badCell d true y b = if 16 ≤ (portSt (crcCounted d b) d).bad + 1 ∧
      portState (badTime d (crcCounted d b)) d = 5 then leaveRun d y (badTime d (crcCounted d b)) else badTime d (crcCounted d b) := by
    cases d <;> rfl
  have same : portState (badTime d (crcCounted d b)) d = portState (crcCounted d b) d := portState_setPort d _ d _
  rw [unfolded, same]
  by_cases h : 15 ≤ (portSt (crcCounted d b) d).bad ∧ portState (crcCounted d b) d = 5
  · rw [if_pos h, if_pos (by omega), leaveRun_run y (same.trans h.2)]
  · rw [if_neg h, if_neg (by omega)]

/-! ### A cell's CRC (R297) -/

theorem crcOk_iff (x : Cell) : x.crcOk false = true ↔
    crc32 ((x.ws.take 9).flatMap wordBytes) = (x.ws.getD 9 0).toNat := by
  simp [Cell.crcOk]

theorem timeCrcOk_iff (x : TimeCell) : x.crcOk = true ↔ crc32 (x.w.flatMap wordBytes) = x.crc.toNat := by
  simp [TimeCell.crcOk]

/-! ### The ID cell (R300, R304) -/

/-- The neighbour's serial as its ID cell gives it. -/
def cellSerial (x : Cell) : BitVec 64 := BitVec.ofNat 64 ((pw x 1).toNat + 2 ^ 32 * (pw x 2).toNat)

/-- The port named by its neighbour's ID cell, its measurement begun anew. -/
def portNamed (x : Cell) (b : Blk) : Blk := setPort x.d { portSt b x.d with serial := some (cellSerial x), n := 0, flight := 0 } b

/-- What follows where the neighbour is named. -/
def idChecked (x : Cell) (b : Blk) : Blk := if idFits b x = true then setPortState x.d 4 b else raise 1094 b

theorem idCell_bad {x : Cell} {b : Blk} (hs : portState b x.d = 3) (hc : x.crcOk false = false) : idCell x b = crcCounted x.d b := by
  rw [idCell, if_pos ⟨hs, hc⟩, badCell_plain]

/-- The controller before this one is another than was named (R304). -/
def serialChanged (x : Cell) (b : Blk) : Bool := decide (x.d = .up) && (portSt b x.d).serial.any fun o => o != cellSerial x

theorem serialChanged_eq_false {x : Cell} {b : Blk}
    (h : x.d = .up → (portSt b x.d).serial = none ∨ (portSt b x.d).serial = some (cellSerial x)) : serialChanged x b = false := by
  by_cases hu : x.d = .up
  · rcases h hu with hs | hs <;> simp [serialChanged, hs]
  · simp [serialChanged, hu]

theorem serialChanged_eq_true {x : Cell} {b : Blk} {o : BitVec 64} (hu : x.d = .up) (ho : (portSt b x.d).serial = some o)
    (hne : o ≠ cellSerial x) : serialChanged x b = true := by
  simp [serialChanged, hu, hu ▸ ho, hne]

theorem idCell_taken {x : Cell} {b : Blk} (hs : portState b x.d = 3) (hc : x.crcOk false = true) (ht : x.typ = 2)
    (ha : x.bcast = true ∨ x.dest.val = ownId b) :
    idCell x b = idChecked x (raiseIf (serialChanged x b) 930 (portNamed x b)) := by
  have taken : cellTaken b x = true := by simpa [cellTaken] using ha
  rw [idCell, if_neg (by simp [hc]), if_pos ⟨hs, ht, taken⟩]
  rfl

/-! ### MEASURE (R300) -/

/-- The measured flight time shown, and the measurement begun anew. -/
def flightShown (d : Port) (b : Blk) : Blk :=
  setF (match d with | .up => Reg.GLEW.FLIGHT.UP | .dn => Reg.GLEW.FLIGHT.DN)
    (clampI 0 1023 (ratRne (10 * ((portSt b d).flight / ((portSt b d).n : Rat))))).toNat
    (setPort d { portSt b d with n := 0, flight := 0 } b)

theorem measureDone_measured {d : Port} {b : Blk} (hs : portState b d = 4) (hn : 256 ≤ (portSt b d).n) :
    measureDone d b = if (portSt b d).flight / ((portSt b d).n : Rat) ≤ 48 then portRun d (flightShown d b)
      else raise 1094 (flightShown d b) := by
  unfold measureDone flightShown
  rw [if_pos ⟨hs, hn⟩]
  cases d <;> rfl

/-! ### GLEW.CFG (R300, R409) -/

theorem ownErrs_glewCfg {v : Word} {b : Blk} (hm : b.sys.mode = .idle) (hv : v.bit 0 = true → ownId b ≤ v.bits 1 3) :
    ownErrs .m0 .glew 0 0x40 v b = [] := by
  have fits : ¬ (v.bit 0 = true ∧ v.bits 1 3 < ownId b) := fun ⟨hb, hlt⟩ => Nat.not_lt.2 (hv hb) hlt
  have checks : glewCfgErrs v b = [] := by simp [glewCfgErrs, hm, fits]
  simp [ownErrs, planeErrs, serviceErrs, arrayErrs, checks]

/-- The fields of GLEW.CFG as a write stores them. -/
def glewCfgStored (v : Word) (b : Blk) : Blk := setFs [(Reg.GLEW.CFG.EN, v.bits 0 1), (Reg.GLEW.CFG.CHAIN, v.bits 1 3)] b

/-- An accepted write of CFG starts both ports or takes them down; where it ends a link in RUN, M5 is reset after it. -/
theorem glewCfgWrite_accepted {v : Word} {b : Blk} (y : MstReset) (h : hears 0xFFFFFFF0 v b = true) (hm : b.sys.mode = .idle)
    (hv : v.bit 0 = true → ownId b ≤ v.bits 1 3) :
    let off := portDown .dn (portDown .up (glewCfgStored v b))
    glewCfgWrite v y b = if v.bit 0 = true then startPort (startPort (glewCfgStored v b) .up) .dn
      else if portState b .up = 5 ∨ portState b .dn = 5 then masterReset 5 y off else off := by
  intro off
  have own := ownErrs_glewCfg hm hv
  have reserved : Pg.reserved .glew 0 0x40 = 0xFFFFFFF0 := by decide
  have addr : 0x1C040 = 0x1C * 4096 + 0x40 := rfl
  have effect : regDo .glew 0 0x1C 0x40 v b = if v.bit 0 = true then startPort (startPort (glewCfgStored v b) .up) .dn else off := rfl
  have write := pageWrite_hears 0x1C 0x40 _ .glew 0 v b (by decide) (by decide) (by decide) reserved h own
  have taken := accepted_hears (page := 0x1C) (by decide) (by decide) (by decide) reserved h own
  rw [pageWrite, effect] at write
  rw [glewCfgWrite, addr, write, taken]
  cases v.bit 0 <;> simp

/-! ### The TIME cell (R301, R302) -/

/-- The arrival stamp of a TIME cell, in units of 2^-28 ns. -/
def timeArrival (b : Blk) (x : TimeCell) : Int :=
  local28 b + rne ((x.tenths.val : Int) * 2 ^ 28) 10 - corr28 (getF b Reg.GLEW.CORR.ING)

/-- The port's record with the stamp of a TIME cell. -/
def portStamped (b : Blk) (x : TimeCell) : PortSt :=
  { portSt b x.d with rxFrame := (x.w.getD 1 0).toNat / 65536, rxNs := (timeArrival b x).toNat / 2 ^ 28,
                      rxFrac := (timeArrival b x).toNat % 2 ^ 28, bad := 0 }

/-- What the cell's two differences make of the record: a flight time while the port measures. -/
def portTimed (b : Blk) (x : TimeCell) : PortSt :=
  match timeDiffs (portSt b x.d) (timeArrival b x) x with
  | some e => if portState b x.d = 4 then
      { portStamped b x with n := (portSt b x.d).n + 1, flight := (portSt b x.d).flight + ((e.1 + e.2 : Int) : Rat) / 536870912 }
    else portStamped b x
  | none => portStamped b x

/-- What upstream says in a TIME cell of a member's UP port in RUN. -/
def glewHeard (x : TimeCell) (g : GlewSt) : GlewSt :=
  { g with upIncr := (x.w.getD 4 0).toNat, upHold := natBits (x.w.getD 7 0).toNat 16 1 == 1
           stepNext := g.stepNext || natBits (x.w.getD 7 0).toNat 17 1 == 1 }

/-- The sums of a member after one more offset. -/
def glewSummed (df : Option (Int × Int)) (g : GlewSt) : GlewSt :=
  match df with
  | some e => { g with oSum := g.oSum + ((e.1 - e.2 : Int) : Rat) / 536870912, oN := g.oN + 1 }
  | none => g

/-- A member's sums after a TIME cell of its UP port in RUN: an offset counts with SRC = GLEW up to the 64th
(R302). -/
def upstreamTaken (x : TimeCell) (b : Blk) (g : GlewSt) : GlewSt :=
  glewSummed (if getF b Reg.TIME.CFG.SRC = 2 ∧ b.glew.oN < 64 then timeDiffs (portSt b x.d) (timeArrival b x) x else none)
    (glewHeard x g)

section

variable {x : TimeCell} {b : Blk}

theorem timeCell_taken (hr : b.sys.mode ≠ .reset) (h0 : portState b x.d ≠ 0) (hc : x.crcOk = true) :
    let c := setPort x.d (portTimed b x) b
    timeCell x b = if x.d = .up ∧ isMember b = true ∧ portState b x.d = 5 then { c with glew := upstreamTaken x b c.glew } else c := by
  intro c
  have running : ¬ (portState b x.d = 0 ∨ b.sys.mode = .reset) := by simp [h0, hr]
  have taken : ¬ x.crcOk = false := by simp [hc]
  have member : isMember b = isMember c := by rw [isMember, isMember, getF_of_regs (setPort_regs x.d b _)]
  have source : getF b Reg.TIME.CFG.SRC = getF c Reg.TIME.CFG.SRC := (getF_of_regs (setPort_regs x.d b _) _).symm
  have count : b.glew.oN = (glewHeard x c.glew).oN := by
    simp only [c]
    cases x.d <;> rfl
  rw [timeCell, if_neg running, if_neg taken, member]
  unfold upstreamTaken
  rw [source, count]
  rfl

theorem timeCell_eq_glew (hr : b.sys.mode ≠ .reset) (h0 : portState b x.d ≠ 0) (hc : x.crcOk = true) :
    timeCell x b = { b with glew := (timeCell x b).glew } := by
  rw [timeCell_taken hr h0 hc]
  split
  · exact congrArg (fun c : Blk => { c with glew := upstreamTaken x b (setPort x.d (portTimed b x) b).glew })
      (setPort_eq_glew x.d b (portTimed b x))
  · exact setPort_eq_glew x.d b (portTimed b x)

theorem upstreamTaken_hears (g : GlewSt) : (upstreamTaken x b g).up = g.up ∧ (upstreamTaken x b g).upIncr = (x.w.getD 4 0).toNat ∧
    (upstreamTaken x b g).upHold = ((x.w.getD 7 0).toNat / 2 ^ 16 % 2 == 1) ∧
    (upstreamTaken x b g).stepNext = (g.stepNext || ((x.w.getD 7 0).toNat / 2 ^ 17 % 2 == 1)) := by
  unfold upstreamTaken glewSummed
  split <;> exact ⟨rfl, rfl, rfl, rfl⟩

theorem timeCell_port (hr : b.sys.mode ≠ .reset) (h0 : portState b x.d ≠ 0) (hc : x.crcOk = true) :
    portSt (timeCell x b) x.d = portTimed b x := by
  rw [timeCell_taken hr h0 hc]
  split
  · next h =>
    have up (c : Blk) : portSt { c with glew := upstreamTaken x b c.glew } x.d = portSt c x.d := by
      rw [h.1]
      exact (upstreamTaken_hears c.glew).1
    rw [up, portSt_setPort]
  · exact portSt_setPort x.d b _

theorem upstreamTaken_sums (g : GlewSt) {e : Int × Int} (hs : getF b Reg.TIME.CFG.SRC = 2 ∧ b.glew.oN < 64)
    (he : timeDiffs (portSt b x.d) (timeArrival b x) x = some e) :
    (upstreamTaken x b g).oSum = g.oSum + ((e.1 - e.2 : Int) : Rat) / 536870912 ∧ (upstreamTaken x b g).oN = g.oN + 1 := by
  rw [upstreamTaken, if_pos hs, he]
  exact ⟨rfl, rfl⟩

theorem upstreamTaken_waits (g : GlewSt)
    (h : ¬ (getF b Reg.TIME.CFG.SRC = 2 ∧ b.glew.oN < 64) ∨ timeDiffs (portSt b x.d) (timeArrival b x) x = none) :
    (upstreamTaken x b g).oSum = g.oSum ∧ (upstreamTaken x b g).oN = g.oN := by
  have uncounted : (if getF b Reg.TIME.CFG.SRC = 2 ∧ b.glew.oN < 64 then timeDiffs (portSt b x.d) (timeArrival b x) x
      else none) = none := by
    rcases h with h | h
    · exact if_neg h
    · rw [h, ite_self]
  rw [upstreamTaken, uncounted]
  exact ⟨rfl, rfl⟩

end

/-- A port's record has no part in a member's sums. -/
theorem setPort_sums (d : Port) (p : PortSt) (b : Blk) : (setPort d p b).glew.oSum = b.glew.oSum ∧
    (setPort d p b).glew.oN = b.glew.oN ∧ (setPort d p b).glew.stepNext = b.glew.stepNext ∧
    (setPort d p b).glew.upIncr = b.glew.upIncr ∧ (setPort d p b).glew.upHold = b.glew.upHold := by
  cases d <;> exact ⟨rfl, rfl, rfl, rfl, rfl⟩

theorem glewOffsetUpdate_steers {b : Blk} (hm : isMember b = true) (hs : getF b Reg.TIME.CFG.SRC = 2) (hp : portState b .up = 5)
    (hn : 64 ≤ b.glew.oN) : glewOffsetUpdate b =
      offsetUpdate (ratRne (b.glew.oSum / (b.glew.oN : Rat))) b.glew.upIncr b.glew.stepNext
        (setF Reg.GLEW.OFFSET.O (toBits 32 (satS32 (ratRne (100 * (b.glew.oSum / (b.glew.oN : Rat))))))
          { b with glew := { b.glew with oSum := 0, oN := 0, stepNext := false } }) := by
  unfold glewOffsetUpdate
  exact if_pos ⟨hm, hs, hp, hn⟩

end Sys2Proof.Machine

open Sys2Proof Sys2Proof.Machine

/-- Settles O50: each command of training by what it makes of its port, and the TIME cell by the record and the sums that it leaves. -/
theorem glewlinkTrainsAndTellsTime : Obligations.GlewlinkTrainsAndTellsTime := by
  unfold Obligations.GlewlinkTrainsAndTellsTime
  refine ⟨?_, ?_⟩
  · intro s d v x y isTime st p low down fl shown sn q named good cfg crc worse
    have write : exec (.glewCfgWrite ⟨v, y⟩) s = .next { s with b := glewCfgWrite v y s.b } := rfl
    have retry : exec (.linkLockRetry d) s = .next { s with b := if s.b.sys.mode = .reset then s.b else startPort s.b d } := rfl
    have align : exec (.laneAlign d) s = .next { s with b := if st = 1 then setPortState d 2 s.b else s.b } := rfl
    have deskew : exec (.deskewDone d) s = .next { s with b := if st = 2 then setPortState d 3 s.b else s.b } := rfl
    have named_by : exec (.idCell x) s = .next { s with b := idCell x s.b } := rfl
    have measure : exec (.measureDone d) s = .next { s with b := measureDone d s.b } := rfl
    have lost : exec (.bitLockLoss d y) s = .next { s with b := leaveRun d y s.b } := rfl
    have check : exec (.cellCrc ⟨x, y⟩ isTime) s = .next { s with b := cellCrc x isTime y s.b } := rfl
    have counted : crc = crcCounted x.d s.b := by
      simp only [crc, crcCounted]
      cases x.d <;> rfl
    refine ⟨fun h hm hv => ?_, fun hr he hc hs => ?_, fun hs => ?_, fun hs => ?_,
      fun hs hg ht ha => ⟨fun h => ?_, fun o hu ho hne => ?_⟩, fun hs hg => ?_, fun hs hn => ?_, portState_portRun,
      fun h1 h5 => ?_, fun h5 => ?_, fun h0 hc => ?_, fun hc => ?_⟩
    · rw [write, glewCfgWrite_accepted y h hm hv]
      rfl
    · rw [retry, if_neg hr, startPort_down hs, if_pos ⟨he, hc⟩]
    · rw [align, if_pos hs]
    · rw [deskew, if_pos hs]
    · rw [named_by, idCell_taken hs ((crcOk_iff x).2 hg) ht ha, serialChanged_eq_false h]
      rfl
    · rw [named_by, idCell_taken hs ((crcOk_iff x).2 hg) ht ha, serialChanged_eq_true hu ho hne]
      rfl
    · rw [named_by, idCell_bad hs (Bool.eq_false_iff.2 (mt (crcOk_iff x).1 hg)), counted]
    · rw [measure, measureDone_measured hs hn]
      rfl
    · rw [lost, leaveRun_training y (by omega) (by omega), startPort_portLow]
      rfl
    · rw [lost, leaveRun_run y h5]
    · rw [check, cellCrc, if_neg (by simp [h0, hc])]
      simp only [worse, counted]
      cases isTime
      · rw [badCell_plain]
        rfl
      · rw [badCell_time]
        rfl
    · rw [check, cellCrc, if_pos (.inr hc)]
  · intro s x st p w arr stamped g sums ratio mean shown
    have cell : exec (.timeCell x) s = .next { s with b := timeCell x s.b } := rfl
    have update : exec .glewOffsetUpdate s = .next { s with b := glewOffsetUpdate s.b } := rfl
    refine ⟨fun hr h0 hc => ?_, fun hm hs hp hn => ?_⟩
    · have good := (timeCrcOk_iff x).2 hc
      refine ⟨_, cell, congrArg (fun b => { s with b }) (timeCell_eq_glew hr h0 good), ?_, fun hu hm h5 => ?_, fun h => ?_⟩
      · rw [timeCell_port hr h0 good]
        rfl
      · have clause : x.d = .up ∧ isMember s.b = true ∧ portState s.b x.d = 5 := ⟨hu, hm, h5⟩
        obtain ⟨oSum, oN, stepNext, -, -⟩ := setPort_sums x.d (portTimed s.b x) s.b
        rw [timeCell_taken hr h0 good, if_pos clause]
        obtain ⟨-, incr, hold, step⟩ := upstreamTaken_hears (x := x) (b := s.b) (setPort x.d (portTimed s.b x) s.b).glew
        refine ⟨incr, hold, by rw [← stepNext]; exact step, fun e hs he => ?_, fun h => ?_⟩
        · rw [← oSum, ← oN]
          exact upstreamTaken_sums _ hs he
        · rw [← oSum, ← oN]
          exact upstreamTaken_waits _ h
      · have clause : ¬ (x.d = .up ∧ isMember s.b = true ∧ portState s.b x.d = 5) := by
          rintro ⟨hu, hm, h5⟩
          rcases h with h | h | h
          · rw [hu] at h
            cases h
          · simp [hm] at h
          · exact h h5
        rw [timeCell_taken hr h0 good, if_neg clause]
        exact setPort_sums x.d _ s.b
    · rw [update, glewOffsetUpdate_steers hm hs hp hn]

end

section
/-!
PROOF. Cells at the master and at a member (O51): a cell is passed on, taken or counted in one place, and every type of cell then by
what it does where it is taken; the state bytes of a STATES set by their place in its 144 cells.
-/
set_option autoImplicit false

namespace Sys2Proof.Machine

/-! ### Cells that arrive (R298, R300) -/

/-- The block after a cell was passed on: it waits for a slot of the other port where that is in RUN. -/
def passedOn (x : Cell) (b : Blk) : Blk :=
  if portState b (otherPort x.d) = 5 then queueCell (otherPort x.d) x.typ ((x.ws.take 9).map BitVec.toNat) b else b

/-- A cell of type `t` in RUN with a right CRC, for this controller alone. -/
def CellHere (t : Nat) (x : Cell) (b : Blk) : Prop :=
  portState b x.d = 5 ∧ b.sys.mode ≠ .reset ∧ crc32 ((x.ws.take 9).flatMap wordBytes) = (x.ws.getD 9 0).toNat ∧ x.typ = t ∧
  x.bcast = false ∧ x.dest.val = ownId b

section

variable {x : Cell} {b : Blk} (take : Blk → Blk)

theorem passCell_broadcast (h : x.bcast = true) : passCell x take b = take (passedOn x b) := by
  by_cases ho : portState b (otherPort x.d) = 5 <;> simp [passCell, passedOn, cellTaken, h, ho]

theorem passCell_own (h : x.bcast = false) (hd : x.dest.val = ownId b) : passCell x take b = take b := by
  simp [passCell, cellTaken, h, hd]

theorem ownId_passedOn : ownId (passedOn x b) = ownId b := by
  unfold passedOn
  split
  · exact getF_of_regs (setPort_regs _ b _) _
  · rfl

theorem passCell_elsewhere (h : x.bcast = false) (hd : x.dest.val ≠ ownId b) : passCell x take b = passedOn x b := by
  have passed : (if (x.bcast || x.dest.val != ownId b) && portState b (otherPort x.d) == 5 then
      queueCell (otherPort x.d) x.typ ((x.ws.take 9).map BitVec.toNat) b else b) = passedOn x b := by
    simp [passedOn, hd]
  have untaken : cellTaken (passedOn x b) x = false := by simp [cellTaken, h, ownId_passedOn, hd]
  rw [passCell, passed]
  simp [untaken]

theorem onCell_right {t : Nat} (hp : portState b x.d = 5) (hr : b.sys.mode ≠ .reset)
    (hc : crc32 ((x.ws.take 9).flatMap wordBytes) = (x.ws.getD 9 0).toNat) (ht : x.typ = t) :
    onCell t x take b = passCell x take b := by
  have right := (crcOk_iff x).2 hc
  simp [onCell, hp, hr, right, ht]

theorem onCell_wrong (t : Nat) (hp : portState b x.d = 5) (hr : b.sys.mode ≠ .reset)
    (hc : crc32 ((x.ws.take 9).flatMap wordBytes) ≠ (x.ws.getD 9 0).toNat) : onCell t x take b = crcCounted x.d b := by
  have wrong : x.crcOk false = false := Bool.eq_false_iff.2 (mt (crcOk_iff x).1 hc)
  simp [onCell, hp, hr, wrong, badCell_plain]

theorem onCell_here {t : Nat} (h : CellHere t x b) : onCell t x take b = take b := by
  obtain ⟨hp, hr, hc, ht, hb, hd⟩ := h
  rw [onCell_right take hp hr hc ht, passCell_own take hb hd]

end

/-! ### STATUS, LEDGER and EVENT cells at the master (R305, R306, R317) -/

/-- The ledger images with the words of a LEDGER cell. -/
def imageTaken (x : Cell) (t : Tbl Word) : Tbl Word :=
  (List.range 8).foldl (fun t j => t.set 0 (32768 * x.src.val + 8 * x.arg.toNat + j) (pw x (j + 1))) t

/-- The eight words of the cell stand from its place on, every other word as before. -/
theorem get_imageTaken (x : Cell) (t : Tbl Word) (a : Nat) : (imageTaken x t).get 0 a =
    if 32768 * x.src.val + 8 * x.arg.toNat ≤ a ∧ a < 32768 * x.src.val + 8 * x.arg.toNat + 8 then
      pw x (a - (32768 * x.src.val + 8 * x.arg.toNat) + 1) else t.get 0 a := by
  generalize hbase : 32768 * x.src.val + 8 * x.arg.toNat = base
  have written (n : Nat) : ((List.range n).foldl (fun t j => t.set 0 (base + j) (pw x (j + 1))) t).get 0 a =
      if base ≤ a ∧ a < base + n then pw x (a - base + 1) else t.get 0 a := by
    induction n with
    | zero => rw [if_neg (by omega)]; rfl
    | succ n ih =>
      rw [List.range_succ, List.foldl_append, List.foldl_cons, List.foldl_nil, Tbl.get_set_dflt, ih]
      by_cases ha : a = base + n
      · rw [if_pos ha, if_pos (by omega), ha, Nat.add_sub_cancel_left]
      · rw [if_neg ha]
        exact if_congr (by omega) rfl rfl
  rw [imageTaken, hbase]
  exact written 8

section

variable {x : Cell} {b : Blk} (hm : isMember b = false)

include hm

theorem statusCell_master (h : CellHere 3 x b) : statusCell x b = { b with glew := { b.glew with
    mems := b.glew.mems.set MemberSt.reset x.src.val
      { seen := some b.q, bits := (pw x 1).bits 0 11, imgSeq := (pw x 2).bits 0 16, lost := false } } } := by
  rw [statusCell, onCell_here _ h, if_neg (by simp [hm])]

theorem ledgerCell_master (h : CellHere 14 x b) :
    ledgerCell x b = { b with glew := { b.glew with image := imageTaken x b.glew.image } } := by
  rw [ledgerCell, onCell_here _ h, if_neg (by simp [hm])]
  rfl

theorem eventCell_kept (h : CellHere 13 x b) (hn : b.glew.mevt.length < 16) : eventCell x b =
    raise 1096 (setF Reg.GLEW.MEVT_STAT.COUNT (b.glew.mevt.length + 1) { b with glew := { b.glew with
      mevt := b.glew.mevt ++ [((pw x 1).bits 0 11, (pw x 1).bits 11 3, x.src.val)] } }) := by
  rw [eventCell, onCell_here _ h, if_neg (by simp [hm])]
  simp only [if_pos hn, List.length_append, List.length_cons, List.length_nil, Nat.zero_add]

theorem eventCell_lost (h : CellHere 13 x b) (hn : 16 ≤ b.glew.mevt.length) : eventCell x b =
    raise 1096 (setF Reg.GLEW.MEVT_STAT.COUNT b.glew.mevt.length (incF Reg.GLEW.MEVT_STAT.LOST b)) := by
  rw [eventCell, onCell_here _ h, if_neg (by simp [hm])]
  simp only [if_neg (Nat.not_lt.2 hn)]
  rfl

/-! ### READY and SUMMARY cells at the master (R310, R313) -/

variable {j : Nat} {f : Frame} (hj : frameWith b (pw x 1) = some j) (hf : b.sched.queue[j]? = some f)

include hj hf

theorem readyCell_spent (h : CellHere 7 x b) (hs : f.stage = .launched ∨ f.commit = true ∨ x.src.val ∈ f.ready) :
    readyCell x b = b := by
  rw [readyCell, onCell_here _ h]
  simp only [hm, hj, hf, if_pos hs, Bool.false_eq_true, if_false]

theorem readyCell_refused (h : CellHere 7 x b) (hs : ¬ (f.stage = .launched ∨ f.commit = true ∨ x.src.val ∈ f.ready))
    (hc : (pw x 2).bits 0 8 ≠ 0) : readyCell x b = abortFrame j x.src.val ((pw x 2).bits 0 8) b := by
  rw [readyCell, onCell_here _ h]
  simp only [hm, hj, hf, if_neg hs, if_pos hc, Bool.false_eq_true, if_false]

theorem readyCell_ready (h : CellHere 7 x b) (hs : ¬ (f.stage = .launched ∨ f.commit = true ∨ x.src.val ∈ f.ready))
    (hc : (pw x 2).bits 0 8 = 0) : readyCell x b = tryCommit (setFrame j { f with
      ready := x.src.val :: f.ready
      pEnd := if (∀ m, m < chainN b → m + 1 ∈ x.src.val :: f.ready) then b.time.ns else f.pEnd } b) := by
  have full : ((List.range (chainN b)).all fun k => decide (k + 1 ∈ x.src.val :: f.ready)) = true ↔
      ∀ m, m < chainN b → m + 1 ∈ x.src.val :: f.ready := by
    simp only [List.all_eq_true, List.mem_range, decide_eq_true_eq]
  have taken : ¬ (pw x 2).bits 0 8 ≠ 0 := fun hn => hn hc
  rw [readyCell, onCell_here _ h]
  simp only [hm, hj, hf, if_neg hs, if_neg taken, Bool.false_eq_true, if_false, full]

theorem summaryCell_kept (h : CellHere 10 x b) (hs : f.stage = .launched) (hn : ∀ y ∈ f.sums, y.1 ≠ x.src.val) :
    summaryCell x b = setFrame j { f with sums := f.sums ++ [(x.src.val, 0 :: x.w.map BitVec.toNat)] } b := by
  have first : (f.sums.all fun y => y.1 != x.src.val) = true := by simpa using hn
  rw [summaryCell, onCell_here _ h]
  simp only [hm, hj, hf, if_pos (And.intro hs first), Bool.false_eq_true, if_false]

end

/-! ### Silent members (R310, R311, R314) -/

theorem memberLost_due {k t : Nat} {b : Blk} (hs : (b.glew.mems.get MemberSt.reset k).seen = some t) (h1 : 1 ≤ k) (hn : k ≤ chainN b)
    (hl : (b.glew.mems.get MemberSt.reset k).lost = false) (hd : b.due (t + 16016) = true) :
    let c := b.atEdge (t + 16016)
    memberLost k b = membersLost [k] (if splitBeyond c t = true then cascSplit k c else c) := by
  rw [memberLost]
  simp only [hs]
  rw [if_pos ⟨h1, hn, hl⟩, atQ_due _ hd]

/-- The edges, counted in the tick, until a READY is due. -/
def readyEdge (f : Frame) (b : Blk) : Nat :=
  let left : Int := ((f.launch : Int) - 40 - 240 * chainN b) * 2 ^ 28 - local28 b
  b.edge + if left ≤ 0 then 0 else ceilDiv left.toNat (getF b Reg.TIME.INCR.INCR)

theorem readyTimeout_late {f : Frame} {m : Nat} {b : Blk} (hf : b.sched.queue[firstUnlaunched b]? = some f) (hc : f.commit = false)
    (hm : m < chainN b) (hn : m + 1 ∉ f.ready) (hall : ∀ j, j < m → j + 1 ∈ f.ready) (hr : b.sys.mode ≠ .reset)
    (he : readyEdge f b < 250) : readyTimeout b = abortFrame (firstUnlaunched b) (m + 1) 0 (toEdge (readyEdge f b) b) := by
  have first : (List.range (chainN b)).find? (fun k => decide (k + 1 ∉ f.ready)) = some m := by
    rw [List.find?_range_eq_some]
    simpa [hn, hm] using hall
  rw [readyTimeout]
  simp only [hf, first]
  exact if_pos ⟨hc, he, hr⟩

/-! ### FRAME cells at a member (R307, R309) -/

/-- A frame of the chain whose state set is still arriving. -/
def awaitsStates (f : Frame) : Prop := f.casc = true ∧ f.stage = .queued ∧ f.refused = false

theorem refuseBroken_complete (late : Frame → Bool) {b : Blk} (h : ∀ f ∈ b.sched.queue, ¬ awaitsStates f) :
    refuseBroken late b = b := by
  refine List.foldl_fixed' (fun i => ?_) _
  split
  · next f hf =>
    refine if_neg fun hw => h f (List.mem_of_getElem? hf) ?_
    simp only [Bool.and_eq_true, Bool.not_eq_true', beq_iff_eq] at hw
    exact ⟨hw.1.1.1, hw.1.1.2, hw.1.2⟩
  · rfl

/-- The frame of a FRAME cell that is not refused. -/
def cellFrame (x : Cell) (b : Blk) : Frame :=
  { kind := (pw x 4).bits 26 2, slot := 0, seq := pw x 1, settle := (pw x 4).bits 16 10, launch := cellLaunch b x, payload := []
    peer := none, ta := b.time.ns, tp := 0, sFree := b.time.ns, pEnd := b.time.ns
    rel := boundaryAt b (4 * cellLaunch b x + 125 * (pw x 4).bits 16 10), stage := .queued, states := [], members := []
    armSet := [], wasParked := [], planStart := 0, t0 := 0, ready := [], refused := false, sums := [], keep := true
    solveStart := 0, plan := [], commit := false, casc := true, cells := [] }

theorem frameCell_queued {x : Cell} {b : Blk} (hm : isMember b = true) (h : CellHere 4 x b) (hq : b.sched.queue.length < 64)
    (hw : ∀ f ∈ b.sched.queue, ¬ awaitsStates f) (hmode : b.sys.mode.working = true) (hc : getF b Reg.SEQ.STAT.CONFIG ≠ 2) :
    frameCell x b = showQueue { b with sched := { b.sched with queue := b.sched.queue ++ [cellFrame x b] } } := by
  have room : ¬ (isMember b = false ∨ 64 ≤ b.sched.queue.length) := by simp [hm, hq]
  have fit : (!b.sys.mode.working || getF b Reg.SEQ.STAT.CONFIG == 2) = false := by simp [hmode, hc]
  rw [frameCell, onCell_here _ h, if_neg room, refuseBroken_complete _ hw]
  simp only [fit]
  rfl

/-! ### STATES and NOCHANGE cells at a member (R307) -/

section

variable {x : Cell} {b : Blk} {i : Nat} {f : Frame} (hm : isMember b = true)

include hm

section

variable (hi : filling b = some i) (hf : b.sched.queue[i]? = some f)

include hi hf

theorem statesCell_partial (h : CellHere 5 x b) (ha : x.arg.toNat < 144) (hn : (f.cells.set [] x.arg.toNat x.w).length ≠ 144) :
    statesCell x b = setFrame i { f with cells := f.cells.set [] x.arg.toNat x.w } b := by
  rw [statesCell, onCell_here _ h]
  simp only [hm, hi, hf, if_true, if_pos ha, if_neg hn]

theorem statesCell_whole (h : CellHere 5 x b) (ha : x.arg.toNat < 144) (hn : (f.cells.set [] x.arg.toNat x.w).length = 144) :
    statesCell x b = fillStates i (some (f.cells.set [] x.arg.toNat x.w)) f b := by
  rw [statesCell, onCell_here _ h]
  simp only [hm, hi, hf, if_true, if_pos ha, if_pos hn]

theorem nochangeCell_keeps (h : CellHere 6 x b) (hs : f.seq = pw x 1) : nochangeCell x b =
    setFrame i { f with states := refBytes b i, stage := .solved, cells := [], sFree := b.time.ns } b := by
  rw [nochangeCell, onCell_here _ h]
  simp only [hm, hi, hf, if_true, if_pos hs]
  rfl

end

/-! ### COMMIT and ABORT cells at a member (R311, R312) -/

variable (hi : frameWith b (pw x 1) = some i) (hf : b.sched.queue[i]? = some f) (hs : f.stage ≠ .launched)

include hi hf hs

theorem commitCell_holds (h : CellHere 8 x b) :
    commitCell x b = show2pc f.seq 1 0 0 (setFrame i { f with commit := true } b) := by
  rw [commitCell, onCell_here _ h]
  simp only [hm, hi, hf, if_true, if_neg hs]

theorem abortCell_discards (h : CellHere 9 x b) :
    let c := if f.stage ∈ [Stage.queued, .solved] then b else disarm b
    abortCell x b = show2pc f.seq 2 0 0 (showQueue { c with sched := { c.sched with queue := c.sched.queue.take i } }) := by
  have early : (f.stage = .queued ∨ f.stage = .solved) ↔ f.stage ∈ [Stage.queued, .solved] := by simp
  rw [abortCell, onCell_here _ h]
  simp only [hm, hi, hf, if_true, if_neg hs, early]

end

/-! ### The state bytes of a STATES set (R307) -/

/-- In a list of runs of equal length, place `e` lies in run `e / n`. -/
theorem getElem?_flatMap_runs {α β : Type} (g : α → List β) (n : Nat) (hn : 0 < n) (l : List α) (h : ∀ a ∈ l, (g a).length = n)
    (e : Nat) : (l.flatMap g)[e]? = l[e / n]?.bind fun a => (g a)[e % n]? := by
  induction l generalizing e with
  | nil => simp
  | cons a t ih =>
    have ha : (g a).length = n := h a (List.mem_cons_self ..)
    have ih := ih fun c hc => h c (List.mem_cons_of_mem _ hc)
    rw [List.flatMap_cons]
    by_cases he : e < n
    · rw [List.getElem?_append_left (by omega), Nat.div_eq_of_lt he, Nat.mod_eq_of_lt he]
      rfl
    · obtain ⟨k, rfl⟩ := Nat.exists_eq_add_of_le (Nat.le_of_not_lt he)
      rw [List.getElem?_append_right (by omega), ha, Nat.add_sub_cancel_left, ih, Nat.add_div_left _ hn, Nat.add_mod_left,
        List.getElem?_cons_succ]

/-- The bytes of a STATES set in the order of the elements. -/
def setBytes (ws : Tbl (List Word)) : List Byte := (List.range 144).flatMap fun k => (ws.get [] k).flatMap wordBytes

theorem setBytes_getElem? {ws : Tbl (List Word)} (hw : ∀ k, k < 144 → (ws.get [] k).length = 8) {e : Nat} (he : e < 4608) :
    (setBytes ws)[e]? = some ((wordBytes ((ws.get [] (e / 32)).getD (e % 32 / 4) 0)).getD (e % 4) 0) := by
  have word (w : Word) : (wordBytes w).length = 4 := rfl
  have cell (k : Nat) (hk : k ∈ List.range 144) : ((ws.get [] k).flatMap wordBytes).length = 32 := by
    rw [List.length_flatMap, List.map_congr_left fun w _ => word w, List.map_const', List.sum_replicate, hw k (List.mem_range.1 hk)]
    rfl
  have hcell : e / 32 < 144 := by omega
  have hword : e % 32 / 4 < (ws.get [] (e / 32)).length := by rw [hw _ hcell]; omega
  have hbyte : e % 4 < (wordBytes (ws.get [] (e / 32))[e % 32 / 4]).length := by rw [word]; omega
  have place : e % 32 % 4 = e % 4 := by omega
  rw [setBytes, getElem?_flatMap_runs _ 32 (by decide) _ cell, List.getElem?_range hcell, Option.bind_some,
    getElem?_flatMap_runs _ 4 (by decide) _ (fun w _ => word w), List.getElem?_eq_getElem hword, Option.bind_some, place,
    List.getElem?_eq_getElem hbyte, List.getD_eq_getElem _ _ hword, List.getD_eq_getElem _ _ hbyte]

theorem fillStates_state {b : Blk} {i : Nat} {f : Frame} {ws : Tbl (List Word)} {e : Nat} (hi : i < b.sched.queue.length)
    (hw : ∀ k, k < 144 → (ws.get [] k).length = 8) (he : e < 4608) (hr : (refBytes b i).length = 4608) :
    let sent := (wordBytes ((ws.get [] (e / 32)).getD (e % 32 / 4) 0)).getD (e % 4) 0
    let own := (refBytes b i).getD e 0
    ((fillStates i (some ws) f b).sched.queue[i]?.map fun g => g.states.getD e 0) =
      some (if sent = 0xFF then own else withMove own (sent.toNat % 16)) := by
  intro sent own
  have mine : (refBytes b i)[e]? = some own := by
    rw [List.getElem?_eq_getElem (by omega), ← List.getD_eq_getElem (d := 0)]
  have theirs : (setBytes ws)[e]? = some sent := setBytes_getElem? hw he
  rw [fillStates, setFrame_queue, List.getElem?_set_self hi, Option.map_some, ← setBytes, List.getD_eq_getElem?_getD, List.getElem?_map,
    List.zip, List.getElem?_zipWith, mine, theirs]
  rfl

end Sys2Proof.Machine

open Sys2Proof Sys2Proof.Machine

/-- Settles O51: what becomes of a cell, then each type by what it does where it is taken. -/
theorem cellsReachMasterAndMembers : Obligations.CellsReachMasterAndMembers := by
  unfold Obligations.CellsReachMasterAndMembers
  refine ⟨?_, ?_⟩
  · intro s x k good here g ev heard i n
    have status : exec (.statusCell x) s = .next { s with b := statusCell x s.b } := rfl
    have ledger : exec (.ledger x) s = .next { s with b := ledgerCell x s.b } := rfl
    have event : exec (.eventCell x) s = .next { s with b := eventCell x s.b } := rfl
    have ready : exec (.ready x) s = .next { s with b := readyCell x s.b } := rfl
    have summary : exec (.summary x) s = .next { s with b := summaryCell x s.b } := rfl
    have silent : exec (.memberLost k) s = .next { s with b := memberLost k.val s.b } := rfl
    have timeout : exec .readyTimeout s = .next { s with b := readyTimeout s.b } := rfl
    refine ⟨fun b typ take hp hr => ?_, fun hm => ⟨fun h => ?_, fun h => ?_, fun h hn => ?_, fun h hn => ?_, fun j f hj hf =>
      ⟨fun h hs hc hz hn => ?_, fun h hs => ?_, fun h hs hc hz hn => ?_, fun h hs hn => ?_⟩⟩,
      fun t hs h1 hn hl hd => ?_, fun f m hf hc hm hn hall hr => ?_⟩
    · intro c on
      have passed (ht : x.typ = typ) : passedOn x b = on := by rw [passedOn, ht]
      refine ⟨fun hg ht hb => ?_, fun hg ht hb hd => ?_, fun hg ht hb hd => ?_, fun hg => ?_⟩
      · rw [onCell_right take hp hr hg ht, passCell_broadcast take hb, passed ht]
      · rw [onCell_right take hp hr hg ht, passCell_own take hb hd]
      · rw [onCell_right take hp hr hg ht, passCell_elsewhere take hb hd, passed ht]
      · rw [onCell_wrong take typ hp hr hg]
        rfl
    · rw [status, statusCell_master hm h]
    · rw [ledger, ledgerCell_master hm h]
      refine ⟨_, rfl, rfl, fun j hj => ?_, fun a ha => ?_⟩
      · refine (get_imageTaken x g.image _).trans ?_
        rw [if_pos (by omega), Nat.add_sub_cancel_left]
      · refine (get_imageTaken x g.image a).trans (if_neg fun hin => ?_)
        exact ha (a - (32768 * x.src.val + 8 * x.arg.toNat)) (by omega) (by omega)
    · rw [event, eventCell_kept hm h hn]
    · rw [event, eventCell_lost hm h hn]
    · rw [ready, readyCell_refused hm hj hf h (by simp [hs, hc, hn]) hz]
    · rw [ready, readyCell_spent hm hj hf h hs]
    · rw [ready, readyCell_ready hm hj hf h (by simp [hs, hc, hn]) hz]
    · rw [summary, summaryCell_kept hm hj hf h hs hn]
    · rw [silent, memberLost_due hs h1 hn hl hd]
    · intro left e he
      rw [timeout, readyTimeout_late hf hc hm hn hall hr he]
      rfl
  · intro s x good here c d waiting
    have frame : exec (.frameCell x) s = .next { s with b := frameCell x s.b } := rfl
    have states : exec (.states x) s = .next { s with b := statesCell x s.b } := rfl
    have nochange : exec (.nochange x) s = .next { s with b := nochangeCell x s.b } := rfl
    have commit : exec (.commitCell x) s = .next { s with b := commitCell x s.b } := rfl
    have abort : exec (.abortCell x) s = .next { s with b := abortCell x s.b } := rfl
    have resume : exec (.ctrlPauseClr x) s = .next { s with b := ctrlPauseClr x s.b } := rfl
    have arm : exec (.trigArm x) s = .next { s with b := onCell 11 x (fun b => if isMember b then
      trigArmCell x.arg.toNat (pw x 1).toNat (pw x 2).toNat b else b) s.b } := rfl
    have fire : exec (.trigFire x) s = .next { s with
      b := onCell 12 x (trigFireCell x.src.val x.arg.toNat (pw x 1).toNat (pw x 2).toNat) s.b } := rfl
    refine ⟨fun hm => ⟨fun h hq hw hmode hc => ?_, fun i f hi hf => ⟨fun h ha hn => ?_, fun h ha hn => ?_, fun h hs => ?_⟩,
      fun i f hi hf hs => ⟨fun h => ?_, fun h he => ?_, fun h he => ?_⟩, fun h ha => ?_, fun h hc => ?_⟩, fun h => ?_,
      fun b i f ws e hi hw he hr => ?_⟩
    · rw [frame, frameCell_queued hm h hq hw hmode hc]
      exact ⟨_, cellFrame x s.b, rfl, rfl, ⟨rfl, rfl, rfl⟩, rfl, rfl, rfl, rfl, rfl, rfl⟩
    · rw [states, statesCell_partial hm hi hf h ha hn]
    · rw [states, statesCell_whole hm hi hf h ha hn]
    · rw [nochange, nochangeCell_keeps hm hi hf h hs]
    · rw [commit, commitCell_holds hm hi hf hs h]
    · rw [abort, abortCell_discards hm hi hf hs h, if_pos he]
    · rw [abort, abortCell_discards hm hi hf hs h, if_neg he]
    · rw [resume, ctrlPauseClr, onCell_here _ h, if_pos ⟨hm, ha⟩]
      rfl
    · rw [arm, onCell_here _ h, if_pos hm, trigArmCell, if_pos hc]
    · rw [fire, onCell_here _ h]
    · exact fillStates_state hi hw he hr

end

section
/-!
PROOF. Every step keeps the table memories in canonical form (O58): the writes, the end of BOOT and the resets by what they make
of both copies, every other command by its two lemmas, of the shadow copies, which it leaves, and of the live ones.
-/
set_option autoImplicit false

namespace Sys2Proof.Machine

/-- What leaves the shadow copies and keeps the live ones canonical keeps both canonical. -/
theorem sound_of_liveWf {b c : Blk} (hb : b.sound = true) (hs : c.shadow = b.shadow)
    (hl : Memory.wf b.shadow = true → Memory.wf b.live = true → Memory.wf c.live = true) : c.sound = true := by
  rw [sound_iff] at hb ⊢
  exact ⟨hs ▸ hb.1, hl hb.1 hb.2⟩

theorem wordsWrite_sound (m : Master) (a : WrTo) (ws : List WrWord) (b : Blk) (h : b.sound = true) :
    (wordsWrite m a ws b).sound = true := by
  cases a with
  | config r => exact sound_of_mem (configWrite_mem r ws b) h
  | bus a =>
    show (busWrite m a ws b).sound = true
    unfold busWrite
    split
    · exact splitWrite_sound m a ws b h
    split
    · exact windowWrite_sound m _ _ b h
    split
    · exact h
    split
    · exact sound_of_mem (storeWrite_mem _ _ b) h
    · exact sound_of_mem (decodeErr_mem _ _ _ b) h

theorem issue_sound {u : Eng} {i : Instr} {s t : State} (hb : s.b.sound = true) (h : issue u i s = .next t) : t.b.sound = true := by
  cases h
  refine sound_of_liveWf hb (issue_shadow rfl) fun hs hl => ?_
  cases u <;> split <;> simp [hs, hl]

theorem execExtinctionCheck_sound {e : Fin 4608} {j : Fin 8} {x y : BitVec 14} {s t : State} (hb : s.b.sound = true)
    (h : execExtinctionCheck e j x y s = .next t) : t.b.sound = true := by
  refine sound_of_liveWf hb (execExtinctionCheck_shadow h) fun hs hl => ?_
  cases h
  split
  · exact atQ_liveWf _ _ _ (extinctionCheck_shadow _ _ _ _) (extinctionCheck_liveWf _ _ _ _) hs hl
  · exact hl

theorem trigFire_sound (x : Cell) (b : Blk) (h : b.sound = true) :
    (onCell 12 x (trigFireCell x.src.val x.arg.toNat (pw x 1).toNat (pw x 2).toNat) b).sound = true := by
  refine sound_of_liveWf h (onCell_shadow _ _ _ _ fun b => trigFireCell_shadow _ _ _ _ b) fun hs hl => ?_
  unfold onCell passCell
  dsimp only
  repeat' split
  all_goals simp [hs, hl]

/-- Every command keeps the table memories canonical. -/
theorem exec_sound {c : Instr} {s t : State} (hb : s.b.sound = true) (h : exec c s = .next t) : t.b.sound = true := by
  cases hu : engineOfCmd c with
  | some u => exact issue_sound hb (exec_syllable hu s ▸ h)
  | none =>
    cases c
    case registerWrite => cases h; exact wordsWrite_sound _ _ _ _ hb
    case loopTick => cases h; exact loopTick_sound _ _ hb
    case engineSlot e sl =>
      refine sound_of_liveWf hb (exec_shadow rfl h) fun hs hl => ?_
      cases h
      exact atQ_liveWf _ _ _ (engineSlot_shadow _ _) (engineSlot_liveWf _ _) hs hl
    case extinctionCheck => exact execExtinctionCheck_sound hb h
    case tableWrite => cases h; exact windowWrite_sound _ _ _ _ hb
    case contextWrite => cases h; exact windowWrite_sound _ _ _ _ hb
    case trigFire => cases h; exact trigFire_sound _ _ hb
    case powerOnReset => cases h; exact controllerReset_sound _ _
    case resetNAssert => cases h; exact assertReset_sound _ _ hb
    case refclkLoss => cases h; exact assertReset_sound 3 { s.b with sys := { s.b.sys with refOk := false } } hb
    case corePllLockLoss => cases h; exact assertReset_sound _ _ hb
    case bootComplete => cases h; exact bootComplete_sound _ _ hb
    all_goals cases hu <;> cases h <;> exact sound_of_liveWf hb (by simp) fun hs hl => by simp [hs, hl]

end Sys2Proof.Machine

open Sys2Proof Sys2Proof.Machine

/-- Settles O58: an idle step passes an edge, and every command keeps the tables canonical. -/
theorem stepKeepsTablesCanonical : Obligations.StepKeepsTablesCanonical := by
  unfold Obligations.StepKeepsTablesCanonical
  intro s t hb h
  unfold step at h
  split at h
  · cases h
    exact sound_of_mem (idleEdge_mem s.b) hb
  · next c rest hq => exact exec_sound (s := { s with pending := rest }) hb h
end

section
/-!
PROOF. Resets (O59, O55): the state after power-on reset as it is read, what a controller reset leaves of the block before it, and
the pins, clocks and requests that begin or end one.
-/
set_option autoImplicit false

namespace Sys2Proof.Machine

/-! ### What is read after a reset (R463, R472) -/

theorem getF_noRegs {b : Blk} (h : b.regs = []) (f : Fld) : getF b f = f.rst := by
  rw [getF, h]
  rfl

/-- After power-on reset every field but CAUSE reads its reset value. -/
theorem getF_reset {f : Fld} (h : f.key ≠ Reg.SYS.RST_CAUSE.CAUSE.key) : getF State.reset.b f = f.rst := by
  have hf : (State.reset.b.regs).find f.key = none := if_neg h
  rw [getF, Tbl.get, hf]
  rfl

/-! ### What a controller reset leaves (R461 to R463) -/

section
variable (cause : Nat) (b : Blk)

theorem resetPins_eq : resetPins b = { b with sent := (resetPins b).sent } := by
  unfold resetPins
  dsimp only
  split <;> split <;> split <;> rfl

/-- The pins that fall leave the block and nothing else. -/
theorem resetPins_keeps : (resetPins b).sys = b.sys ∧ (resetPins b).regs = b.regs ∧ (resetPins b).nvm = b.nvm ∧
    (resetPins b).flash = b.flash := by
  rw [resetPins_eq]
  exact ⟨rfl, rfl, rfl, rfl⟩

/-- The fields that name a reset. -/
def resetFields : List Fld :=
  [Reg.SYS.RST_CAUSE.CAUSE, Reg.SYS.RST_CAUSE.FROM_MODE, Reg.SYS.RST_CAUSE.TMODE, Reg.CLK.STAT.REFCLK_OK]

/-- `c` is `b` after a controller reset whose cause, former mode and TMODE it shows: every register at its reset value but those that
name the reset, every table at its reset contents, every queue empty; the NVM and the flash stay (R461, R463). -/
structure WasReset (b c : Blk) (cause was tmode : Nat) : Prop where
  mode : c.sys.mode = .reset
  tables : c.shadow = [] ∧ c.live = []
  stays : c.nvm.mem = b.nvm.mem ∧ c.flash = b.flash
  empty : c.nvm.queue = [] ∧ c.elems = [] ∧ c.banks = []
  blocks : c.sched = Blk.reset.sched ∧ c.ev = Blk.reset.ev ∧ c.acq = Blk.reset.acq ∧ c.trig = Blk.reset.trig ∧
    c.eth = Blk.reset.eth ∧ c.glew = Blk.reset.glew ∧ c.tick = 0 ∧ c.time = Blk.reset.time
  shows : getF c Reg.SYS.RST_CAUSE.CAUSE = cause ∧ getF c Reg.SYS.RST_CAUSE.FROM_MODE = was ∧
    getF c Reg.SYS.RST_CAUSE.TMODE = tmode
  others : ∀ f : Fld, f.key ∉ resetFields.map Fld.key → getF c f = getF Blk.reset f

/-- A field that a controller reset does not write reads as from the registers that it keeps, which are none unless it is a soft
reset. -/
theorem getF_controllerReset (hc : cause ≠ 4) (f : Fld) (hf : f.key ∉ resetFields.map Fld.key) :
    getF (controllerReset cause b) f = getF Blk.reset f := by
  simp only [resetFields, List.map_cons, List.map_nil, List.mem_cons, List.not_mem_nil, or_false, not_or] at hf
  obtain ⟨hcause, hfrom, htm, hclk⟩ := hf
  unfold controllerReset
  dsimp only
  rw [setFlag, getF_setF_ne _ _ _ _ hclk, getF_setF_ne _ _ _ _ hcause, getF_setF_ne _ _ _ _ hfrom, getF_setF_ne _ _ _ _ htm]
  rw [getF_noRegs, getF_noRegs]
  · rfl
  · simp [hc]

theorem Mode.code_lt (m : Mode) : m.code < 16 := by
  cases m <;> decide

theorem controllerReset_resets (h1 : 0 < cause) (h4 : cause < 4) :
    WasReset b (controllerReset cause b) cause (if cause = 1 then 0 else b.sys.mode.code)
      (if cause = 1 then 0 else getF b Reg.SYS.RST_CAUSE.TMODE % 2) where
  mode := rfl
  tables := ⟨rfl, rfl⟩
  stays := by
    obtain ⟨-, -, hnvm, hflash⟩ := resetPins_keeps b
    exact ⟨show (resetPins b).nvm.mem = _ by rw [hnvm], hflash⟩
  empty := ⟨rfl, rfl, rfl⟩
  blocks := ⟨rfl, rfl, rfl, rfl, rfl, rfl, rfl, rfl⟩
  shows := by
    obtain ⟨hsys, hregs, -, -⟩ := resetPins_keeps b
    have htm : getF (resetPins b) Reg.SYS.RST_CAUSE.TMODE = getF b Reg.SYS.RST_CAUSE.TMODE := by rw [getF, hregs, getF]
    unfold controllerReset
    dsimp only
    rw [setFlag, getF_setF_ne _ _ _ _ (by decide), getF_setF_same, getF_setF_ne _ _ _ _ (by decide), getF_setF_ne _ _ _ _ (by decide),
      getF_setF_same, getF_setF_ne _ _ _ _ (by decide), getF_setF_ne _ _ _ _ (by decide), getF_setF_ne _ _ _ _ (by decide),
      getF_setF_same, hsys, htm]
    have := b.sys.mode.code_lt
    refine ⟨Nat.mod_eq_of_lt (show cause < 8 by omega), ?_, ?_⟩
    · split
      · rfl
      · exact Nat.mod_eq_of_lt this
    · split <;> rfl
  others := getF_controllerReset cause b (by omega)

/-- REFCLK_OK as it is lost changes nothing that a reset shows. -/
theorem WasReset.refclkLost {b c : Blk} {cause was tmode : Nat} (h : WasReset b c cause was tmode) :
    WasReset b (setFlag Reg.CLK.STAT.REFCLK_OK false c) cause was tmode where
  mode := h.mode
  tables := h.tables
  stays := h.stays
  empty := h.empty
  blocks := h.blocks
  shows := by
    obtain ⟨h1, h2, h3⟩ := h.shows
    rw [setFlag, getF_setF_ne _ _ _ _ (by decide), getF_setF_ne _ _ _ _ (by decide), getF_setF_ne _ _ _ _ (by decide)]
    exact ⟨h1, h2, h3⟩
  others := fun f hf => by
    rw [setFlag, getF_setF_ne _ _ _ _ fun hk => hf (by rw [hk]; decide), h.others f hf]

/-- Any other reset than power-on, where power-on is not asserted, resets the controller (R461). -/
theorem assertReset_resets (h1 : 1 < cause) (h4 : cause < 4) (hp : b.sys.resetPor = false) :
    WasReset b (assertReset cause b) cause b.sys.mode.code (getF b Reg.SYS.RST_CAUSE.TMODE % 2) := by
  have := controllerReset_resets cause b (by omega) h4
  rw [if_neg (by omega), if_neg (by omega)] at this
  rwa [assertReset, if_neg (by simp [hp])]

/-- Under power-on reset no other reset adds anything (R461). -/
theorem assertReset_under (hp : b.sys.resetPor = true) : assertReset cause b = b := if_pos hp

end

end Sys2Proof.Machine

open Sys2Proof Sys2Proof.Machine

/-- Settles O59: each part of the state after reset as it is read. -/
theorem resetLeavesEverythingAtItsValue : Obligations.ResetLeavesEverythingAtItsValue := by
  unfold Obligations.ResetLeavesEverythingAtItsValue
  exact ⟨rfl, rfl, rfl, rfl, fun f hf => getF_reset hf, fun x => ⟨rfl, rfl, rfl⟩, fun e => rfl, fun a => ⟨rfl, rfl⟩⟩

/-- Settles O55: each reset by what it leaves, and what begins or ends one. -/
theorem controllerResetsReturnEverything : Obligations.ControllerResetsReturnEverything := by
  unfold Obligations.ControllerResetsReturnEverything
  intro s resets was tm
  have resetsTo {c : Instr} {d : Blk} {cause from_ tmode : Nat} (run : exec c s = .next { s with b := d })
      (h : WasReset s.b d cause from_ tmode) : resets c cause from_ tmode := by
    obtain ⟨h1, h2, h3⟩ := h.shows
    obtain ⟨hq, hel, hba⟩ := h.empty
    obtain ⟨b1, b2, b3, b4, b5, b6, b7, b8⟩ := h.blocks
    exact ⟨_, run, rfl, h.mode, h.tables.1, h.tables.2, h.stays.1, h.stays.2, hq, b1, b2, hel, hba, b3, b4, b5, b6, b7, b8, h1, h2,
      h3, h.others⟩
  refine ⟨?_, fun hp => ⟨?_, ?_, ?_⟩, fun hp => ⟨?_, ?_⟩, rfl, rfl, rfl, fun hb hm => ?_, fun hm => ?_, fun k hp hn => ?_,
    fun k hl => ?_⟩
  · have h := controllerReset_resets 1 { s.b with sys := { s.b.sys with resetPor := true } } (by omega) (by omega)
    exact resetsTo rfl ⟨h.mode, h.tables, h.stays, h.empty, h.blocks, h.shows, h.others⟩
  · have h := assertReset_resets 2 { s.b with sys := { s.b.sys with resetPin := true } } (by omega) (by omega) hp
    exact resetsTo rfl ⟨h.mode, h.tables, h.stays, h.empty, h.blocks, h.shows, h.others⟩
  · have h := (assertReset_resets 3 { s.b with sys := { s.b.sys with refOk := false } } (by omega) (by omega) hp).refclkLost
    exact resetsTo rfl ⟨h.mode, h.tables, h.stays, h.empty, h.blocks, h.shows, h.others⟩
  · exact resetsTo rfl (assertReset_resets 3 s.b (by omega) (by omega) hp)
  · have run : exec .corePllLockLoss s = .next { s with b := assertReset 3 s.b } := rfl
    rw [run, assertReset_under 3 s.b hp]
  · have run : exec .resetNAssert s = .next { s with b := assertReset 2 { s.b with sys := { s.b.sys with resetPin := true } } } := rfl
    rw [run, assertReset_under 2]
    exact hp
  · have run : exec .softReset s = .next { s with b := pageWrite 0x00 0x4C 0xA5C3 s.b } := rfl
    rw [run, pageWrite_effect (g := .sys) (i := 0) rfl hb (by decide) (by simp [ownErrs, planeErrs, serviceErrs, arrayErrs, rstErrs, hm]) (by omega)]
    rfl
  · have run : exec .softReset s = .next { s with b := pageWrite 0x00 0x4C 0xA5C3 s.b } := rfl
    have heard : s.b.heard = true := by simp [Blk.heard, hm]
    rw [run, pageWrite_rejected (c := 2) (g := .sys) (i := 0) rfl heard (by decide)
      (by simp [ownErrs, planeErrs, serviceErrs, arrayErrs, rstErrs, hm]) (by decide) (by omega) (by omega)]
  · have run : exec (.serdesPllLock k) s = .next { s with
        b := if s.b.sys.resetPor ∨ s.b.sys.resetPin then s.b else setFlag (lockBit k) true s.b } := rfl
    rw [run, if_neg (by simp [hp, hn])]
    rfl
  · have run : exec (.serdesPllLockLoss k) s = .next { s with
        b := if flag s.b (lockBit k) then incF (lossCount k) (setFlag (lockBit k) false s.b) else s.b } := rfl
    rw [run, if_pos hl]
    rfl
end

section
/-!
PROOF. Writes of the rings' registers (O33), which the host reaches in BOOT too: a write that the register's own checks pass has its
one effect.
-/
set_option autoImplicit false

namespace Sys2Proof.Machine

/-- Out of RESET a host's write of a PCIE register with its reserved bits 0 that the page's checks pass takes effect, in BOOT too
(R449, R495). -/
theorem pageWrite_pcie {off : Nat} {v : Word} {b c : Blk} (hm : b.sys.mode ≠ .reset) (hr : v.toNat &&& Pg.reserved .pcie 0 off = 0)
    (he : pcieErrs off v b = []) (hd : pcieDo off v b = some c) (ho : 0x40 ≤ off ∧ off < 4096 ∧ off % 4 = 0) :
    pageWrite 0x1D off v b = c := by
  have inPage : (0x1D * 4096 + off) / 4096 = 0x1D := by omega
  have inOff : (0x1D * 4096 + off) % 4096 = off := by omega
  have aligned : off / 4 * 4 = off := by omega
  have past : ¬ off < 0x40 := by omega
  have passes : regErrs .m0 .pcie 0 0x1D off v b = [] := by
    simp [regErrs, aligned, hr, ho.2.2, bootErrs, codeIf, past, planeErrs, serviceErrs, arrayErrs, he]
    omega
  rw [pageWrite, hostWrite_accepted .m0 _ v b .pcie 0 hm (by decide) (by rw [inPage]; rfl) (by rw [inPage, inOff, passes]; rfl), inPage,
    inOff, regDo, if_neg past]
  simp [planeDo, serviceDo, hd]

end Sys2Proof.Machine

open Sys2Proof Sys2Proof.Machine

/-- Settles O33: each register's checks pass under its premises, and its effect is the one stated. -/
theorem ringRegistersTakeTheirWrites : Obligations.RingRegistersTakeTheirWrites := by
  unfold Obligations.RingRegistersTakeTheirWrites
  intro v s hm m mc rp c
  refine ⟨fun hr hd => ?_, fun hr hlo hhi hsize => ?_, fun hr hd => ?_⟩
  · have run : exec (.cmdTailWrite v) s = .next { s with b := pageWrite 0x1D 0x54 v s.b } := rfl
    rw [run, pageWrite_pcie hm (off := 0x54) hr (if_neg (Nat.not_lt.2 hd)) rfl (by omega)]
  · have run : exec (.cmdCfgWrite v) s = .next { s with b := pageWrite 0x1D 0x50 v s.b } := rfl
    have fits : pcieErrs 0x50 v s.b = [] := by
      simp only [pcieErrs]
      rw [if_neg fun h => h.2 (hsize h.1), if_neg (by omega)]
      rfl
    rw [run, pageWrite_pcie hm (off := 0x50) hr fits rfl (by omega)]
    rfl
  · have run : exec (.cplRpWrite v) s = .next { s with b := pageWrite 0x1D 0x6C v s.b } := rfl
    rw [run, pageWrite_pcie hm (off := 0x6C) hr (if_neg (Nat.not_lt.2 hd)) rfl (by omega)]
end

section
/-!
PROOF. Mode requests and FREEZE_N (O54): MODE_REQ's checks by whether the request is for the present mode and whether R453 lists it,
then each request by its one outcome.
-/
set_option autoImplicit false

namespace Sys2Proof.Machine

section

variable {b : Blk} {v : Word} {m : Mode} {c : Nat}

/-! ### Which requests R453 lists, and which change nothing -/

theorem Mode.code_inj {m n : Mode} (h : m.code = n.code) : m = n := by
  revert h
  cases m <;> cases n <;> decide

/-- Outside RESET, BOOT and SHUTDOWN a request for the present mode is one that changes nothing; so is one for a working mode in one. -/
theorem sameRequest_of_mode (hm : b.sys.mode = m) (h : m ∉ [Mode.reset, .boot, .shutdown]) : sameRequest b m.code = true := by
  simp only [List.mem_cons, List.not_mem_nil, or_false, not_or] at h
  simp [sameRequest, hm, h]

theorem Mode.code_le (m : Mode) : m.code < 12 := by
  cases m <;> decide

/-- What R453 does not list, said of the target of a request code. -/
theorem unlisted (m : Mode) (hr : requestable c = some m) (hl : ¬ listedRequest b m = true) :
    ∀ n, requestable c = some n → listedRequest b n = false := by
  intro n hn
  rw [hr] at hn
  cases hn
  exact Bool.eq_false_iff.2 hl

theorem sameRequest_of_working (hw : b.sys.mode.working = true) (hc : 5 ≤ c ∧ c ≤ 8) : sameRequest b c = true := by
  cases hm : b.sys.mode <;> rw [hm] at hw <;> simp [sameRequest, hm, hc, Mode.working] at hw ⊢

/-- A request for another mode than the present one, but for those of a working mode in one, is none that changes nothing. -/
theorem sameRequest_other (hm : b.sys.mode ∉ [Mode.reset, .boot, .shutdown] → b.sys.mode.code ≠ c)
    (hw : ¬ (b.sys.mode.working = true ∧ 5 ≤ c ∧ c ≤ 8)) : sameRequest b c = false := by
  rw [Bool.eq_false_iff]
  intro h
  simp only [sameRequest, Bool.and_eq_true, Bool.or_eq_true, bne_iff_ne, beq_iff_eq, decide_eq_true_eq] at h
  obtain ⟨⟨⟨h1, h2⟩, h3⟩, h4 | h4⟩ := h
  · exact hm (by simp [h1, h2, h3]) h4
  · exact hw h4

theorem sameRequest_mode (hm : b.sys.mode ≠ m) (hw : ¬ (b.sys.mode.working = true ∧ 5 ≤ m.code ∧ m.code ≤ 8)) :
    sameRequest b m.code = false := sameRequest_other (fun _ h => hm (Mode.code_inj h)) hw

theorem listedRequest_idle : listedRequest b .idle = true ↔ b.sys.mode ∈ [Mode.calibrate, .openHold, .safe] ∨ b.sys.mode.working = true := by
  simp only [listedRequest, Bool.or_eq_true, beq_iff_eq, List.mem_cons, List.not_mem_nil, or_false]
  tauto

theorem listedRequest_calibrate : listedRequest b .calibrate = true ↔ b.sys.mode ∈ [Mode.idle, .openHold] := by
  simp [listedRequest]

theorem listedRequest_openHold : listedRequest b .openHold = true ↔ b.sys.mode ∈ [Mode.idle, .calibrate] ∨ b.sys.mode.working = true := by
  simp [listedRequest]

theorem listedRequest_track : listedRequest b .track = true ↔ b.sys.mode ∈ [Mode.idle, .openHold] := by
  simp [listedRequest]

theorem listedRequest_safe (hb : b.heard = true) : listedRequest b .safe = true ↔ b.sys.mode ∉ [Mode.boot, .shutdown] := by
  have := modes_of_heard hb
  simp [listedRequest, this]

/-- A request that R453 lists is for another mode than the present one, but for SAFE in SAFE. -/
theorem sameRequest_listed (hl : listedRequest b m = true) (hm : m = .safe → b.sys.mode ≠ .safe) : sameRequest b m.code = false := by
  cases m <;> simp only [listedRequest, Bool.false_eq_true] at hl
  case safe => exact sameRequest_mode (hm rfl) (by simp [Mode.code])
  all_goals refine sameRequest_mode (fun h => ?_) fun h => ?_
  all_goals cases hb : b.sys.mode <;> simp [hb, Mode.working, Mode.code] at h hl

/-! ### The checks of MODE_REQ (R455, R456, R484) -/

/-- The request waits already, or the exit from SHUTDOWN does. -/
abbrev requestWaits (b : Blk) : Prop := b.sys.req.isSome = true ∨ b.sys.shutClr = true

/-- A source of SAFE or SHUTDOWN is latched in SAFE. -/
abbrev safeHeld (b : Blk) : Prop := b.sys.mode = .safe ∧ latchedClass b [3, 4] = true

/-- Of a request that R453 lists only what waits, what is latched and the gates are left to check. -/
theorem modeReqErrs_listed (hs : sameRequest b (v.bits 0 4) = false) (hr : requestable (v.bits 0 4) = some m) (hc : v.bits 0 4 < 12)
    (hl : listedRequest b m = true) : modeReqErrs v b = (if b.sys.req.isSome ∨ b.sys.shutClr then [3] else []) ++
      ((if b.sys.mode = .safe ∧ m = .idle ∧ latchedClass b [3, 4] then [3] else []) ++ gateErrs b m) := by
  simp [modeReqErrs, hs, hr, hl, show ¬ 12 ≤ v.bits 0 4 by omega]

/-- A request that R453 does not list, with a code of a mode, is rejected with MODE, what waits notwithstanding. -/
theorem modeReqErrs_unlisted (hs : sameRequest b (v.bits 0 4) = false) (hc : v.bits 0 4 < 12)
    (hl : ∀ m, requestable (v.bits 0 4) = some m → listedRequest b m = false) : firstCode (modeReqErrs v b) = 2 := by
  have errs : modeReqErrs v b = (if b.sys.req.isSome ∨ b.sys.shutClr then [3] else []) ++ [2] := by
    cases hr : requestable (v.bits 0 4) with
    | none => simp [modeReqErrs, hs, hr, show ¬ 12 ≤ v.bits 0 4 by omega]
    | some m => simp [modeReqErrs, hs, hr, hl m hr, show ¬ 12 ≤ v.bits 0 4 by omega]
  rw [errs]
  split <;> rfl

theorem modeReqErrs_reserved (hc : 12 ≤ v.bits 0 4) (hs : sameRequest b (v.bits 0 4) = false) : firstCode (modeReqErrs v b) = 4 := by
  have none : requestable (v.bits 0 4) = none := by
    unfold requestable
    split <;> simp_all
  simp only [modeReqErrs, hs, none, hc]
  simp only [Bool.false_eq_true, if_false, if_true]
  split <;> rfl

/-! ### A write of MODE_REQ -/

theorem ownErrs_modeReq : ownErrs .m0 .sys 0 0x40 v b = modeReqErrs v b := by
  simp [ownErrs, planeErrs, serviceErrs, arrayErrs]

/-- The word of a request code carries it, with every reserved bit 0. -/
theorem requestWord (code : BitVec 4) : Word.bits (code.setWidth 32) 0 4 = code.toNat ∧
    (code.setWidth 32 : Word).toNat &&& Pg.reserved .sys 0 0x40 = 0 := by
  revert code
  decide

/-- A rejected request leaves its code on the page. -/
theorem modeReq_refused {k : Nat} (hb : b.heard = true) (hv : v.toNat &&& Pg.reserved .sys 0 0x40 = 0)
    (hk : firstCode (modeReqErrs v b) = k) (h0 : k ≠ 0) : pageWrite 0x00 0x40 v b = reject 0 0x40 k .m0 b := by
  have passes := regErrs_eq_ownErrs (m := .m0) (page := 0) hb hv (by omega)
  have := hostWrite_rejected .m0 (0 * 4096 + 0x40) v b .sys 0 (modes_of_heard hb).1 (by decide) rfl
    (by rw [show (0 * 4096 + 0x40) % 4096 = 0x40 from rfl, show (0 * 4096 + 0x40) / 4096 = 0 from rfl, passes, ownErrs_modeReq, hk]; exact h0)
    (fun h => by cases h)
  rwa [show (0 * 4096 + 0x40) % 4096 = 0x40 from rfl, show (0 * 4096 + 0x40) / 4096 = 0 from rfl, passes, ownErrs_modeReq, hk] at this

theorem modeReq_accepted (hb : b.heard = true) (hv : v.toNat &&& Pg.reserved .sys 0 0x40 = 0) (he : modeReqErrs v b = []) :
    pageWrite 0x00 0x40 v b = modeReqDo v b := by
  rw [pageWrite_effect (g := .sys) (i := 0) rfl hb hv (by rw [ownErrs_modeReq, he]) (by omega)]
  rfl

/-- A request for the present mode changes nothing. -/
theorem modeReq_same (hv : v.toNat &&& Pg.reserved .sys 0 0x40 = 0) (hs : sameRequest b (v.bits 0 4) = true) :
    pageWrite 0x00 0x40 v b = b := by
  have hb : b.heard = true := by
    simp only [sameRequest, Bool.and_eq_true, bne_iff_ne] at hs
    simp [Blk.heard, hs.1.1.1, hs.1.1.2]
  rw [modeReq_accepted hb hv (by simp [modeReqErrs, hs]), modeReqDo, if_pos hs]

/-- A request that is listed and that nothing holds waits for the boundary. -/
theorem modeReq_asked (hb : b.heard = true) (hv : v.toNat &&& Pg.reserved .sys 0 0x40 = 0)
    (hs : sameRequest b (v.bits 0 4) = false) (hr : requestable (v.bits 0 4) = some m) (hc : v.bits 0 4 < 12)
    (hl : listedRequest b m = true) (hp : ¬ requestWaits b) (hh : ¬ (m = .idle ∧ safeHeld b)) (hg : gateErrs b m = []) :
    pageWrite 0x00 0x40 v b = { b with sys := { b.sys with req := some m } } := by
  have errs : modeReqErrs v b = [] := by
    rw [modeReqErrs_listed hs hr hc hl, if_neg hp, if_neg fun h => hh ⟨h.2.1, h.1, h.2.2⟩, hg]
    rfl
  rw [modeReq_accepted hb hv errs, modeReqDo, hs, hr]
  rfl

theorem modeReq_unlisted (hb : b.heard = true) (hv : v.toNat &&& Pg.reserved .sys 0 0x40 = 0)
    (hs : sameRequest b (v.bits 0 4) = false) (hc : v.bits 0 4 < 12)
    (hl : ∀ m, requestable (v.bits 0 4) = some m → listedRequest b m = false) :
    pageWrite 0x00 0x40 v b = reject 0 0x40 2 .m0 b :=
  modeReq_refused hb hv (modeReqErrs_unlisted hs hc hl) (by decide)

/-- A listed request is rejected with MODE where its supplies fail, LOCKED where something waits or is latched, and TABLE without the
tables, in this order. -/
theorem modeReq_gated (hb : b.heard = true) (hv : v.toNat &&& Pg.reserved .sys 0 0x40 = 0)
    (hs : sameRequest b (v.bits 0 4) = false) (hr : requestable (v.bits 0 4) = some m) (hc : v.bits 0 4 < 12)
    (hl : listedRequest b m = true) :
    (2 ∈ gateErrs b m → pageWrite 0x00 0x40 v b = reject 0 0x40 2 .m0 b) ∧
    (2 ∉ gateErrs b m → requestWaits b ∨ (m = .idle ∧ safeHeld b) → pageWrite 0x00 0x40 v b = reject 0 0x40 3 .m0 b) ∧
    (gateErrs b m = [0x17] → ¬ requestWaits b → ¬ (m = .idle ∧ safeHeld b) →
      pageWrite 0x00 0x40 v b = reject 0 0x40 0x17 .m0 b) := by
  have errs := modeReqErrs_listed hs hr hc hl
  have only : ∀ k ∈ modeReqErrs v b, k = 2 ∨ k = 3 ∨ k = 0x17 := by
    rw [errs]
    intro k hk
    simp only [gateErrs, List.mem_append] at hk
    rcases hk with hk | hk | hk | hk <;> split at hk <;> simp_all
  have two : 2 ∈ modeReqErrs v b ↔ 2 ∈ gateErrs b m := by
    rw [errs]
    simp only [List.mem_append]
    constructor
    · rintro (h | h | h)
      · split at h <;> simp at h
      · split at h <;> simp at h
      · exact h
    · exact fun h => .inr (.inr h)
  refine ⟨fun h2 => modeReq_refused hb hv ?_ (by decide), fun h2 hw => modeReq_refused hb hv ?_ (by decide),
    fun hg hp hh => modeReq_refused hb hv ?_ (by decide)⟩
  · have n5 : 5 ∉ modeReqErrs v b := fun h => by simpa using only 5 h
    have n4 : 4 ∉ modeReqErrs v b := fun h => by simpa using only 4 h
    simp [firstCode, codeOrder, n5, n4, two.2 h2]
  · have n5 : 5 ∉ modeReqErrs v b := fun h => by simpa using only 5 h
    have n4 : 4 ∉ modeReqErrs v b := fun h => by simpa using only 4 h
    have h3 : 3 ∈ modeReqErrs v b := by
      rw [errs, List.mem_append, List.mem_append]
      rcases hw with hw | ⟨hi, hh⟩
      · exact .inl (by rw [if_pos hw]; simp)
      · exact .inr (.inl (by rw [if_pos ⟨hh.1, hi, hh.2⟩]; simp))
    simp [firstCode, codeOrder, n5, n4, mt two.1 h2, h3]
  · rw [errs, if_neg hp, if_neg fun h => hh ⟨h.2.1, h.1, h.2.2⟩, hg]
    rfl

/-! ### The gates of R456 -/

theorem gateErrs_none (h : m ∈ [Mode.idle, .safe]) : gateErrs b m = [] := by
  simp only [List.mem_cons, List.not_mem_nil, or_false] at h
  rcases h with rfl | rfl <;> simp [gateErrs]

theorem two_mem_gateErrs (h : m ∈ [Mode.calibrate, .openHold, .track]) : 2 ∈ gateErrs b m ↔ ¬ pwrGate b = true := by
  simp only [List.mem_cons, List.not_mem_nil, or_false] at h
  simp only [gateErrs, List.mem_append]
  rw [if_congr (and_iff_right h) rfl rfl]
  split <;> split <;> simp_all

theorem gateErrs_calibrate (hp : pwrGate b = true) : gateErrs b .calibrate = [] := by
  simp [gateErrs, hp]

/-- With the supplies' gate open, the tables are left to check. -/
theorem gateErrs_tables (h : m = .openHold ∨ m = .track) (hp : pwrGate b = true) :
    gateErrs b m = if b.sys.tblElem = true ∧ b.sys.tblXt = true then [] else [0x17] := by
  have supplied : ¬ ((m = .calibrate ∨ m = .openHold ∨ m = .track) ∧ (!pwrGate b) = true) := by simp [hp]
  rw [gateErrs, if_neg supplied, List.append_nil]
  cases b.sys.tblElem <;> cases b.sys.tblXt <;> simp [h]

/-! ### A request at its boundary (R453, R454) -/

theorem raiseAll_nil (h : b.ev.late = []) : raiseAll [] b = b := by
  have same : { b with ev := { b.ev with late := [] } } = b := by rw [← h]
  simp [raiseAll, flushLate, raiseTx, h, same]

theorem setMode_sys (m : Mode) (b : Blk) : (setMode m b).sys.mode = m ∧ (setMode m b).sys.req = b.sys.req ∧
    (setMode m b).ev = b.ev := by
  unfold setMode
  split
  · next h => exact ⟨h, rfl, rfl⟩
  · exact ⟨rfl, rfl, rfl⟩

/-- Out of the working modes a request for a mode that has no actions of its own enters it. -/
theorem requestBoundary_enters (hr : b.sys.req = some m) (hl : b.ev.late = []) (hw : b.sys.mode.working = false)
    (hm : m ∈ [Mode.idle, .calibrate, .openHold]) :
    (requestBoundary b).sys.mode = m ∧ (requestBoundary b).sys.req = none := by
  have entered : requestBoundary b = setMode m { b with sys := { b.sys with req := none } } := by
    obtain ⟨-, -, hev⟩ := setMode_sys m { b with sys := { b.sys with req := none } }
    rw [← raiseAll_nil (b := setMode m { b with sys := { b.sys with req := none } }) (by rw [hev]; exact hl)]
    simp only [List.mem_cons, List.not_mem_nil, or_false] at hm
    rcases hm with rfl | rfl | rfl <;> simp [requestBoundary, hr, hw, enterMode]
  rw [entered]
  obtain ⟨hmode, hreq, -⟩ := setMode_sys m { b with sys := { b.sys with req := none } }
  exact ⟨hmode, hreq⟩

end

end Sys2Proof.Machine

open Sys2Proof Sys2Proof.Machine

/-- Settles O54: each request by whether it is for the present mode, whether R453 lists it, and what its gates say. -/
theorem modeRequestsAndTheFreezePin : Obligations.ModeRequestsAndTheFreezePin := by
  unfold Obligations.ModeRequestsAndTheFreezePin
  intro s code m c asked pend shut tables power w toIdle toCal toHold toTrack refused
  have idle : exec .modeReqIdle s = .next { s with b := pageWrite 0x00 0x40 2 s.b } := rfl
  have calibrate : exec .modeReqCalibrate s = .next { s with b := pageWrite 0x00 0x40 3 s.b } := rfl
  have openHold : exec .modeReqOpenHold s = .next { s with b := pageWrite 0x00 0x40 4 s.b } := rfl
  have track : exec .modeReqTrack s = .next { s with b := pageWrite 0x00 0x40 5 s.b } := rfl
  have safe : exec .modeReqSafe s = .next { s with b := pageWrite 0x00 0x40 9 s.b } := rfl
  have other : exec (.modeReqOther code) s = .next { s with b := pageWrite 0x00 0x40 (code.setWidth 32) s.b } := rfl
  have answer {v : Word} {d : Blk} (h : pageWrite 0x00 0x40 v s.b = d) :
      (.next { s with b := pageWrite 0x00 0x40 v s.b } : Host.Outcome State Fault Refusal) = .next { s with b := d } := by rw [h]
  have bits := requestWord code
  have notIdle (h : m ≠ .idle) : sameRequest s.b ((2 : Word).bits 0 4) = false := sameRequest_mode (m := .idle) h (by simp [Mode.code])
  have notCalibrate (h : m ≠ .calibrate) : sameRequest s.b ((3 : Word).bits 0 4) = false :=
    sameRequest_mode (m := .calibrate) h (by simp [Mode.code])
  have notHold (h : m ≠ .openHold) : sameRequest s.b ((4 : Word).bits 0 4) = false :=
    sameRequest_mode (m := .openHold) h (by simp [Mode.code])
  have notWorking (h : ¬ w) : sameRequest s.b ((5 : Word).bits 0 4) = false :=
    sameRequest_mode (m := .track) (fun hm => h (show s.b.sys.mode.working = true by rw [hm]; rfl)) fun hw => h hw.1
  have notSafe (h : m ≠ .safe) : sameRequest s.b ((9 : Word).bits 0 4) = false := sameRequest_mode (m := .safe) h (by simp [Mode.code])
  refine ⟨fun hb hp => ⟨fun hl hs => ?_, fun hl hg => ?_, fun hl ht hg => ?_, fun hl ht hg => ?_, fun hl => ?_⟩, fun hm => ?_, fun hm => ?_,
    fun hm => ?_, fun hw => ?_, fun hm => ?_, fun h => ?_, fun hb => ⟨fun hc => ?_, fun hc hw hf => ?_, fun hm => ⟨fun hl => ?_, fun hl hp => ?_⟩,
      fun hm => ⟨fun h => ?_, fun hl hg hp => ?_⟩, fun hm => ⟨fun h => ?_, fun hl hg => ⟨fun hp => ?_, fun hp ht => ?_⟩⟩,
      fun hw => ⟨fun h => ?_, fun hl hg => ⟨fun hp => ?_, fun hp ht => ?_⟩⟩, fun hm => ?_, fun hm hp => ?_⟩,
    fun b t => requestBoundary_enters, fun hm hz => ?_, rfl⟩
  · have listed := listedRequest_idle.2 hl
    exact idle.trans (answer (modeReq_asked hb (by decide) (sameRequest_listed listed nofun) rfl (by decide) listed hp
      (fun h => hs h.2) (gateErrs_none (by decide))))
  · have listed := listedRequest_calibrate.2 hl
    exact calibrate.trans (answer (modeReq_asked hb (by decide) (sameRequest_listed listed nofun) rfl (by decide) listed hp nofun
      (gateErrs_calibrate hg)))
  · have listed := listedRequest_openHold.2 hl
    exact openHold.trans (answer (modeReq_asked hb (by decide) (sameRequest_listed listed nofun) rfl (by decide) listed hp nofun
      ((gateErrs_tables (.inl rfl) hg).trans (if_pos ht))))
  · have listed := listedRequest_track.2 hl
    exact track.trans (answer (modeReq_asked hb (by decide) (sameRequest_listed listed nofun) rfl (by decide) listed hp nofun
      ((gateErrs_tables (.inr rfl) hg).trans (if_pos ht))))
  · have hl : m ∉ [Mode.boot, .shutdown] ∧ m ≠ .safe := by simp at hl ⊢; tauto
    have listed := (listedRequest_safe hb).2 hl.1
    exact safe.trans (answer (modeReq_asked hb (by decide) (sameRequest_listed listed fun _ => hl.2) rfl (by decide) listed hp nofun
      (gateErrs_none (by decide))))
  · exact idle.trans (answer (modeReq_same (by decide) (sameRequest_of_mode hm (by decide))))
  · exact calibrate.trans (answer (modeReq_same (by decide) (sameRequest_of_mode hm (by decide))))
  · exact openHold.trans (answer (modeReq_same (by decide) (sameRequest_of_mode hm (by decide))))
  · exact track.trans (answer (modeReq_same (by decide) (sameRequest_of_working hw (by decide))))
  · exact safe.trans (answer (modeReq_same (by decide) (sameRequest_of_mode hm (by decide))))
  · refine other.trans (answer (modeReq_same bits.2 ?_))
    rw [bits.1]
    rcases h with ⟨hw, hc⟩ | ⟨hm, hc⟩
    · exact sameRequest_of_working hw (by simp at hc; omega)
    · rw [show code.toNat = Mode.code .factoryTest from hc]
      exact sameRequest_of_mode hm (by decide)
  · have hs : sameRequest s.b c = false := sameRequest_other (fun _ h => by have := s.b.sys.mode.code_le; omega) fun h => by omega
    exact other.trans (answer (modeReq_refused hb bits.2 (modeReqErrs_reserved (bits.1 ▸ hc) (bits.1 ▸ hs)) (by decide)))
  · have hs : sameRequest s.b c = false := by
      refine sameRequest_other (fun hn h => ?_) fun h => hw ⟨h.1, by simp at hc ⊢; omega⟩
      cases hm : s.b.sys.mode <;> simp [hm, Mode.code] at h hn <;> simp [← h] at hc
      case factoryTest => exact hf ⟨hm, h.symm⟩
      all_goals exact hw ⟨show s.b.sys.mode.working = true by rw [hm]; rfl, by simp [← h]⟩
    have hr : requestable c = none := by
      simp only [List.mem_cons, List.not_mem_nil, or_false] at hc
      rcases hc with h | h | h | h | h | h | h <;> rw [h] <;> rfl
    have h12 : c < 12 := by simp at hc; omega
    exact other.trans (answer (modeReq_unlisted hb bits.2 (bits.1 ▸ hs) (bits.1 ▸ h12) (bits.1 ▸ hr ▸ nofun)))
  · exact idle.trans (answer (modeReq_unlisted hb (by decide) (notIdle hm) (by decide) (unlisted .idle rfl (mt listedRequest_idle.1 hl))))
  · obtain ⟨-, gated, -⟩ := modeReq_gated (v := 2) hb (by decide) (notIdle hm) rfl (by decide) (listedRequest_idle.2 hl)
    exact idle.trans (answer (gated (by rw [gateErrs_none (by decide)]; decide) (hp.imp_right fun h => ⟨rfl, h⟩)))
  · by_cases hl : toCal
    · obtain ⟨gated, -, -⟩ := modeReq_gated (v := 3) hb (by decide) (notCalibrate hm) rfl (by decide) (listedRequest_calibrate.2 hl)
      exact calibrate.trans (answer (gated ((two_mem_gateErrs (by decide)).2 (h.resolve_left (not_not_intro hl)))))
    · exact calibrate.trans (answer (modeReq_unlisted hb (by decide) (notCalibrate hm) (by decide)
        (unlisted .calibrate rfl (mt listedRequest_calibrate.1 hl))))
  · obtain ⟨-, gated, -⟩ := modeReq_gated (v := 3) hb (by decide) (notCalibrate hm) rfl (by decide) (listedRequest_calibrate.2 hl)
    exact calibrate.trans (answer (gated (fun h => (two_mem_gateErrs (by decide)).1 h hg) (.inl hp)))
  · by_cases hl : toHold
    · obtain ⟨gated, -, -⟩ := modeReq_gated (v := 4) hb (by decide) (notHold hm) rfl (by decide) (listedRequest_openHold.2 hl)
      exact openHold.trans (answer (gated ((two_mem_gateErrs (by decide)).2 (h.resolve_left (not_not_intro hl)))))
    · exact openHold.trans (answer (modeReq_unlisted hb (by decide) (notHold hm) (by decide)
        (unlisted .openHold rfl (mt listedRequest_openHold.1 hl))))
  · obtain ⟨-, gated, -⟩ := modeReq_gated (v := 4) hb (by decide) (notHold hm) rfl (by decide) (listedRequest_openHold.2 hl)
    exact openHold.trans (answer (gated (fun h => (two_mem_gateErrs (by decide)).1 h hg) (.inl hp)))
  · obtain ⟨-, -, gated⟩ := modeReq_gated (v := 4) hb (by decide) (notHold hm) rfl (by decide) (listedRequest_openHold.2 hl)
    exact openHold.trans (answer (gated ((gateErrs_tables (.inl rfl) hg).trans (if_neg ht)) hp nofun))
  · by_cases hl : toTrack
    · obtain ⟨gated, -, -⟩ := modeReq_gated (v := 5) hb (by decide) (notWorking hw) rfl (by decide) (listedRequest_track.2 hl)
      exact track.trans (answer (gated ((two_mem_gateErrs (by decide)).2 (h.resolve_left (not_not_intro hl)))))
    · exact track.trans (answer (modeReq_unlisted hb (by decide) (notWorking hw) (by decide)
        (unlisted .track rfl (mt listedRequest_track.1 hl))))
  · obtain ⟨-, gated, -⟩ := modeReq_gated (v := 5) hb (by decide) (notWorking hw) rfl (by decide) (listedRequest_track.2 hl)
    exact track.trans (answer (gated (fun h => (two_mem_gateErrs (by decide)).1 h hg) (.inl hp)))
  · obtain ⟨-, -, gated⟩ := modeReq_gated (v := 5) hb (by decide) (notWorking hw) rfl (by decide) (listedRequest_track.2 hl)
    exact track.trans (answer (gated ((gateErrs_tables (.inr rfl) hg).trans (if_neg ht)) hp nofun))
  · have notIn : m ≠ .safe := by rintro h; rw [h] at hm; revert hm; decide
    exact safe.trans (answer (modeReq_unlisted hb (by decide) (notSafe notIn) (by decide)
      (unlisted .safe rfl fun h => (listedRequest_safe hb).1 h hm)))
  · have hl : m ∉ [Mode.boot, .shutdown] ∧ m ≠ .safe := by simp at hm ⊢; tauto
    obtain ⟨-, gated, -⟩ := modeReq_gated (v := 9) hb (by decide) (notSafe hl.2) rfl (by decide) ((listedRequest_safe hb).2 hl.1)
    exact safe.trans (answer (gated (by rw [gateErrs_none (by decide)]; decide) (.inl hp)))
  · have run : exec .freezeNFall s = .next { s with b := freezeFall s.b } := rfl
    rw [run, freezeFall, if_neg (by simp [hz]; exact hm)]
end

section
/-!
PROOF. Raises without a reaction (O41): what latches, counts and fills or merges into the capture, and that nothing else is touched;
the same said once for the operations that raise in passing.
-/
set_option autoImplicit false

namespace Sys2Proof.Machine

/-! ### A raise without a reaction (R347, R350) -/

section
variable {b c : Blk} {s : Nat} {ss : List Nat}

theorem Blk.mild.raised (h : b.mild ss) (hs : s ∈ ss) : raise s b = latch none b s := raise_mild s b (h.1 s hs) h.2

theorem Blk.mild.only (h : b.mild ss) (hs : s ∈ ss) : EventOnly b (raise s b) := h.raised hs ▸ latch_only none b s

theorem EventOnly.late (h : EventOnly b c) : c.ev.late = b.ev.late := by
  obtain ⟨v, r, n, k, o, e, l, rfl, hl, -⟩ := h
  exact hl

/-- Mildness is a matter of the sources' classes and of what waits to be raised. -/
theorem Blk.mild.of_ev (h : b.mild ss) (he : c.ev = b.ev) : c.mild ss := by
  refine ⟨fun x hx => ?_, by rw [he]; exact h.2⟩
  rw [evGet_of_tab (congrArg EvSt.tab he)]
  exact h.1 x hx

theorem evGet_latch_cls (tx : Option (Nat × Nat × Nat)) (b : Blk) (s x : Nat) : (evGet (latch tx b s) x).cls = (evGet b x).cls := by
  rw [evGet_latch]
  split
  · next h => rw [h]
  · rfl

/-- After a mild raise the same sources are mild. -/
theorem Blk.mild.raise (h : b.mild ss) (hs : s ∈ ss) : (raise s b).mild ss := by
  refine ⟨fun x hx => ?_, by rw [(h.only hs).late]; exact h.2⟩
  rw [h.raised hs, evGet_latch_cls]
  exact h.1 x hx

theorem Blk.mild.subset {rs : List Nat} (h : b.mild ss) (hr : rs ⊆ ss) : b.mild rs := ⟨fun x hx => h.1 x (hr hx), h.2⟩

theorem EventOnly.eq (h : EventOnly b c) :
    c = { b with ev := c.ev, regs := c.regs, nvm := c.nvm, trig := c.trig, sent := c.sent, eth := c.eth, glew := c.glew } := by
  obtain ⟨v, r, n, k, o, e, l, rfl, -⟩ := h
  rfl

theorem Blk.mild.Raised (h : b.mild ss) (hs : s ∈ ss) : Raised [s] b (Machine.raise s b) :=
  ⟨fun x hx => by rw [List.mem_singleton.1 hx]; exact raise_latches s b, fun f hf => (h.only hs).getF f hf, (h.only hs).eq⟩

/-- A raise where a condition holds changes no more than the raise. -/
theorem Blk.mild.raiseIf (h : b.mild ss) (hs : s ∈ ss) (p : Bool) : EventOnly b (raiseIf p s b) := by
  cases p
  · exact .refl b
  · exact h.only hs

end

/-! ### The first-error capture (R353, R378) -/

/-- Every field of page FCAP reads as before. -/
def OffCapture (b c : Blk) : Prop := ∀ f : Fld, f.key / 131072 = 0x12 → getF c f = getF b f

section
variable {b c d : Blk}

theorem OffCapture.refl (b : Blk) : OffCapture b b := fun _ _ => rfl

theorem OffCapture.trans (h : OffCapture b c) (g : OffCapture c d) : OffCapture b d := fun f hf => (g f hf).trans (h f hf)

theorem OffCapture.of_regs (h : c.regs = b.regs) : OffCapture b c := fun f _ => getF_of_regs h f

theorem OffCapture.ite (p : Prop) [Decidable p] (h : OffCapture b c) (g : OffCapture b d) : OffCapture b (if p then c else d) := by
  split
  · exact h
  · exact g

end

theorem setF_offCapture (g : Fld) (v : Nat) (b : Blk) (h : g.key / 131072 ≠ 0x12) : OffCapture b (setF g v b) :=
  fun _ hf => getF_setF_ne _ _ _ _ fun hk => h (hk ▸ hf)

theorem trigOnce_regs (k typ arg : Nat) (b : Blk) : (trigOnce k typ arg b).regs = b.regs := by
  unfold trigOnce
  split <;> rfl

theorem sendCell_regs (d : Port) (typ dest : Nat) (bcast : Bool) (arg : Nat) (ws : List Nat) (b : Blk) :
    (sendCell d typ dest bcast arg ws b).regs = b.regs := by
  unfold sendCell
  split
  · cases d <;> rfl
  · rfl

theorem msixPba_key (v : Nat) : (Reg.PCIE.MSIX_PBA.W (v % 2)).key / 131072 = 0x1D := by
  rcases Nat.mod_two_eq_zero_or_one v with h | h <;> rw [h] <;> rfl

theorem telem_key (p : Fin 2) : (Reg.ETH.CNT_DROP.TELEM p.val).key / 131072 ∈ [0x1E, 0x1F] := by
  revert p
  decide

theorem signalMsix_offCapture (v : Nat) (b : Blk) : OffCapture b (signalMsix v b) := by
  unfold signalMsix
  exact .ite _ (setF_offCapture _ _ b (by rw [msixPba_key]; decide)) (.refl b)

theorem signalVec_offCapture (v : Nat) (b : Blk) : OffCapture b (signalVec v b) := by
  unfold signalVec
  refine .ite _ (OffCapture.trans (.of_regs rfl) (signalMsix_offCapture v _)) (.ite _ (.refl b) (.of_regs rfl))

theorem nvmRecord_offCapture (k s c d : Nat) (b : Blk) : OffCapture b (nvmRecord k s c d b) :=
  OffCapture.trans (.of_regs rfl) (setF_offCapture Reg.NVM.STAT.BUSY 1 _ (by decide))

theorem tellEvent_offCapture (ws : List Word) (x : List Sub × Blk) (s : Sub) : OffCapture x.2 (tellEvent ws x s).2 := by
  have counted (p : Fin 2) (b : Blk) : OffCapture b (incF (Reg.ETH.CNT_DROP.TELEM p.val) b) :=
    setF_offCapture _ _ b fun h => by simpa [h] using telem_key p
  unfold tellEvent
  dsimp only
  repeat' split
  · exact .of_regs rfl
  · exact counted _ _
  · exact .of_regs rfl
  · exact counted _ _
  · exact .refl _

theorem announceEvent_offCapture (s c : Nat) (b : Blk) : OffCapture b (announceEvent s c b) := by
  have told (ws : List Word) (l : List Sub) (x : List Sub × Blk) : OffCapture x.2 (l.foldl (tellEvent ws) x).2 := by
    induction l generalizing x with
    | nil => exact .refl _
    | cons y t ih => exact (tellEvent_offCapture ws x y).trans (ih _)
  unfold announceEvent
  refine .ite _ (.refl b) (.ite _ ?_ ?_)
  · exact ((told _ b.eth.subs ([], b)).trans (.of_regs rfl)).trans (.of_regs (sendCell_regs _ _ _ _ _ _ _))
  · exact (told _ b.eth.subs ([], b)).trans (.of_regs rfl)

/-- The block at the point at which a raise is captured: latched, counted and presented (R347, R348). -/
def beforeCapture (b : Blk) (s : Nat) : Blk :=
  let r := evGet b s
  let c := trigOnce (b.now + 1) 5 s (evSet s { r with latch := true, lcls := r.cls, count := satInc 255 r.count } b)
  if r.latch = false ∧ r.mask = false then signalVec (vecOfGroup (s / 32)) c else c

theorem beforeCapture_offCapture (b : Blk) (s : Nat) : OffCapture b (beforeCapture b s) := by
  have latched (r : EvRec) : OffCapture b (trigOnce (b.now + 1) 5 s (evSet s r b)) := .of_regs (trigOnce_regs _ _ _ _)
  exact .ite _ ((latched _).trans (signalVec_offCapture _ _)) (latched _)

/-- Of the capture a raise changes what `capture` makes of it, and nothing else. -/
theorem latch_captures (tx : Option (Nat × Nat × Nat)) (b : Blk) (s : Nat) :
    OffCapture (capture s (evGet b s).cls tx (beforeCapture b s)) (latch tx b s) := by
  have logged (p : Prop) [Decidable p] (c : Blk) :
      OffCapture c (if p then nvmRecord 6 s (evGet b s).cls 0 { c with ev := { c.ev with lastLog := some c.q } } else c) :=
    .ite p (OffCapture.trans (.of_regs rfl) (nvmRecord_offCapture _ _ _ _ _)) (.refl c)
  exact (logged _ _).trans (announceEvent_offCapture _ _ _)

/-- A raise of class INFO is not captured. -/
theorem latch_info {b : Blk} {s : Nat} (tx : Option (Nat × Nat × Nat)) (h : (evGet b s).cls = 0) : OffCapture b (latch tx b s) := by
  have hl := latch_captures tx b s
  rw [h, capture, if_pos rfl] at hl
  exact (beforeCapture_offCapture b s).trans hl

/-- The first raise of class WARN or worse fills the capture. -/
theorem latch_fills {b : Blk} {s : Nat} (hs : s < 2048) (hc : (evGet b s).cls < 8) (h : (evGet b s).cls ≠ 0)
    (hv : flag b Reg.FCAP.STAT.VALID = false) : let c := latch none b s
    flag c Reg.FCAP.STAT.VALID = true ∧ getF c Reg.FCAP.SRC.SOURCE = s ∧ getF c Reg.FCAP.SRC.CLASS = (evGet b s).cls ∧
      getF c Reg.FCAP.SRC.MASTER = 7 ∧ getF c Reg.FCAP.SRC.ACCESS = 0 ∧ getF c Reg.FCAP.ADDR.ADDR = 0 := by
  intro c
  have hl := latch_captures none b s
  have hd := beforeCapture_offCapture b s
  generalize beforeCapture b s = d at hl hd
  have hvd : ¬ flag d Reg.FCAP.STAT.VALID = true := by rw [flag, hd _ (by decide), ← flag, hv]; decide
  rw [capture, if_neg h, if_neg hvd] at hl
  refine ⟨?_, ?_, ?_, ?_, ?_, ?_⟩
  · rw [flag, hl _ (by decide)]
    simp (disch := decide) only [setFlag, getF_setF_ne, getF_setF_same]
    rfl
  all_goals
    rw [hl _ (by decide)]
    simp (disch := decide) only [setFlag, getF_setF_ne, getF_setF_same]
  · exact Nat.mod_eq_of_lt hs
  · exact Nat.mod_eq_of_lt hc
  all_goals rfl

/-- What a merged raise shows beside its group, which stands in `g`. -/
theorem merged_shows {b c : Blk} {g : Fld} {v : Nat} (hg : g = Reg.FCAP.MERGED_GRP0.GROUPS ∨ g = Reg.FCAP.MERGED_GRP1.GROUPS)
    (h : OffCapture (setF g v (incF Reg.FCAP.STAT.MERGE_CNT (setFlag Reg.FCAP.STAT.MERGED true b))) c) :
    flag c Reg.FCAP.STAT.MERGED = true ∧ getF c Reg.FCAP.STAT.MERGE_CNT = min 65535 (getF b Reg.FCAP.STAT.MERGE_CNT + 1) ∧
      getF c Reg.FCAP.SRC.SOURCE = getF b Reg.FCAP.SRC.SOURCE ∧ getF c Reg.FCAP.SRC.CLASS = getF b Reg.FCAP.SRC.CLASS ∧
      getF c g = v % 2 ^ g.wid := by
  have counts : satInc (2 ^ 16 - 1) (getF b Reg.FCAP.STAT.MERGE_CNT) % 2 ^ 16 = min 65535 (getF b Reg.FCAP.STAT.MERGE_CNT + 1) := by
    rw [satInc_eq_min]
    omega
  have all (f : Fld) (hf : f.key / 131072 = 0x12) := h f hf
  rw [flag]
  rcases hg with rfl | rfl
  all_goals
    rw [all _ (by decide), all _ (by decide), all _ (by decide), all _ (by decide), all _ (by decide)]
    simp (disch := decide) only [setFlag, incF, getF_setF_ne, getF_setF_same]
    exact ⟨rfl, counts, trivial, trivial, trivial⟩

/-- A later one merges into it. -/
theorem latch_merges {b : Blk} {s : Nat} (h : (evGet b s).cls ≠ 0) (hv : flag b Reg.FCAP.STAT.VALID = true) :
    let c := latch none b s
    flag c Reg.FCAP.STAT.MERGED = true ∧ getF c Reg.FCAP.STAT.MERGE_CNT = min 65535 (getF b Reg.FCAP.STAT.MERGE_CNT + 1) ∧
      getF c Reg.FCAP.SRC.SOURCE = getF b Reg.FCAP.SRC.SOURCE ∧ getF c Reg.FCAP.SRC.CLASS = getF b Reg.FCAP.SRC.CLASS ∧
      (s < 1024 → getF c Reg.FCAP.MERGED_GRP0.GROUPS = (getF b Reg.FCAP.MERGED_GRP0.GROUPS ||| 2 ^ (s / 32)) % 2 ^ 32) ∧
      (1024 ≤ s → getF c Reg.FCAP.MERGED_GRP1.GROUPS = (getF b Reg.FCAP.MERGED_GRP1.GROUPS ||| 2 ^ (s / 32 - 32)) % 16) := by
  intro c
  have hl := latch_captures none b s
  have hd := beforeCapture_offCapture b s
  generalize beforeCapture b s = d at hl hd
  have hvd : flag d Reg.FCAP.STAT.VALID = true := by rw [flag, hd _ (by decide), ← flag, hv]
  rw [capture, if_neg h, if_pos hvd] at hl
  rw [← hd Reg.FCAP.STAT.MERGE_CNT (by decide), ← hd Reg.FCAP.SRC.SOURCE (by decide), ← hd Reg.FCAP.SRC.CLASS (by decide),
    ← hd Reg.FCAP.MERGED_GRP0.GROUPS (by decide), ← hd Reg.FCAP.MERGED_GRP1.GROUPS (by decide)]
  by_cases hg : s / 32 < 32
  · simp only [hg, if_true] at hl
    obtain ⟨h1, h2, h3, h4, h5⟩ := merged_shows (.inl rfl) hl
    refine ⟨h1, h2, h3, h4, fun _ => h5.trans ?_, fun _ => by omega⟩
    simp (disch := decide) only [setFlag, incF, getF_setF_ne]
    rfl
  · simp only [hg, if_false] at hl
    obtain ⟨h1, h2, h3, h4, h5⟩ := merged_shows (.inr rfl) hl
    refine ⟨h1, h2, h3, h4, fun _ => by omega, fun _ => h5.trans ?_⟩
    simp (disch := decide) only [setFlag, incF, getF_setF_ne]
    rfl

end Sys2Proof.Machine

open Sys2Proof Sys2Proof.Machine

/-- Settles O41: a mild raise latches its source alone, and the capture by the class and by what stands in it. -/
theorem raisesAreLatchedCountedAndCaptured : Obligations.RaisesAreLatchedCountedAndCaptured := by
  unfold Obligations.RaisesAreLatchedCountedAndCaptured
  intro b x hx h r c
  have hc : c = latch none b x := h.raised (List.mem_singleton.2 rfl)
  have mild : r.cls < 3 := h.1 x (List.mem_singleton.2 rfl)
  refine ⟨?_, fun y hy => ?_, h.Raised (List.mem_singleton.2 rfl), fun f hf h0 => ?_, fun h0 hv => ?_, fun h0 hv => ?_⟩
  · rw [hc, evGet_latch, if_pos rfl, satInc_eq_min]
  · rw [hc, evGet_latch, if_neg hy]
  · rw [hc]
    exact latch_info none h0 f hf
  · rw [hc]
    exact latch_fills (by omega) (Nat.lt_trans mild (by decide)) h0 hv
  · rw [hc]
    exact latch_merges h0 hv
end

section
/-!
PROOF. The registers that a raise can write, whatever it reacts with: every other field reads as before, in every mode. What it
makes of the mode in BOOT is said here too.
-/
set_option autoImplicit false

namespace Sys2Proof.Machine

/-! ### The fields that a raise can write (R347 to R354, R453, R454) -/

/-- The fields of the capture, of the NVM's state, of messages and telemetry, of the queue and of the mode. -/
def raiseFields : List Fld :=
  [Reg.FCAP.STAT.VALID, Reg.FCAP.STAT.MERGED, Reg.FCAP.STAT.MERGE_CNT, Reg.FCAP.SRC.SOURCE, Reg.FCAP.SRC.CLASS, Reg.FCAP.SRC.MASTER,
   Reg.FCAP.SRC.ACCESS, Reg.FCAP.ADDR.ADDR, Reg.FCAP.T_NS.NS, Reg.FCAP.T_SLO.SEC, Reg.FCAP.T_SHI.SEC, Reg.FCAP.MERGED_GRP0.GROUPS,
   Reg.FCAP.MERGED_GRP1.GROUPS, Reg.PCIE.MSIX_PBA.W 0, Reg.PCIE.MSIX_PBA.W 1, Reg.NVM.STAT.BUSY, Reg.ETH.CNT_DROP.TELEM 0,
   Reg.ETH.CNT_DROP.TELEM 1, Reg.PCIE.CPL_STAT.LOST, Reg.SEQ.STAT.ARMED, Reg.PLAN.STAT.WAIT, Reg.PLAN.STAT.BUSY, Reg.ROUTE.STAT.BUSY,
   Reg.SCHED.STAT.QUEUED, Reg.GLEW.LAST_RES.CODE, Reg.GLEW.LAST_RES.MEMBER, Reg.GLEW.LAST_RES.RESULT, Reg.GLEW.LAST_2PC.SEQ,
   Reg.SYS.MSTAT.REQ_DROP, Reg.SYS.MSTAT.PREV, Reg.SYS.MODE_CNT.COUNT, Reg.SYS.FREEZE.HELD, Reg.SYS.BOOT_STAT.RESULT,
   Reg.ACQ.RUN.RUN]

/-- Every field but those reads as before. -/
def RaiseWrites (b c : Blk) : Prop := KeepsRegsBut raiseFields b c

section
variable {b c d : Blk}

theorem RaiseWrites.refl (b : Blk) : RaiseWrites b b := fun _ _ => rfl

theorem RaiseWrites.trans (h : RaiseWrites b c) (g : RaiseWrites c d) : RaiseWrites b d := fun f hf => (g f hf).trans (h f hf)

theorem RaiseWrites.of_regs (h : c.regs = b.regs) : RaiseWrites b c := fun f _ => getF_of_regs h f

theorem RaiseWrites.ite (p : Prop) [Decidable p] (h : RaiseWrites b c) (g : RaiseWrites b d) : RaiseWrites b (if p then c else d) := by
  split
  · exact h
  · exact g

theorem setF_raiseWrites (g : Fld) (v : Nat) (b : Blk) (h : g.key ∈ raiseFields.map Fld.key) : RaiseWrites b (setF g v b) :=
  fun _ hf => getF_setF_ne _ _ _ _ fun hk => hf (hk ▸ h)

theorem foldl_raiseWrites {α : Type} (l : List α) (g : Blk → α → Blk) (b : Blk) (h : ∀ b x, RaiseWrites b (g b x)) :
    RaiseWrites b (l.foldl g b) := by
  induction l generalizing b with
  | nil => exact .refl b
  | cons x t ih => exact (h b x).trans (ih _)

end

/-! ### Latching -/

theorem telem_raiseField (p : Fin 2) : (Reg.ETH.CNT_DROP.TELEM p.val).key ∈ raiseFields.map Fld.key := by
  revert p
  decide

theorem msixPba_raiseField (v : Nat) : (Reg.PCIE.MSIX_PBA.W (v % 2)).key ∈ raiseFields.map Fld.key := by
  rcases Nat.mod_two_eq_zero_or_one v with h | h <;> rw [h] <;> decide

theorem signalVec_raiseWrites (v : Nat) (b : Blk) : RaiseWrites b (signalVec v b) := by
  have signalled (b : Blk) : RaiseWrites b (signalMsix v b) := .ite _ (setF_raiseWrites _ _ _ (msixPba_raiseField _)) (.of_regs rfl)
  exact .ite _ (RaiseWrites.trans (.of_regs rfl) (signalled _)) (.ite _ (.refl b) (.of_regs rfl))

theorem nvmRecord_raiseWrites (k s c d : Nat) (b : Blk) : RaiseWrites b (nvmRecord k s c d b) :=
  RaiseWrites.trans (.of_regs rfl) (setF_raiseWrites Reg.NVM.STAT.BUSY 1 _ (by decide))

theorem capture_raiseWrites (s c : Nat) (tx : Option (Nat × Nat × Nat)) (b : Blk) : RaiseWrites b (capture s c tx b) := by
  intro f hf
  simp only [raiseFields, List.map_cons, List.mem_cons, not_or] at hf
  unfold capture
  dsimp only
  repeat' split
  all_goals simp [setFlag, incF, getF_setF_ne, hf]

theorem tellEvent_raiseWrites (ws : List Word) (x : List Sub × Blk) (s : Sub) : RaiseWrites x.2 (tellEvent ws x s).2 := by
  unfold tellEvent
  dsimp only
  repeat' split
  · exact .of_regs rfl
  · exact setF_raiseWrites _ _ _ (telem_raiseField _)
  · exact .of_regs rfl
  · exact setF_raiseWrites _ _ _ (telem_raiseField _)
  · exact .refl _

theorem announceEvent_raiseWrites (s c : Nat) (b : Blk) : RaiseWrites b (announceEvent s c b) := by
  have told (ws : List Word) (l : List Sub) (x : List Sub × Blk) : RaiseWrites x.2 (l.foldl (tellEvent ws) x).2 := by
    induction l generalizing x with
    | nil => exact .refl _
    | cons y t ih => exact (tellEvent_raiseWrites ws x y).trans (ih _)
  refine .ite _ (.refl b) (.ite _ ?_ ?_)
  · exact ((told _ b.eth.subs ([], b)).trans (.of_regs rfl)).trans (.of_regs (sendCell_regs _ _ _ _ _ _ _))
  · exact (told _ b.eth.subs ([], b)).trans (.of_regs rfl)

theorem latch_raiseWrites (tx : Option (Nat × Nat × Nat)) (b : Blk) (s : Nat) : RaiseWrites b (latch tx b s) := by
  have latched (r : EvRec) : RaiseWrites b (trigOnce (b.now + 1) 5 s (evSet s r b)) := .of_regs (trigOnce_regs _ _ _ _)
  have logged (p : Prop) [Decidable p] (c : Blk) :
      RaiseWrites c (if p then nvmRecord 6 s (evGet b s).cls 0 { c with ev := { c.ev with lastLog := some c.q } } else c) :=
    .ite p (RaiseWrites.trans (.of_regs rfl) (nvmRecord_raiseWrites _ _ _ _ _)) (.refl c)
  exact (((RaiseWrites.ite _ ((latched _).trans (signalVec_raiseWrites _ _)) (latched _)).trans
    (capture_raiseWrites _ _ _ _)).trans (logged _ _)).trans (announceEvent_raiseWrites _ _ _)

theorem latches_raiseWrites (tx : Option (Nat × Nat × Nat)) (ss : List Nat) (b : Blk) : RaiseWrites b (ss.foldl (latch tx) b) :=
  foldl_raiseWrites _ _ _ fun b s => latch_raiseWrites tx b s

/-! ### Withdrawing and changing the mode -/

theorem postRecord_raiseWrites (ring : Bool) (peer : Option Peer) (msg : Word) (ws : List Word) (b : Blk) :
    RaiseWrites b (postRecord ring peer msg ws b) := by
  unfold postRecord
  refine (RaiseWrites.trans (c := addCpl ring ws b) ?_ ?_).trans (foldl_raiseWrites _ _ _ fun b s => .ite _ (.of_regs rfl) (.refl b))
  · refine .ite _ (.of_regs rfl) ?_
    exact (setF_raiseWrites Reg.PCIE.CPL_STAT.LOST _ b (by decide)).trans (.of_regs rfl)
  · cases peer
    · exact .refl _
    · exact .of_regs rfl

theorem sendUp3_raiseWrites (typ : Nat) (seq : Word) (ws : List Word) (b : Blk) : RaiseWrites b (sendUp3 typ seq ws b) :=
  foldl_raiseWrites _ _ _ fun _ _ => .of_regs (sendCell_regs _ _ _ _ _ _ _)

theorem sendDown3_raiseWrites (typ : Nat) (seq : Word) (ws : List Word) (b : Blk) : RaiseWrites b (sendDown3 typ seq ws b) := by
  unfold sendDown3
  exact RaiseWrites.trans (.of_regs rfl) (foldl_raiseWrites _ _ _ fun _ _ => .of_regs (sendCell_regs _ _ _ _ _ _ _))

theorem show2pc_raiseWrites (seq : Word) (res member code : Nat) (b : Blk) : RaiseWrites b (show2pc seq res member code b) :=
  (((setF_raiseWrites _ _ _ (by decide)).trans (setF_raiseWrites _ _ _ (by decide))).trans (setF_raiseWrites _ _ _ (by decide))).trans
    (setF_raiseWrites _ _ _ (by decide))

theorem showQueue_raiseWrites (b : Blk) : RaiseWrites b (showQueue b) :=
  (((setF_raiseWrites _ _ _ (by decide)).trans (setF_raiseWrites _ _ _ (by decide))).trans (setF_raiseWrites _ _ _ (by decide))).trans
    (setF_raiseWrites _ _ _ (by decide))

theorem dropFrame_raiseWrites (i c : Nat) (b : Blk) : RaiseWrites b (dropFrame i c b) := by
  unfold dropFrame
  split
  · exact .refl b
  · refine RaiseWrites.trans (c := { b with sched := { b.sched with queue := b.sched.queue.eraseIdx i } }) (.of_regs rfl) ?_
    dsimp only
    split
    · exact sendUp3_raiseWrites _ _ _ _
    · exact postRecord_raiseWrites _ _ _ _ _

theorem disarm_raiseWrites (b : Blk) : RaiseWrites b (disarm b) :=
  (setF_raiseWrites Reg.SEQ.STAT.ARMED 0 b (by decide)).trans (.of_regs (clearArms_regs _))

theorem withdrawAll_raiseWrites (b : Blk) : RaiseWrites b (withdrawAll b) := by
  unfold withdrawAll withdrawFrom
  split
  · exact .refl b
  · next f rest _ =>
    have disarmed (p : Prop) [Decidable p] : RaiseWrites b (if p then disarm b else b) := .ite p (disarm_raiseWrites b) (.refl b)
    have aborted (p : Prop) [Decidable p] (c : Blk) :
        RaiseWrites c (if p then show2pc f.seq 2 0 0 (sendDown3 9 f.seq [f.seq] c) else c) :=
      .ite p ((sendDown3_raiseWrites 9 f.seq [f.seq] c).trans (show2pc_raiseWrites f.seq 2 0 0 _)) (.refl c)
    exact ((((disarmed _).trans (aborted _ _)).trans (dropFrame_raiseWrites _ _ _)).trans
      (foldl_raiseWrites _ _ _ fun _ _ => dropFrame_raiseWrites _ _ _)).trans (showQueue_raiseWrites _)

theorem dropReq_raiseWrites (b : Blk) : RaiseWrites b (dropReq b) :=
  .ite _ (setF_raiseWrites Reg.SYS.MSTAT.REQ_DROP 1 { b with sys := { b.sys with req := none, shutClr := false } } (by decide)) (.refl b)

theorem emptyFreeze_raiseWrites (b : Blk) : RaiseWrites b (emptyFreeze b) :=
  RaiseWrites.trans (.of_regs (updElems_regs _ _ _)) (setF_raiseWrites Reg.SYS.FREEZE.HELD 0 _ (by decide))

theorem setMode_raiseWrites (m : Mode) (b : Blk) : RaiseWrites b (setMode m b) :=
  .ite _ (.refl b) (((setF_raiseWrites Reg.SYS.MSTAT.PREV _ b (by decide)).trans
    (setF_raiseWrites Reg.SYS.MODE_CNT.COUNT _ _ (by decide))).trans (.of_regs rfl))

theorem enterMode_raiseWrites (m : Mode) (b : Blk) : RaiseWrites b (enterMode m b) :=
  (RaiseWrites.ite _ ((withdrawAll_raiseWrites b).trans (emptyFreeze_raiseWrites _)) (.refl b)).trans (setMode_raiseWrites m _)

theorem clearBanks_raiseWrites (b : Blk) : RaiseWrites b (clearBanks b) := .of_regs (clearBanks_regs b)

theorem lifeAdd_raiseWrites (w n : Nat) (b : Blk) : RaiseWrites b (lifeAdd w n b) := .of_regs rfl

theorem nvmCounters_raiseWrites (b : Blk) : RaiseWrites b (nvmCounters b) :=
  RaiseWrites.trans (.of_regs rfl) (setF_raiseWrites Reg.NVM.STAT.BUSY 1 _ (by decide))

theorem halted_raiseWrites (b : Blk) : RaiseWrites b (clearBanks (withdrawAll (dropReq b))) :=
  ((dropReq_raiseWrites b).trans (withdrawAll_raiseWrites _)).trans (clearBanks_raiseWrites _)

theorem safeActions_raiseWrites (b : Blk) : RaiseWrites b (safeActions b) := by
  unfold safeActions
  split
  · split
    · exact clearBanks_raiseWrites b
    · exact .refl b
  · exact ((halted_raiseWrites b).trans (enterMode_raiseWrites .safe _)).trans (lifeAdd_raiseWrites _ _ _)

theorem shutdownActions_raiseWrites (s : Nat) (b : Blk) : RaiseWrites b (shutdownActions s b) := by
  unfold shutdownActions
  split
  · exact .refl b
  · have abandoned (p : Prop) [Decidable p] : RaiseWrites b (if p then setF Reg.SYS.BOOT_STAT.RESULT 4 b else b) :=
      .ite p (setF_raiseWrites _ _ _ (by decide)) (.refl b)
    have recorded (c : Blk) (n : Nat) : RaiseWrites c (enterMode .shutdown (nvmCounters (nvmRecord 1 s 4 n (lifeAdd 4 1 c)))) :=
      (((lifeAdd_raiseWrites 4 1 c).trans (nvmRecord_raiseWrites 1 s 4 n _)).trans (nvmCounters_raiseWrites _)).trans
        (enterMode_raiseWrites .shutdown _)
    have stopped (c : Blk) : RaiseWrites c { setF Reg.ACQ.RUN.RUN 0 c with acq := { c.acq with runReq := some false } } :=
      (setF_raiseWrites Reg.ACQ.RUN.RUN 0 c (by decide)).trans (.of_regs rfl)
    exact (((abandoned _).trans (halted_raiseWrites _)).trans (recorded _ _)).trans (stopped _)

/-! ### A raise -/

theorem react_raiseWrites (c first : Nat) (b : Blk) : RaiseWrites b (react c first b) :=
  .ite _ (shutdownActions_raiseWrites first b) (.ite _ (safeActions_raiseWrites b) (.refl b))

theorem raiseTx_raiseWrites (ss : List Nat) (tx : Option (Nat × Nat × Nat)) (b : Blk) : RaiseWrites b (raiseTx ss tx b) := by
  unfold raiseTx
  exact .ite _ (.refl b) (((latches_raiseWrites tx _ b).trans (react_raiseWrites _ _ _)).trans (latches_raiseWrites none _ _))

theorem raiseAll_raiseWrites (ss : List Nat) (b : Blk) : RaiseWrites b (raiseAll ss b) :=
  (raiseTx_raiseWrites ss none b).trans (RaiseWrites.trans (.of_regs rfl) (raiseTx_raiseWrites _ none _))

/-- A raise, whatever it reacts with, writes no other field. -/
theorem raise_raiseWrites (s : Nat) (b : Blk) : RaiseWrites b (raise s b) := raiseAll_raiseWrites [s] b

/-! ### A raise in BOOT (R453) -/

/-- BOOT, or SHUTDOWN out of it. -/
def Booting (b : Blk) : Prop := b.sys.mode = .boot ∨ b.sys.mode = .shutdown

theorem react_booting {b : Blk} (c first : Nat) (h : Booting b) : Booting (react c first b) := by
  unfold react
  split
  · rcases h with h | h
    · exact .inr (shutdownActions_enters first b (by simp [h])).1
    · rw [shutdownActions_stays first b h]
      exact .inr h
  · split
    · rw [safeActions_stays b (by rcases h with h | h <;> simp [h])]
      exact h
    · exact h

theorem raiseTx_booting {b : Blk} (ss : List Nat) (tx : Option (Nat × Nat × Nat)) (h : Booting b) : Booting (raiseTx ss tx b) := by
  by_cases hs : ss = []
  · rwa [raiseTx, if_pos hs]
  · obtain ⟨c, more, first, hc, -, he⟩ := raiseTx_reacts ss tx b hs
    have hb : Booting c := by rwa [Booting, hc.keepsBanks.sys]
    rw [he, Booting, (latches_only none more _).keepsBanks.sys]
    exact react_booting _ first hb

/-- A raise in BOOT leaves BOOT for nothing but SHUTDOWN. -/
theorem raise_booting {b : Blk} (s : Nat) (h : Booting b) : Booting (raise s b) := by
  have raised : Booting (raiseTx [s] none b) := raiseTx_booting [s] none h
  exact raiseTx_booting (b := { raiseTx [s] none b with ev := { (raiseTx [s] none b).ev with late := [] } }) _ none raised

end Sys2Proof.Machine
end

section
/-!
PROOF. An engine that fails (R363 to R366): which registers say so, and that a mild raise behind it changes none of them.
-/
set_option autoImplicit false

namespace Sys2Proof.Machine

/-! ### The registers of engines -/

/-- The fields that show the pool. -/
def poolFields : List Fld := [Reg.ENG.POOL.AVAIL, Reg.ENG.POOL.FAILED]

theorem getF_showPool {b : Blk} {f : Fld} (hf : f.key ∉ poolFields.map Fld.key) : getF (showPool b) f = getF b f := by
  simp only [poolFields, List.map_cons, List.map_nil, List.mem_cons, List.not_mem_nil, or_false, not_or] at hf
  rw [showPool, getF_setF_ne _ _ _ _ hf.1, getF_setF_ne _ _ _ _ hf.2]

/-- Field `f` stands in the registers HEALTH or CHK_STAT of engine `e` (R366). -/
def OfEngine (e : Nat) (f : Fld) : Prop := f.key / 131072 = 0x20 + e ∧ (f.key % 131072 / 32 = 0x8C ∨ f.key % 131072 / 32 = 0x80)

/-- A field of an engine's page is apart from what raises write. -/
theorem apart_of_page {e : Nat} {f : Fld} (hp : f.key / 131072 = 0x20 + e) : f.apart := by
  refine ⟨?_, ?_, ?_⟩
  · rw [hp]
    simp
    omega
  · intro hk
    rw [hk] at hp
    simp only [Reg.PCIE.MSIX_PBA.W, Fld.mk'] at hp
    omega
  · intro hk
    rw [hk] at hp
    simp only [Reg.PCIE.MSIX_PBA.W, Fld.mk'] at hp
    omega

theorem OfEngine.apart {e : Nat} {f : Fld} (h : OfEngine e f) : f.apart := apart_of_page h.1

theorem OfEngine.notPool {e : Nat} {f : Fld} (h : OfEngine e f) : f.key ∉ poolFields.map Fld.key := by
  obtain ⟨-, ho⟩ := h
  intro hk
  simp only [poolFields, List.map_cons, List.map_nil, List.mem_cons, List.not_mem_nil, or_false] at hk
  rcases hk with hk | hk <;> rw [hk] at ho <;> simp only [Reg.ENG.POOL.AVAIL, Reg.ENG.POOL.FAILED, Fld.mk'] at ho <;> omega

section
variable (e : Nat)

theorem ofEngine_failed : OfEngine e (Reg.ENG.HEALTH.FAILED e) := by
  simp only [OfEngine, Reg.ENG.HEALTH.FAILED, Fld.mk']
  omega

theorem ofEngine_cause : OfEngine e (Reg.ENG.HEALTH.CAUSE e) := by
  simp only [OfEngine, Reg.ENG.HEALTH.CAUSE, Fld.mk']
  omega

theorem ofEngine_passes : OfEngine e (Reg.ENG.HEALTH.PASSES e) := by
  simp only [OfEngine, Reg.ENG.HEALTH.PASSES, Fld.mk']
  omega

theorem ofEngine_segment : OfEngine e (Reg.ENG.HEALTH.SEGMENT e) := by
  simp only [OfEngine, Reg.ENG.HEALTH.SEGMENT, Fld.mk']
  omega

theorem ofEngine_role : OfEngine e (Reg.ENG.CHK_STAT.ROLE e) := by
  simp only [OfEngine, Reg.ENG.CHK_STAT.ROLE, Fld.mk']
  omega

theorem ofEngine_of : OfEngine e (Reg.ENG.CHK_STAT.OF e) := by
  simp only [OfEngine, Reg.ENG.CHK_STAT.OF, Fld.mk']
  omega

theorem ofEngine_copy : OfEngine e (Reg.ENG.CHK_STAT.COPY e) := by
  simp only [OfEngine, Reg.ENG.CHK_STAT.COPY, Fld.mk']
  omega

end

/-- What stands in another engine's registers has another key. -/
theorem OfEngine.ne {e k : Nat} {f g : Fld} (hf : OfEngine e f) (hg : OfEngine k g) (h : e ≠ k) : f.key ≠ g.key := by
  intro hk
  have he := hf.1
  rw [hk, hg.1] at he
  omega

/-! ### Roles -/

theorem getF_setRole {e k role of : Nat} {copy : Bool} {b : Blk} {f : Fld} (hf : OfEngine k f) (h : k ≠ e) :
    getF (setRole e role of copy b) f = getF b f := by
  rw [setRole, setFlag, getF_setF_ne _ _ _ _ (hf.ne (ofEngine_copy e) h), getF_setF_ne _ _ _ _ (hf.ne (ofEngine_of e) h),
    getF_setF_ne _ _ _ _ (hf.ne (ofEngine_role e) h)]

theorem role_keys (e : Nat) : (Reg.ENG.CHK_STAT.ROLE e).key ≠ (Reg.ENG.CHK_STAT.OF e).key ∧
    (Reg.ENG.CHK_STAT.ROLE e).key ≠ (Reg.ENG.CHK_STAT.COPY e).key ∧ (Reg.ENG.CHK_STAT.OF e).key ≠ (Reg.ENG.CHK_STAT.COPY e).key := by
  simp only [Reg.ENG.CHK_STAT.ROLE, Reg.ENG.CHK_STAT.OF, Reg.ENG.CHK_STAT.COPY, Fld.mk']
  omega

/-- What CHK_STAT of an engine shows after its role is set (R366). -/
theorem setRole_shows (e role of : Nat) (copy : Bool) (b : Blk) : roleOf (setRole e role of copy b) e = role % 8 ∧
    getF (setRole e role of copy b) (Reg.ENG.CHK_STAT.OF e) = of % 128 ∧
    flag (setRole e role of copy b) (Reg.ENG.CHK_STAT.COPY e) = copy := by
  obtain ⟨hro, hrc, hoc⟩ := role_keys e
  refine ⟨?_, ?_, ?_⟩
  · rw [roleOf, setRole, setFlag, getF_setF_ne _ _ _ _ hrc, getF_setF_ne _ _ _ _ hro, getF_setF_same]
    rfl
  · rw [setRole, setFlag, getF_setF_ne _ _ _ _ hoc, getF_setF_same]
    rfl
  · rw [flag, setRole, setFlag, getF_setF_same]
    cases copy <;> rfl

/-- HEALTH of an engine stays as its role is set. -/
theorem getF_setRole_health {e role of : Nat} {copy : Bool} {b : Blk} {f : Fld} (hf : f.key % 131072 / 32 ≠ 0x80) :
    getF (setRole e role of copy b) f = getF b f := by
  have other (g : Fld) (hg : OfEngine e g) (h80 : g.key % 131072 / 32 = 0x80) : f.key ≠ g.key := fun hk => hf (hk ▸ h80)
  have at80 : (Reg.ENG.CHK_STAT.COPY e).key % 131072 / 32 = 0x80 ∧ (Reg.ENG.CHK_STAT.OF e).key % 131072 / 32 = 0x80 ∧
      (Reg.ENG.CHK_STAT.ROLE e).key % 131072 / 32 = 0x80 := by
    simp only [Reg.ENG.CHK_STAT.COPY, Reg.ENG.CHK_STAT.OF, Reg.ENG.CHK_STAT.ROLE, Fld.mk']
    omega
  rw [setRole, setFlag, getF_setF_ne _ _ _ _ (other _ (ofEngine_copy e) at80.1), getF_setF_ne _ _ _ _ (other _ (ofEngine_of e) at80.2.1),
    getF_setF_ne _ _ _ _ (other _ (ofEngine_role e) at80.2.2)]

/-! ### An engine that fails (R363, R364, R366) -/

/-- The engine's registers as it fails. -/
def shownFailed (e cause : Nat) (b : Blk) : Blk :=
  setRole e 4 0 false (setF (Reg.ENG.HEALTH.CAUSE e) cause (setFlag (Reg.ENG.HEALTH.FAILED e) true b))

/-- The same with the failure counted and, of a standby, recorded in the NVM (R369, R371). -/
def recordedFailure (e cause : Nat) (b : Blk) : Blk :=
  let c := lifeAdd 10 1 (shownFailed e cause b)
  if !serving b e then nvmRecord 5 (8 * e + 5) (evGet c (8 * e + 5)).cls (e + cause * 128) c else c

theorem failEngine_eq (e cause : Nat) (b : Blk) : failEngine e cause b = showPool (raise (8 * e + 5) (recordedFailure e cause b)) := rfl

theorem recordedFailure_only (e cause : Nat) (b : Blk) : EventOnly (shownFailed e cause b) (recordedFailure e cause b) := by
  have lived (c : Blk) : EventOnly c (lifeAdd 10 1 c) := ⟨_, _, _, _, _, _, _, rfl, rfl, fun _ _ => rfl⟩
  unfold recordedFailure
  dsimp only
  split
  · exact (lived _).trans (nvmRecord_only _ _ _ _ _)
  · exact lived _

theorem nvmRecord_ev (k s c d : Nat) (b : Blk) : (nvmRecord k s c d b).ev = b.ev := rfl

theorem shownFailed_ev (e cause : Nat) (b : Blk) : (shownFailed e cause b).ev = b.ev := by
  simp only [shownFailed, setRole, setFlag, setF_ev]

theorem recordedFailure_ev (e cause : Nat) (b : Blk) : (recordedFailure e cause b).ev = b.ev := by
  unfold recordedFailure
  dsimp only
  split
  · rw [nvmRecord_ev, lifeAdd_ev, shownFailed_ev]
  · rw [lifeAdd_ev, shownFailed_ev]

section
variable {b : Blk} {ss : List Nat} {e : Nat} (cause : Nat)

theorem failEngine_shows (h : b.mild ss) (hs : 8 * e + 5 ∈ ss) :
    ∃ c, failEngine e cause b = showPool c ∧ EventOnly (shownFailed e cause b) c ∧ c.mild ss ∧
      (evGet c (8 * e + 5)).latch = true := by
  have mild : (recordedFailure e cause b).mild ss := h.of_ev (recordedFailure_ev e cause b)
  exact ⟨_, failEngine_eq e cause b, (recordedFailure_only e cause b).trans (mild.only hs), mild.raise hs, raise_latches _ _⟩

theorem failEngine_mild (h : b.mild ss) (hs : 8 * e + 5 ∈ ss) : (failEngine e cause b).mild ss := by
  obtain ⟨c, hc, -, hm, -⟩ := failEngine_shows cause h hs
  rw [hc]
  exact hm.of_ev rfl

theorem failEngine_sys (h : b.mild ss) (hs : 8 * e + 5 ∈ ss) : (failEngine e cause b).sys = b.sys := by
  obtain ⟨c, hc, ho, -, -⟩ := failEngine_shows cause h hs
  rw [hc]
  exact ho.keepsBanks.sys

/-- Every engine's registers are as the failure shows them. -/
theorem getF_failEngine {k : Nat} {f : Fld} (h : b.mild ss) (hs : 8 * e + 5 ∈ ss) (hf : OfEngine k f) :
    getF (failEngine e cause b) f = getF (shownFailed e cause b) f := by
  obtain ⟨c, hc, ho, -, -⟩ := failEngine_shows cause h hs
  rw [hc, getF_showPool hf.notPool, ho.getF f hf.apart]

theorem getF_shownFailed {k : Nat} {f : Fld} (hf : OfEngine k f) (hk : k ≠ e) : getF (shownFailed e cause b) f = getF b f := by
  rw [shownFailed, getF_setRole hf hk, getF_setF_ne _ _ _ _ (hf.ne (ofEngine_cause e) hk), setFlag,
    getF_setF_ne _ _ _ _ (hf.ne (ofEngine_failed e) hk)]

/-- What the failed engine's own registers show. -/
theorem shownFailed_shows : failedEng (shownFailed e cause b) e = true ∧
    getF (shownFailed e cause b) (Reg.ENG.HEALTH.CAUSE e) = cause % 4 ∧ roleOf (shownFailed e cause b) e = 4 := by
  have health : (Reg.ENG.HEALTH.FAILED e).key % 131072 / 32 ≠ 0x80 ∧ (Reg.ENG.HEALTH.CAUSE e).key % 131072 / 32 ≠ 0x80 ∧
      (Reg.ENG.HEALTH.FAILED e).key ≠ (Reg.ENG.HEALTH.CAUSE e).key := by
    simp only [Reg.ENG.HEALTH.FAILED, Reg.ENG.HEALTH.CAUSE, Fld.mk']
    omega
  refine ⟨?_, ?_, (setRole_shows e 4 0 false _).1⟩
  · rw [failedEng, flag, shownFailed, getF_setRole_health health.1, getF_setF_ne _ _ _ _ health.2.2, setFlag, getF_setF_same]
    rfl
  · rw [shownFailed, getF_setRole_health health.2.1, getF_setF_same]
    rfl

/-- An engine that fails shows it, with its cause and the role FAILED. -/
theorem failEngine_fails (h : b.mild ss) (hs : 8 * e + 5 ∈ ss) : failedEng (failEngine e cause b) e = true ∧
    getF (failEngine e cause b) (Reg.ENG.HEALTH.CAUSE e) = cause % 4 ∧ roleOf (failEngine e cause b) e = 4 ∧
    (evGet (failEngine e cause b) (8 * e + 5)).latch = true := by
  obtain ⟨hfail, hcause, hrole⟩ := shownFailed_shows (b := b) (e := e) cause
  obtain ⟨c, hc, -, -, hl⟩ := failEngine_shows cause h hs
  refine ⟨?_, ?_, ?_, ?_⟩
  · rw [failedEng, flag, getF_failEngine cause h hs (ofEngine_failed e)]
    exact hfail
  · rw [getF_failEngine cause h hs (ofEngine_cause e), hcause]
  · rw [roleOf, getF_failEngine cause h hs (ofEngine_role e)]
    exact hrole
  · rw [hc]
    exact hl

end

end Sys2Proof.Machine
end

section
/-!
PROOF. The self-test of BOOT (O56, R366): engine by engine, then the servers of the logical engines, with the same registers kept.
-/
set_option autoImplicit false

namespace Sys2Proof.Machine

/-! ### One engine (R366) -/

theorem getF_incF_same (f : Fld) (b : Blk) : getF (incF f b) f = satInc (2 ^ f.wid - 1) (getF b f) := by
  rw [incF, getF_setF_same, satInc_eq_min]
  have := Nat.two_pow_pos f.wid
  exact Nat.mod_eq_of_lt (by omega)

/-- The block on which an engine that did not pass fails: its segment stands. -/
def segmentShown (e : Nat) (b : Blk) : Blk :=
  setF (Reg.ENG.HEALTH.SEGMENT e) (takeFree b).1.toNat (takeFree b).2

theorem getF_segmentShown {e k : Nat} {f : Fld} {b : Blk} (hf : OfEngine k f) (hk : k ≠ e) :
    getF (segmentShown e b) f = getF b f :=
  getF_setF_ne _ _ _ _ (hf.ne (ofEngine_segment e) hk)

section
variable {failed : List (Fin 68)} {b : Blk} {ss : List Nat} {e : Nat}

theorem bootTest_failed (he : (failed.any fun x => x.val == e) = true) : bootTest failed e b = failEngine e 3 (segmentShown e b) :=
  if_pos he

theorem bootTest_passed (he : (failed.any fun x => x.val == e) = false) : bootTest failed e b = incF (Reg.ENG.HEALTH.PASSES e) b :=
  if_neg (by simp [he])

theorem source_of_any (he : (failed.any fun x => x.val == e) = true) : 8 * e + 5 ∈ failed.map fun x => 8 * x.val + 5 := by
  obtain ⟨x, hx, hxe⟩ := List.any_eq_true.1 he
  exact List.mem_map.2 ⟨x, hx, by rw [beq_iff_eq.1 hxe]⟩

variable (h : b.mild ss) (hss : (failed.map fun x => 8 * x.val + 5) ⊆ ss)
include h hss

theorem bootTest_keeps : (bootTest failed e b).mild ss ∧ (bootTest failed e b).sys = b.sys ∧
    ∀ k f, OfEngine k f → k ≠ e → getF (bootTest failed e b) f = getF b f := by
  cases he : failed.any fun x => x.val == e with
  | true =>
    have hs := hss (source_of_any he)
    have hm : (segmentShown e b).mild ss := h.of_ev rfl
    rw [bootTest_failed he]
    refine ⟨failEngine_mild 3 hm hs, failEngine_sys 3 hm hs, fun k f hf hk => ?_⟩
    rw [getF_failEngine 3 hm hs hf, getF_shownFailed 3 hf hk, getF_segmentShown hf hk]
  | false =>
    rw [bootTest_passed he]
    exact ⟨h.of_ev rfl, rfl, fun k f hf hk => getF_setF_ne _ _ _ _ (hf.ne (ofEngine_passes e) hk)⟩

/-- What the self-test shows of an engine: that and how it failed, or one pass more. -/
theorem bootTest_shows (hf : failedEng b e = false) :
    failedEng (bootTest failed e b) e = failed.any (fun x => x.val == e) ∧
    ((failed.any fun x => x.val == e) = true → getF (bootTest failed e b) (Reg.ENG.HEALTH.CAUSE e) = 3 ∧ roleOf (bootTest failed e b) e = 4) ∧
    ((failed.any fun x => x.val == e) = false → getF (bootTest failed e b) (Reg.ENG.HEALTH.PASSES e) =
      satInc (2 ^ (Reg.ENG.HEALTH.PASSES e).wid - 1) (getF b (Reg.ENG.HEALTH.PASSES e))) := by
  cases he : failed.any fun x => x.val == e with
  | true =>
    rw [bootTest_failed he]
    obtain ⟨hfail, hcause, hrole, -⟩ := failEngine_fails (b := segmentShown e b) 3 (h.of_ev rfl) (hss (source_of_any he))
    exact ⟨hfail, fun _ => ⟨hcause, hrole⟩, fun hn => absurd hn (by decide)⟩
  | false =>
    have apart : (Reg.ENG.HEALTH.FAILED e).key ≠ (Reg.ENG.HEALTH.PASSES e).key := by
      simp only [Reg.ENG.HEALTH.FAILED, Reg.ENG.HEALTH.PASSES, Fld.mk']
      omega
    rw [bootTest_passed he]
    refine ⟨?_, fun hn => absurd hn (by decide), fun _ => getF_incF_same _ _⟩
    rw [failedEng, flag, incF, getF_setF_ne _ _ _ _ apart]
    exact hf

/-! ### All engines -/

/-- After the tests of the engines below `n`, those show their result and the others are as they were. -/
theorem bootTests_show (n : Nat) (hall : ∀ e, e < n → failedEng b e = false) :
    let c := (List.range n).foldl (fun b e => bootTest failed e b) b
    c.mild ss ∧ c.sys = b.sys ∧ (∀ k f, OfEngine k f → n ≤ k → getF c f = getF b f) ∧
    ∀ e, e < n → failedEng c e = failed.any (fun x => x.val == e) ∧
      ((failed.any fun x => x.val == e) = true → getF c (Reg.ENG.HEALTH.CAUSE e) = 3 ∧ roleOf c e = 4) ∧
      ((failed.any fun x => x.val == e) = false → getF c (Reg.ENG.HEALTH.PASSES e) =
        satInc (2 ^ (Reg.ENG.HEALTH.PASSES e).wid - 1) (getF b (Reg.ENG.HEALTH.PASSES e))) := by
  induction n with
  | zero => exact ⟨h, rfl, fun _ _ _ _ => rfl, fun e he => absurd he (Nat.not_lt_zero e)⟩
  | succ n ih =>
    intro d
    obtain ⟨hm, hs, hrest, hdone⟩ := ih fun e he => hall e (Nat.lt_succ_of_lt he)
    generalize hc : (List.range n).foldl (fun b e => bootTest failed e b) b = c at hm hs hrest hdone
    have step : d = bootTest failed n c := by
      show (List.range (n + 1)).foldl _ b = _
      rw [List.range_succ, List.foldl_append, hc]
      rfl
    obtain ⟨hm', hs', hkeep⟩ := bootTest_keeps (e := n) hm hss
    have same (f : Fld) (hf : OfEngine n f) : getF c f = getF b f := hrest n f hf (Nat.le_refl n)
    rw [step]
    refine ⟨hm', hs'.trans hs, fun k f hf hk => ?_, fun e he => ?_⟩
    · rw [hkeep k f hf (by omega), hrest k f hf (by omega)]
    · rcases Nat.lt_succ_iff_lt_or_eq.1 he with hlt | rfl
      · have held (f : Fld) (hf : OfEngine e f) := hkeep e f hf (Nat.ne_of_lt hlt)
        rw [failedEng, flag, roleOf, held _ (ofEngine_failed e), held _ (ofEngine_cause e), held _ (ofEngine_role e),
          held _ (ofEngine_passes e)]
        exact hdone e hlt
      · rw [← same _ (ofEngine_passes e)]
        refine bootTest_shows hm hss ?_
        rw [failedEng, flag, same _ (ofEngine_failed e)]
        exact hall e he

end

/-! ### The servers, and the result -/

/-- From `b` to `c` the registers HEALTH and CHK_STAT of every engine, the modes and the reactions are the same. -/
def SameEngines (b c : Blk) : Prop := (∀ k f, OfEngine k f → getF c f = getF b f) ∧ c.sys = b.sys ∧ c.ev = b.ev

theorem SameEngines.refl (b : Blk) : SameEngines b b := ⟨fun _ _ _ => rfl, rfl, rfl⟩

theorem SameEngines.trans {b c d : Blk} (h : SameEngines b c) (h' : SameEngines c d) : SameEngines b d :=
  ⟨fun k f hf => (h'.1 k f hf).trans (h.1 k f hf), h'.2.1.trans h.2.1, h'.2.2.trans h.2.2⟩

theorem showPool_sameEngines (b : Blk) : SameEngines b (showPool b) := ⟨fun _ _ hf => getF_showPool hf.notPool, rfl, rfl⟩

/-- A logical engine whose server failed waits for a standby, or is shown without one; no engine's HEALTH or CHK_STAT moves. -/
theorem bootMigrate_sameEngines (l : Nat) (b : Blk) : SameEngines b (bootMigrate l b) := by
  have off (e k : Nat) (f : Fld) (hf : OfEngine k f) : f.key ≠ (Fld.mk' (0x20 + e) 0x44 6 1 (if e < 64 then 1 else 0)).key := by
    obtain ⟨hp, ho⟩ := hf
    simp only [Fld.mk']
    omega
  unfold bootMigrate
  split
  · exact .refl b
  · next e _ =>
    split
    · split
      · next n _ => exact SameEngines.trans ⟨fun _ _ _ => rfl, rfl, rfl⟩ (showPool_sameEngines (queueMigration l n b.tick 3 b))
      · exact ⟨fun k f hf => getF_setF_ne _ _ _ _ (off e k f hf), rfl, rfl⟩
    · exact .refl b

theorem bootMigrates_sameEngines (ls : List Nat) (b : Blk) : SameEngines b (ls.foldl (fun b l => bootMigrate l b) b) := by
  induction ls generalizing b with
  | nil => exact .refl b
  | cons l ls ih => exact (bootMigrate_sameEngines l b).trans (ih _)

/-- The self-test with its last steps named. -/
theorem bootSelftest_eq {failed : List (Fin 68)} {b : Blk} (hm : b.sys.mode = .boot) (ht : b.sys.tested = false) :
    ∃ d p, bootSelftest failed b = showPool (raiseIf p 1128 d) ∧
      SameEngines ((List.range 68).foldl (fun b e => bootTest failed e b) { b with sys := { b.sys with tested := true } }) d := by
  refine ⟨_, _, if_neg (by simp [hm, ht]), ?_⟩
  refine SameEngines.trans ?_ (bootMigrates_sameEngines _ _)
  split
  · exact .refl _
  · refine ⟨fun k f hf => getF_setF_ne _ _ _ _ fun hk => ?_, rfl, rfl⟩
    have := hf.2
    rw [hk] at this
    exact absurd this (by decide)

theorem bootSelftest_shows {failed : List (Fin 68)} {b : Blk} (hm : b.sys.mode = .boot) (ht : b.sys.tested = false)
    (hall : ∀ e, e < 68 → failedEng b e = false) (h : b.mild (1128 :: failed.map fun e => 8 * e.val + 5)) :
    (bootSelftest failed b).sys.tested = true ∧ ∀ e : Fin 68, failedEng (bootSelftest failed b) e.val = decide (e ∈ failed) ∧
      (e ∈ failed → getF (bootSelftest failed b) (Reg.ENG.HEALTH.CAUSE e.val) = 3 ∧ roleOf (bootSelftest failed b) e.val = 4) ∧
      (e ∉ failed → getF (bootSelftest failed b) (Reg.ENG.HEALTH.PASSES e.val) =
        satInc (2 ^ (Reg.ENG.HEALTH.PASSES e.val).wid - 1) (getF b (Reg.ENG.HEALTH.PASSES e.val))) := by
  obtain ⟨d, p, hd, hregs, hsys, hev⟩ := bootSelftest_eq (failed := failed) hm ht
  obtain ⟨hmild, hs, -, hdone⟩ := bootTests_show (failed := failed) (b := { b with sys := { b.sys with tested := true } })
    (ss := 1128 :: failed.map fun e => 8 * e.val + 5) h (List.subset_cons_self _ _) 68 hall
  have raised : EventOnly d (raiseIf p 1128 d) := (hmild.of_ev hev).raiseIf List.mem_cons_self p
  have shown (k : Nat) (f : Fld) (hf : OfEngine k f) : getF (bootSelftest failed b) f = getF _ f :=
    ((congrArg (getF · f) hd).trans (getF_showPool hf.notPool)).trans ((raised.getF f hf.apart).trans (hregs k f hf))
  refine ⟨?_, fun e => ?_⟩
  · have : (bootSelftest failed b).sys = { b.sys with tested := true } :=
      (congrArg Blk.sys hd).trans (raised.keepsBanks.sys.trans (hsys.trans hs))
    rw [this]
  · have mem : (failed.any fun x => x.val == e.val) = decide (e ∈ failed) := by
      rw [Bool.eq_iff_iff, List.any_eq_true, decide_eq_true_iff]
      exact ⟨fun ⟨x, hx, hxe⟩ => Fin.ext (beq_iff_eq.1 hxe) ▸ hx, fun hx => ⟨e, hx, beq_self_eq_true _⟩⟩
    rw [failedEng, flag, roleOf, shown _ _ (ofEngine_failed _), shown _ _ (ofEngine_cause _), shown _ _ (ofEngine_role _),
      shown _ _ (ofEngine_passes _)]
    have := hdone e.val e.isLt
    rw [mem, decide_eq_true_iff, decide_eq_false_iff_not] at this
    exact this

end Sys2Proof.Machine
end

section
/-!
PROOF. BOOT (O56): leaving RESET by the fields that it samples, the self-test engine by engine, the images in their order, and the
mode in which BOOT ends.
-/
set_option autoImplicit false

namespace Sys2Proof.Machine

/-! ### Leaving RESET (R436, R453, R466) -/

/-- The fields that the scan of the NVM shows. -/
def scanFields : List Fld :=
  [Reg.NVM.LOG_SEQ.SEQN, Reg.NVM.LOG_COUNT.COUNT, Reg.NVM.STAT.KEY_SET, Reg.NVM.WEAR.WRITES, Reg.SEQ.STAT.IN_I, Reg.SEQ.STAT.IN_L,
   Reg.SEQ.STAT.IN_P, Reg.SEQ.STAT.CONFIG, Reg.ETH.MAC_LO.MAC 0, Reg.ETH.MAC_HI.MAC 0, Reg.ETH.MAC_LO.MAC 1, Reg.ETH.MAC_HI.MAC 1]

theorem getF_scanShow {n newest : Nat} {life : Tbl Nat} {inn : Nat → Bool} {b : Blk} {f : Fld} (hf : f.key ∉ scanFields.map Fld.key) :
    getF (scanShow n newest life inn b) f = getF b f := by
  simp only [scanFields, List.map_cons, List.map_nil, List.mem_cons, not_or] at hf
  simp only [scanShow, setFlag, getF_lifeAdd]
  rw [getF_setF_ne, getF_setF_ne, getF_setF_ne, getF_setF_ne, getF_setF_ne, getF_setF_ne, getF_setF_ne, getF_setF_ne]
  · rfl
  all_goals tauto

/-- The scan without its raise. -/
def scanned (b : Blk) : Blk :=
  (List.range 2).foldl (fun b p => setF (Reg.ETH.MAC_HI.MAC p) ((Config.macAddress p).toNat / 2 ^ 32)
    (setF (Reg.ETH.MAC_LO.MAC p) (Config.macAddress p).toNat b)) (nvmScan b)

theorem bootScan_eq (b : Blk) : bootScan b = raiseIf (getF (scanned b) Reg.SEQ.STAT.CONFIG == 2) 993 (scanned b) := rfl

theorem nvmScan_shows (b : Blk) : ∃ n newest life inn, nvmScan b = scanShow n newest life inn b := ⟨_, _, _, _, rfl⟩

theorem scanned_sys (b : Blk) : (scanned b).sys = b.sys := by
  obtain ⟨n, newest, life, inn, hs⟩ := nvmScan_shows b
  simp only [scanned, hs, show List.range 2 = [0, 1] from rfl, List.foldl_cons, List.foldl_nil, setF_sys, scanShow, setFlag_sys,
    lifeAdd_sys]

theorem getF_scanned {b : Blk} {f : Fld} (hf : f.key ∉ scanFields.map Fld.key) : getF (scanned b) f = getF b f := by
  obtain ⟨n, newest, life, inn, hs⟩ := nvmScan_shows b
  rw [scanned, hs, show List.range 2 = [0, 1] from rfl, List.foldl_cons, List.foldl_cons, List.foldl_nil]
  have shown : getF (scanShow n newest life inn b) f = getF b f := getF_scanShow hf
  simp only [scanFields, List.map_cons, List.map_nil, List.mem_cons, not_or] at hf
  rw [getF_setF_ne, getF_setF_ne, getF_setF_ne, getF_setF_ne, shown]
  all_goals tauto

theorem getF_bootScan {b : Blk} {f : Fld} (hs : f.key ∉ scanFields.map Fld.key) (hr : f.key ∉ raiseFields.map Fld.key) :
    getF (bootScan b) f = getF b f := by
  rw [bootScan_eq, raiseIf]
  split
  · rw [raise_raiseWrites 993 (scanned b) f hr, getF_scanned hs]
  · exact getF_scanned hs

/-- The scan leaves BOOT for SHUTDOWN only, and not where the sequencer has two channels. -/
theorem bootScan_mode {b : Blk} (h : b.sys.mode = .boot) : Booting (bootScan b) ∧
    (getF (bootScan b) Reg.SEQ.STAT.CONFIG ≠ 2 → (bootScan b).sys.mode = .boot) := by
  have hs : (scanned b).sys.mode = .boot := by rw [scanned_sys, h]
  rw [bootScan_eq, raiseIf]
  split
  · next hc =>
    refine ⟨raise_booting 993 (.inl hs), fun hn => ?_⟩
    rw [raise_raiseWrites 993 (scanned b) _ (by decide)] at hn
    exact absurd (by simpa using hc) hn
  · exact ⟨.inl hs, fun _ => hs⟩

/-- The core PLL's lock and the end of a soft reset leave RESET. -/
theorem corePllLock_leaves {x : StrapIn} {b : Blk} (hm : b.sys.mode = .reset) (hp : b.sys.resetPor = false)
    (hn : b.sys.resetPin = false) (hr : b.sys.softRun = false) : corePllLock x b = leaveReset x
      (setFs [(Reg.CLK.STAT.REFCLK_OK, 1), (Reg.CLK.STAT.CORE_LOCK, 1), (Reg.CLK.LOCK_TIME.US, x.us.toNat)]
        { b with sys := { b.sys with refOk := true } }) :=
  if_neg (by simp [hm, hp, hn, hr])

theorem softResetEnd_leaves {x : StrapIn} {b : Blk} (hm : b.sys.mode = .reset) (hr : b.sys.softRun = true) :
    softResetEnd x b = leaveReset x b := if_pos ⟨hm, hr⟩

theorem leaveReset_samples (x : StrapIn) (b : Blk) : let c := leaveReset x b
    Booting c ∧ (getF c Reg.SEQ.STAT.CONFIG ≠ 2 → c.sys.mode = .boot) ∧ getF c Reg.GLEW.ID.CASC_ID = x.cascId.toNat ∧
      getF c Reg.SYS.BOOT_STAT.BOOTSEL = x.bootsel.toNat ∧ flag c Reg.SYS.RST_CAUSE.TMODE = x.tmode ∧ getF c Reg.ETH.BOOT_ID.ID ≠ 0 := by
  intro c
  obtain ⟨hboot, hconf⟩ := bootScan_mode (b := setMode .boot _) (setMode_mode .boot _)
  have kept (m : Mode) (d : Blk) (f : Fld) (hf : f.key ∉ raiseFields.map Fld.key) : getF (setMode m d) f = getF d f :=
    setMode_raiseWrites m d f hf
  refine ⟨hboot, hconf, ?_, ?_, ?_, ?_⟩
  · refine (getF_bootScan (by decide) (by decide)).trans ((kept _ _ _ (by decide)).trans ?_)
    simp (disch := decide) only [setFlag, getF_setF_ne, getF_setF_same]
    exact Nat.mod_eq_of_lt x.cascId.isLt
  · refine (getF_bootScan (by decide) (by decide)).trans ((kept _ _ _ (by decide)).trans ?_)
    simp (disch := decide) only [setFlag, getF_setF_ne, getF_setF_same]
    exact Nat.mod_eq_of_lt x.bootsel.isLt
  · have shown : getF c Reg.SYS.RST_CAUSE.TMODE = (if x.tmode then 1 else 0) % 2 := by
      refine (getF_bootScan (by decide) (by decide)).trans ((kept _ _ _ (by decide)).trans ?_)
      simp (disch := decide) only [setFlag, getF_setF_ne, getF_setF_same]
      rfl
    rw [flag, shown]
    cases x.tmode <;> rfl
  · have drawn (n : Nat) : (n % 4294967295 + 1) % 2 ^ 32 ≠ 0 := by omega
    rw [show getF c Reg.ETH.BOOT_ID.ID = _ from (getF_bootScan (by decide) (by decide)).trans (kept _ _ _ (by decide)), getF_setF_same]
    exact drawn _

/-! ### The images (R466, R470) -/

section
variable {b c : Blk} {y : BootIn}

theorem tryImage_loaded {r base : Nat} (hr : getF b Reg.SYS.BOOT_STAT.RESULT ≠ 1) (hl : loadImage base b = .ok c) :
    tryImage r base true b = setF Reg.SYS.BOOT_STAT.RESULT r c := by
  rw [tryImage, if_neg hr, if_pos rfl, hl]
  rfl

theorem tryImage_failed {r base : Nat} {a : Bool} {e : Nat × Nat} (hr : getF b Reg.SYS.BOOT_STAT.RESULT ≠ 1)
    (hl : (if a then loadImage base b else .error (7, 0)) = .error e) : tryImage r base a b = imageResult 1 b (.error e) := by
  rw [tryImage, if_neg hr, hl]
  rfl

theorem tryImage_done {r base : Nat} {a : Bool} (hr : getF b Reg.SYS.BOOT_STAT.RESULT = 1) : tryImage r base a b = b := if_pos hr

theorem imageResult_failed (e : Nat × Nat) : getF (imageResult 1 b (.error e)) Reg.SYS.BOOT_STAT.RESULT ≠ 1 := by
  rw [imageResult, getF_setF_same]
  decide

/-- The images by BOOTSEL: the one tried first, and the other (R466). -/
theorem bootLoad_order (hsel : getF b Reg.SYS.BOOT_STAT.BOOTSEL ∈ [0, 3]) : bootLoad y b =
    tryImage 2 (if getF b Reg.SYS.BOOT_STAT.BOOTSEL = 3 then 0 else 0x800000) y.second
      (tryImage 1 (if getF b Reg.SYS.BOOT_STAT.BOOTSEL = 3 then 0x800000 else 0) y.first b) := by
  simp only [List.mem_cons, List.not_mem_nil, or_false] at hsel
  unfold bootLoad
  rcases hsel with h | h <;> simp [h]

theorem bootLoad_none (hsel : getF b Reg.SYS.BOOT_STAT.BOOTSEL ∈ [1, 2]) : bootLoad y b = b := by
  simp only [List.mem_cons, List.not_mem_nil, or_false] at hsel
  unfold bootLoad
  rcases hsel with h | h <;> simp [h]

/-! ### The end of BOOT (R453) -/

theorem bootComplete_waits (h : b.sys.mode ≠ .boot ∨ b.sys.tested = false ∨ b.red.migr ≠ []) : bootComplete y b = b := if_pos h

theorem bootComplete_ends (hm : b.sys.mode = .boot) (ht : b.sys.tested = true) (hg : b.red.migr = []) :
    bootComplete y b = leaveBoot (setF Reg.SYS.BOOT_TIME.US ((bootLoad y b).q / 4000) (masterReset 6 y.m6 (bootLoad y b))) :=
  if_neg (by simp [hm, ht, hg])

theorem leaveBoot_quiet (h : latchedClass b [3, 4] = false) : (leaveBoot b).sys.mode = if b.sys.tmode then .factoryTest else .idle := by
  rw [leaveBoot, if_neg (by simp [h]), setMode_mode]

theorem leaveBoot_halts (h : latchedClass b [3, 4] = true) : Halted (leaveBoot b) := by
  have counted (d : Blk) (hd : d.sys.mode = .safe) (hk : AllCleared d) : Halted (lifeAdd 3 1 d) := ⟨.inl hd, hk⟩
  rw [leaveBoot, if_pos h]
  exact flushLate_halted (raiseTx_halted clearedSources none (counted _ (enterMode_mode .safe _)
    (.of_banks (enterMode_banks .safe _) (clearBanks_allCleared b))))

end

end Sys2Proof.Machine
end

open Sys2Proof Sys2Proof.Machine

/-- Settles O56: RESET, the self-test and the images each by the lemma on its step, and the end of BOOT by what is latched. -/
theorem bootLeadsToIdle : Obligations.BootLeadsToIdle := by
  unfold Obligations.BootLeadsToIdle
  intro s x y failed locked done sel a z boots
  have next {b c : Blk} (h : b = c) : (.next { s with b := b } : Host.Outcome State Fault Refusal) = .next { s with b := c } :=
    h ▸ rfl
  have ends (hb : boots) : exec (.bootComplete y) s = .next { s with b := done (bootLoad y s.b) } :=
    next (bootComplete_ends hb.1 hb.2.1 hb.2.2.1)
  refine ⟨fun hm hp hn hr => ?_, fun hm hr => ?_, fun b _ => ?_, fun hm ht hall h => ⟨_, rfl, bootSelftest_shows hm ht hall h⟩,
    fun h => ?_, fun hb hsel => ?_, fun hb hsel => ⟨fun c hf hl => ?_, fun e c he hs hl => ?_, fun hf hs => ?_⟩,
    fun b base h => if_pos h, fun b base h hc => ?_, fun b _ => ⟨leaveBoot_quiet, fun h => ?_⟩⟩
  · exact next (corePllLock_leaves hm hp hn hr)
  · exact next (softResetEnd_leaves hm hr)
  · exact leaveReset_samples x b
  · exact next (bootComplete_waits h)
  · rw [ends hb, bootLoad_none hsel]
  · rw [ends hb, bootLoad_order hsel, hf, tryImage_loaded hb.2.2.2 hl]
    exact next (congrArg done (tryImage_done (getF_setF_same _ _ _)))
  · rw [ends hb, bootLoad_order hsel, tryImage_failed hb.2.2.2 he, hs, tryImage_loaded (imageResult_failed e) hl]
  · rw [ends hb, bootLoad_order hsel, hf, hs, tryImage_failed hb.2.2.2 (if_neg Bool.false_ne_true),
      tryImage_failed (imageResult_failed _) (if_neg Bool.false_ne_true)]
    rfl
  · exact (if_neg (by simp [h])).trans (if_pos hc)
  · exact (leaveBoot_halts h).1

section
/-!
PROOF. The roles of the standby engines (O44): what the operations on roles leave unchanged, and the window, copy phase and
confirmation as folds of such operations, each on engines of its own.
-/
set_option autoImplicit false

namespace Sys2Proof.Machine

/-! ### Operations on roles -/

/-- The block with the registers, the engines' bookkeeping and the confirmations replaced. -/
def Blk.roled (b : Blk) (r : Tbl Nat) (e : Tbl EngRt) (k : List Confirm) : Blk :=
  { b with regs := r, red := { b.red with engs := e, confirm := k } }

/-- The offsets that only roles, counts of checks and the pool move (R358 to R366). -/
def roleOffs : List Nat := [0x80, 0x84, 0xA4]

/-- CHK_STAT of engine `e` as it reads (R366). -/
def chkStat (b : Blk) (e : Nat) : Nat × Nat × Bool :=
  (roleOf b e, getF b (Reg.ENG.CHK_STAT.OF e), flag b (Reg.ENG.CHK_STAT.COPY e))

/-- From `b` to `c` the engines `ns` alone take other roles: no register outside CHK_STAT, CHK_CNT and POOL moves, and no other
engine's CHK_STAT or bookkeeping. -/
def Reroles (ns : List Nat) (b c : Blk) : Prop :=
  (∃ r e k, c = b.roled r e k) ∧ (∀ f : Fld, f.key % 131072 / 32 ∉ roleOffs → getF c f = getF b f) ∧
  ∀ e ∉ ns, engRt c e = engRt b e ∧ chkStat c e = chkStat b e

section
variable {ns ms : List Nat} {b c d : Blk} {e n : Nat}

theorem Reroles.refl (ns : List Nat) (b : Blk) : Reroles ns b b := ⟨⟨_, _, _, rfl⟩, fun _ _ => rfl, fun _ _ => ⟨rfl, rfl⟩⟩

theorem Reroles.trans (h : Reroles ns b c) (h' : Reroles ms c d) : Reroles (ns ++ ms) b d := by
  obtain ⟨⟨r, g, k, hc⟩, hr, ho⟩ := h
  obtain ⟨⟨r', g', k', hd⟩, hr', ho'⟩ := h'
  refine ⟨⟨r', g', k', ?_⟩, fun f hf => (hr' f hf).trans (hr f hf), fun e he => ?_⟩
  · rw [hd, hc]
    rfl
  · rw [List.mem_append, not_or] at he
    exact ⟨(ho' e he.2).1.trans (ho e he.1).1, (ho' e he.2).2.trans (ho e he.1).2⟩

theorem Reroles.mono (h : Reroles ns b c) (hs : ns ⊆ ms) : Reroles ms b c := ⟨h.1, h.2.1, fun e he => h.2.2 e fun hn => he (hs hn)⟩

theorem Reroles.tick (h : Reroles ns b c) : c.tick = b.tick := by
  obtain ⟨⟨r, g, k, hc⟩, -⟩ := h
  rw [hc]
  rfl

theorem Reroles.migr (h : Reroles ns b c) : c.red.migr = b.red.migr := by
  obtain ⟨⟨r, g, k, hc⟩, -⟩ := h
  rw [hc]
  rfl

theorem Reroles.sys (h : Reroles ns b c) : c.sys = b.sys := by
  obtain ⟨⟨r, g, k, hc⟩, -⟩ := h
  rw [hc]
  rfl

theorem Reroles.ev (h : Reroles ns b c) : c.ev = b.ev := by
  obtain ⟨⟨r, g, k, hc⟩, -⟩ := h
  rw [hc]
  rfl

/-- The registers that name servers and failures stay. -/
theorem Reroles.serves (h : Reroles ns b c) : serving c = serving b ∧ failedEng c = failedEng b ∧ serverOf c = serverOf b := by
  have at44 (e l w r : Nat) (hl : l < 32) : getF c (Fld.mk' (0x20 + e) 0x44 l w r) = getF b (Fld.mk' (0x20 + e) 0x44 l w r) := by
    refine h.2.1 _ ?_
    simp only [roleOffs, Fld.mk', List.mem_cons, List.not_mem_nil, or_false]
    omega
  refine ⟨funext fun e => ?_, funext fun e => ?_, funext fun l => ?_⟩
  · rw [serving, serving, at44 _ _ _ _ (by decide)]
  · rw [failedEng, failedEng, flag, flag, h.2.1 _ ?_]
    simp only [roleOffs, Reg.ENG.HEALTH.FAILED, Fld.mk', List.mem_cons, List.not_mem_nil, or_false]
    omega
  · simp only [serverOf, at44 _ _ _ _ (show 6 < 32 by decide), at44 _ _ _ _ (show 0 < 32 by decide)]

theorem Reroles.standbys (h : Reroles ns b c) (hk : c.red.confirm = b.red.confirm) : standbys c = standbys b := by
  obtain ⟨hs, hf, -⟩ := h.serves
  simp only [Machine.standbys, availableEng, confirming, hs, hf, hk, h.migr]

/-- A fold of operations on roles, each on engines of its own. -/
theorem Reroles.foldl {α : Type} {own : α → List Nat} {g : Blk → α → Blk} (h : ∀ b x, Reroles (own x) b (g b x)) (l : List α) (b : Blk) :
    Reroles (l.flatMap own) b (l.foldl g b) := by
  induction l generalizing b with
  | nil => exact .refl _ _
  | cons x l ih => exact (h b x).trans (ih _)

/-- In a fold of such operations an engine shows what the one operation on it gives. -/
theorem Reroles.foldl_at {α : Type} {own : α → List Nat} {g : Blk → α → Blk} (h : ∀ b x, Reroles (own x) b (g b x)) {p q : List α}
    {x : α} (hq : e ∉ q.flatMap own) (b : Blk) :
    Reroles (p.flatMap own) b (p.foldl g b) ∧
    engRt ((p ++ x :: q).foldl g b) e = engRt (g (p.foldl g b) x) e ∧
    chkStat ((p ++ x :: q).foldl g b) e = chkStat (g (p.foldl g b) x) e := by
  rw [List.foldl_append, List.foldl_cons]
  exact ⟨.foldl h p b, (Reroles.foldl h q _).2.2 e hq⟩

/-! ### Which operations they are -/

theorem engRt_setEngRt_ne {r : EngRt} (h : e ≠ n) : engRt (setEngRt n r b) e = engRt b e := Tbl.get_set_ne _ _ _ _ _ _ h

theorem chkStat_of_getF (h : ∀ f, OfEngine e f → getF c f = getF b f) : chkStat c e = chkStat b e := by
  rw [chkStat, chkStat, roleOf, roleOf, flag, flag, h _ (ofEngine_role e), h _ (ofEngine_of e), h _ (ofEngine_copy e)]

theorem chkStat_setRole (role of : Nat) (copy : Bool) : chkStat (setRole e role of copy b) e = (role % 8, of % 128, copy) := by
  obtain ⟨hr, ho, hc⟩ := setRole_shows e role of copy b
  rw [chkStat, hr, ho, hc]

theorem setF_reroles {f : Fld} (v : Nat) (b : Blk) (hf : f.key % 131072 / 32 ∈ roleOffs) (ho : ∀ e ∉ ns, ∀ g, OfEngine e g → g.key ≠ f.key) :
    Reroles ns b (setF f v b) :=
  ⟨⟨_, _, _, rfl⟩, fun g hg => getF_setF_ne _ _ _ _ fun hk => hg (hk ▸ hf),
    fun e he => ⟨rfl, chkStat_of_getF fun g hg => getF_setF_ne _ _ _ _ (ho e he g hg)⟩⟩

theorem setRole_reroles (e role of : Nat) (copy : Bool) (b : Blk) : Reroles [e] b (setRole e role of copy b) := by
  refine ⟨⟨_, _, _, rfl⟩, fun f hf => ?_, fun k hk => ⟨rfl, chkStat_of_getF fun f hf => getF_setRole hf (by simpa using hk)⟩⟩
  exact getF_setRole_health fun h => hf (h ▸ by decide)

theorem setEngRt_reroles (e : Nat) (r : EngRt) (b : Blk) : Reroles [e] b (setEngRt e r b) :=
  ⟨⟨_, _, _, rfl⟩, fun _ _ => rfl, fun _ hk => ⟨engRt_setEngRt_ne (by simpa using hk), rfl⟩⟩

theorem startCopy_reroles (e role of t lone : Nat) (b : Blk) : Reroles [e] b (startCopy e role of t lone b) :=
  ((setEngRt_reroles e _ b).trans (setRole_reroles e role of true _)).mono (by simp)

theorem toSelfTest_reroles (e : Nat) (b : Blk) : Reroles [e] b (toSelfTest e b) :=
  ((setEngRt_reroles e _ b).trans (setRole_reroles e 1 0 false _)).mono (by simp)

theorem showPool_reroles (b : Blk) : Reroles [] b (showPool b) := by
  have off (e : Nat) (f : Fld) (hf : OfEngine e f) := hf.notPool
  simp only [poolFields, List.map_cons, List.map_nil, List.mem_cons, List.not_mem_nil, or_false, not_or] at off
  exact (setF_reroles (ns := []) _ b (by decide) fun e _ f hf => (off e f hf).2).trans
    (setF_reroles (ns := []) _ _ (by decide) fun e _ f hf => (off e f hf).1)

/-- A count of windows moves no engine's role. -/
theorem countWindow_reroles (g : Nat) (b : Blk) : Reroles [] b (incF (Reg.ENG.CHK_CNT.WINDOWS g) b) := by
  refine setF_reroles _ b ?_ fun e _ f hf hk => ?_
  · simp only [roleOffs, Reg.ENG.CHK_CNT.WINDOWS, Fld.mk', List.mem_cons, List.not_mem_nil, or_false]
    omega
  · have := hf.2
    rw [hk] at this
    simp only [Reg.ENG.CHK_CNT.WINDOWS, Fld.mk'] at this
    omega

theorem Reroles.ite {p : Prop} [Decidable p] (h : Reroles ns b c) : Reroles ns b (if p then c else b) := by
  split
  · exact h
  · exact .refl _ _

theorem Reroles.ite' {p : Prop} [Decidable p] (h : Reroles ns b c) : Reroles ns b (if p then b else c) := by
  split
  · exact .refl _ _
  · exact h

/-! ### What an engine shows after them -/

theorem startCopy_shows (e role of t lone : Nat) (b : Blk) : chkStat (startCopy e role of t lone b) e = (role % 8, of % 128, true) ∧
    (engRt (startCopy e role of t lone b) e).t0 = t :=
  ⟨chkStat_setRole role of true, congrArg EngRt.t0 (engRt_setEngRt e _ b)⟩

theorem toSelfTest_shows (e : Nat) (b : Blk) : chkStat (toSelfTest e b) e = (1, 0, false) ∧ (engRt (toSelfTest e b) e).lone = 0 :=
  ⟨chkStat_setRole 1 0 false, congrArg EngRt.lone (engRt_setEngRt e _ b)⟩

/-- An engine in self-test stays so as any engine goes to self-test. -/
theorem toSelfTest_keeps (n : Nat) (h : chkStat b e = (1, 0, false)) : chkStat (toSelfTest n b) e = (1, 0, false) := by
  by_cases hn : e = n
  · rw [hn]
    exact (toSelfTest_shows n b).1
  · rw [((toSelfTest_reroles n b).2.2 e (by simpa using hn)).2, h]

end

end Sys2Proof.Machine
end

section
/-!
PROOF. Windows, copy phases and confirmations of the standby engines (O44).
-/
set_option autoImplicit false

namespace Sys2Proof.Machine

section
variable {b c : Blk} {e : Nat}

/-! ### Windows (R358) -/

/-- The window of standby `n` ends. -/
def endWindow (b : Blk) (n : Nat) : Blk :=
  if roleOf b n = 2 ∧ (engRt b n).lone = 0 then
    toSelfTest n (if flag b (Reg.ENG.CHK_STAT.COPY n) then b
      else incF (Reg.ENG.CHK_CNT.WINDOWS n) (incF (Reg.ENG.CHK_CNT.WINDOWS (getF b (Reg.ENG.CHK_STAT.OF n))) b))
  else b

/-- The standby with its number among them takes a logical engine in window `w`. -/
def takeWindow (n w : Nat) (b : Blk) (x : Nat × Nat) : Blk :=
  if (engRt b x.1).lone = 0 then
    match serverOf b ((n * w + x.2) % 64) with
    | some g => startCopy x.1 2 g b.tick 0 b
    | none => b
  else b

/-- The block as the new window has begun. -/
def windowed (b : Blk) : Blk :=
  let c := (standbys b).foldl endWindow b
  { c with red := { c.red with wnd := c.tick + 1 } }

theorem endWindow_reroles (b : Blk) (n : Nat) : Reroles [n] b (endWindow b n) := by
  unfold endWindow
  refine Reroles.ite (Reroles.trans (ns := []) ?_ (toSelfTest_reroles n _))
  exact .ite' ((countWindow_reroles _ b).trans (countWindow_reroles n _))

theorem endWindow_confirm (b : Blk) (n : Nat) : (endWindow b n).red.confirm = b.red.confirm := by
  have kept (d : Blk) : (toSelfTest n d).red.confirm = d.red.confirm := rfl
  unfold endWindow
  split
  · rw [kept]
    split <;> rfl
  · rfl

theorem endWindow_lone {b : Blk} (n : Nat) (h : (engRt b e).lone = 0) : (engRt (endWindow b n) e).lone = 0 := by
  by_cases hn : e = n
  · unfold endWindow
    split
    · rw [hn]
      exact (toSelfTest_shows n _).2
    · exact h
  · rw [((endWindow_reroles b n).2.2 e (by simpa using hn)).1, h]

theorem takeWindow_reroles (n w : Nat) (b : Blk) (x : Nat × Nat) : Reroles [x.1] b (takeWindow n w b x) := by
  unfold takeWindow
  refine Reroles.ite ?_
  split
  · exact startCopy_reroles _ _ _ _ _ b
  · exact .refl _ _

theorem takeWindow_confirm (n w : Nat) (b : Blk) (x : Nat × Nat) : (takeWindow n w b x).red.confirm = b.red.confirm := by
  unfold takeWindow
  split
  · split <;> rfl
  · rfl

theorem takeWindow_takes {n w j g : Nat} (hl : (engRt b e).lone = 0) (hg : serverOf b ((n * w + j) % 64) = some g) :
    takeWindow n w b (e, j) = startCopy e 2 g b.tick 0 b := by
  rw [takeWindow, if_pos hl]
  dsimp only
  rw [hg]

theorem checkWindowStart_eq (h0 : b.sys.mode ≠ .reset) (ht : b.tick % 1000 = 0) (hw : b.red.wnd ≠ b.tick + 1) :
    checkWindowStart b = if flag (windowed b) Reg.ENG.CHK_CFG.ROT_EN then
      (standbys (windowed b)).zipIdx.foldl (takeWindow (standbys (windowed b)).length (b.tick / 1000)) (windowed b) else windowed b :=
  (if_pos (c := b.tick % 1000 = 0 ∧ b.red.wnd ≠ b.tick + 1 ∧ running b) ⟨ht, hw, by simpa [running] using h0⟩).trans rfl

theorem ends_reroles (b : Blk) : Reroles (standbys b) b ((standbys b).foldl endWindow b) :=
  (Reroles.foldl endWindow_reroles (standbys b) b).mono (by simp)

theorem ends_confirm (b : Blk) : ((standbys b).foldl endWindow b).red.confirm = b.red.confirm :=
  foldl_keeps (fun b => b.red.confirm) _ _ _ endWindow_confirm

theorem ends_lone (ns : List Nat) (h : (engRt b e).lone = 0) : (engRt (ns.foldl endWindow b) e).lone = 0 := by
  induction ns generalizing b with
  | nil => exact h
  | cons n ns ih => exact ih (endWindow_lone n h)

/-- What moves as a window starts. -/
theorem windowed_moves (b : Blk) : (∃ r g, windowed b = { b with regs := r, red := { b.red with engs := g, wnd := b.tick + 1 } }) ∧
    standbys (windowed b) = standbys b ∧ serverOf (windowed b) = serverOf b ∧
    flag (windowed b) Reg.ENG.CHK_CFG.ROT_EN = flag b Reg.ENG.CHK_CFG.ROT_EN ∧
    (∀ e ∉ standbys b, engRt (windowed b) e = engRt b e ∧ chkStat (windowed b) e = chkStat b e) ∧
    ∀ e, (engRt b e).lone = 0 → (engRt (windowed b) e).lone = 0 := by
  have hr := ends_reroles b
  have hc := ends_confirm b
  have hl (e : Nat) (h : (engRt b e).lone = 0) := ends_lone (standbys b) h
  have hst := hr.standbys hc
  have ht := hr.tick
  have hrot : flag ((standbys b).foldl endWindow b) Reg.ENG.CHK_CFG.ROT_EN = flag b Reg.ENG.CHK_CFG.ROT_EN := by
    rw [flag, flag, hr.2.1 Reg.ENG.CHK_CFG.ROT_EN (by decide)]
  obtain ⟨-, -, hs⟩ := hr.serves
  generalize hd : (standbys b).foldl endWindow b = d at *
  have hw : windowed b = { d with red := { d.red with wnd := b.tick + 1 } } := by
    rw [windowed, hd, ← ht]
  obtain ⟨⟨r, g, k, hdb⟩, -, ho⟩ := hr
  have hk : k = b.red.confirm := by
    rw [← hc, hdb]
    rfl
  rw [hw]
  refine ⟨⟨r, g, ?_⟩, hst, hs, hrot, ho, hl⟩
  rw [hdb, hk]
  rfl

/-- The windows taken, from a block whose standbys are `av`. -/
theorem takes_show {av : List Nat} (hn : av.Nodup) (n w : Nat) (b : Blk) :
    let c := av.zipIdx.foldl (takeWindow n w) b
    (∃ r g, c = { b with regs := r, red := { b.red with engs := g } }) ∧
    (∀ e ∉ av, engRt c e = engRt b e ∧ chkStat c e = chkStat b e) ∧
    ∀ j e g, av[j]? = some e → (engRt b e).lone = 0 → serverOf b ((n * w + j) % 64) = some g → g < 68 →
      chkStat c e = (2, g, true) ∧ (engRt c e).t0 = b.tick := by
  intro c
  have own (l : List (Nat × Nat)) : (l.flatMap fun x => [x.1]) = l.map Prod.fst := List.map_eq_flatMap.symm
  have hr : Reroles av b c := by
    have := Reroles.foldl (takeWindow_reroles n w) av.zipIdx b
    rwa [own, List.zipIdx_map_fst] at this
  have hk : c.red.confirm = b.red.confirm := foldl_keeps (fun b => b.red.confirm) _ _ _ (takeWindow_confirm n w)
  obtain ⟨⟨r, g, k, hc⟩, -, ho⟩ := hr
  refine ⟨⟨r, g, ?_⟩, ho, fun j e g hj hl hg hg68 => ?_⟩
  · have : k = b.red.confirm := by
      rw [← hk, hc]
      rfl
    rw [hc, this]
    rfl
  · obtain ⟨p, q, hpq⟩ := List.append_of_mem (List.mk_mem_zipIdx_iff_getElem?.2 hj)
    have hmap : av = p.map Prod.fst ++ e :: q.map Prod.fst := by
      rw [← List.zipIdx_map_fst 0 av, hpq, List.map_append, List.map_cons]
    have hnd := hn
    rw [hmap, List.nodup_append] at hnd
    obtain ⟨-, hq, hpq'⟩ := hnd
    have heq : e ∉ q.flatMap fun x => [x.1] := by
      rw [own]
      exact (List.nodup_cons.1 hq).1
    obtain ⟨hp, he, hs⟩ := Reroles.foldl_at (takeWindow_reroles n w) (p := p) (x := (e, j)) heq b
    have hep : e ∉ p.flatMap fun x => [x.1] := by
      rw [own]
      exact fun hm => hpq' e hm e List.mem_cons_self rfl
    have hl' : (engRt (p.foldl (takeWindow n w) b) e).lone = 0 := by rw [(hp.2.2 e hep).1, hl]
    rw [takeWindow_takes (g := g) hl' (by rw [hp.serves.2.2, hg]), hp.tick] at he hs
    have hc' : c = (p ++ (e, j) :: q).foldl (takeWindow n w) b := by rw [← hpq]
    obtain ⟨hrole, ht0⟩ := startCopy_shows e 2 g b.tick 0 (p.foldl (takeWindow n w) b)
    rw [hc', hs, he, hrole, ht0, Nat.mod_eq_of_lt (show g < 128 by omega)]
    exact ⟨rfl, rfl⟩

end
end Sys2Proof.Machine
end

section
/-!
PROOF. What the commands of checking show (O44): the window, the end of the copy phases, and the begin and end of a confirmation.
-/
set_option autoImplicit false

namespace Sys2Proof.Machine

section
variable {b c : Blk} {e : Nat}

theorem standbys_nodup (b : Blk) : (standbys b).Nodup := List.Nodup.filter _ List.nodup_range

theorem serverOf_lt {l g : Nat} (h : serverOf b l = some g) : g < 68 := List.mem_range.1 (List.mem_of_find?_eq_some h)

theorem checkWindowStart_shows (h0 : b.sys.mode ≠ .reset) (ht : b.tick % 1000 = 0) (hw : b.red.wnd ≠ b.tick + 1) :
    let c := checkWindowStart b
    c = { b with regs := c.regs, red := { b.red with engs := c.red.engs, wnd := b.tick + 1 } } ∧
    (flag b Reg.ENG.CHK_CFG.ROT_EN = true → ∀ j e g, (standbys b)[j]? = some e → (engRt b e).lone = 0 →
      serverOf b (((standbys b).length * (b.tick / 1000) + j) % 64) = some g →
      chkStat c e = (2, g, true) ∧ (engRt c e).t0 = b.tick) ∧
    ∀ e, e ∉ standbys b → chkStat c e = chkStat b e ∧ engRt c e = engRt b e := by
  intro c
  obtain ⟨⟨r, g, hd⟩, hst, hsv, hrot, hother, hlone⟩ := windowed_moves b
  have hc : c = _ := checkWindowStart_eq h0 ht hw
  rw [hst, hrot] at hc
  generalize windowed b = d at *
  split at hc
  · next hen =>
    obtain ⟨⟨r', g', hcd⟩, ho, htake⟩ := takes_show (standbys_nodup b) (standbys b).length (b.tick / 1000) d
    rw [← hc] at hcd ho htake
    have htick : d.tick = b.tick := by rw [hd]
    refine ⟨?_, fun _ j e g hj hl hg => ?_, fun e he => ⟨(ho e he).2.trans (hother e he).2, (ho e he).1.trans (hother e he).1⟩⟩
    · rw [hcd, hd]
    · rw [← htick]
      exact htake j e g hj (hlone e hl) (by rw [hsv, hg]) (serverOf_lt hg)
  · next hen =>
    refine ⟨?_, fun h => absurd h hen, fun e he => ?_⟩
    · rw [hc, hd]
    · rw [hc]
      exact (hother e he).symm.imp id id

/-! ### Copy phases (R359) -/

/-- The copy phase of engine `n` ends where it has run nine ticks. -/
def endCopy (b : Blk) (n : Nat) : Blk :=
  if flag b (Reg.ENG.CHK_STAT.COPY n) ∧ (engRt b n).t0 + 9 ≤ b.tick then setFlag (Reg.ENG.CHK_STAT.COPY n) false b else b

theorem comparePhaseStart_eq (h0 : b.sys.mode ≠ .reset) : comparePhaseStart b = (List.range 68).foldl endCopy b :=
  if_pos (by simpa [running] using h0)

theorem endCopy_reroles (b : Blk) (n : Nat) : Reroles [n] b (endCopy b n) := by
  unfold endCopy
  refine Reroles.ite (setF_reroles _ b ?_ fun e he f hf => ?_)
  · simp only [roleOffs, Reg.ENG.CHK_STAT.COPY, Fld.mk', List.mem_cons, List.not_mem_nil, or_false]
    omega
  · exact hf.ne (ofEngine_copy n) (by simpa using he)

theorem endCopy_red (b : Blk) (n : Nat) : (endCopy b n).red = b.red := by
  unfold endCopy
  split <;> rfl

theorem endCopy_shows (b : Blk) (n : Nat) : chkStat (endCopy b n) n = (roleOf b n, getF b (Reg.ENG.CHK_STAT.OF n),
    flag b (Reg.ENG.CHK_STAT.COPY n) && decide (b.tick < (engRt b n).t0 + 9)) := by
  obtain ⟨-, hrc, hoc⟩ := role_keys n
  unfold endCopy
  split
  · next h =>
    have hn : decide (b.tick < (engRt b n).t0 + 9) = false := decide_eq_false (by omega)
    rw [hn, Bool.and_false, chkStat, roleOf, setFlag, getF_setF_ne _ _ _ _ hrc, getF_setF_ne _ _ _ _ hoc, flag, getF_setF_same]
    rfl
  · next h =>
    rw [chkStat]
    cases hf : flag b (Reg.ENG.CHK_STAT.COPY n)
    · rfl
    · have : decide (b.tick < (engRt b n).t0 + 9) = true := decide_eq_true (by simp only [hf, true_and] at h; omega)
      rw [this]
      rfl

/-- The engines below 68 each by its own. -/
theorem range_split (h : e < 68) : ∃ p q, List.range 68 = p ++ e :: q ∧ (e ∉ p.flatMap fun n => [n]) ∧ e ∉ q.flatMap fun n => [n] := by
  obtain ⟨p, q, hpq⟩ := List.append_of_mem (List.mem_range.2 h)
  have hn : (p ++ e :: q).Nodup := hpq ▸ List.nodup_range
  rw [List.nodup_append] at hn
  refine ⟨p, q, hpq, ?_, ?_⟩
  · rw [List.flatMap_singleton']
    exact fun hm => hn.2.2 e hm e List.mem_cons_self rfl
  · rw [List.flatMap_singleton']
    exact (List.nodup_cons.1 hn.2.1).1

theorem Reroles.regsOnly {ns : List Nat} (h : Reroles ns b c) (hr : c.red = b.red) : c = { b with regs := c.regs } := by
  obtain ⟨⟨r, g, k, rfl⟩, -⟩ := h
  have red : { b.red with engs := g, confirm := k } = b.red := hr
  rw [Blk.roled, red]

theorem comparePhaseStart_shows (h0 : b.sys.mode ≠ .reset) : let c := comparePhaseStart b
    c = { b with regs := c.regs } ∧ ∀ e, e < 68 → chkStat c e = (roleOf b e, getF b (Reg.ENG.CHK_STAT.OF e),
      flag b (Reg.ENG.CHK_STAT.COPY e) && decide (b.tick < (engRt b e).t0 + 9)) := by
  intro c
  have hc : c = _ := comparePhaseStart_eq h0
  refine ⟨?_, fun e he => ?_⟩
  · rw [hc]
    exact (Reroles.foldl endCopy_reroles _ b).regsOnly (foldl_keeps Blk.red _ _ _ endCopy_red)
  · obtain ⟨p, q, hpq, hp, hq⟩ := range_split he
    obtain ⟨hd, -, hs⟩ := Reroles.foldl_at endCopy_reroles (p := p) (x := e) hq b
    obtain ⟨hrt, hst⟩ := hd.2.2 e hp
    rw [hc, hpq, hs, endCopy_shows, hrt, hd.tick]
    simp only [chkStat, Prod.mk.injEq] at hst
    obtain ⟨hrole, hof, hcopy⟩ := hst
    rw [hrole, hof, hcopy]

/-! ### Confirmations (R361) -/

/-- A confirmation whose boundary has come begins. -/
def beginConfirm (b : Blk) (c : Confirm) : Blk :=
  if c.start ≤ b.tick ∧ roleOf b c.s1 ≠ 3 ∧ running b then
    startCopy c.s1 3 c.serving b.tick 0 (startCopy c.s2 3 c.serving b.tick 0 b)
  else b

theorem confirmationStart_eq (b : Blk) : confirmationStart b = b.red.confirm.foldl beginConfirm b := rfl

theorem startCopies_reroles (m n role o t : Nat) (b : Blk) :
    Reroles [m, n] b (startCopy m role o t 0 (startCopy n role o t 0 b)) :=
  ((startCopy_reroles n role o t 0 b).trans (startCopy_reroles m role o t 0 _)).mono (by simp)

theorem beginConfirm_reroles (b : Blk) (c : Confirm) : Reroles [c.s1, c.s2] b (beginConfirm b c) :=
  Reroles.ite (startCopies_reroles _ _ _ _ _ b)

theorem beginConfirm_confirm (b : Blk) (c : Confirm) : (beginConfirm b c).red.confirm = b.red.confirm := by
  have kept (m n t : Nat) (d : Blk) : (startCopy m 3 n t 0 d).red.confirm = d.red.confirm := rfl
  unfold beginConfirm
  split
  · rw [kept, kept]
  · rfl

theorem beginConfirm_begins {k : Confirm} (ht : k.start ≤ b.tick) (hr : roleOf b k.s1 ≠ 3) (h0 : b.sys.mode ≠ .reset) :
    ∀ e ∈ [k.s1, k.s2], chkStat (beginConfirm b k) e = (3, k.serving % 128, true) ∧ (engRt (beginConfirm b k) e).t0 = b.tick := by
  rw [beginConfirm, if_pos ⟨ht, hr, by simpa [running] using h0⟩]
  intro e he
  by_cases h : e = k.s1
  · rw [h]
    exact startCopy_shows _ _ _ _ _ _
  · have he2 : e = k.s2 := by simpa [h] using he
    obtain ⟨hrt, hst⟩ := (startCopy_reroles k.s1 3 k.serving b.tick 0 (startCopy k.s2 3 k.serving b.tick 0 b)).2.2 e (by simpa using h)
    rw [hrt, hst, he2]
    exact startCopy_shows _ _ _ _ _ _

/-- The engines of a confirmation are in no other one. -/
def aloneIn (l r : List Confirm) (k : Confirm) : Prop := ∀ d ∈ l ++ r, ∀ e ∈ [k.s1, k.s2], e ≠ d.s1 ∧ e ≠ d.s2

theorem aloneIn.notOwn {l r : List Confirm} {k : Confirm} (h : aloneIn l r k) (he : e ∈ [k.s1, k.s2]) :
    (e ∉ l.flatMap fun c => [c.s1, c.s2]) ∧ e ∉ r.flatMap fun c => [c.s1, c.s2] := by
  have away (d : Confirm) (hd : d ∈ l ++ r) : e ∉ [d.s1, d.s2] := by
    obtain ⟨h1, h2⟩ := h d hd e he
    simp [h1, h2]
  refine ⟨fun hm => ?_, fun hm => ?_⟩
  all_goals
    obtain ⟨d, hd, hmem⟩ := List.mem_flatMap.1 hm
    exact away d (by simp [hd]) hmem

theorem confirmationStart_shows {l r : List Confirm} {k : Confirm} (hk : b.red.confirm = l ++ k :: r) (ha : aloneIn l r k)
    (ht : k.start ≤ b.tick) (hr : roleOf b k.s1 ≠ 3) (h0 : b.sys.mode ≠ .reset) (hs : k.serving < 68) :
    let c := confirmationStart b
    c = { b with regs := c.regs, red := { b.red with engs := c.red.engs } } ∧
    ∀ e ∈ [k.s1, k.s2], chkStat c e = (3, k.serving, true) ∧ (engRt c e).t0 = b.tick := by
  intro c
  have hfold : Reroles _ b c := Reroles.foldl beginConfirm_reroles b.red.confirm b
  have hconf : c.red.confirm = b.red.confirm := foldl_keeps (fun b => b.red.confirm) _ _ _ beginConfirm_confirm
  refine ⟨?_, fun e he => ?_⟩
  · obtain ⟨⟨g, m, k', hc⟩, -⟩ := hfold
    have : k' = b.red.confirm := by
      rw [← hconf, hc]
      rfl
    rw [hc, this]
    rfl
  · have hc : c = (l ++ k :: r).foldl beginConfirm b := by
      show confirmationStart b = _
      rw [confirmationStart_eq, hk]
    obtain ⟨hd, hrt, hst⟩ := Reroles.foldl_at beginConfirm_reroles (p := l) (x := k) (ha.notOwn he).2 b
    have hrole : roleOf (l.foldl beginConfirm b) k.s1 = roleOf b k.s1 :=
      congrArg Prod.fst (hd.2.2 k.s1 (ha.notOwn List.mem_cons_self).1).2
    obtain ⟨hst', ht0⟩ := beginConfirm_begins (b := l.foldl beginConfirm b) (k := k) (hd.tick ▸ ht) (hrole ▸ hr) (by rwa [hd.sys]) e he
    rw [hc, hst, hrt, hst', ht0, Nat.mod_eq_of_lt (show k.serving < 128 by omega), hd.tick]
    exact ⟨rfl, rfl⟩

/-- A standby goes back to self-test, but for one that failed or serves. -/
def release (b : Blk) (e : Nat) : Blk := if failedEng b e || serving b e then b else toSelfTest e b

theorem endConfirm_eq (k : Confirm) (b : Blk) : endConfirm k b = showPool ([k.s1, k.s2].foldl release
    { b with red := { b.red with confirm := b.red.confirm.filter fun x => x != k } }) := rfl

theorem release_reroles (b : Blk) (n : Nat) : Reroles [n] b (release b n) := .ite' (toSelfTest_reroles n b)

theorem release_keeps (n : Nat) (h : chkStat b e = (1, 0, false)) : chkStat (release b n) e = (1, 0, false) := by
  unfold release
  split
  · exact h
  · exact toSelfTest_keeps n h

theorem release_releases (hf : failedEng b e = false) (hs : serving b e = false) : chkStat (release b e) e = (1, 0, false) := by
  rw [release, hf, hs]
  exact (toSelfTest_shows e b).1

theorem confirms_reroles (k : List Confirm) (b : Blk) : Reroles [] b { b with red := { b.red with confirm := k } } :=
  ⟨⟨_, _, _, rfl⟩, fun _ _ => rfl, fun _ _ => ⟨rfl, rfl⟩⟩

theorem endConfirm_reroles (k : Confirm) (b : Blk) : Reroles [k.s1, k.s2] b (endConfirm k b) :=
  ((confirms_reroles _ b).trans (((release_reroles _ k.s1).trans (release_reroles _ k.s2)).trans (showPool_reroles _))).mono (by simp)

theorem endConfirm_confirm (k : Confirm) (b : Blk) : (endConfirm k b).red.confirm = b.red.confirm.filter fun x => x != k := by
  have kept (d : Blk) (n : Nat) : (release d n).red.confirm = d.red.confirm := by
    unfold release
    split <;> rfl
  rw [endConfirm_eq]
  exact (kept _ k.s2).trans (kept _ k.s1)

theorem endConfirm_releases {k : Confirm} (he : e ∈ [k.s1, k.s2]) (hf : failedEng b e = false) (hs : serving b e = false) :
    chkStat (endConfirm k b) e = (1, 0, false) := by
  rw [endConfirm_eq, ((showPool_reroles _).2.2 e List.not_mem_nil).2, List.foldl_cons, List.foldl_cons, List.foldl_nil]
  generalize hd : ({ b with red := { b.red with confirm := b.red.confirm.filter fun x => x != k } } : Blk) = d
  have same : failedEng d e = false ∧ serving d e = false := by
    rw [← hd]
    exact ⟨hf, hs⟩
  by_cases h : e = k.s1
  · rw [← h]
    exact release_keeps k.s2 (release_releases same.1 same.2)
  · have he2 : e = k.s2 := by simpa [h] using he
    obtain ⟨hserv, hfail, -⟩ := (release_reroles d k.s1).serves
    rw [← he2]
    exact release_releases (by rw [hfail, same.1]) (by rw [hserv, same.2])

/-- A confirmation that is over after `n` ticks ends. -/
def closeConfirm (n : Nat) (b : Blk) (c : Confirm) : Blk :=
  if roleOf b c.s1 = 3 ∧ c.decided = false ∧ (engRt b c.s1).t0 + 9 + n ≤ b.tick then endConfirm c b else b

/-- A compare alone of engine `e` that is over after `n` ticks ends (R362). -/
def closeLone (n : Nat) (b : Blk) (e : Nat) : Blk :=
  let r := engRt b e
  if r.lone = 2 ∧ r.t0 + 9 + n ≤ b.tick ∧ serving b e = false ∧ failedEng b e = false
      ∧ b.red.migr.any (fun m => m.dest == e) = false then toSelfTest e b else b

theorem confirmationEnd_eq (b : Blk) : confirmationEnd b = (List.range 68).foldl (closeLone (getF b Reg.ENG.CHK_CFG.CONFIRM))
    (b.red.confirm.foldl (closeConfirm (getF b Reg.ENG.CHK_CFG.CONFIRM)) b) := rfl

theorem closeConfirm_reroles (n : Nat) (b : Blk) (c : Confirm) : Reroles [c.s1, c.s2] b (closeConfirm n b c) :=
  Reroles.ite (endConfirm_reroles c b)

theorem closeLone_reroles (n : Nat) (b : Blk) (e : Nat) : Reroles [e] b (closeLone n b e) := Reroles.ite (toSelfTest_reroles e b)

theorem closeConfirm_confirm (n : Nat) (b : Blk) (c : Confirm) : (closeConfirm n b c).red.confirm ⊆ b.red.confirm := by
  unfold closeConfirm
  split
  · rw [endConfirm_confirm]
    exact List.filter_subset_self _
  · exact List.Subset.refl _

theorem closeConfirms_confirm (n : Nat) (l : List Confirm) (b : Blk) : (l.foldl (closeConfirm n) b).red.confirm ⊆ b.red.confirm := by
  induction l generalizing b with
  | nil => exact List.Subset.refl _
  | cons c l ih => exact List.Subset.trans (ih _) (closeConfirm_confirm n b c)

theorem closeLone_confirm (n : Nat) (b : Blk) (e : Nat) : (closeLone n b e).red.confirm = b.red.confirm := by
  unfold closeLone
  dsimp only
  split <;> rfl

theorem closeLones_keep (n : Nat) (l : List Nat) (h : chkStat b e = (1, 0, false)) :
    chkStat (l.foldl (closeLone n) b) e = (1, 0, false) := by
  induction l generalizing b with
  | nil => exact h
  | cons k l ih =>
    refine ih ?_
    unfold closeLone
    dsimp only
    split
    · exact toSelfTest_keeps k h
    · exact h

theorem confirmationEnd_shows {l r : List Confirm} {k : Confirm} (hk : b.red.confirm = l ++ k :: r) (ha : aloneIn l r k)
    (hr : roleOf b k.s1 = 3) (hd : k.decided = false)
    (ht : (engRt b k.s1).t0 + 9 + getF b Reg.ENG.CHK_CFG.CONFIRM ≤ b.tick) : let c := confirmationEnd b
    k ∉ c.red.confirm ∧ c = { b with regs := c.regs, red := { b.red with engs := c.red.engs, confirm := c.red.confirm } } ∧
    ∀ e ∈ [k.s1, k.s2], failedEng b e = false → serving b e = false → chkStat c e = (1, 0, false) := by
  intro c
  generalize hn : getF b Reg.ENG.CHK_CFG.CONFIRM = n at ht
  have hc : c = (List.range 68).foldl (closeLone n) ((l ++ k :: r).foldl (closeConfirm n) b) := by
    show confirmationEnd b = _
    rw [confirmationEnd_eq, hn, hk]
  have hl : Reroles _ b (l.foldl (closeConfirm n) b) := Reroles.foldl (closeConfirm_reroles n) l b
  have closes : closeConfirm n (l.foldl (closeConfirm n) b) k = endConfirm k (l.foldl (closeConfirm n) b) := by
    obtain ⟨hrt, hst⟩ := hl.2.2 k.s1 (ha.notOwn List.mem_cons_self).1
    have hrole : roleOf (l.foldl (closeConfirm n) b) k.s1 = roleOf b k.s1 := congrArg Prod.fst hst
    rw [closeConfirm, if_pos ⟨hrole.trans hr, hd, by rw [hrt, hl.tick]; exact ht⟩]
  refine ⟨?_, ?_, fun e he hf hs => ?_⟩
  · rw [hc, foldl_keeps (fun b => b.red.confirm) _ _ _ (closeLone_confirm n), List.foldl_append, List.foldl_cons, closes]
    intro hmem
    have := closeConfirms_confirm n r _ hmem
    rw [endConfirm_confirm] at this
    simp at this
  · obtain ⟨⟨g, m, k', h⟩, -⟩ := (Reroles.foldl (closeConfirm_reroles n) (l ++ k :: r) b).trans
      (Reroles.foldl (closeLone_reroles n) (List.range 68) _)
    rw [← hc] at h
    rw [h]
    rfl
  · obtain ⟨hserv, hfail, -⟩ := hl.serves
    obtain ⟨-, -, hst⟩ := Reroles.foldl_at (closeConfirm_reroles n) (p := l) (x := k) (ha.notOwn he).2 b
    rw [hc]
    refine closeLones_keep n _ ?_
    rw [hst, closes]
    exact endConfirm_releases he (by rw [hfail, hf]) (by rw [hserv, hs])

end
end Sys2Proof.Machine
end

section
/-!
PROOF. The vote, the self-test's segments, migrations and ENG0.CHK_MIGRATE (O44).
-/
set_option autoImplicit false

namespace Sys2Proof.Machine

/-! ### The vote (R361) -/

theorem flipDone_regs (r : SlotRes) (b : Blk) (g s : Nat) : ∃ v, flipDone r b g s = { b with regs := v } := by
  unfold flipDone
  split
  · exact ⟨_, rfl⟩
  · exact ⟨_, rfl⟩

theorem checkSlot_vote {b : Blk} {g k : Nat} {r : SlotRes} {c : Confirm} (h : votes b g = some c) :
    checkSlot g k r b = vote g k c r b := by
  rw [checkSlot, h]

/-- The vote, on the three results `x`, `y` and `z`, where the block with the injections done is `d`. -/
def voted (g : Nat) (c : Confirm) (x y z : SlotRes) (d : Blk) : SlotRes × Blk :=
  if c.decided then (if y = z then y else x, d)
  else if x = y ∧ x = z then (x, d)
  else if y = z then
    let d := { d with red := { d.red with confirm := d.red.confirm.map fun x => if x = c then { c with decided := true } else x } }
    (y, queueMigration (logicalOf d g) c.s1 d.tick 0 (failEngine g 1 d))
  else if x = z then (x, endConfirm c (failEngine c.s1 1 d))
  else if x = y then (x, endConfirm c (failEngine c.s2 1 d))
  else (x, raise 1129 (endConfirm c d))

theorem vote_eq (g k : Nat) (c : Confirm) (r : SlotRes) (b : Blk) : vote g k c r b = voted g c (flipRes b g k r) (flipRes b c.s1 k r)
    (flipRes b c.s2 k r) (flipDone r (flipDone r (flipDone r b g k) c.s1 k) c.s2 k) := rfl

section
variable {g : Nat} {c : Confirm} {x y z : SlotRes} {d : Blk}

theorem voted_result : (y = z → (voted g c x y z d).1 = y) ∧ (y ≠ z → (voted g c x y z d).1 = x) := by
  unfold voted
  split
  · exact ⟨fun h => if_pos h, fun h => if_neg h⟩
  · split
    · next h => exact ⟨fun _ => h.1, fun _ => rfl⟩
    · split
      · next h => exact ⟨fun _ => rfl, fun hn => absurd h hn⟩
      · next h =>
        refine ⟨fun he => absurd he h, fun _ => ?_⟩
        split
        · rfl
        · split <;> rfl

theorem voted_agrees (h : c.decided = true ∨ x = y ∧ x = z) : (voted g c x y z d).2 = d := by
  rcases h with h | h
  · rw [voted, if_pos h]
  · unfold voted
    split <;> rfl

section
variable (h : c.decided = false)
include h

theorem voted_serving (hyz : y = z) (hxy : x ≠ y) : (voted g c x y z d).2 =
    let d := { d with red := { d.red with confirm := d.red.confirm.map fun x => if x = c then { c with decided := true } else x } }
    queueMigration (logicalOf d g) c.s1 d.tick 0 (failEngine g 1 d) := by
  rw [voted, if_neg (by simp [h]), if_neg fun hx => hxy hx.1, if_pos hyz]

theorem voted_lower (hxz : x = z) (hxy : x ≠ y) : (voted g c x y z d).2 = endConfirm c (failEngine c.s1 1 d) := by
  rw [voted, if_neg (by simp [h]), if_neg fun hx => hxy hx.1, if_neg fun hy => hxy (hxz.trans hy.symm), if_pos hxz]

theorem voted_higher (hxy : x = y) (hxz : x ≠ z) : (voted g c x y z d).2 = endConfirm c (failEngine c.s2 1 d) := by
  rw [voted, if_neg (by simp [h]), if_neg fun hx => hxz hx.2, if_neg fun hy => hxz (hxy.trans hy), if_neg hxz, if_pos hxy]

end
end

/-! ### The self-test's segments (R364) -/

section
variable {b : Blk} {e : Nat}

/-- The signature of an agreeing segment shown. -/
def segmentAgreed (e : Nat) (b : Blk) : Blk := setF (Reg.ENG.SIG.SIG e) (Config.selfTestSig e (engRt b e).segment).toNat b

/-- The signature of a failing segment shown, and its number. -/
def segmentFailed (e : Nat) (b : Blk) : Blk :=
  setF (Reg.ENG.SIG.SIG e) (Config.freeValue b.free).toNat
    (setF (Reg.ENG.HEALTH.SEGMENT e) (engRt b e).segment { b with free := b.free + 1 })

section
variable (ht : selfTesting b e = true) (h0 : b.sys.mode ≠ .reset) (hg : flag b Reg.FTEST.ST_FAIL.GO = false)
include ht h0 hg

theorem selftestSegmentEnd_agrees : selftestSegmentEnd e true b =
    if (engRt b e).segment = 63 then
      let c := incF (Reg.ENG.HEALTH.PASSES e) (setEngRt e { engRt b e with segment := 0, failRun := 0 } (segmentAgreed e b))
      if (engRt b e).lone = 1 then startCopy e 2 (getF c (Reg.ENG.CHK_STAT.OF e)) c.tick 2 c else c
    else setEngRt e { engRt b e with segment := (engRt b e).segment + 1, failRun := 0 } (segmentAgreed e b) := by
  rw [selftestSegmentEnd, if_pos ⟨ht, by simpa [running] using h0⟩, hg]
  rfl

theorem selftestSegmentEnd_fails : selftestSegmentEnd e false b =
    if (engRt b e).failRun = 0 then setEngRt e { engRt b e with failRun := 1 } (segmentFailed e b)
    else failEngine e 2 (setEngRt e { engRt b e with failRun := 0, lone := 0 } (segmentFailed e b)) := by
  rw [selftestSegmentEnd, if_pos ⟨ht, by simpa [running] using h0⟩, hg]
  rfl

/-- The second failure in a row fails the engine. -/
theorem selftestSegmentEnd_failsEngine (hr : (engRt b e).failRun ≠ 0) (hm : b.mild [8 * e + 5]) : let c := selftestSegmentEnd e false b
    failedEng c e = true ∧ getF c (Reg.ENG.HEALTH.CAUSE e) = 2 ∧ roleOf c e = 4 ∧ (evGet c (8 * e + 5)).latch = true := by
  have mild (r : EngRt) : (setEngRt e r (segmentFailed e b)).mild [8 * e + 5] := hm.of_ev rfl
  intro c
  rw [show c = _ from selftestSegmentEnd_fails ht h0 hg, if_neg hr]
  exact failEngine_fails 2 (mild _) (List.mem_singleton.2 rfl)

end
end

/-! ### Migrations (R363) -/

/-- The fields of SERVE. -/
def servingFld (e : Nat) : Fld := Fld.mk' (0x20 + e) 0x44 6 1 (if e < 64 then 1 else 0)
def logicalFld (e : Nat) : Fld := Fld.mk' (0x20 + e) 0x44 0 6 (if e < 64 then e else 0)

/-- The old server leaves. -/
def leaveServer (old : Option Nat) (b : Blk) : Blk :=
  match old with
  | some o => let c := setF (servingFld o) 0 b
    if failedEng c o then c else toSelfTest o c
  | none => b

/-- SERVE and the role of the destination as it takes the logical engine. -/
def serveTaken (m : Migration) (b : Blk) : Blk :=
  let c := setF (servingFld m.dest) 1 (setF (logicalFld m.dest) m.logical b)
  setRole m.dest 0 0 false (setEngRt m.dest { engRt c m.dest with lone := 0 } c)

/-- The lists without the migration, and without the confirmations of the old server. -/
def listsMoved (m : Migration) (old : Nat) (b : Blk) : Blk :=
  { b with red := { b.red with
    migr := b.red.migr.filter (fun x => x.dest != m.dest)
    confirm := b.red.confirm.filter fun c => c.serving != old } }

/-- SERVE, role and lists as a migration takes effect, before its record and its raises. -/
def serveMoved (m : Migration) (b : Blk) : Blk :=
  let old := serverOf b m.logical
  listsMoved m (old.getD 68) (serveTaken m (leaveServer old (releaseStandbys (old.getD 68) m.dest b)))

/-- The migration's record (R371). -/
def migrationRecorded (m : Migration) (b : Blk) : Blk :=
  nvmRecord 4 (8 * m.dest + 6) (evGet (serveMoved m b) (8 * m.dest + 6)).cls
    ((serverOf b m.logical).getD 0 + m.dest * 128 + m.logical * 16384 + m.cause * 1048576) (serveMoved m b)

theorem migrate_eq (m : Migration) (b : Blk) : ∃ p, migrate m b =
    showPool (raiseIf p 1128 (raise (8 * m.dest + 6) (migrationRecorded m b))) := by
  refine ⟨(standbys (raise (8 * m.dest + 6) (migrationRecorded m b))).isEmpty, ?_⟩
  cases h : serverOf b m.logical <;> simp only [migrate, migrationRecorded, serveMoved, serveTaken, listsMoved, leaveServer, h] <;> rfl

section
variable {b : Blk} {m : Migration}

theorem releaseStandbys_reroles (g dest : Nat) (b : Blk) : ∃ ns, Reroles ns b (releaseStandbys g dest b) :=
  ⟨_, Reroles.foldl (own := fun n => [n]) (fun b n => .ite' (toSelfTest_reroles n b)) _ b⟩

theorem leaveServer_shows (old : Option Nat) (b : Blk) : (leaveServer old b).ev = b.ev ∧ (leaveServer old b).red.migr = b.red.migr ∧
    ∀ o, old = some o → getF (leaveServer old b) (servingFld o) = 0 := by
  cases old with
  | none => exact ⟨rfl, rfl, fun _ h => absurd h.symm (Option.some_ne_none _)⟩
  | some o =>
    have hr : Reroles [o] (setF (servingFld o) 0 b) (leaveServer (some o) b) := .ite' (toSelfTest_reroles o _)
    refine ⟨hr.ev, hr.migr, fun k hk => ?_⟩
    obtain rfl := Option.some.inj hk
    rw [hr.2.1 _ ?_, getF_setF_same, Nat.zero_mod]
    simp only [roleOffs, servingFld, Fld.mk', List.mem_cons, List.not_mem_nil, or_false]
    omega

theorem serveFld_off (e l w r : Nat) (hl : l < 32) : (Fld.mk' (0x20 + e) 0x44 l w r).key % 131072 / 32 ∉ roleOffs ∧
    (Fld.mk' (0x20 + e) 0x44 l w r).key ∉ poolFields.map Fld.key ∧ (Fld.mk' (0x20 + e) 0x44 l w r).key / 131072 = 0x20 + e := by
  simp only [roleOffs, poolFields, Reg.ENG.POOL.AVAIL, Reg.ENG.POOL.FAILED, Fld.mk', List.mem_cons, List.not_mem_nil, or_false, List.map_cons,
    List.map_nil]
  omega

/-- What the destination's registers show as it takes the logical engine, and that SERVE of the others stays. -/
theorem serveTaken_shows (m : Migration) (b : Blk) : (serveTaken m b).ev = b.ev ∧ (serveTaken m b).red.migr = b.red.migr ∧
    getF (serveTaken m b) (servingFld m.dest) = 1 ∧ getF (serveTaken m b) (logicalFld m.dest) = m.logical % 64 ∧
    roleOf (serveTaken m b) m.dest = 0 ∧ ∀ o, o ≠ m.dest → getF (serveTaken m b) (servingFld o) = getF b (servingFld o) := by
  generalize hd : setF (servingFld m.dest) 1 (setF (logicalFld m.dest) m.logical b) = d
  have hc : serveTaken m b = setRole m.dest 0 0 false (setEngRt m.dest { engRt d m.dest with lone := 0 } d) := by rw [serveTaken, hd]
  have hm : Reroles _ d (serveTaken m b) := hc ▸ (setEngRt_reroles m.dest _ d).trans (setRole_reroles m.dest 0 0 false _)
  have kept (e l w r : Nat) (h : l < 32) := hm.2.1 (Fld.mk' (0x20 + e) 0x44 l w r) (serveFld_off e l w r h).1
  have apart : (logicalFld m.dest).key ≠ (servingFld m.dest).key := by
    simp only [logicalFld, servingFld, Fld.mk']
    omega
  refine ⟨hm.ev.trans (hd ▸ rfl), hm.migr.trans (hd ▸ rfl), (kept _ _ _ _ (by decide)).trans ?_, (kept _ _ _ _ (by decide)).trans ?_, ?_,
    fun o ho => (kept _ _ _ _ (by decide)).trans ?_⟩
  · rw [← hd]
    exact getF_setF_same _ _ _
  · rw [← hd]
    exact (getF_setF_ne _ _ _ _ apart).trans (getF_setF_same _ _ _)
  · rw [hc]
    exact (setRole_shows m.dest 0 0 false _).1
  · have far : (servingFld o).key ≠ (servingFld m.dest).key ∧ (servingFld o).key ≠ (logicalFld m.dest).key := by
      simp only [logicalFld, servingFld, Fld.mk']
      omega
    rw [← hd]
    exact (getF_setF_ne _ _ _ _ far.1).trans (getF_setF_ne _ _ _ _ far.2)

theorem listsMoved_shows (m : Migration) (n : Nat) (b : Blk) : (listsMoved m n b).ev = b.ev ∧ (listsMoved m n b).regs = b.regs ∧
    (listsMoved m n b).red.migr = b.red.migr.filter fun x => x.dest != m.dest := ⟨rfl, rfl, rfl⟩

/-- SERVE, the role and the lists after a migration. -/
theorem serveMoved_shows (hl : m.logical < 64) (hs : serverOf b m.logical ≠ some m.dest) : let c := serveMoved m b
    c.ev = b.ev ∧ getF c (servingFld m.dest) = 1 ∧ getF c (logicalFld m.dest) = m.logical ∧ roleOf c m.dest = 0 ∧
    (∀ o, serverOf b m.logical = some o → getF c (servingFld o) = 0) ∧ c.red.migr = b.red.migr.filter fun x => x.dest != m.dest := by
  intro c
  obtain ⟨ns, hr⟩ := releaseStandbys_reroles ((serverOf b m.logical).getD 68) m.dest b
  obtain ⟨hev, hmigr, hleft⟩ := leaveServer_shows (serverOf b m.logical) (releaseStandbys ((serverOf b m.logical).getD 68) m.dest b)
  have hc : c = listsMoved m _ (serveTaken m (leaveServer _ _)) := rfl
  generalize leaveServer (serverOf b m.logical) (releaseStandbys ((serverOf b m.logical).getD 68) m.dest b) = d at hev hmigr hleft hc
  obtain ⟨hev', hmigr', hserv, hlog, hrole, hother⟩ := serveTaken_shows m d
  obtain ⟨hev2, hregs, hlists⟩ := listsMoved_shows m ((serverOf b m.logical).getD 68) (serveTaken m d)
  rw [← hc] at hev2 hregs hlists
  refine ⟨hev2.trans (hev'.trans (hev.trans hr.ev)), (getF_of_regs hregs _).trans hserv,
    (getF_of_regs hregs _).trans (hlog.trans (Nat.mod_eq_of_lt hl)), (getF_of_regs hregs _).trans hrole, fun o ho => ?_, ?_⟩
  · rw [getF_of_regs hregs, hother o fun h => hs (h ▸ ho), hleft o ho]
  · rw [hlists, hmigr', hmigr, hr.migr]

theorem raiseIf_latched {p : Bool} {s k : Nat} {b : Blk} (h : b.mild [k]) (hs : (evGet b s).latch = true) (hne : s ≠ k) :
    (evGet (raiseIf p k b) s).latch = true := by
  cases p
  · exact hs
  · rw [show raiseIf true k b = raise k b from rfl, h.raised (List.mem_singleton.2 rfl), evGet_latch, if_neg hne]
    exact hs

theorem migrate_shows (hd : m.dest < 68) (hl : m.logical < 64) (h : b.mild [8 * m.dest + 6, 1128])
    (hs : serverOf b m.logical ≠ some m.dest) : let c := migrate m b
    serving c m.dest = true ∧ logicalOf c m.dest = m.logical ∧ (evGet c (8 * m.dest + 6)).latch = true ∧ roleOf c m.dest = 0 ∧
    (∀ o, serverOf b m.logical = some o → serving c o = false) ∧ c.red.migr = b.red.migr.filter fun x => x.dest != m.dest := by
  intro c
  obtain ⟨hev, hserv, hlog, hrole, hold, hmigr⟩ := serveMoved_shows hl hs
  obtain ⟨p, hc⟩ := migrate_eq m b
  have recd : EventOnly (serveMoved m b) (migrationRecorded m b) := nvmRecord_only _ _ _ _ _
  have hm : (migrationRecorded m b).mild [8 * m.dest + 6, 1128] := h.of_ev ((nvmRecord_ev _ _ _ _ _).trans hev)
  generalize migrationRecorded m b = d at hc recd hm
  have hm' : (raise (8 * m.dest + 6) d).mild [1128] := (hm.raise List.mem_cons_self).subset (by simp)
  have only : EventOnly (serveMoved m b) (raiseIf p 1128 (raise (8 * m.dest + 6) d)) :=
    (recd.trans (hm.only List.mem_cons_self)).trans (hm'.raiseIf (List.mem_singleton.2 rfl) p)
  have latched : (evGet (raiseIf p 1128 (raise (8 * m.dest + 6) d)) (8 * m.dest + 6)).latch = true :=
    raiseIf_latched hm' (raise_latches _ _) (by omega)
  generalize raiseIf p 1128 (raise (8 * m.dest + 6) d) = z at hc only latched
  have kept (e l w r : Nat) (hl : l < 32) : getF c (Fld.mk' (0x20 + e) 0x44 l w r) = getF (serveMoved m b) (Fld.mk' (0x20 + e) 0x44 l w r) := by
    obtain ⟨-, hp, hpage⟩ := serveFld_off e l w r hl
    rw [show c = _ from hc, getF_showPool hp, only.getF _ (apart_of_page hpage)]
  refine ⟨?_, (kept _ _ _ _ (by decide)).trans hlog, ?_, ?_, fun o ho => ?_, ?_⟩
  · rw [serving, kept _ _ _ _ (by decide)]
    exact congrArg (· == 1) hserv
  · rw [show c = _ from hc]
    exact latched
  · rw [roleOf, show c = _ from hc, getF_showPool (ofEngine_role _).notPool, only.getF _ (ofEngine_role _).apart]
    exact hrole
  · rw [serving, kept _ _ _ _ (by decide)]
    exact congrArg (· == 1) (hold o ho)
  · rw [show c = _ from hc, ← hmigr]
    exact congrArg (fun b => b.red.migr) only.eq

end

/-! ### ENG0.CHK_MIGRATE (R365) -/

theorem heard_of_hears {mask : Nat} {v : Word} {b : Blk} (h : hears mask v b = true) : b.heard = true := (Bool.and_eq_true_iff.1 h).1

theorem pageWrite_chkMigrate {v : Word} {b : Blk} {e : Nat} {es : List Nat} (h : hears 0x7FFFFFC0 v b = true) (hgo : v.bit 31 = true)
    (hm : b.sys.mode ∉ [Mode.safe, .shutdown]) (hc : ∀ c ∈ b.red.confirm, logicalOf b c.serving ≠ v.bits 0 6) (hav : standbys b = e :: es) :
    pageWrite 0x20 0xA8 v b = showPool (queueMigration (v.bits 0 6) e (b.tick + 9) 2
      (startCopy e 2 ((serverOf b (v.bits 0 6)).getD 0) (b.tick + 1) 0 b)) := by
  have hmode : b.sys.mode ∉ [Mode.reset, .boot, .safe, .shutdown] := by
    have := heard_modes (heard_of_hears h)
    simp only [List.mem_cons, List.not_mem_nil, or_false, not_or] at this hm ⊢
    exact ⟨this.1, this.2, hm.1, hm.2⟩
  have errs : chkMigrateErrs v b = [] := by
    rw [chkMigrateErrs, if_pos hgo, if_neg hmode, if_neg, List.nil_append]
    rw [hav]
    simpa using hc
  have own : ownErrs .m0 .eng 0 0xA8 v b = chkMigrateErrs v b := rfl
  refine (pageWrite_hears 0x20 0xA8 0x7FFFFFC0 .eng 0 v b (by decide) (by decide) rfl (by decide) h (own.trans errs)).trans ?_
  show chkMigrateDo v b = _
  rw [chkMigrateDo, hgo, hav]
  rfl

end Sys2Proof.Machine
end

open Sys2Proof Sys2Proof.Machine

/-- Settles O44: windows, copy phases and confirmations by what each engine of a fold shows, votes and segments case by case, and a
migration by its SERVE registers. -/
theorem standbysCheckAndReplaceEngines : Obligations.StandbysCheckAndReplaceEngines := by
  unfold Obligations.StandbysCheckAndReplaceEngines
  refine ⟨fun s v => ⟨fun h0 ht hw => ?_, fun h0 => ?_, fun c ha ht hr h0 hs => ?_, fun c ha hr hd ht => ?_, fun h hgo hm hc e es hav => ?_⟩,
    fun b g k r c hv => ?_, fun s e ht h0 hg => ⟨fun h63 => ?_, fun h63 hl => ?_, fun hf => ?_, fun hf hm => ?_⟩,
    fun b m hd hl h hs => migrate_shows hd hl h hs⟩
  · obtain ⟨frame, takes, rest⟩ := checkWindowStart_shows h0 ht hw
    exact ⟨_, rfl, congrArg (fun b => { s with b := b }) frame, takes, fun e _ he => rest e he⟩
  · obtain ⟨frame, shows⟩ := comparePhaseStart_shows h0
    exact ⟨_, rfl, congrArg (fun b => { s with b := b }) frame, shows⟩
  · obtain ⟨l, r, hk, hlr⟩ := ha
    obtain ⟨frame, shows⟩ := confirmationStart_shows hk hlr ht hr h0 hs
    exact ⟨_, rfl, congrArg (fun b => { s with b := b }) frame, shows⟩
  · obtain ⟨l, r, hk, hlr⟩ := ha
    obtain ⟨gone, frame, shows⟩ := confirmationEnd_shows hk hlr hr hd ht
    refine ⟨{ s with b := confirmationEnd s.b }, rfl, ?_⟩
    generalize confirmationEnd s.b = z at gone frame shows
    exact ⟨gone, congrArg (fun b => { s with b := b }) frame, shows⟩
  · exact congrArg (fun b => Host.Outcome.next { s with b := b }) (pageWrite_chkMigrate h hgo hm hc hav)
  · intro x y z w d
    have hw : w = voted g c x y z d := (checkSlot_vote hv).trans (vote_eq g k c r b)
    have tick : d.tick = b.tick := by
      obtain ⟨r1, h1⟩ := flipDone_regs r b g k
      obtain ⟨r2, h2⟩ := flipDone_regs r (flipDone r b g k) c.s1 k
      obtain ⟨r3, h3⟩ := flipDone_regs r (flipDone r (flipDone r b g k) c.s1 k) c.s2 k
      show (flipDone r (flipDone r (flipDone r b g k) c.s1 k) c.s2 k).tick = _
      rw [h3, h2, h1]
    rw [hw]
    refine ⟨voted_result.1, voted_result.2, fun hxy hxz => voted_agrees (.inr ⟨hxy, hxz⟩), fun hd => voted_agrees (.inl hd),
      fun hd hyz hxy => ?_, fun hd hxz hxy => voted_lower hd hxz hxy, fun hd hxy hxz => voted_higher hd hxy hxz⟩
    rw [voted_serving hd hyz hxy, ← tick]
    rfl
  · exact congrArg (fun b => Host.Outcome.next { s with b := b }) ((selftestSegmentEnd_agrees ht h0 hg).trans (if_neg h63))
  · exact congrArg (fun b => Host.Outcome.next { s with b := b })
      ((selftestSegmentEnd_agrees ht h0 hg).trans ((if_pos h63).trans (if_neg hl)))
  · exact congrArg (fun b => Host.Outcome.next { s with b := b }) ((selftestSegmentEnd_fails ht h0 hg).trans (if_pos hf))
  · exact ⟨_, rfl, selftestSegmentEnd_failsEngine ht h0 hg hf hm⟩

section
/-!
PROOF. The NVM under a raise and its reactions: what stands in it stays, and writes join its queue at the end (R347, R369 to R371).
-/
set_option autoImplicit false

namespace Sys2Proof.Machine

/-- What the NVM holds and its wear stay, and its queue grows at its end. -/
def NvmGrows (b c : Blk) : Prop :=
  c.nvm.mem = b.nvm.mem ∧ c.nvm.wear = b.nvm.wear ∧ ∃ q, c.nvm.queue = b.nvm.queue ++ q

section
variable {b c d : Blk}

theorem NvmGrows.of_nvm (h : c.nvm = b.nvm) : NvmGrows b c := by
  rw [NvmGrows, h]
  exact ⟨rfl, rfl, [], (List.append_nil _).symm⟩

theorem NvmGrows.trans (h : NvmGrows b c) (g : NvmGrows c d) : NvmGrows b d := by
  obtain ⟨hm, hw, q, hq⟩ := h
  obtain ⟨gm, gw, p, gp⟩ := g
  exact ⟨gm.trans hm, gw.trans hw, q ++ p, by rw [gp, hq, List.append_assoc]⟩

theorem NvmGrows.ite (p : Prop) [Decidable p] (h : NvmGrows b c) (g : NvmGrows b d) : NvmGrows b (if p then c else d) := by
  split
  · exact h
  · exact g

theorem foldl_nvmGrows {α : Type} (l : List α) (g : Blk → α → Blk) (b : Blk) (h : ∀ b x, NvmGrows b (g b x)) : NvmGrows b (l.foldl g b) := by
  induction l generalizing b with
  | nil => exact .of_nvm rfl
  | cons x t ih => exact (h b x).trans (ih _)

end

/-! ### What leaves the NVM alone -/

theorem trigOnce_nvm (k typ arg : Nat) (b : Blk) : (trigOnce k typ arg b).nvm = b.nvm := by
  unfold trigOnce
  split <;> rfl

theorem signalVec_nvm (v : Nat) (b : Blk) : (signalVec v b).nvm = b.nvm := by
  have signalled (b : Blk) : (signalMsix v b).nvm = b.nvm := by
    unfold signalMsix
    split <;> rfl
  unfold signalVec
  dsimp only
  split
  · exact signalled _
  · split <;> rfl

theorem capture_nvm (s c : Nat) (tx : Option (Nat × Nat × Nat)) (b : Blk) : (capture s c tx b).nvm = b.nvm := by
  unfold capture
  dsimp only
  repeat' split
  all_goals simp only [setFlag_nvm, incF_nvm, setF_nvm]

theorem sendCell_nvm (d : Port) (typ dest : Nat) (bcast : Bool) (arg : Nat) (ws : List Nat) (b : Blk) :
    (sendCell d typ dest bcast arg ws b).nvm = b.nvm := by
  unfold sendCell
  split
  · cases d <;> rfl
  · rfl

theorem tellEvent_nvm (ws : List Word) (x : List Sub × Blk) (s : Sub) : (tellEvent ws x s).2.nvm = x.2.nvm := by
  unfold tellEvent
  dsimp only
  repeat' split
  all_goals rfl

theorem announceEvent_nvm (s c : Nat) (b : Blk) : (announceEvent s c b).nvm = b.nvm := by
  have told (ws : List Word) (l : List Sub) (x : List Sub × Blk) : (l.foldl (tellEvent ws) x).2.nvm = x.2.nvm := by
    induction l generalizing x with
    | nil => rfl
    | cons y t ih => exact (ih _).trans (tellEvent_nvm ws x y)
  unfold announceEvent
  dsimp only
  split
  · rfl
  · split
    · rw [sendCell_nvm]
      exact told _ _ _
    · exact told _ _ _

theorem updElems_nvm (es : List Nat) (f : Nat → Elem → Elem) (b : Blk) : (updElems es f b).nvm = b.nvm :=
  foldl_keeps Blk.nvm _ _ _ fun _ _ => rfl

theorem disarm_nvm (b : Blk) : (disarm b).nvm = b.nvm := updElems_nvm _ _ _

theorem sendUp3_nvm (typ : Nat) (seq : Word) (ws : List Word) (b : Blk) : (sendUp3 typ seq ws b).nvm = b.nvm :=
  foldl_keeps Blk.nvm _ _ _ fun _ _ => sendCell_nvm _ _ _ _ _ _ _

theorem sendDown3_nvm (typ : Nat) (seq : Word) (ws : List Word) (b : Blk) : (sendDown3 typ seq ws b).nvm = b.nvm :=
  foldl_keeps Blk.nvm _ _ _ fun _ _ => sendCell_nvm _ _ _ _ _ _ _

theorem postRecord_nvm (ring : Bool) (peer : Option Peer) (msg : Word) (ws : List Word) (b : Blk) :
    (postRecord ring peer msg ws b).nvm = b.nvm := by
  have added (b : Blk) : (addCpl ring ws b).nvm = b.nvm := by
    unfold addCpl
    split <;> rfl
  unfold postRecord
  refine (foldl_keeps Blk.nvm _ _ _ fun b s => ?_).trans ?_
  · split <;> rfl
  · split <;> exact added _

theorem dropFrame_nvm (i c : Nat) (b : Blk) : (dropFrame i c b).nvm = b.nvm := by
  unfold dropFrame
  split
  · rfl
  · dsimp only
    split
    · exact sendUp3_nvm _ _ _ _
    · exact postRecord_nvm _ _ _ _ _

theorem withdrawAll_nvm (b : Blk) : (withdrawAll b).nvm = b.nvm := by
  have shown (d : Blk) : (showQueue d).nvm = d.nvm := rfl
  have told (seq : Word) (r m c : Nat) (d : Blk) : (show2pc seq r m c d).nvm = d.nvm := rfl
  unfold withdrawAll withdrawFrom
  split
  · rfl
  · dsimp only
    rw [shown, foldl_keeps Blk.nvm _ _ _ fun _ _ => dropFrame_nvm _ _ _, dropFrame_nvm]
    repeat' split
    all_goals simp only [told, sendDown3_nvm, disarm_nvm]

theorem dropReq_nvm (b : Blk) : (dropReq b).nvm = b.nvm := by
  unfold dropReq
  split <;> rfl

theorem clearBanks_nvm (b : Blk) : (clearBanks b).nvm = b.nvm := by
  unfold clearBanks
  refine (foldl_keeps Blk.nvm _ _ _ fun b n => ?_).trans (updElems_nvm _ _ b)
  dsimp only
  rw [setBank_nvm]
  split
  · exact updElems_nvm _ _ _
  · rfl

theorem enterMode_nvm (m : Mode) (b : Blk) : (enterMode m b).nvm = b.nvm := by
  have set (d : Blk) : (setMode m d).nvm = d.nvm := by
    unfold setMode
    split <;> rfl
  have emptied (d : Blk) : (emptyFreeze d).nvm = d.nvm := updElems_nvm _ _ _
  unfold enterMode
  dsimp only
  rw [set]
  split
  · rw [emptied, withdrawAll_nvm]
  · rfl

/-! ### What adds to its queue -/

theorem nvmRecord_nvmGrows (k s c d : Nat) (b : Blk) : NvmGrows b (nvmRecord k s c d b) := ⟨rfl, rfl, _, rfl⟩

theorem nvmCounters_nvmGrows (b : Blk) : NvmGrows b (nvmCounters b) := ⟨rfl, rfl, _, rfl⟩

theorem lifeAdd_nvmGrows (w n : Nat) (b : Blk) : NvmGrows b (lifeAdd w n b) := ⟨rfl, rfl, [], (List.append_nil _).symm⟩

theorem latch_nvmGrows (tx : Option (Nat × Nat × Nat)) (b : Blk) (s : Nat) : NvmGrows b (latch tx b s) := by
  have latched (r : EvRec) : NvmGrows b (trigOnce (b.now + 1) 5 s (evSet s r b)) := .of_nvm (trigOnce_nvm _ _ _ _)
  have logged (p : Prop) [Decidable p] (c : Blk) :
      NvmGrows c (if p then nvmRecord 6 s (evGet b s).cls 0 { c with ev := { c.ev with lastLog := some c.q } } else c) :=
    .ite p (NvmGrows.trans (.of_nvm rfl) (nvmRecord_nvmGrows _ _ _ _ _)) (.of_nvm rfl)
  exact (((NvmGrows.ite _ ((latched _).trans (.of_nvm (signalVec_nvm _ _))) (latched _)).trans
    (.of_nvm (capture_nvm _ _ _ _))).trans (logged _ _)).trans (.of_nvm (announceEvent_nvm _ _ _))

theorem halted_nvm (b : Blk) : (clearBanks (withdrawAll (dropReq b))).nvm = b.nvm := by
  rw [clearBanks_nvm, withdrawAll_nvm, dropReq_nvm]

theorem safeActions_nvmGrows (b : Blk) : NvmGrows b (safeActions b) := by
  unfold safeActions
  split
  · split
    · exact .of_nvm (clearBanks_nvm b)
    · exact .of_nvm rfl
  · exact (NvmGrows.of_nvm ((enterMode_nvm .safe _).trans (halted_nvm b))).trans (lifeAdd_nvmGrows _ _ _)

theorem shutdownActions_nvmGrows (s : Nat) (b : Blk) : NvmGrows b (shutdownActions s b) := by
  unfold shutdownActions
  split
  · exact .of_nvm rfl
  · have abandoned (p : Prop) [Decidable p] : NvmGrows b (if p then setF Reg.SYS.BOOT_STAT.RESULT 4 b else b) :=
      .ite p (.of_nvm rfl) (.of_nvm rfl)
    have recorded (c : Blk) (n : Nat) : NvmGrows c (enterMode .shutdown (nvmCounters (nvmRecord 1 s 4 n (lifeAdd 4 1 c)))) :=
      (((lifeAdd_nvmGrows 4 1 c).trans (nvmRecord_nvmGrows 1 s 4 n _)).trans (nvmCounters_nvmGrows _)).trans
        (.of_nvm (enterMode_nvm .shutdown _))
    have stopped (c : Blk) : NvmGrows c { setF Reg.ACQ.RUN.RUN 0 c with acq := { c.acq with runReq := some false } } := .of_nvm rfl
    exact (((abandoned _).trans (.of_nvm (halted_nvm _))).trans (recorded _ _)).trans (stopped _)

theorem raiseTx_nvmGrows (ss : List Nat) (tx : Option (Nat × Nat × Nat)) (b : Blk) : NvmGrows b (raiseTx ss tx b) := by
  have latches (tx : Option (Nat × Nat × Nat)) (l : List Nat) (b : Blk) : NvmGrows b (l.foldl (latch tx) b) :=
    foldl_nvmGrows _ _ _ fun b s => latch_nvmGrows tx b s
  have reacts (c first : Nat) (b : Blk) : NvmGrows b (react c first b) :=
    .ite _ (shutdownActions_nvmGrows first b) (.ite _ (safeActions_nvmGrows b) (.of_nvm rfl))
  unfold raiseTx
  exact .ite _ (.of_nvm rfl) (((latches tx _ b).trans (reacts _ _ _)).trans (latches none _ _))

/-- A raise, whatever it reacts with, adds writes at the end of the NVM's queue and changes nothing in it. -/
theorem raise_nvmGrows (s : Nat) (b : Blk) : NvmGrows b (raise s b) :=
  (raiseTx_nvmGrows [s] none b).trans (NvmGrows.trans (.of_nvm rfl) (raiseTx_nvmGrows _ none _))

end Sys2Proof.Machine
end

section
/-!
PROOF. Writes of the NVM (O45): one that verifies, one that is tried again or fails, the counters and the key; and the injections.
-/
set_option autoImplicit false

namespace Sys2Proof.Machine

/-! ### Bytes written in a row -/

theorem get_setRow_ne (l : List Byte) (m : Tbl Byte) (a n k : Nat) (h : k < a + n ∨ a + n + l.length ≤ k) :
    ((l.zipIdx n).foldl (fun m x => m.set 0 (a + x.2) x.1) m).get 0 k = m.get 0 k := by
  induction l generalizing m n with
  | nil => rfl
  | cons x t ih =>
    rw [List.length_cons] at h
    rw [List.zipIdx_cons, List.foldl_cons, ih _ _ (by omega)]
    exact Tbl.get_set_ne _ _ _ _ _ _ (by omega)

theorem get_setRow (l : List Byte) (m : Tbl Byte) (a n i : Nat) (h : i < l.length) :
    ((l.zipIdx n).foldl (fun m x => m.set 0 (a + x.2) x.1) m).get 0 (a + n + i) = l.getD i 0 := by
  induction l generalizing m n i with
  | nil => exact absurd h (Nat.not_lt_zero i)
  | cons x t ih =>
    rw [List.zipIdx_cons, List.foldl_cons]
    cases i with
    | zero =>
      rw [get_setRow_ne _ _ _ _ _ (by omega)]
      exact Tbl.get_set_same _ _ _ _
    | succ i =>
      rw [show a + n + (i + 1) = a + (n + 1) + i by omega, ih _ _ _ (Nat.lt_of_succ_lt_succ h)]
      rfl

/-! ### A write that ends (R370) -/

section
variable {b : Blk} {w : NvmWrite} {ws : List NvmWrite}

/-- The write's bytes and its wear. -/
def nvmWritten (w : NvmWrite) (b : Blk) : Blk :=
  { b with nvm := { b.nvm with
    wear := b.nvm.wear.set 0 w.wearIx (b.nvm.wear.get 0 w.wearIx + 1)
    mem := (w.bytes.zipIdx).foldl (fun m x => m.set 0 (w.addr + x.2) x.1) b.nvm.mem } }

theorem nvmStore_nvmGrows (w : NvmWrite) (b : Blk) : NvmGrows (nvmWritten w b) (nvmStore w b) := by
  have worn (p : Prop) [Decidable p] (n : Nat) (c : Blk) : NvmGrows c (if p then setF Reg.NVM.WEAR.WRITES n c else c) :=
    .ite p (.of_nvm rfl) (.of_nvm rfl)
  have said (p : Prop) [Decidable p] (c : Blk) :
      NvmGrows c (if p then raise 1131 { c with nvm := { c.nvm with wearSaid := true } } else c) :=
    .ite p (NvmGrows.trans (c := { c with nvm := { c.nvm with wearSaid := true } }) ⟨rfl, rfl, [], (List.append_nil _).symm⟩
      (raise_nvmGrows _ _)) (.of_nvm rfl)
  exact (worn _ _ _).trans (said _ _)

/-- The registers of the log as its record stands. -/
def logShown (w : NvmWrite) (b : Blk) : Blk :=
  if w.log then
    setF Reg.NVM.LOG_COUNT.COUNT (min 480 (getF b Reg.NVM.LOG_COUNT.COUNT + 1))
      (setF Reg.NVM.LOG_SEQ.SEQN ((bytesWords w.bytes).getD 1 0).toNat (lifeAdd 15 1 b))
  else b

theorem logShown_nvmGrows (w : NvmWrite) (b : Blk) : NvmGrows b (logShown w b) :=
  .ite _ ⟨rfl, rfl, [], (List.append_nil _).symm⟩ (.of_nvm rfl)

theorem logShown_mem (w : NvmWrite) (b : Blk) : (logShown w b).shadow = b.shadow ∧ (logShown w b).live = b.live := by
  unfold logShown
  split <;> exact ⟨rfl, rfl⟩

section
variable (hq : b.nvm.queue = w :: ws) (hf : flag b Reg.FTEST.ECC.GO = true → getF b Reg.FTEST.ECC.TARGET ≠ 7)
include hq hf

theorem nvmWriteDone_verified : nvmWriteDone true b = nvmNext (logShown w (nvmStore w b)) := by
  have unflawed : (flag b Reg.FTEST.ECC.GO && getF b Reg.FTEST.ECC.TARGET == 7) = false := by
    rw [Bool.and_eq_false_imp]
    exact fun h => beq_eq_false_iff_ne.2 (hf h)
  rw [nvmWriteDone, hq]
  dsimp only
  rw [unflawed]
  rfl

theorem nvmWriteDone_unverified : nvmWriteDone false b =
    if w.retry then nvmNext (raise 1130 (setFlag Reg.NVM.STAT.FAIL true b)) else nvmRetry w ws b := by
  have unflawed : (flag b Reg.FTEST.ECC.GO && getF b Reg.FTEST.ECC.TARGET == 7) = false := by
    rw [Bool.and_eq_false_imp]
    exact fun h => beq_eq_false_iff_ne.2 (hf h)
  rw [nvmWriteDone, hq]
  dsimp only
  rw [unflawed]
  rfl

end

theorem nvmNext_shows (b : Blk) : (nvmNext b).nvm.queue = b.nvm.queue.drop 1 ∧
    flag (nvmNext b) Reg.NVM.STAT.BUSY = !(nvmNext b).nvm.queue.isEmpty ∧ (nvmNext b).nvm.mem = b.nvm.mem ∧
    (nvmNext b).nvm.wear = b.nvm.wear ∧ (nvmNext b).ev = b.ev ∧ (nvmNext b).shadow = b.shadow ∧ (nvmNext b).live = b.live ∧
    getF (nvmNext b) Reg.NVM.STAT.FAIL = getF b Reg.NVM.STAT.FAIL := by
  refine ⟨rfl, ?_, rfl, rfl, rfl, rfl, rfl, getF_setF_ne _ _ _ _ (by decide)⟩
  have shown (p : Bool) (c : Blk) : flag (setFlag Reg.NVM.STAT.BUSY p c) Reg.NVM.STAT.BUSY = p := by
    rw [flag, setFlag, getF_setF_same]
    cases p <;> rfl
  exact shown _ _

/-- The queue behind the write at its front, with what joined it. -/
theorem nvmNext_queue {c : Blk} (hq : b.nvm.queue = w :: ws) (h : NvmGrows b c) :
    (nvmNext c).nvm.queue.take ws.length = ws ∧ ws.length ≤ (nvmNext c).nvm.queue.length := by
  obtain ⟨-, -, q, hc⟩ := h
  rw [(nvmNext_shows c).1, hc, hq, List.cons_append, List.drop_one, List.tail_cons, List.take_left, List.length_append]
  exact ⟨rfl, Nat.le_add_right _ _⟩

theorem nvmWriteDone_stands (hq : b.nvm.queue = w :: ws)
    (hf : flag b Reg.FTEST.ECC.GO = true → getF b Reg.FTEST.ECC.TARGET ≠ 7) : let c := nvmWriteDone true b
    c.nvm.queue.length ≥ ws.length ∧ c.nvm.queue.take ws.length = ws ∧
    (∀ i, i < w.bytes.length → c.nvm.mem.get 0 (w.addr + i) = w.bytes.getD i 0) ∧
    (∀ a, a < w.addr ∨ w.addr + w.bytes.length ≤ a → c.nvm.mem.get 0 a = b.nvm.mem.get 0 a) ∧
    c.nvm.wear.get 0 w.wearIx = b.nvm.wear.get 0 w.wearIx + 1 ∧ flag c Reg.NVM.STAT.BUSY = !c.nvm.queue.isEmpty ∧ KeepsMemory b c := by
  intro c
  have hc : c = nvmNext (logShown w (nvmStore w b)) := nvmWriteDone_verified hq hf
  have grows := (nvmStore_nvmGrows w b).trans (logShown_nvmGrows w _)
  have bytes : (logShown w (nvmStore w b)).shadow = b.shadow ∧ (logShown w (nvmStore w b)).live = b.live := by
    obtain ⟨hs, hl⟩ := logShown_mem w (nvmStore w b)
    exact ⟨hs.trans (nvmStore_mem w b).1, hl.trans (nvmStore_mem w b).2⟩
  generalize logShown w (nvmStore w b) = d at hc grows bytes
  obtain ⟨hqueue, hlen⟩ := nvmNext_queue (b := nvmWritten w b) hq grows
  obtain ⟨-, hbusy, hmem, hwear, -, hs, hl, -⟩ := nvmNext_shows d
  obtain ⟨gmem, gwear, -⟩ := grows
  rw [hc]
  refine ⟨hlen, hqueue, fun i hi => ?_, fun a ha => ?_, ?_, hbusy, .of_eq (hs.trans bytes.1) (hl.trans bytes.2)⟩
  · rw [hmem, gmem]
    exact get_setRow w.bytes b.nvm.mem w.addr 0 i hi
  · rw [hmem, gmem]
    exact get_setRow_ne w.bytes b.nvm.mem w.addr 0 a ha
  · rw [hwear, gwear, nvmWritten, Tbl.get_set_same]

theorem nvmWriteDone_fails (hq : b.nvm.queue = w :: ws)
    (hf : flag b Reg.FTEST.ECC.GO = true → getF b Reg.FTEST.ECC.TARGET ≠ 7) (hr : w.retry = true) :
    let c := nvmWriteDone false b
    (evGet c 1130).latch = true ∧ flag c Reg.NVM.STAT.FAIL = true ∧ c.nvm.mem = b.nvm.mem ∧ c.nvm.queue.take ws.length = ws := by
  intro c
  have hc : c = nvmNext (raise 1130 (setFlag Reg.NVM.STAT.FAIL true b)) := (nvmWriteDone_unverified hq hf).trans (if_pos hr)
  have shown : getF (setFlag Reg.NVM.STAT.FAIL true b) Reg.NVM.STAT.FAIL = 1 := getF_setF_same _ _ _
  have nvm : (setFlag Reg.NVM.STAT.FAIL true b).nvm = b.nvm := rfl
  generalize setFlag Reg.NVM.STAT.FAIL true b = d at hc shown nvm
  have grows : NvmGrows b (raise 1130 d) := (NvmGrows.of_nvm nvm).trans (raise_nvmGrows 1130 d)
  have fail : getF (raise 1130 d) Reg.NVM.STAT.FAIL = 1 := by
    rw [raise_raiseWrites 1130 d _ (by decide), shown]
  have latched := raise_latches 1130 d
  generalize raise 1130 d = z at hc grows fail latched
  obtain ⟨-, -, hmem, -, hev, -, -, hfail⟩ := nvmNext_shows z
  rw [hc]
  refine ⟨?_, ?_, hmem.trans grows.1, (nvmNext_queue hq grows).1⟩
  · rw [evGet_of_tab (congrArg EvSt.tab hev)]
    exact latched
  · rw [flag, hfail, fail]
    rfl

/-! ### A log record moved on (R368, R370) -/

theorem bytesWords_wordBytes (w : Word) (t : List Byte) : bytesWords (wordBytes w ++ t) = w :: bytesWords t := by
  have joined (n : Nat) (h : n < 2 ^ 32) :
      n % 2 ^ 8 + 256 * (n / 256 % 2 ^ 8) + 65536 * (n / 65536 % 2 ^ 8) + 16777216 * (n / 16777216 % 2 ^ 8) = n := by omega
  rw [wordBytes]
  simp only [List.cons_append, List.nil_append, bytesWords]
  rw [BitVec.toNat_ofNat, BitVec.toNat_ofNat, BitVec.toNat_ofNat, BitVec.toNat_ofNat, joined w.toNat w.isLt, BitVec.ofNat_toNat,
    BitVec.setWidth_eq]

theorem bytesWords_words (ws : List Word) (t : List Byte) : bytesWords (ws.flatMap wordBytes ++ t) = ws ++ bytesWords t := by
  induction ws with
  | nil => rfl
  | cons w ws ih => rw [List.flatMap_cons, List.append_assoc, bytesWords_wordBytes, ih, List.cons_append]

theorem bytesWords_length (l : List Byte) : (bytesWords l).length = l.length / 4 := by
  induction l using bytesWords.induct with
  | case1 a b c d t ih =>
    rw [bytesWords, List.length_cons, ih]
    simp only [List.length_cons]
    omega
  | case2 l h =>
    rw [bytesWords, List.length_nil]
    · match l with
      | [] => rfl
      | [_] => simp
      | [_, _] => simp
      | [_, _, _] => simp
      | a :: b :: c :: d :: t => exact absurd rfl (h a b c d t)
    · exact h

theorem bytesWords_recordWrite (ws : List Nat) :
    ∃ crc, bytesWords (recordWrite ws).bytes = ws.map (BitVec.ofNat 32) ++ [crc] := by
  refine ⟨BitVec.ofNat 32 (crc32 (ws.flatMap fun w => wordBytes (BitVec.ofNat 32 w))), ?_⟩
  have := bytesWords_words (ws.map (BitVec.ofNat 32)) (wordBytes (BitVec.ofNat 32 (crc32 (ws.flatMap fun w => wordBytes (BitVec.ofNat 32 w)))))
  rw [List.flatMap_map] at this
  refine this.trans (congrArg _ ?_)
  rw [← List.append_nil (wordBytes _), bytesWords_wordBytes]
  rfl

/-- A record of 32 bytes moved on: the next SEQN and its slot, the other words as they were. -/
theorem later_record (h32 : w.bytes.length = 32) (hl : w.log = true) :
    let n := (((bytesWords w.bytes).getD 1 0).toNat + 1) % 2 ^ 32
    w.later.addr = 0x400 + 32 * (n % 480) ∧ ((bytesWords w.later.bytes).getD 1 0).toNat = n ∧
    ∀ i < 7, i ≠ 1 → (bytesWords w.later.bytes).getD i 0 = (bytesWords w.bytes).getD i 0 := by
  intro n
  have words : (bytesWords w.bytes).length = 8 := by rw [bytesWords_length, h32]
  generalize hx : bytesWords w.bytes = xs at words n
  obtain ⟨a0, a1, a2, a3, a4, a5, a6, a7, rfl⟩ : ∃ a b c d e f g h, xs = [a, b, c, d, e, f, g, h] := by
    match xs, words with
    | [a, b, c, d, e, f, g, h], _ => exact ⟨a, b, c, d, e, f, g, h, rfl⟩
  have hn : n = (a1.toNat + 1) % 2 ^ 32 := congrArg (fun l => ((l.getD 1 0).toNat + 1) % 2 ^ 32) hx
  have later : w.later = { recordWrite [a0.toNat, n, a2.toNat, a3.toNat, a4.toNat, a5.toNat, a6.toNat] with retry := w.retry } := by
    rw [NvmWrite.later, if_pos hl, hx, hn]
    rfl
  obtain ⟨crc, hc⟩ := bytesWords_recordWrite [a0.toNat, n, a2.toNat, a3.toNat, a4.toNat, a5.toNat, a6.toNat]
  have hlt : n < 2 ^ 32 := Nat.mod_lt _ (by decide)
  rw [later]
  dsimp only
  rw [hc]
  refine ⟨rfl, ?_, fun i hi hne => ?_⟩
  · exact Nat.mod_eq_of_lt hlt
  · simp only [List.map_cons, List.map_nil, BitVec.ofNat_toNat, BitVec.setWidth_eq]
    match i, hi with
    | 0, _ => rfl
    | 1, _ => exact absurd rfl hne
    | 2, _ => rfl
    | 3, _ => rfl
    | 4, _ => rfl
    | 5, _ => rfl
    | 6, _ => rfl

end

/-! ### The key (R372) -/

/-- The staged key. -/
def stagedKey (b : Blk) : List Byte := (List.range 8).flatMap fun i => wordBytes (BitVec.ofNat 32 (getF b (Reg.NVM.KEY.KEY i)))

theorem pageWrite_keyProg {v : Word} {b : Blk} (h : hears 0xFFFFFFFE v b = true) (hgo : v.bit 0 = true) (hm : b.sys.mode = .idle)
    (hk : flag b Reg.NVM.STAT.KEY_SET = false) : pageWrite 0x16 0x80 v b = keyDo v b := by
  have errs : keyErrs v b = [] := by
    rw [keyErrs, if_pos hgo, hm, hk]
    rfl
  have own : ownErrs .m0 .nvm 0 0x80 v b = keyErrs v b := (List.append_nil _)
  exact pageWrite_hears 0x16 0x80 0xFFFFFFFE .nvm 0 v b (by decide) (by decide) rfl (by decide) h (own.trans errs)

theorem getF_clearKeys {i : Nat} (l : List Nat) (b : Blk) (h : i ∈ l ∨ getF b (Reg.NVM.KEY.KEY i) = 0) :
    getF (l.foldl (fun b i => setF (Reg.NVM.KEY.KEY i) 0 b) b) (Reg.NVM.KEY.KEY i) = 0 := by
  induction l generalizing b with
  | nil => exact h.resolve_left List.not_mem_nil
  | cons x t ih =>
    refine ih _ ?_
    by_cases hx : i = x
    · rw [hx]
      exact .inr (getF_setF_same _ _ _)
    · have apart : (Reg.NVM.KEY.KEY i).key ≠ (Reg.NVM.KEY.KEY x).key := by
        simp only [Reg.NVM.KEY.KEY, Fld.mk']
        omega
      refine h.imp (fun hm => (List.mem_cons.1 hm).resolve_left hx) fun h0 => ?_
      rw [getF_setF_ne _ _ _ _ apart, h0]

theorem keyDo_programs {v : Word} {b : Blk} (hgo : v.bit 0 = true) : let c := keyDo v b
    flag c Reg.NVM.STAT.KEY_SET = true ∧ c.nvm.keySet = true ∧ (∀ i, i < 8 → getF c (Reg.NVM.KEY.KEY i) = 0) ∧
    c.nvm.queue = b.nvm.queue ++ [{ addr := 0x40, bytes := stagedKey b, wearIx := 1001, log := false, retry := false }] := by
  intro c
  have cleared (i : Nat) (hi : i < 8) := getF_clearKeys (List.range 8) b (.inl (List.mem_range.2 hi))
  have nvm : ((List.range 8).foldl (fun b i => setF (Reg.NVM.KEY.KEY i) 0 b) b).nvm = b.nvm :=
    foldl_keeps Blk.nvm _ _ _ fun _ _ => rfl
  have hc : c = keyDo v b := rfl
  rw [keyDo, if_pos hgo] at hc
  dsimp only at hc
  generalize (List.range 8).foldl (fun b i => setF (Reg.NVM.KEY.KEY i) 0 b) b = d at hc cleared nvm
  rw [nvm] at hc
  rw [hc]
  refine ⟨?_, rfl, fun i hi => ?_, rfl⟩
  · rw [flag, setFlag, getF_setF_ne _ _ _ _ (by decide), setFlag, getF_setF_same]
    rfl
  · have apart : (Reg.NVM.KEY.KEY i).key ≠ Reg.NVM.STAT.BUSY.key ∧ (Reg.NVM.KEY.KEY i).key ≠ Reg.NVM.STAT.KEY_SET.key := by
      simp only [Reg.NVM.KEY.KEY, Reg.NVM.STAT.BUSY, Reg.NVM.STAT.KEY_SET, Fld.mk']
      omega
    rw [setFlag, getF_setF_ne _ _ _ _ apart.1, setFlag, getF_setF_ne _ _ _ _ apart.2]
    exact cleared i hi

/-! ### Injections (R374, R382) -/

section
variable {off : Nat} {v : Word} {b : Blk}

theorem ownErrs_ftest (h40 : 0x40 ≤ off) : ownErrs .m0 .ftest 0 off v b = ftestErrs b := if_neg (Nat.not_lt.2 h40)

theorem pageWrite_ftest (hm : b.sys.mode = .factoryTest) (hr : v.toNat &&& Pg.ftest.reserved 0 off = 0) (h40 : 0x40 ≤ off)
    (ho : off < 4096 ∧ off % 4 = 0) : pageWrite 0xF0 off v b = regDo .ftest 0 0xF0 off v b :=
  pageWrite_effect (g := .ftest) (i := 0) rfl (by rw [Blk.heard, hm]; rfl) hr ((ownErrs_ftest h40).trans (if_pos hm)) ho

theorem pageWrite_ftest_refused (hb : b.heard = true) (hm : b.sys.mode ≠ .factoryTest) (hr : v.toNat &&& Pg.ftest.reserved 0 off = 0)
    (h40 : 0x40 ≤ off) (ho : off < 4096 ∧ off % 4 = 0) (hs : off ≠ 0x74) : pageWrite 0xF0 off v b = reject 0xF0 off 2 .m0 b :=
  pageWrite_rejected (g := .ftest) (i := 0) rfl hb hr ((ownErrs_ftest h40).trans (if_neg hm)) (by decide) ho hs

end

end Sys2Proof.Machine
end

open Sys2Proof Sys2Proof.Machine

/-- Settles O45: a write that ends by what joins the queue behind it, one tried again by its record moved on, the key by its staging
words, and the injections by the page's one check. -/
theorem nvmWritesAndInjections : Obligations.NvmWritesAndInjections := by
  unfold Obligations.NvmWritesAndInjections
  have next {s : State} {b c : Blk} (h : b = c) :
      (.next { s with b := b } : Host.Outcome State Fault Refusal) = .next { s with b := c } := h ▸ rfl
  refine ⟨fun s w ws v => ⟨fun h => ?_, fun h hr hl => ?_, fun h hr hl => ?_, later_record, fun h hr _ => ?_, fun hi hp hm => ?_,
    fun h hgo hm hk => ?_⟩, fun s v => ⟨fun hm => ?_, fun hb hm => ?_⟩⟩
  · exact ⟨_, rfl, nvmWriteDone_stands h.1 h.2⟩
  · refine next ((nvmWriteDone_unverified h.1 h.2).trans ((if_neg (by simp [hr])).trans ?_))
    simp only [nvmRetry, NvmWrite.later, hl, Bool.false_eq_true, if_false]
  · refine next ((nvmWriteDone_unverified h.1 h.2).trans ((if_neg (by simp [hr])).trans ?_))
    simp only [nvmRetry, hl, if_true]
  · exact ⟨_, rfl, nvmWriteDone_fails h.1 h.2 hr⟩
  · exact next (if_pos ⟨hi, hp, hm⟩)
  · have run : exec (.keyProg v) s = .next { s with b := keyDo v s.b } := next (pageWrite_keyProg h hgo hm hk)
    exact ⟨_, run, keyDo_programs hgo⟩
  · have armed (off : Nat) (h40 : 0x40 ≤ off) (ho : off < 4096 ∧ off % 4 = 0) (h : v.toNat &&& Pg.ftest.reserved 0 off = 0) :=
      next (s := s) (pageWrite_ftest hm h h40 ho)
    exact ⟨armed 0x40 (by decide) (by decide), armed 0x44 (by decide) (by decide), armed 0x48 (by decide) (by decide),
      armed 0x4C (by decide) (by decide), armed 0x50 (by decide) (by decide)⟩
  · have refused (off : Nat) (h40 : 0x40 ≤ off) (ho : off < 4096 ∧ off % 4 = 0) (hs : off ≠ 0x74)
        (h : v.toNat &&& Pg.ftest.reserved 0 off = 0) := next (s := s) (pageWrite_ftest_refused hb hm h h40 ho hs)
    exact ⟨refused 0x40 (by decide) (by decide) (by decide), refused 0x44 (by decide) (by decide) (by decide),
      refused 0x48 (by decide) (by decide) (by decide), refused 0x4C (by decide) (by decide) (by decide),
      refused 0x50 (by decide) (by decide) (by decide)⟩

section
/-!
PROOF. What no raise and no reaction touches: readings, tables, the memories and the services' own state (R347 to R354, R453).
-/
set_option autoImplicit false

namespace Sys2Proof.Machine

/-- The block without what raises and their reactions move: modes, registers, events, elements, banks, the queue, the NVM, the
trigger engine's marks, cells, messages and records. -/
def Blk.rest (b : Blk) : Blk :=
  { b with sys := Blk.reset.sys, regs := [], ev := Blk.reset.ev, elems := [], banks := [], sched := Blk.reset.sched, nvm := Blk.reset.nvm,
           acq := Blk.reset.acq, trig := Blk.reset.trig, glew := Blk.reset.glew, host := Blk.reset.host, eth := Blk.reset.eth, sent := [] }

section
variable {b c : Blk}

theorem EventOnly.rest (h : EventOnly b c) : c.rest = b.rest := by
  obtain ⟨v, r, n, k, o, e, l, rfl, -⟩ := h
  rfl

theorem hk_of_rest (h : c.rest = b.rest) : c.hk = b.hk := show c.rest.hk = b.rest.hk from congrArg Blk.hk h

end

@[simp] theorem setF_rest (f : Fld) (v : Nat) (b : Blk) : (setF f v b).rest = b.rest := rfl

@[simp] theorem updElems_rest (es : List Nat) (f : Nat → Elem → Elem) (b : Blk) : (updElems es f b).rest = b.rest :=
  foldl_keeps Blk.rest _ _ _ fun _ _ => rfl

@[simp] theorem emptyFreeze_rest (b : Blk) : (emptyFreeze b).rest = b.rest := updElems_rest _ _ _

@[simp] theorem disarm_rest (b : Blk) : (disarm b).rest = b.rest := updElems_rest _ _ _

@[simp] theorem sendCell_rest (d : Port) (typ dest : Nat) (bcast : Bool) (arg : Nat) (ws : List Nat) (b : Blk) :
    (sendCell d typ dest bcast arg ws b).rest = b.rest := (sendCell_only d typ dest bcast arg ws b).rest

@[simp] theorem sendUp3_rest (typ : Nat) (seq : Word) (ws : List Word) (b : Blk) : (sendUp3 typ seq ws b).rest = b.rest :=
  foldl_keeps Blk.rest _ _ _ fun _ _ => sendCell_rest _ _ _ _ _ _ _

@[simp] theorem sendDown3_rest (typ : Nat) (seq : Word) (ws : List Word) (b : Blk) : (sendDown3 typ seq ws b).rest = b.rest :=
  foldl_keeps Blk.rest _ _ _ fun _ _ => sendCell_rest _ _ _ _ _ _ _

@[simp] theorem show2pc_rest (seq : Word) (res member code : Nat) (b : Blk) : (show2pc seq res member code b).rest = b.rest := rfl

@[simp] theorem showQueue_rest (b : Blk) : (showQueue b).rest = b.rest := by
  rw [showQueue, setFlag, setF_rest, setFlag, setF_rest, setFlag, setF_rest, setF_rest]

@[simp] theorem addCpl_rest (ring : Bool) (ws : List Word) (b : Blk) : (addCpl ring ws b).rest = b.rest := by
  unfold addCpl
  split <;> rfl

@[simp] theorem postRecord_rest (ring : Bool) (peer : Option Peer) (msg : Word) (ws : List Word) (b : Blk) :
    (postRecord ring peer msg ws b).rest = b.rest := by
  unfold postRecord
  refine (foldl_keeps Blk.rest _ _ _ fun b s => ?_).trans ?_
  · split <;> rfl
  · split <;> exact addCpl_rest _ _ _

@[simp] theorem dropFrame_rest (i c : Nat) (b : Blk) : (dropFrame i c b).rest = b.rest := by
  have moved (q : List Frame) : ({ b with sched := { b.sched with queue := q } } : Blk).rest = b.rest := rfl
  unfold dropFrame
  split
  · rfl
  · dsimp only
    split
    · exact (sendUp3_rest _ _ _ _).trans (moved _)
    · exact (postRecord_rest _ _ _ _ _).trans (moved _)

@[simp] theorem withdrawAll_rest (b : Blk) : (withdrawAll b).rest = b.rest := by
  unfold withdrawAll withdrawFrom
  split
  · rfl
  · dsimp only
    rw [showQueue_rest, foldl_keeps Blk.rest _ _ _ fun _ _ => dropFrame_rest _ _ _, dropFrame_rest]
    split <;> split <;> simp

@[simp] theorem dropReq_rest (b : Blk) : (dropReq b).rest = b.rest := by
  unfold dropReq
  split <;> rfl

@[simp] theorem setMode_rest (m : Mode) (b : Blk) : (setMode m b).rest = b.rest := by
  unfold setMode
  split <;> rfl

@[simp] theorem enterMode_rest (m : Mode) (b : Blk) : (enterMode m b).rest = b.rest := by
  unfold enterMode
  dsimp only
  split <;> simp

@[simp] theorem setBank_rest (n : Nat) (x : Bank) (b : Blk) : (setBank n x b).rest = b.rest := rfl

@[simp] theorem clearBanks_rest (b : Blk) : (clearBanks b).rest = b.rest := by
  unfold clearBanks
  refine (foldl_keeps Blk.rest _ _ _ fun b n => ?_).trans (updElems_rest _ _ b)
  dsimp only
  rw [setBank_rest]
  split
  · exact updElems_rest _ _ _
  · rfl

@[simp] theorem nvmRecord_rest (kind src cls detail : Nat) (b : Blk) : (nvmRecord kind src cls detail b).rest = b.rest := rfl

@[simp] theorem nvmCounters_rest (b : Blk) : (nvmCounters b).rest = b.rest := rfl

@[simp] theorem lifeAdd_rest (w n : Nat) (b : Blk) : (lifeAdd w n b).rest = b.rest := rfl

@[simp] theorem safeActions_rest (b : Blk) : (safeActions b).rest = b.rest := by
  unfold safeActions
  repeat' split
  all_goals simp

@[simp] theorem shutdownActions_rest (s : Nat) (b : Blk) : (shutdownActions s b).rest = b.rest := by
  have stopped (c : Blk) : Blk.rest { setF Reg.ACQ.RUN.RUN 0 c with acq := { c.acq with runReq := some false } } = c.rest := rfl
  unfold shutdownActions
  split
  · rfl
  · dsimp only
    rw [stopped]
    split <;> simp

theorem latches_rest (tx : Option (Nat × Nat × Nat)) (ss : List Nat) (b : Blk) : (ss.foldl (latch tx) b).rest = b.rest :=
  foldl_keeps Blk.rest _ _ _ fun b s => (latch_only tx b s).rest

@[simp] theorem react_rest (c first : Nat) (b : Blk) : (react c first b).rest = b.rest := by
  unfold react
  repeat' split
  all_goals simp

@[simp] theorem raiseTx_rest (ss : List Nat) (tx : Option (Nat × Nat × Nat)) (b : Blk) : (raiseTx ss tx b).rest = b.rest := by
  by_cases hs : ss = []
  · rw [raiseTx, if_pos hs]
  · obtain ⟨c, more, first, hc, -, he⟩ := raiseTx_reacts ss tx b hs
    rw [he, latches_rest, react_rest, hc.rest]

/-- Raises, whatever they react with, leave the rest of the block. -/
@[simp] theorem raiseAll_rest (ss : List Nat) (b : Blk) : (raiseAll ss b).rest = b.rest :=
  (raiseTx_rest _ _ _).trans (raiseTx_rest ss none b)

@[simp] theorem raise_rest (s : Nat) (b : Blk) : (raise s b).rest = b.rest := raiseAll_rest [s] b

end Sys2Proof.Machine
end

section
/-!
PROOF. A housekeeping round (O46): its stages one by one, by what each leaves of the sensors' registers and of the levels.
-/
set_option autoImplicit false

namespace Sys2Proof.Machine

/-! ### The registers of sensors -/

/-- A register of a sensor, or LIMIT_REQ. -/
def Sensing (f : Fld) : Prop := 0x14100 ≤ f.key / 32 ∧ f.key / 32 < 0x14260 ∨ f.key = Reg.THERM.LEVEL.LIMIT_REQ.key

/-- The sensors' registers, LIMIT_REQ and the levels stay. -/
def KeepsLevels (b c : Blk) : Prop := (∀ f, Sensing f → getF c f = getF b f) ∧ c.hk.lvl = b.hk.lvl ∧ c.hk.rounds = b.hk.rounds

section
variable {b c d : Blk}

theorem KeepsLevels.refl (b : Blk) : KeepsLevels b b := ⟨fun _ _ => rfl, rfl, rfl⟩

theorem KeepsLevels.trans (h : KeepsLevels b c) (g : KeepsLevels c d) : KeepsLevels b d :=
  ⟨fun f hf => (g.1 f hf).trans (h.1 f hf), g.2.1.trans h.2.1, g.2.2.trans h.2.2⟩

theorem KeepsLevels.of_parts (hr : c.regs = b.regs) (hk : c.hk = b.hk) : KeepsLevels b c :=
  ⟨fun f _ => getF_of_regs hr f, by rw [hk], by rw [hk]⟩

theorem KeepsLevels.ite {p : Prop} [Decidable p] (h : KeepsLevels b c) (g : KeepsLevels b d) : KeepsLevels b (if p then c else d) := by
  split
  · exact h
  · exact g

theorem setF_keepsLevels {f : Fld} (v : Nat) (b : Blk) (hf : ¬ Sensing f) : KeepsLevels b (setF f v b) :=
  ⟨fun g hg => getF_setF_ne _ _ _ _ fun hk => hf (by rwa [Sensing, hk] at hg), rfl, rfl⟩

theorem foldl_keepsLevels {α : Type} (l : List α) (g : Blk → α → Blk) (b : Blk) (h : ∀ b x, KeepsLevels b (g b x)) :
    KeepsLevels b (l.foldl g b) := by
  induction l generalizing b with
  | nil => exact .refl b
  | cons x t ih => exact (h b x).trans (ih _)

/-- The same over a list that gathers sources beside the block. -/
theorem foldl_keepsLevels_pair {α : Type} (l : List α) (g : List Nat × Blk → α → List Nat × Blk) (s : List Nat × Blk)
    (h : ∀ s x, KeepsLevels s.2 (g s x).2) : KeepsLevels s.2 (l.foldl g s).2 := by
  induction l generalizing s with
  | nil => exact .refl _
  | cons x t ih => exact (h s x).trans (ih _)

end

/-! ### The stages that leave sensors and levels -/

theorem not_sensing {f : Fld} (h : f.key / 32 < 0x14100 ∨ 0x14260 ≤ f.key / 32) (hl : f.key ≠ Reg.THERM.LEVEL.LIMIT_REQ.key) :
    ¬ Sensing f := by
  rw [Sensing, not_or]
  exact ⟨by omega, hl⟩

/-- A register of another page or behind the sensors'. -/
theorem not_sensing_far {f : Fld} (h : 0x14260 ≤ f.key / 32) : ¬ Sensing f := by
  refine not_sensing (.inr h) fun hk => ?_
  rw [hk] at h
  exact absurd h (by decide)

theorem regionFld_far (ph : Die) (r o l w z z' : Nat) (ho : 0x440 ≤ o) (hl : l < 32) :
    ¬ Sensing (if ph then Fld.mk' 0x14 (o + 4 * r) l w z else Fld.mk' 0x14 (o + 0x40 + 4 * r) l w z') := by
  refine not_sensing_far ?_
  cases ph
  all_goals
    simp only [Bool.false_eq_true, if_false, if_true, Fld.mk']
    omega

theorem showRegion_keepsLevels (ph : Die) (r : Nat) (t : Option (Int × Nat × Bool)) (e : Bool) (b : Blk) :
    KeepsLevels b (showRegion ph r t e b) := by
  have subst : ¬ Sensing (if ph then Reg.THERM.SUBST.PD else Reg.THERM.SUBST.CTRL) := by
    cases ph <;> exact not_sensing (by decide) (by decide)
  have far (l w z z' : Nat) (hl : l < 32) := regionFld_far ph r 0x440 l w z z' (Nat.le_refl _) hl
  unfold showRegion
  dsimp only
  have stored (v1 v2 v3 v4 : Nat) : KeepsLevels b (setF (if ph then Reg.THERM.REGION_T.SENSOR r else Reg.THERM.CREGION_T.SENSOR r) v4
      (setF (if ph then Reg.THERM.REGION_T.SUBST r else Reg.THERM.CREGION_T.SUBST r) v3
        (setF (if ph then Reg.THERM.SUBST.PD else Reg.THERM.SUBST.CTRL) v2
          (setF (if ph then Reg.THERM.REGION_T.EMPTY r else Reg.THERM.CREGION_T.EMPTY r) v1 b)))) :=
    (((setF_keepsLevels v1 b (far 25 1 0 0 (by decide))).trans (setF_keepsLevels v2 _ subst)).trans
      (setF_keepsLevels v3 _ (far 24 1 0 0 (by decide)))).trans (setF_keepsLevels v4 _ (far 16 8 0xFF 0 (by decide)))
  split
  · exact (stored _ _ _ _).trans (setF_keepsLevels _ _ (far 0 16 0 0 (by decide)))
  · exact stored _ _ _ _

theorem showHot_keepsLevels (ph : Die) (rs : List (Nat × Int)) (b : Blk) : KeepsLevels b (showHot ph rs b) := by
  have life (n : Nat) (b : Blk) : KeepsLevels b { b with nvm := { b.nvm with life := b.nvm.life.set 0 13 n } } := .of_parts rfl rfl
  have peak (p : Prop) [Decidable p] (w : Nat) (b : Blk) :
      KeepsLevels b (if p then setF (if ph then Reg.THERM.PEAK.PD else Reg.THERM.PEAK.CTRL) w b else b) := by
    refine .ite (setF_keepsLevels _ _ ?_) (.refl b)
    cases ph <;> exact not_sensing (by decide) (by decide)
  have hot (q : Prop) [Decidable q] (w n : Nat) (b : Blk) : KeepsLevels b (if q then setF Reg.THERM.HOT_PD.REGION n (setF Reg.THERM.HOT_PD.T w b)
      else setF Reg.THERM.HOT_CTRL.REGION n (setF Reg.THERM.HOT_CTRL.T w b)) :=
    .ite ((setF_keepsLevels _ _ (not_sensing (by decide) (by decide))).trans (setF_keepsLevels _ _ (not_sensing (by decide) (by decide))))
      ((setF_keepsLevels _ _ (not_sensing (by decide) (by decide))).trans (setF_keepsLevels _ _ (not_sensing (by decide) (by decide))))
  unfold showHot
  split
  · exact .refl b
  · exact ((hot _ _ _ b).trans (peak _ _ _)).trans (life _ _)

theorem setRaw_keepsLevels (s : Nat) (v : Bool) (b : Blk) : KeepsLevels b (setRaw s v b) := .of_parts rfl rfl

theorem supplyRound_keepsLevels (c v : Nat) (s : List Nat × Blk) : KeepsLevels s.2 (supplyRound c v s).2 := by
  have value (v : Nat) (b : Blk) : KeepsLevels b (setF (Reg.HK.SUP.VALUE (c - 88)) v b) := by
    refine setF_keepsLevels _ _ (not_sensing_far ?_)
    simp only [Reg.HK.SUP.VALUE, Fld.mk']
    omega
  have out (p : Bool) (k : Tbl (Nat × Nat)) (b : Blk) :
      KeepsLevels b (setFlag (Reg.HK.SUP.OUT (c - 88)) p { b with hk := { b.hk with sup := k } }) := by
    refine KeepsLevels.trans (c := { b with hk := { b.hk with sup := k } }) ⟨fun _ _ => rfl, rfl, rfl⟩
      (setF_keepsLevels _ _ (not_sensing_far ?_))
    simp only [Reg.HK.SUP.OUT, Fld.mk']
    omega
  unfold supplyRound
  dsimp only
  split
  · exact value _ _
  · exact (value _ _).trans (out _ _ _)

theorem railRound_keepsLevels (n v : Nat) (s : List Nat × Blk) : KeepsLevels s.2 (railRound n v s).2 := by
  have value (v : Nat) (b : Blk) : KeepsLevels b (setF (Reg.DRV.RAIL_STAT.V_MEAS n) v b) := by
    refine setF_keepsLevels _ _ (not_sensing_far ?_)
    simp only [Reg.DRV.RAIL_STAT.V_MEAS, Fld.mk']
    omega
  have rail (p : Prop) [Decidable p] (k : Bank) (x : Bool) (b : Blk) : KeepsLevels b (if p then setRaw (drvSrc n 2) x (setBank n k b) else b) :=
    .ite (.of_parts rfl rfl) (.refl b)
  exact (value _ _).trans (rail _ _ _ _)

theorem showSupply_keepsLevels (b : Blk) : KeepsLevels b (showSupply b) :=
  (setF_keepsLevels _ _ (not_sensing_far (by decide))).trans (setF_keepsLevels _ _ (not_sensing_far (by decide)))

theorem takeFree_keepsLevels (b : Blk) : KeepsLevels b (takeFree b).2 := .of_parts rfl rfl

theorem showPower_keepsLevels (vs : List Nat) (b : Blk) : KeepsLevels b (showPower vs b) := by
  have low {f : Fld} (v : Nat) (c : Blk) (h : f.key / 32 < 0x14100) (hl : f.key ≠ Reg.THERM.LEVEL.LIMIT_REQ.key) : KeepsLevels c (setF f v c) :=
    setF_keepsLevels v c (not_sensing (.inl h) hl)
  exact ((((((low _ b (by decide) (by decide)).trans (low _ _ (by decide) (by decide))).trans (takeFree_keepsLevels _)).trans
    (takeFree_keepsLevels _)).trans (low _ _ (by decide) (by decide))).trans (low _ _ (by decide) (by decide))).trans
      (low _ _ (by decide) (by decide))

theorem resendVmeas_keepsLevels (b : Blk) : KeepsLevels b (resendVmeas b) := .ite (.of_parts rfl rfl) (.refl b)

/-! ### Raises -/

theorem raiseFields_notSensing : ∀ f ∈ raiseFields, ¬ Sensing f := by
  have all : ∀ f ∈ raiseFields, (f.key / 32 < 0x14100 ∨ 0x14260 ≤ f.key / 32) ∧ f.key ≠ Reg.THERM.LEVEL.LIMIT_REQ.key := by decide
  exact fun f hf => not_sensing (all f hf).1 (all f hf).2

theorem raiseAll_keepsLevels (ss : List Nat) (b : Blk) : KeepsLevels b (raiseAll ss b) := by
  have hk := hk_of_rest (raiseAll_rest ss b)
  refine ⟨fun f hf => raiseAll_raiseWrites ss b f fun hm => ?_, by rw [hk], by rw [hk]⟩
  obtain ⟨g, hg, hk⟩ := List.mem_map.1 hm
  exact raiseFields_notSensing g hg (by rwa [Sensing, hk])

end Sys2Proof.Machine
end

section
/-!
PROOF. The sensors of a housekeeping round and the levels of its dies (O46).
-/
set_option autoImplicit false

namespace Sys2Proof.Machine

/-! ### What the rules of a round see (R384, R396) -/

theorem takeFree_free (b : Blk) : ∃ n, (takeFree b).2 = { b with free := n } := ⟨_, rfl⟩

theorem rtdT_free (i r : Nat) (b : Blk) : ∃ n, (rtdT i r b).2 = { b with free := n } := by
  unfold rtdT
  dsimp only
  split
  · exact ⟨_, rfl⟩
  · split
    · exact ⟨_, rfl⟩
    · split <;> exact ⟨_, rfl⟩

theorem readings_free (x : HkIn) (b : Blk) : ∃ n, (readings x b).2 = { b with free := n } := by
  have fold (l : List (Nat × Nat)) (s : List Int × Blk) : ∃ n, (l.foldl (fun (s : List Int × Blk) y =>
      let t := rtdT y.2 y.1 s.2
      (s.1 ++ [t.1], t.2)) s).2 = { s.2 with free := n } := by
    induction l generalizing s with
    | nil => exact ⟨_, rfl⟩
    | cons y t ih =>
      obtain ⟨n, hn⟩ := rtdT_free y.2 y.1 s.2
      obtain ⟨m, hm⟩ := ih (s.1 ++ [(rtdT y.2 y.1 s.2).1], (rtdT y.2 y.1 s.2).2)
      exact ⟨m, hm.trans (by rw [hn])⟩
  exact fold _ ([], b)

/-- Where nothing is held from this round on, the round sees the registers as they stand. -/
theorem roundView_regs {b : Blk} (h : ∀ h ∈ b.hk.held, h.1 < b.hk.rounds) : (roundView b).regs = b.regs := by
  have none : b.hk.held.filter (fun h => decide (b.hk.rounds ≤ h.1)) = [] :=
    List.filter_eq_nil_iff.2 fun x hx => by simpa using h x hx
  rw [roundView, none]
  rfl

/-! ### A sensor in a round (R385, R386) -/

/-- The count of bad rounds of sensor `k` with this one. -/
def badRounds (u : Blk) (ts : List Int) (k : Nat) : Nat :=
  if excludedS u k then 0 else if outOfRange (ts.getD k 32767) || deviates u ts k then getF u (Reg.THERM.SENSOR.BAD k) + 1 else 0

/-- The reading of sensor `k` and its marks. -/
def marked (u : Blk) (ts : List Int) (k : Nat) (b : Blk) : Blk :=
  setF (Reg.THERM.SENSOR.T k) (toBits 16 (ts.getD k 32767)) (setFlag (Reg.THERM.SENSOR.OUT k) (outOfRange (ts.getD k 32767))
    (setFlag (Reg.THERM.SENSOR.DEV k) (deviates u ts k) b))

section
variable {u : Blk} {ts : List Int} {k : Nat} {s : List Nat × Blk}

theorem showSensor_excludes (h : badRounds u ts k = 8) : showSensor u ts k s =
    (s.1 ++ [902], setF (Reg.THERM.SENSOR.BAD k) 0 (setFlag (Reg.THERM.SENSOR.EXCLUDED k) true (marked u ts k s.2))) := if_pos h

theorem showSensor_counts (h : badRounds u ts k ≠ 8) : showSensor u ts k s =
    (s.1, setF (Reg.THERM.SENSOR.BAD k) (badRounds u ts k) (marked u ts k s.2)) := if_neg h

theorem toBits_lt (n : Nat) (x : Int) : toBits n x % 2 ^ n = toBits n x := by
  have pos : (0 : Int) < ((2 ^ n : Nat) : Int) := Int.natCast_pos.2 (Nat.two_pow_pos n)
  have hlt := Int.emod_lt_of_pos x pos
  refine Nat.mod_eq_of_lt ?_
  rw [toBits]
  omega

theorem flag_setFlag_same (f : Fld) (p : Bool) (b : Blk) (hw : f.wid = 1) : flag (setFlag f p b) f = p := by
  rw [flag, setFlag, getF_setF_same, hw]
  cases p <;> rfl

theorem flag_congr {b c : Blk} {f : Fld} (h : getF c f = getF b f) : flag c f = flag b f := by rw [flag, flag, h]

/-- The fields of a sensor's register are apart. -/
theorem sensor_keys (k : Nat) : (Reg.THERM.SENSOR.T k).key = (0x14100 + 4 * k) * 32 ∧
    (Reg.THERM.SENSOR.OUT k).key = (0x14100 + 4 * k) * 32 + 16 ∧ (Reg.THERM.SENSOR.DEV k).key = (0x14100 + 4 * k) * 32 + 17 ∧
    (Reg.THERM.SENSOR.EXCLUDED k).key = (0x14100 + 4 * k) * 32 + 18 ∧ (Reg.THERM.SENSOR.BAD k).key = (0x14100 + 4 * k) * 32 + 19 := by
  simp only [Reg.THERM.SENSOR.T, Reg.THERM.SENSOR.OUT, Reg.THERM.SENSOR.DEV, Reg.THERM.SENSOR.EXCLUDED, Reg.THERM.SENSOR.BAD, Fld.mk']
  omega

/-- A field outside the register of sensor `k` stays in its round. -/
theorem showSensor_keeps {f : Fld} (hf : f.key / 32 ≠ 0x14100 + 4 * k) : getF (showSensor u ts k s).2 f = getF s.2 f := by
  obtain ⟨ht, ho, hd, he, hb⟩ := sensor_keys k
  have kept (b : Blk) : getF (marked u ts k b) f = getF b f := by
    rw [marked, getF_setF_ne _ _ _ _ (by rw [ht]; omega), setFlag, getF_setF_ne _ _ _ _ (by rw [ho]; omega), setFlag,
      getF_setF_ne _ _ _ _ (by rw [hd]; omega)]
  by_cases h : badRounds u ts k = 8
  · rw [showSensor_excludes h]
    dsimp only
    rw [getF_setF_ne _ _ _ _ (by rw [hb]; omega), setFlag, getF_setF_ne _ _ _ _ (by rw [he]; omega), kept]
  · rw [showSensor_counts h]
    dsimp only
    rw [getF_setF_ne _ _ _ _ (by rw [hb]; omega), kept]

theorem showSensor_hk : (showSensor u ts k s).2.hk = s.2.hk ∧ s.1 ⊆ (showSensor u ts k s).1 := by
  by_cases h : badRounds u ts k = 8
  · rw [showSensor_excludes h]
    exact ⟨by simp only [marked, setF_hk, setFlag_hk], List.subset_append_left _ _⟩
  · rw [showSensor_counts h]
    exact ⟨by simp only [marked, setF_hk, setFlag_hk], List.Subset.refl _⟩

/-- What a sensor's register shows after a round, from the one before it, with the sources that are due. -/
def SensorShown (u : Blk) (ts : List Int) (k : Nat) (b : Blk) (due : List Nat) (c : Blk) : Prop :=
  getF c (Reg.THERM.SENSOR.T k) = toBits 16 (ts.getD k 32767) ∧ flag c (Reg.THERM.SENSOR.OUT k) = outOfRange (ts.getD k 32767) ∧
  flag c (Reg.THERM.SENSOR.DEV k) = deviates u ts k ∧
  (badRounds u ts k = 8 → flag c (Reg.THERM.SENSOR.EXCLUDED k) = true ∧ getF c (Reg.THERM.SENSOR.BAD k) = 0 ∧ 902 ∈ due) ∧
  (badRounds u ts k ≠ 8 → flag c (Reg.THERM.SENSOR.EXCLUDED k) = excludedS b k ∧ getF c (Reg.THERM.SENSOR.BAD k) = badRounds u ts k % 8)

/-- The same, carried to where the register and the sources stand. -/
theorem SensorShown.carry {b c d : Blk} {due due' : List Nat} (h : SensorShown u ts k b due c) (hd : due ⊆ due')
    (hf : ∀ f : Fld, f.key / 32 = 0x14100 + 4 * k → getF d f = getF c f) : SensorShown u ts k b due' d := by
  obtain ⟨kt, ko, kd, ke, kb⟩ := sensor_keys k
  obtain ⟨ht, hout, hdev, hex, hbad⟩ := h
  have eT := hf (Reg.THERM.SENSOR.T k) (by rw [kt]; omega)
  have eO := flag_congr (hf (Reg.THERM.SENSOR.OUT k) (by rw [ko]; omega))
  have eD := flag_congr (hf (Reg.THERM.SENSOR.DEV k) (by rw [kd]; omega))
  have eE := flag_congr (hf (Reg.THERM.SENSOR.EXCLUDED k) (by rw [ke]; omega))
  have eB := hf (Reg.THERM.SENSOR.BAD k) (by rw [kb]; omega)
  rw [SensorShown, eT, eO, eD, eE, eB]
  refine ⟨ht, hout, hdev, fun h => ?_, hbad⟩
  obtain ⟨h1, h2, h3⟩ := hex h
  exact ⟨h1, h2, hd h3⟩

theorem showSensor_shows : SensorShown u ts k s.2 (showSensor u ts k s).1 (showSensor u ts k s).2 := by
  obtain ⟨ht, ho, hd, he, hb⟩ := sensor_keys k
  have reading (b : Blk) : getF (marked u ts k b) (Reg.THERM.SENSOR.T k) = toBits 16 (ts.getD k 32767) := by
    rw [marked, getF_setF_same]
    exact toBits_lt 16 _
  have out (b : Blk) : flag (marked u ts k b) (Reg.THERM.SENSOR.OUT k) = outOfRange (ts.getD k 32767) :=
    (flag_congr (getF_setF_ne _ _ _ _ (by rw [ht, ho]; omega))).trans (flag_setFlag_same _ _ _ rfl)
  have dev (b : Blk) : flag (marked u ts k b) (Reg.THERM.SENSOR.DEV k) = deviates u ts k :=
    (flag_congr (getF_setF_ne _ _ _ _ (by rw [ht, hd]; omega))).trans
      ((flag_congr (getF_setF_ne _ _ _ _ (by rw [ho, hd]; omega))).trans (flag_setFlag_same _ _ _ rfl))
  have excl (b : Blk) : flag (marked u ts k b) (Reg.THERM.SENSOR.EXCLUDED k) = excludedS b k :=
    flag_congr (((getF_setF_ne _ _ _ _ (by rw [ht, he]; omega)).trans (getF_setF_ne _ _ _ _ (by rw [ho, he]; omega))).trans
      (getF_setF_ne _ _ _ _ (by rw [hd, he]; omega)))
  by_cases h : badRounds u ts k = 8
  · rw [showSensor_excludes h]
    have past {f : Fld} (h1 : f.key ≠ (Reg.THERM.SENSOR.BAD k).key) (h2 : f.key ≠ (Reg.THERM.SENSOR.EXCLUDED k).key) :
        getF (setF (Reg.THERM.SENSOR.BAD k) 0 (setFlag (Reg.THERM.SENSOR.EXCLUDED k) true (marked u ts k s.2))) f =
          getF (marked u ts k s.2) f := (getF_setF_ne _ _ _ _ h1).trans (getF_setF_ne _ _ _ _ h2)
    refine ⟨(past (by rw [ht, hb]; omega) (by rw [ht, he]; omega)).trans (reading _),
      (flag_congr (past (by rw [ho, hb]; omega) (by rw [ho, he]; omega))).trans (out _),
      (flag_congr (past (by rw [hd, hb]; omega) (by rw [hd, he]; omega))).trans (dev _), fun _ => ⟨?_, getF_setF_same _ _ _, ?_⟩,
      fun hn => absurd h hn⟩
    · exact (flag_congr (getF_setF_ne _ _ _ _ (by rw [he, hb]; omega))).trans (flag_setFlag_same _ _ _ rfl)
    · exact List.mem_append_right _ (List.mem_singleton.2 rfl)
  · rw [showSensor_counts h]
    have past {f : Fld} (h1 : f.key ≠ (Reg.THERM.SENSOR.BAD k).key) :
        getF (setF (Reg.THERM.SENSOR.BAD k) (badRounds u ts k) (marked u ts k s.2)) f = getF (marked u ts k s.2) f :=
      getF_setF_ne _ _ _ _ h1
    exact ⟨(past (by rw [ht, hb]; omega)).trans (reading _), (flag_congr (past (by rw [ho, hb]; omega))).trans (out _),
      (flag_congr (past (by rw [hd, hb]; omega))).trans (dev _), fun hn => absurd hn h,
      fun _ => ⟨(flag_congr (past (by rw [he, hb]; omega))).trans (excl _), getF_setF_same _ _ _⟩⟩

/-- After the sensors below `n` theirs show the round, and no other field has moved. -/
theorem sensors_show (u : Blk) (ts : List Int) (b : Blk) (n : Nat) :
    let s := (List.range n).foldl (fun s k => showSensor u ts k s) (([], b) : List Nat × Blk)
    s.2.hk = b.hk ∧ (∀ f : Fld, (∀ k < n, f.key / 32 ≠ 0x14100 + 4 * k) → getF s.2 f = getF b f) ∧
    ∀ k < n, SensorShown u ts k b s.1 s.2 := by
  induction n with
  | zero => exact ⟨rfl, fun _ _ => rfl, fun k hk => absurd hk (Nat.not_lt_zero k)⟩
  | succ n ih =>
    intro s
    have step : s = showSensor u ts n ((List.range n).foldl (fun s k => showSensor u ts k s) (([], b) : List Nat × Blk)) := by
      show (List.range (n + 1)).foldl _ _ = _
      rw [List.range_succ, List.foldl_append]
      rfl
    obtain ⟨hhk, hrest, hdone⟩ := ih
    generalize (List.range n).foldl (fun s k => showSensor u ts k s) (([], b) : List Nat × Blk) = p at step hhk hrest hdone
    obtain ⟨hk', hsub⟩ := showSensor_hk (u := u) (ts := ts) (k := n) (s := p)
    rw [step]
    refine ⟨hk'.trans hhk, fun f hf => ?_, fun k hk => ?_⟩
    · rw [showSensor_keeps (hf n (Nat.lt_succ_self n)), hrest f fun k hk => hf k (Nat.lt_succ_of_lt hk)]
    · rcases Nat.lt_succ_iff_lt_or_eq.1 hk with hlt | rfl
      · exact (hdone k hlt).carry hsub fun f hf => showSensor_keeps (by omega)
      · have before : excludedS p.2 k = excludedS b k := by
          refine flag_congr (hrest _ fun j hj => ?_)
          rw [(sensor_keys k).2.2.2.1]
          omega
        have := showSensor_shows (u := u) (ts := ts) (k := k) (s := p)
        rwa [SensorShown, before] at this

end

end Sys2Proof.Machine
end

section
/-!
PROOF. The levels of the dies in a housekeeping round, and the round as a whole (O46).
-/
set_option autoImplicit false

namespace Sys2Proof.Machine

/-! ### The levels of a region (R388) -/

/-- One level of a region in a round. -/
def lvlOne (b0 : Blk) (ph : Die) (r : Nat) (t : Int) (k : Nat) (b : Blk) (l : Nat) : Blk :=
  let x := lvlOf b ph r l
  let y := lvlStep (threshold b0 ph l) t x
  let b := if l = 2 ∧ y.2.2 ∧ dieHolds b ph 2 = false then
      let d := toBits 16 t + k * 65536
      { b with hk := if ph then { b.hk with detP := d } else { b.hk with detC := d } }
    else b
  { b with hk := { b.hk with lvl := b.hk.lvl.set (0, 0, false) (lvlKey ph r l) y } }

theorem lvlRound_eq (b0 : Blk) (ph : Die) (r : Nat) (t : Int) (k : Nat) (b : Blk) :
    lvlRound b0 ph r t k b = (List.range 3).foldl (lvlOne b0 ph r t k) b := rfl

/-- The registers and the count of rounds stay, whatever becomes of the levels. -/
def SameRegs (b c : Blk) : Prop := c.regs = b.regs ∧ c.hk.rounds = b.hk.rounds

section
variable {b0 b c : Blk} {ph ph' : Die} {r r' l l' k : Nat} {t : Int}

theorem SameRegs.trans {d : Blk} (h : SameRegs b c) (g : SameRegs c d) : SameRegs b d := ⟨g.1.trans h.1, g.2.trans h.2⟩

theorem lvlOne_lvl (b : Blk) : (lvlOne b0 ph r t k b l).hk.lvl =
    b.hk.lvl.set (0, 0, false) (lvlKey ph r l) (lvlStep (threshold b0 ph l) t (lvlOf b ph r l)) := by
  unfold lvlOne
  dsimp only
  split
  · cases ph <;> rfl
  · rfl

theorem lvlOne_sameRegs (b : Blk) : SameRegs b (lvlOne b0 ph r t k b l) := by
  unfold lvlOne
  dsimp only
  split
  · cases ph <;> exact ⟨rfl, rfl⟩
  · exact ⟨rfl, rfl⟩

theorem lvlOf_lvlOne_same (b : Blk) : lvlOf (lvlOne b0 ph r t k b l) ph r l = lvlStep (threshold b0 ph l) t (lvlOf b ph r l) := by
  rw [lvlOf, lvlOne_lvl, Tbl.get_set_same]

theorem lvlOf_lvlOne_ne (b : Blk) (h : lvlKey ph' r' l' ≠ lvlKey ph r l) : lvlOf (lvlOne b0 ph r t k b l) ph' r' l' = lvlOf b ph' r' l' := by
  rw [lvlOf, lvlOne_lvl, Tbl.get_set_ne _ _ _ _ _ _ h]
  rfl

theorem lvlKey_ne_level (h : l ≠ l') : lvlKey ph r l ≠ lvlKey ph r l' := fun hk => h (Nat.add_left_cancel hk)

theorem lvlRound_sameRegs (b : Blk) : SameRegs b (lvlRound b0 ph r t k b) :=
  ((lvlOne_sameRegs _).trans (lvlOne_sameRegs _)).trans (lvlOne_sameRegs _)

theorem lvlOf_lvlRound_ne (b : Blk) (h : ∀ l < 3, lvlKey ph' r' l' ≠ lvlKey ph r l) :
    lvlOf (lvlRound b0 ph r t k b) ph' r' l' = lvlOf b ph' r' l' := by
  rw [lvlRound_eq, show List.range 3 = [0, 1, 2] from rfl, List.foldl_cons, List.foldl_cons, List.foldl_cons, List.foldl_nil,
    lvlOf_lvlOne_ne _ (h 2 (by decide)), lvlOf_lvlOne_ne _ (h 1 (by decide)), lvlOf_lvlOne_ne _ (h 0 (by decide))]

/-- Each level of the region takes one step. -/
theorem lvlOf_lvlRound (b : Blk) (hl : l < 3) :
    lvlOf (lvlRound b0 ph r t k b) ph r l = lvlStep (threshold b0 ph l) t (lvlOf b ph r l) := by
  have n01 := lvlKey_ne_level (ph := ph) (r := r) (show 0 ≠ 1 by decide)
  have n02 := lvlKey_ne_level (ph := ph) (r := r) (show 0 ≠ 2 by decide)
  have n12 := lvlKey_ne_level (ph := ph) (r := r) (show 1 ≠ 2 by decide)
  rw [lvlRound_eq, show List.range 3 = [0, 1, 2] from rfl, List.foldl_cons, List.foldl_cons, List.foldl_cons, List.foldl_nil]
  match l, hl with
  | 0, _ => rw [lvlOf_lvlOne_ne _ n02, lvlOf_lvlOne_ne _ n01, lvlOf_lvlOne_same]
  | 1, _ => rw [lvlOf_lvlOne_ne _ n12, lvlOf_lvlOne_same, lvlOf_lvlOne_ne _ n01.symm]
  | 2, _ => rw [lvlOf_lvlOne_same, lvlOf_lvlOne_ne _ n12.symm, lvlOf_lvlOne_ne _ n02.symm]

/-! ### The levels of a die -/

theorem lvlTake_sameRegs (b0 : Blk) (ts : List Int) (ph : Die) (b : Blk) (r : Nat) : SameRegs b (lvlTake b0 ts ph b r) := by
  unfold lvlTake
  split
  · exact lvlRound_sameRegs b
  · exact ⟨rfl, rfl⟩

/-- A level of another region stays. -/
theorem lvlOf_lvlTake_ne {ts : List Int} (b : Blk) (h : ∀ l < 3, lvlKey ph' r' l' ≠ lvlKey ph r l) :
    lvlOf (lvlTake b0 ts ph b r) ph' r' l' = lvlOf b ph' r' l' := by
  unfold lvlTake
  split
  · exact lvlOf_lvlRound_ne b h
  · rfl

theorem lvlOf_lvlTakes_ne {ts : List Int} {rs : List Nat} (b : Blk) (h : ∀ r ∈ rs, ∀ l < 3, lvlKey ph' r' l' ≠ lvlKey ph r l) :
    lvlOf (rs.foldl (lvlTake b0 ts ph) b) ph' r' l' = lvlOf b ph' r' l' := by
  induction rs generalizing b with
  | nil => rfl
  | cons x rs ih =>
    rw [List.forall_mem_cons] at h
    rw [List.foldl_cons, ih _ h.2, lvlOf_lvlTake_ne b h.1]

theorem lvlKey_ne_region (hr : r ≠ r') (hl : l < 3) (hl' : l' < 3) : lvlKey ph r l ≠ lvlKey ph r' l' := by
  unfold lvlKey
  cases ph
  all_goals
    simp only [Bool.false_eq_true, if_false, if_true]
    omega

theorem lvlKey_ne_die (hr : r ∈ regionsOf ph) (hr' : r' ∈ regionsOf ph') (hp : ph ≠ ph') (hl : l < 3) (hl' : l' < 3) :
    lvlKey ph r l ≠ lvlKey ph' r' l' := by
  rw [regionsOf, List.mem_range] at hr hr'
  unfold lvlKey
  cases ph <;> cases ph'
  · exact absurd rfl hp
  · simp only [Bool.false_eq_true, if_false, if_true] at hr hr' ⊢
    omega
  · simp only [Bool.false_eq_true, if_false, if_true] at hr hr' ⊢
    omega
  · exact absurd rfl hp

/-- A region with a temperature takes it, once. -/
theorem lvlOf_lvlTakes {ts : List Int} {rs : List Nat} {y : Int × Nat × Bool} (b : Blk) (hn : rs.Nodup) (hr : r ∈ rs) (hl : l < 3)
    (hy : regionTemp b0 ts ph r = some y) :
    lvlOf (rs.foldl (lvlTake b0 ts ph) b) ph r l = lvlStep (threshold b0 ph l) y.1 (lvlOf b ph r l) := by
  induction rs generalizing b with
  | nil => exact absurd hr List.not_mem_nil
  | cons x rs ih =>
    rw [List.nodup_cons] at hn
    rw [List.foldl_cons]
    by_cases h : r = x
    · subst h
      rw [lvlOf_lvlTakes_ne _ fun q hq l' hl' => lvlKey_ne_region (ne_of_mem_of_not_mem hq hn.1).symm hl hl', lvlTake, hy]
      exact lvlOf_lvlRound b hl
    · rw [ih _ hn.2 ((List.mem_cons.1 hr).resolve_left h), lvlOf_lvlTake_ne b fun l' hl' => lvlKey_ne_region h hl hl']

/-- The regions with sensors of their own. -/
def ownRegions (u : Blk) (ph : Die) : List Nat := (regionsOf ph).filter fun q => sensorsOf u ph q != []

/-- No region of the die has a temperature of its own. -/
def blindDie (u : Blk) (ts : List Int) (ph : Die) : Bool :=
  ownRegions u ph != [] && (ownRegions u ph).all fun q => (ownTemp u ts ph q).isNone

/-- The levels of a die in a round. -/
def dieLevels (u : Blk) (ts : List Int) (ph : Die) (b : Blk) : Blk :=
  if blindDie u ts ph then b else (ownRegions u ph).foldl (lvlTake u ts ph) b

theorem dieLevels_sameRegs (u : Blk) (ts : List Int) (ph : Die) (b : Blk) : SameRegs b (dieLevels u ts ph b) := by
  have fold (rs : List Nat) (b : Blk) : SameRegs b (rs.foldl (lvlTake u ts ph) b) := by
    induction rs generalizing b with
    | nil => exact ⟨rfl, rfl⟩
    | cons x rs ih => exact (lvlTake_sameRegs u ts ph b x).trans (ih _)
  unfold dieLevels
  split
  · exact ⟨rfl, rfl⟩
  · exact fold _ b

theorem lvlOf_dieLevels_blind {u : Blk} {ts : List Int} (b : Blk) (h : blindDie u ts ph = true) : dieLevels u ts ph b = b := if_pos h

theorem lvlOf_dieLevels {u : Blk} {ts : List Int} {y : Int × Nat × Bool} (b : Blk) (h : blindDie u ts ph = false) (hr : r ∈ ownRegions u ph)
    (hl : l < 3) (hy : regionTemp u ts ph r = some y) :
    lvlOf (dieLevels u ts ph b) ph r l = lvlStep (threshold u ph l) y.1 (lvlOf b ph r l) := by
  rw [dieLevels, if_neg (by simp [h])]
  exact lvlOf_lvlTakes b (List.nodup_range.filter _) hr hl hy

/-- The other die's levels stay. -/
theorem lvlOf_dieLevels_other {u : Blk} {ts : List Int} (b : Blk) (hp : ph' ≠ ph) (hr : r' ∈ regionsOf ph') (hl : l' < 3) :
    lvlOf (dieLevels u ts ph b) ph' r' l' = lvlOf b ph' r' l' := by
  unfold dieLevels
  split
  · rfl
  · exact lvlOf_lvlTakes_ne b fun q hq l hl' => lvlKey_ne_die hr (List.mem_of_mem_filter hq) hp hl hl'

end

/-! ### A die in a round (R387, R389) -/

theorem KeepsLevels.lvlOf {b c : Blk} (h : KeepsLevels b c) (ph : Die) (r l : Nat) : Machine.lvlOf c ph r l = Machine.lvlOf b ph r l := by
  rw [Machine.lvlOf, Machine.lvlOf, h.2.1]

theorem dieRound_levels (u : Blk) (ts : List Int) (ph : Die) (s : List Nat × Blk) : s.1 ⊆ (dieRound u ts ph s).1 ∧
    ∃ c, KeepsLevels s.2 c ∧ KeepsLevels (dieLevels u ts ph c) (dieRound u ts ph s).2 := by
  have level (v : Nat) (b : Blk) : KeepsLevels b (setF (if ph then Reg.THERM.LEVEL.PD else Reg.THERM.LEVEL.CTRL) v b) := by
    refine setF_keepsLevels v b ?_
    cases ph <;> exact not_sensing (by decide) (by decide)
  have blind (v : Nat) (b : Blk) : KeepsLevels b (setF (if ph then Reg.THERM.LEVEL.BLIND_P else Reg.THERM.LEVEL.BLIND_C) v b) := by
    refine setF_keepsLevels v b ?_
    cases ph <;> exact not_sensing (by decide) (by decide)
  have hot (p : Prop) [Decidable p] (rs : List (Nat × Int)) (b : Blk) : KeepsLevels b (if p then b else showHot ph rs b) :=
    .ite (.refl b) (showHot_keepsLevels ph rs b)
  have raws (b : Blk) : KeepsLevels b ((List.range 3).foldl (fun b l => setRaw (lvlSrc ph l) (dieHolds b ph l) b) b) :=
    foldl_keepsLevels _ _ _ fun b l => setRaw_keepsLevels _ _ b
  refine ⟨List.Subset.trans (List.subset_append_left _ _) (List.Subset.trans (List.subset_append_left _ _) (List.subset_append_left _ _)),
    _, foldl_keepsLevels (regionsOf ph) (fun b r => showRegion ph r (regionTemp u ts ph r) (decide (r ∉ ownRegions u ph)) b) s.2
      fun b r => showRegion_keepsLevels ph r _ _ b, ?_⟩
  exact (((hot _ _ _).trans (blind _ _)).trans (raws _)).trans (level _ _)

/-! ### The whole round (R383) -/

/-- The sensors and the dies of a round. -/
def diesDone (x : HkIn) (b : Blk) : List Nat × Blk :=
  let u := roundView (readings x b).2
  let ts := (readings x b).1
  dieRound u ts true (dieRound u ts false ((List.range 88).foldl (fun s k => showSensor u ts k s) (([], (readings x b).2) : List Nat × Blk)))

/-- Supplies and rails behind them. -/
def suppliesDone (x : HkIn) (s : List Nat × Blk) : List Nat × Blk :=
  (List.range 18).foldl (fun s n => railRound n (x.supplies.getD (18 + n) 0) s)
    ((List.range 40).foldl (fun s i => supplyRound (88 + i) (x.supplies.getD i 0) s) s)

/-- HK.STAT, PWR and the RTDs' readings shown. -/
def readingsShown (x : HkIn) (ts : List Int) (b : Blk) : Blk :=
  (List.range 64).foldl (fun b i => setF (Reg.SNS.RTD_RD.R i) (x.rtds.getD i 0) (setF (Reg.SNS.RTD_RD.T i) (toBits 16 (ts.getD (24 + i) 0)) b))
    (showPower x.supplies (showSupply b))

/-- The registers shown at the end of a round. -/
def roundShown (x : HkIn) (ts : List Int) (b : Blk) : Blk :=
  let c := readingsShown x ts (limitRequest b)
  setF Reg.HK.ROUND.COUNT (getF c Reg.HK.ROUND.COUNT + 1) (roundOver c)

theorem housekeepingRound_eq {x : HkIn} {b : Blk} (h0 : b.sys.mode ≠ .reset) (ht : 1000 * (b.hk.rounds + 1) ≤ b.tick) :
    housekeepingRound x b = raiseAll (suppliesDone x (diesDone x b)).1
      (resendVmeas (roundShown x (readings x b).1 (suppliesDone x (diesDone x b)).2)) :=
  if_neg (by simp [h0]; omega)

theorem suppliesDone_keepsLevels (x : HkIn) (s : List Nat × Blk) : s.1 ⊆ (suppliesDone x s).1 ∧ KeepsLevels s.2 (suppliesDone x s).2 := by
  have grows {α : Type} (l : List α) (g : List Nat × Blk → α → List Nat × Blk) (h : ∀ s x, s.1 ⊆ (g s x).1) (s : List Nat × Blk) :
      s.1 ⊆ (l.foldl g s).1 := by
    induction l generalizing s with
    | nil => exact List.Subset.refl _
    | cons x t ih => exact List.Subset.trans (h s x) (ih _)
  have appended (p : Prop) [Decidable p] (ss : List Nat) : ss ⊆ (if p then ss ++ [905] else ss) := by
    split
    · exact List.subset_append_left _ _
    · exact List.Subset.refl _
  have supply (c v : Nat) (s : List Nat × Blk) : s.1 ⊆ (supplyRound c v s).1 := by
    unfold supplyRound
    dsimp only
    split
    · exact List.Subset.refl _
    · exact appended _ _
  have rail (n v : Nat) (s : List Nat × Blk) : s.1 ⊆ (railRound n v s).1 :=
    List.Subset.trans (List.subset_append_left _ _) (List.subset_append_left _ _)
  exact ⟨List.Subset.trans (grows _ _ (fun s i => supply _ _ s) s) (grows _ _ (fun s n => rail _ _ s) _),
    (foldl_keepsLevels_pair _ _ s fun s i => supplyRound_keepsLevels _ _ s).trans
      (foldl_keepsLevels_pair _ _ _ fun s n => railRound_keepsLevels _ _ s)⟩

theorem dieHolds_of_lvl {b c : Blk} (h : c.hk.lvl = b.hk.lvl) (ph : Die) (l : Nat) : dieHolds c ph l = dieHolds b ph l := by
  simp only [dieHolds, lvlOf, h]

/-- A die holds LIMIT or SHUT (R389). -/
def limitHeld (b : Blk) : Bool := dieHolds b false 1 || dieHolds b false 2 || dieHolds b true 1 || dieHolds b true 2

theorem limitHeld_of_lvl {b c : Blk} (h : c.hk.lvl = b.hk.lvl) : limitHeld c = limitHeld b := by
  simp only [limitHeld, dieHolds_of_lvl h]

theorem limitRequest_shows (b : Blk) : (limitRequest b).hk = b.hk ∧ flag (limitRequest b) Reg.THERM.LEVEL.LIMIT_REQ = limitHeld b ∧
    ∀ f : Fld, 0x14100 ≤ f.key / 32 → f.key / 32 < 0x14260 → getF (limitRequest b) f = getF b f := by
  refine ⟨rfl, flag_setFlag_same _ _ b rfl, fun f h1 h2 => getF_setF_ne _ _ _ _ fun hk => ?_⟩
  rw [hk] at h1
  exact absurd h1 (by decide)

theorem roundOver_shows (b : Blk) : (roundOver b).regs = b.regs ∧ (roundOver b).hk.lvl = b.hk.lvl ∧
    (roundOver b).hk.rounds = b.hk.rounds + 1 := ⟨rfl, rfl, rfl⟩

/-- What the end of a round shows of the levels, and that the sensors' registers stay. -/
theorem roundShown_shows (x : HkIn) (ts : List Int) (b : Blk) : let c := roundShown x ts b
    c.hk.lvl = b.hk.lvl ∧ c.hk.rounds = b.hk.rounds + 1 ∧
    (∀ f : Fld, 0x14100 ≤ f.key / 32 → f.key / 32 < 0x14260 → getF c f = getF b f) ∧
    flag c Reg.THERM.LEVEL.LIMIT_REQ = limitHeld b := by
  intro c
  have far (i : Nat) : ¬ Sensing (Reg.SNS.RTD_RD.R i) ∧ ¬ Sensing (Reg.SNS.RTD_RD.T i) := by
    refine ⟨not_sensing_far ?_, not_sensing_far ?_⟩
    all_goals
      simp only [Reg.SNS.RTD_RD.R, Reg.SNS.RTD_RD.T, Fld.mk']
      omega
  obtain ⟨hk, hlim, hsens⟩ := limitRequest_shows b
  have shown : KeepsLevels (limitRequest b) (readingsShown x ts (limitRequest b)) :=
    ((showSupply_keepsLevels _).trans (showPower_keepsLevels _ _)).trans
      (foldl_keepsLevels _ _ _ fun b i => (setF_keepsLevels _ _ (far i).2).trans (setF_keepsLevels _ _ (far i).1))
  have hc : c = setF Reg.HK.ROUND.COUNT _ (roundOver (readingsShown x ts (limitRequest b))) := rfl
  generalize readingsShown x ts (limitRequest b) = d at hc shown
  obtain ⟨oregs, olvl, orounds⟩ := roundOver_shows d
  have last : KeepsLevels (roundOver d) c := hc ▸ setF_keepsLevels _ _ (not_sensing_far (by decide))
  obtain ⟨sf, slvl, srounds⟩ := shown
  obtain ⟨lf, llvl, lrounds⟩ := last
  have fields (f : Fld) (hf : Sensing f) : getF c f = getF (limitRequest b) f :=
    (lf f hf).trans ((getF_of_regs oregs f).trans (sf f hf))
  refine ⟨llvl.trans (olvl.trans (slvl.trans (by rw [hk]))), lrounds.trans (orounds.trans (by rw [srounds, hk])),
    fun f h1 h2 => (fields f (.inl ⟨h1, h2⟩)).trans (hsens f h1 h2), (flag_congr (fields _ (.inr rfl))).trans hlim⟩

/-- The sensors and the levels once both dies are done. -/
theorem diesDone_shows (x : HkIn) (b : Blk) : let u := roundView (readings x b).2
    let ts := (readings x b).1
    let s := diesDone x b
    s.2.hk.rounds = b.hk.rounds ∧ (∀ k < 88, SensorShown u ts k b s.1 s.2) ∧
    ∀ ph r l, r ∈ regionsOf ph → l < 3 →
      (blindDie u ts ph = true → lvlOf s.2 ph r l = lvlOf b ph r l) ∧
      (blindDie u ts ph = false → r ∈ ownRegions u ph → ∀ y, regionTemp u ts ph r = some y →
        lvlOf s.2 ph r l = lvlStep (threshold u ph l) y.1 (lvlOf b ph r l)) := by
  intro u ts s
  obtain ⟨n, hn⟩ := readings_free x b
  obtain ⟨shk, -, sensors⟩ := sensors_show u ts (readings x b).2 88
  have hs : s = dieRound u ts true (dieRound u ts false _) := rfl
  generalize (List.range 88).foldl (fun s k => showSensor u ts k s) (([], (readings x b).2) : List Nat × Blk) = p at hs shk sensors
  obtain ⟨sub0, c0, pre0, post0⟩ := dieRound_levels u ts false p
  obtain ⟨sub1, c1, pre1, post1⟩ := dieRound_levels u ts true (dieRound u ts false p)
  rw [← hs] at sub1 post1
  generalize dieRound u ts false p = q at sub0 post0 sub1 pre1
  have regs0 := dieLevels_sameRegs u ts false c0
  have regs1 := dieLevels_sameRegs u ts true c1
  have start : p.2.hk = b.hk := by rw [shk, hn]
  refine ⟨?_, fun k hk => ?_, fun ph r l hr hl => ?_⟩
  · rw [post1.2.2, regs1.2, pre1.2.2, post0.2.2, regs0.2, pre0.2.2, start]
  · have shown : SensorShown u ts k b p.1 p.2 := by
      have := sensors k hk
      rw [hn] at this
      exact this
    refine shown.carry (List.Subset.trans sub0 sub1) fun f hf => ?_
    have sensing : Sensing f := .inl ⟨by omega, by omega⟩
    rw [post1.1 f sensing, getF_of_regs regs1.1, pre1.1 f sensing, post0.1 f sensing, getF_of_regs regs0.1, pre0.1 f sensing]
  · have first (ph : Die) (r l : Nat) : lvlOf c0 ph r l = lvlOf b ph r l := by
      rw [pre0.lvlOf, lvlOf, start]
      rfl
    have between (ph : Die) (r l : Nat) : lvlOf c1 ph r l = lvlOf (dieLevels u ts false c0) ph r l := by rw [pre1.lvlOf, post0.lvlOf]
    rw [post1.lvlOf]
    cases ph with
    | false =>
      rw [lvlOf_dieLevels_other c1 (by decide) hr hl, between]
      refine ⟨fun hb => ?_, fun hb ho y hy => ?_⟩
      · rw [lvlOf_dieLevels_blind c0 hb, first]
      · rw [lvlOf_dieLevels c0 hb ho hl hy, first]
    | true =>
      have same : lvlOf c1 true r l = lvlOf b true r l := by
        rw [between, lvlOf_dieLevels_other c0 (by decide) hr hl, first]
      refine ⟨fun hb => ?_, fun hb ho y hy => ?_⟩
      · rw [lvlOf_dieLevels_blind c1 hb, same]
      · rw [lvlOf_dieLevels c1 hb ho hl hy, same]

theorem housekeepingRound_shows {x : HkIn} {b : Blk} (h0 : b.sys.mode ≠ .reset) (ht : 1000 * (b.hk.rounds + 1) ≤ b.tick) :
    let u := roundView (readings x b).2
    let ts := (readings x b).1
    let c := housekeepingRound x b
    c.hk.rounds = b.hk.rounds + 1 ∧ (∀ k < 88, ∃ due, SensorShown u ts k b due c ∧ ∀ s ∈ due, (evGet c s).latch = true) ∧
    (∀ ph r l, r ∈ regionsOf ph → l < 3 →
      (blindDie u ts ph = true → lvlOf c ph r l = lvlOf b ph r l) ∧
      (blindDie u ts ph = false → r ∈ ownRegions u ph → ∀ y, regionTemp u ts ph r = some y →
        lvlOf c ph r l = lvlStep (threshold u ph l) y.1 (lvlOf b ph r l))) ∧
    flag c Reg.THERM.LEVEL.LIMIT_REQ = limitHeld c := by
  intro u ts c
  obtain ⟨drounds, dsensors, dlevels⟩ := diesDone_shows x b
  obtain ⟨ssub, skeep⟩ := suppliesDone_keepsLevels x (diesDone x b)
  have hc : c = raiseAll (suppliesDone x (diesDone x b)).1 (resendVmeas (roundShown x ts (suppliesDone x (diesDone x b)).2)) :=
    housekeepingRound_eq h0 ht
  generalize diesDone x b = d at drounds dsensors dlevels ssub skeep hc
  generalize suppliesDone x d = s at ssub skeep hc
  obtain ⟨rlvl, rrounds, rsens, rlim⟩ := roundShown_shows x ts s.2
  generalize roundShown x ts s.2 = z at hc rlvl rrounds rsens rlim
  have latched (x : Nat) (hx : x ∈ s.1) : (evGet c x).latch = true := hc ▸ raiseAll_latches _ _ _ (.inl hx)
  have last : KeepsLevels z c := hc ▸ (resendVmeas_keepsLevels z).trans (raiseAll_keepsLevels _ _)
  have lvl : c.hk.lvl = d.2.hk.lvl := last.2.1.trans (rlvl.trans skeep.2.1)
  refine ⟨?_, fun k hk => ⟨s.1, ?_, latched⟩, fun ph r l hr hl => ?_, ?_⟩
  · rw [last.2.2, rrounds, skeep.2.2, drounds]
  · refine (dsensors k hk).carry ssub fun f hf => ?_
    rw [last.1 f (.inl ⟨by omega, by omega⟩), rsens f (by omega) (by omega), skeep.1 f (.inl ⟨by omega, by omega⟩)]
  · have same : lvlOf c ph r l = lvlOf d.2 ph r l := by rw [lvlOf, lvl, lvlOf]
    rw [same]
    exact dlevels ph r l hr hl
  · rw [flag_congr (last.1 _ (.inr rfl)), rlim, limitHeld_of_lvl (lvl.trans skeep.2.1.symm)]

end Sys2Proof.Machine
end

section
/-!
PROOF. The hottest sensor, the levels' counts, re-inclusion and SHUT_CLR (O46).
-/
set_option autoImplicit false

namespace Sys2Proof.Machine

/-! ### The hottest usable sensor of a region (R387) -/

/-- The hotter of the hottest so far and sensor `k`, the earlier among equals. -/
def hotter (ts : List Int) (m : Option (Int × Nat)) (k : Nat) : Option (Int × Nat) :=
  let t := ts.getD k 32767
  match m with
  | none => some (t, k)
  | some x => if x.1 < t then some (t, k) else m

theorem ownTemp_eq (b : Blk) (ts : List Int) (ph : Die) (r : Nat) : ownTemp b ts ph r =
    ((sensorsOf b ph r).filter fun k => !excludedS b k && !outOfRange (ts.getD k 32767)).foldl (hotter ts) none := rfl

section
variable {ts : List Int}

/-- One step keeps a hottest at least as hot as the one before and as the sensor. -/
theorem hotter_some (m : Option (Int × Nat)) (k : Nat) : ∃ y, hotter ts m k = some y ∧ ts.getD k 32767 ≤ y.1 ∧ (∀ x, m = some x → x.1 ≤ y.1) ∧
    (y = (ts.getD k 32767, k) ∨ m = some y) := by
  unfold hotter
  cases m with
  | none => exact ⟨_, rfl, Int.le_refl _, fun x h => absurd h (by simp), .inl rfl⟩
  | some x =>
    dsimp only
    split
    · next h =>
      refine ⟨_, rfl, Int.le_refl _, fun z hz => ?_, .inl rfl⟩
      obtain rfl := Option.some.inj hz
      exact Int.le_of_lt h
    · next h =>
      refine ⟨x, rfl, Int.not_lt.1 h, fun z hz => ?_, .inr rfl⟩
      rw [Option.some.inj hz]

/-- A fold from a hottest `x` ends with one at least as hot as `x` and as every sensor, which is `x` or one of them. -/
theorem hottest_from (l : List Nat) (x : Int × Nat) : ∃ y, l.foldl (hotter ts) (some x) = some y ∧ x.1 ≤ y.1 ∧
    (∀ k ∈ l, ts.getD k 32767 ≤ y.1) ∧ (y = x ∨ y.2 ∈ l ∧ ts.getD y.2 32767 = y.1) := by
  induction l generalizing x with
  | nil => exact ⟨x, rfl, Int.le_refl _, fun k hk => absurd hk List.not_mem_nil, .inl rfl⟩
  | cons k l ih =>
    obtain ⟨z, hz, hk, hx, hor⟩ := hotter_some (ts := ts) (some x) k
    obtain ⟨y, hy, hzy, hl, hmem⟩ := ih z
    refine ⟨y, by rw [List.foldl_cons, hz, hy], Int.le_trans (hx x rfl) hzy, ?_, ?_⟩
    · rw [List.forall_mem_cons]
      exact ⟨Int.le_trans hk hzy, hl⟩
    · rcases hmem with rfl | ⟨hm, ht⟩
      · rcases hor with rfl | h
        · exact .inr ⟨List.mem_cons_self, rfl⟩
        · exact .inl (Option.some.inj h).symm
      · exact .inr ⟨List.mem_cons_of_mem _ hm, ht⟩

theorem ownTemp_hottest {b : Blk} {ph : Die} {r k : Nat} (hk : k ∈ sensorsOf b ph r) (he : excludedS b k = false)
    (ho : outOfRange (ts.getD k 32767) = false) : ∃ x, ownTemp b ts ph r = some x ∧ ts.getD k 32767 ≤ x.1 ∧
      x.2 ∈ sensorsOf b ph r ∧ ts.getD x.2 32767 = x.1 ∧ excludedS b x.2 = false ∧ outOfRange x.1 = false := by
  have usable : k ∈ (sensorsOf b ph r).filter fun k => !excludedS b k && !outOfRange (ts.getD k 32767) :=
    List.mem_filter.2 ⟨hk, by rw [he, ho]; rfl⟩
  have all : ∀ j ∈ (sensorsOf b ph r).filter fun k => !excludedS b k && !outOfRange (ts.getD k 32767),
      j ∈ sensorsOf b ph r ∧ excludedS b j = false ∧ outOfRange (ts.getD j 32767) = false := by
    intro j hj
    obtain ⟨hm, hp⟩ := List.mem_filter.1 hj
    simp only [Bool.and_eq_true, Bool.not_eq_true'] at hp
    exact ⟨hm, hp.1, hp.2⟩
  rw [ownTemp_eq]
  generalize (sensorsOf b ph r).filter (fun k => !excludedS b k && !outOfRange (ts.getD k 32767)) = l at usable all
  match l, usable, all with
  | j :: l, usable, all =>
    obtain ⟨y, hy, hfirst, hmax, hor⟩ := hottest_from (ts := ts) l (ts.getD j 32767, j)
    have member : y.2 ∈ j :: l ∧ ts.getD y.2 32767 = y.1 := by
      rcases hor with rfl | ⟨hm, ht⟩
      · exact ⟨List.mem_cons_self, rfl⟩
      · exact ⟨List.mem_cons_of_mem _ hm, ht⟩
    obtain ⟨hs, hx, hr⟩ := all y.2 member.1
    refine ⟨y, hy, ?_, hs, member.2, hx, member.2 ▸ hr⟩
    rcases List.mem_cons.1 usable with rfl | hm
    · exact hfirst
    · exact hmax k hm

/-! ### The counts of a level (R388) -/

theorem lvlStep_counts (thr t : Int) (en ex : Nat) (holds : Bool) : let y := lvlStep thr t (en, ex, holds)
    (y.1 = if thr ≤ t then min 4 (en + 1) else 0) ∧ (y.2.1 = if t < thr - 300 then min 16 (ex + 1) else 0) ∧
    (holds = false → (y.2.2 = true ↔ thr ≤ t ∧ 3 ≤ en)) ∧ (holds = true → (y.2.2 = false ↔ t < thr - 300 ∧ 15 ≤ ex)) := by
  refine ⟨rfl, rfl, fun h => ?_, fun h => ?_⟩
  · rw [h, lvlStep, if_neg Bool.false_ne_true, decide_eq_true_iff]
    split
    · next ht => simp only [ht, true_and]; omega
    · next ht => simp only [ht, false_and, iff_false]; decide
  · rw [h, lvlStep, if_pos rfl, decide_eq_false_iff_not]
    split
    · next ht => simp only [ht, true_and]; omega
    · next ht => simp only [ht, false_and, iff_false]; decide

end

/-! ### Re-inclusion (R386) -/

/-- The sensor of bit `j` of word `i`. -/
def exclSensor (i j : Nat) : Nat := if i = 0 then j else 24 + 32 * (i - 1) + j

/-- Bit `j` of word `i` names a sensor and is written 1. -/
def exclBit (i : Nat) (v : Word) (j : Nat) : Prop := v.bit j = true ∧ (i ≠ 0 ∨ j < 24)

/-- One bit of an EXCL word. -/
def reincludeOne (i : Nat) (v : Word) (b : Blk) (j : Nat) : Blk :=
  let k := exclSensor i j
  if v.bit j ∧ (i ≠ 0 ∨ j < 24) ∧ excludedS b k = true then
    setF (Reg.THERM.SENSOR.BAD k) 0 (setFlag (Reg.THERM.SENSOR.EXCLUDED k) false (holdF (Reg.THERM.SENSOR.EXCLUDED k) b))
  else b

theorem reincludeDo_eq (i : Nat) (v : Word) (b : Blk) : reincludeDo i v b = (List.range 32).foldl (reincludeOne i v) b := rfl

/-- The sensors that the bits below `n` re-include. -/
def reincluded (i : Nat) (v : Word) (n k : Nat) : Prop := ∃ j < n, exclBit i v j ∧ exclSensor i j = k

/-- From `b` to `c` the sensors of `hit` are re-included, each with its mark held for the round in progress. -/
structure Reincludes (hit : Nat → Prop) (b c : Blk) : Prop where
  frame : ∃ r h, c = { b with regs := r, hk := { b.hk with held := h } }
  again : ∀ k, hit k → flag c (Reg.THERM.SENSOR.EXCLUDED k) = false ∧
    getF c (Reg.THERM.SENSOR.BAD k) = if excludedS b k = true then 0 else getF b (Reg.THERM.SENSOR.BAD k)
  other : ∀ k, ¬ hit k → getF c (Reg.THERM.SENSOR.EXCLUDED k) = getF b (Reg.THERM.SENSOR.EXCLUDED k) ∧
    getF c (Reg.THERM.SENSOR.BAD k) = getF b (Reg.THERM.SENSOR.BAD k)
  held : b.hk.held = [] → (∀ h ∈ c.hk.held, ∃ k, h = (b.tick / 1000, Reg.THERM.SENSOR.EXCLUDED k, 1) ∧ excludedS b k = true) ∧
    ∀ k, hit k → excludedS b k = true → ∃ h ∈ c.hk.held, h.2.1 = Reg.THERM.SENSOR.EXCLUDED k

section
variable {hit : Nat → Prop} {b c : Blk} {i j : Nat} {v : Word}

theorem holdF_shows (f : Fld) (b : Blk) : (∃ h, holdF f b = { b with hk := { b.hk with held := h } }) ∧
    (∀ h ∈ (holdF f b).hk.held, h ∈ b.hk.held ∨ h = (b.tick / 1000, f, getF b f)) ∧
    b.hk.held ⊆ (holdF f b).hk.held ∧ ∃ h ∈ (holdF f b).hk.held, h.2.1 = f := by
  unfold holdF
  dsimp only
  split
  · next h =>
    obtain ⟨x, hx, hp⟩ := List.any_eq_true.1 h
    rw [Bool.and_eq_true, beq_iff_eq, beq_iff_eq] at hp
    exact ⟨⟨_, rfl⟩, fun y hy => .inl hy, List.Subset.refl _, x, hx, hp.2⟩
  · refine ⟨⟨_, rfl⟩, fun y hy => ?_, List.subset_append_left _ _, _, List.mem_append_right _ (List.mem_singleton.2 rfl), rfl⟩
    rcases List.mem_append.1 hy with h | h
    · exact .inl h
    · exact .inr (List.mem_singleton.1 h)

theorem excluded_one (h : excludedS b i = true) : getF b (Reg.THERM.SENSOR.EXCLUDED i) = 1 := beq_iff_eq.1 h

/-- The fields that re-inclusion of sensor `j` writes are apart from those of sensor `i`. -/
theorem sensor_apart (h : i ≠ j) : (∀ f ∈ [Reg.THERM.SENSOR.EXCLUDED i, Reg.THERM.SENSOR.BAD i],
    f.key ≠ (Reg.THERM.SENSOR.EXCLUDED j).key ∧ f.key ≠ (Reg.THERM.SENSOR.BAD j).key) ∧
    (Reg.THERM.SENSOR.EXCLUDED i).key ≠ (Reg.THERM.SENSOR.BAD i).key := by
  obtain ⟨-, -, -, hi, hbi⟩ := sensor_keys i
  obtain ⟨-, -, -, hj, hbj⟩ := sensor_keys j
  refine ⟨fun f hf => ?_, by omega⟩
  simp only [List.mem_cons, List.not_mem_nil, or_false] at hf
  rcases hf with rfl | rfl
  · omega
  · omega

/-- What re-inclusion of an excluded sensor writes. -/
theorem reinclude_sets (k : Nat) (c : Blk) : let d := setF (Reg.THERM.SENSOR.BAD k) 0 (setFlag (Reg.THERM.SENSOR.EXCLUDED k) false
      (holdF (Reg.THERM.SENSOR.EXCLUDED k) c))
    (∃ r, d = { c with regs := r, hk := { c.hk with held := (holdF (Reg.THERM.SENSOR.EXCLUDED k) c).hk.held } }) ∧
    flag d (Reg.THERM.SENSOR.EXCLUDED k) = false ∧ getF d (Reg.THERM.SENSOR.BAD k) = 0 ∧
    ∀ q, q ≠ k → getF d (Reg.THERM.SENSOR.EXCLUDED q) = getF c (Reg.THERM.SENSOR.EXCLUDED q) ∧
      getF d (Reg.THERM.SENSOR.BAD q) = getF c (Reg.THERM.SENSOR.BAD q) := by
  obtain ⟨⟨h, hh⟩, -⟩ := holdF_shows (Reg.THERM.SENSOR.EXCLUDED k) c
  have apart : (Reg.THERM.SENSOR.EXCLUDED k).key ≠ (Reg.THERM.SENSOR.BAD k).key := (sensor_apart (Nat.succ_ne_self k).symm).2
  have regs (f : Fld) : getF (holdF (Reg.THERM.SENSOR.EXCLUDED k) c) f = getF c f := getF_of_regs (by rw [hh]) f
  refine ⟨⟨(setF (Reg.THERM.SENSOR.BAD k) 0 (setFlag (Reg.THERM.SENSOR.EXCLUDED k) false (holdF (Reg.THERM.SENSOR.EXCLUDED k) c))).regs, ?_⟩,
    ?_, getF_setF_same _ _ _, fun q hq => ?_⟩
  · rw [hh]
    rfl
  · exact (flag_congr (getF_setF_ne _ _ _ _ apart)).trans (flag_setFlag_same _ _ _ rfl)
  · obtain ⟨he, hb⟩ := (List.forall_mem_cons.1 (sensor_apart hq).1)
    obtain ⟨hb, -⟩ := List.forall_mem_cons.1 hb
    exact ⟨(getF_setF_ne _ _ _ _ he.2).trans ((getF_setF_ne _ _ _ _ he.1).trans (regs _)),
      (getF_setF_ne _ _ _ _ hb.2).trans ((getF_setF_ne _ _ _ _ hb.1).trans (regs _))⟩

/-- An excluded sensor is re-included. -/
theorem Reincludes.reinclude {k : Nat} (h : Reincludes hit b c) (hx : excludedS c k = true) : Reincludes (fun q => hit q ∨ k = q) b
    (setF (Reg.THERM.SENSOR.BAD k) 0 (setFlag (Reg.THERM.SENSOR.EXCLUDED k) false (holdF (Reg.THERM.SENSOR.EXCLUDED k) c))) := by
  obtain ⟨⟨r, hd, hc⟩, again, other, held⟩ := h
  have fresh : ¬ hit k := fun hk => by
    have := (again k hk).1
    rw [excludedS, this] at hx
    cases hx
  have before : excludedS b k = true := (flag_congr (other k fresh).1).symm.trans hx
  obtain ⟨⟨r', hframe⟩, hflag, hbad, hrest⟩ := reinclude_sets k c
  obtain ⟨-, hold, hsub, hmem⟩ := holdF_shows (Reg.THERM.SENSOR.EXCLUDED k) c
  have heldNow := congrArg (fun b => b.hk.held) hframe
  generalize setF (Reg.THERM.SENSOR.BAD k) 0 (setFlag (Reg.THERM.SENSOR.EXCLUDED k) false (holdF (Reg.THERM.SENSOR.EXCLUDED k) c)) = d
    at hframe hflag hbad hrest heldNow
  generalize (holdF (Reg.THERM.SENSOR.EXCLUDED k) c).hk.held = hs at hframe hold hsub hmem heldNow
  refine ⟨⟨r', hs, ?_⟩, fun q hq => ?_, fun q hq => ?_, fun h0 => ⟨fun x hx' => ?_, fun q hq hxq => ?_⟩⟩
  · rw [hframe, hc]
  · by_cases hqk : q = k
    · rw [hqk, hflag, hbad, if_pos before]
      exact ⟨rfl, rfl⟩
    · obtain ⟨he, hb⟩ := hrest q hqk
      obtain ⟨ha, hb'⟩ := again q (hq.resolve_right (Ne.symm hqk))
      exact ⟨(flag_congr he).trans ha, hb.trans hb'⟩
  · rw [not_or] at hq
    obtain ⟨he, hb⟩ := hrest q (Ne.symm hq.2)
    obtain ⟨he', hb'⟩ := other q hq.1
    exact ⟨he.trans he', hb.trans hb'⟩
  · rw [heldNow] at hx'
    rcases hold x hx' with hm | hm
    · exact (held h0).1 x hm
    · have tick : c.tick = b.tick := by rw [hc]
      exact ⟨k, by rw [hm, tick, excluded_one hx], before⟩
  · rw [heldNow]
    rcases hq with hq | rfl
    · obtain ⟨x, hxm, hxf⟩ := (held h0).2 q hq hxq
      exact ⟨x, hsub hxm, hxf⟩
    · exact hmem

/-- A bit that names a sensor that is not excluded changes nothing. -/
theorem Reincludes.idle {k : Nat} (h : Reincludes hit b c) (hx : excludedS c k = false) : Reincludes (fun q => hit q ∨ k = q) b c := by
  obtain ⟨frame, again, other, held⟩ := h
  have new (hk : ¬ hit k) : excludedS b k = false := (flag_congr (other k hk).1).symm.trans hx
  refine ⟨frame, fun q hq => ?_, fun q hq => other q fun hh => hq (.inl hh), fun h0 => ⟨(held h0).1, fun q hq hxq => ?_⟩⟩
  · by_cases hh : hit q
    · exact again q hh
    · obtain rfl := hq.resolve_left hh
      rw [new hh, if_neg Bool.false_ne_true]
      exact ⟨hx, (other k hh).2⟩
  · by_cases hh : hit q
    · exact (held h0).2 q hh hxq
    · obtain rfl := hq.resolve_left hh
      rw [new hh] at hxq
      cases hxq

theorem Reincludes.congr {hit' : Nat → Prop} (h : Reincludes hit b c) (hh : ∀ k, hit' k ↔ hit k) : Reincludes hit' b c := by
  rwa [funext fun k => propext (hh k)]

theorem Reincludes.refl (b : Blk) : Reincludes (fun _ => False) b b :=
  ⟨⟨_, _, rfl⟩, fun _ h => h.elim, fun _ _ => ⟨rfl, rfl⟩, fun h => ⟨fun _ hx => absurd (h ▸ hx) List.not_mem_nil, fun _ h => h.elim⟩⟩

theorem reincludeOne_reincludes (h : Reincludes hit b c) :
    Reincludes (fun k => hit k ∨ exclBit i v j ∧ exclSensor i j = k) b (reincludeOne i v c j) := by
  unfold reincludeOne
  dsimp only
  split
  · next hc =>
    exact (h.reinclude hc.2.2).congr fun k => by simp only [exclBit, hc.1, hc.2.1, and_self, true_and]
  · next hc =>
    by_cases hb : exclBit i v j
    · have : excludedS c (exclSensor i j) = false := by
        by_contra hx
        exact hc ⟨hb.1, hb.2, by simpa using hx⟩
      exact (h.idle this).congr fun k => by simp only [hb, true_and]
    · exact h.congr fun k => by simp only [hb, false_and, or_false]

theorem reincludes_below (n : Nat) : Reincludes (reincluded i v n) b ((List.range n).foldl (reincludeOne i v) b) := by
  induction n with
  | zero => exact (Reincludes.refl b).congr fun k => by simp [reincluded]
  | succ n ih =>
    rw [List.range_succ, List.foldl_append]
    refine (reincludeOne_reincludes ih).congr fun k => ⟨fun ⟨j, hj, hb, hk⟩ => ?_, fun h => ?_⟩
    · rcases Nat.lt_succ_iff_lt_or_eq.1 hj with hlt | rfl
      · exact .inl ⟨j, hlt, hb, hk⟩
      · exact .inr ⟨hb, hk⟩
    · rcases h with ⟨j, hj, hb, hk⟩ | ⟨hb, hk⟩
      · exact ⟨j, Nat.lt_succ_of_lt hj, hb, hk⟩
      · exact ⟨n, Nat.lt_succ_self n, hb, hk⟩

/-- Held marks set back: a sensor's mark reads as held where it is held, and as it stands elsewhere. -/
theorem excluded_setBack {l : List (Nat × Fld × Nat)} {k : Nat} {q : Nat}
    (hl : ∀ h ∈ l, ∃ k, h = (q, Reg.THERM.SENSOR.EXCLUDED k, 1) ∧ excludedS b k = true)
    (hin : excludedS b k = true → (∃ h ∈ l, h.2.1 = Reg.THERM.SENSOR.EXCLUDED k) ∨ excludedS c k = true)
    (hout : excludedS b k = false → excludedS c k = false) :
    excludedS (l.foldl (fun b h => setF h.2.1 h.2.2 b) c) k = excludedS b k := by
  induction l generalizing c with
  | nil =>
    cases hx : excludedS b k
    · exact hout hx
    · exact (hin hx).resolve_left (by simp)
  | cons h l ih =>
    rw [List.forall_mem_cons] at hl
    obtain ⟨⟨p, rfl, hp⟩, hl⟩ := hl
    refine ih hl (fun hx => ?_) fun hx => ?_
    · by_cases hpk : p = k
      · rw [hpk]
        exact .inr (flag_setFlag_same (Reg.THERM.SENSOR.EXCLUDED k) true c rfl)
      · have far := ((List.forall_mem_cons.1 (sensor_apart (Ne.symm hpk)).1).1).1
        refine (hin hx).imp (fun ⟨y, hy, hf⟩ => ?_) fun hs => (flag_congr (getF_setF_ne _ _ _ _ far)).trans hs
        rcases List.mem_cons.1 hy with rfl | hy
        · exact absurd (congrArg Fld.key hf).symm far
        · exact ⟨y, hy, hf⟩
    · have hpk : k ≠ p := fun hk => by rw [hk, hp] at hx; cases hx
      exact (flag_congr (getF_setF_ne _ _ _ _ ((List.forall_mem_cons.1 (sensor_apart hpk).1).1).1)).trans (hout hx)

/-- The round in progress sees the marks as they were. -/
theorem Reincludes.roundView (h : Reincludes hit b c) (h0 : b.hk.held = []) (hr : b.hk.rounds ≤ b.tick / 1000) (k : Nat) :
    excludedS (Machine.roundView c) k = excludedS b k := by
  obtain ⟨⟨r, hd, hc⟩, again, other, held⟩ := h
  obtain ⟨hall, hin⟩ := held h0
  have rounds : c.hk.rounds = b.hk.rounds := by rw [hc]
  have all : c.hk.held.filter (fun h => decide (c.hk.rounds ≤ h.1)) = c.hk.held := by
    refine List.filter_eq_self.2 fun x hx => ?_
    obtain ⟨p, rfl, -⟩ := hall x hx
    rw [rounds]
    exact decide_eq_true hr
  rw [Machine.roundView, all]
  refine excluded_setBack (q := b.tick / 1000) (fun x hx => hall x (List.mem_reverse.1 hx)) (fun hx => ?_) fun hx => ?_
  · by_cases hh : hit k
    · obtain ⟨x, hxm, hxf⟩ := hin k hh hx
      exact .inl ⟨x, List.mem_reverse.2 hxm, hxf⟩
    · exact .inr ((flag_congr (other k hh).1).trans hx)
  · by_cases hh : hit k
    · exact (again k hh).1
    · exact (flag_congr (other k hh).1).trans hx

end

theorem pageWrite_excl (i : Fin 3) {v : Word} {b : Blk} (hb : b.heard = true)
    (hr : v.toNat &&& (if i.val = 0 then 0xFF000000 else 0) = 0) : pageWrite 0x14 (0x58 + 4 * i.val) v b = reincludeDo i.val v b := by
  have mask : ∀ i : Fin 3, Pg.reserved .therm 0 (0x58 + 4 * i.val) = if i.val = 0 then 0xFF000000 else 0 := by decide
  have own : ownErrs .m0 .therm 0 (0x58 + 4 * i.val) v b = [] := by
    match i with
    | 0 => rfl
    | 1 => rfl
    | 2 => rfl
  rw [pageWrite_effect (g := .therm) (i := 0) rfl hb (by rw [mask, hr]) own (by omega)]
  match i with
  | 0 => rfl
  | 1 => rfl
  | 2 => rfl

/-- The sensors of an EXCL word, bit by bit. -/
theorem reincluded_iff (i : Fin 3) (v : Word) (k : Nat) : reincluded i.val v 32 k ↔
    (if i.val = 0 then k < 24 else 24 + 32 * (i.val - 1) ≤ k ∧ k < 56 + 32 * (i.val - 1)) ∧
      v.bit (if i.val = 0 then k else k - 24 - 32 * (i.val - 1)) = true := by
  unfold reincluded exclBit exclSensor
  by_cases h : i.val = 0
  · simp only [h, if_true, ne_eq, not_true_eq_false, false_or]
    constructor
    · rintro ⟨j, hj, ⟨hv, h24⟩, rfl⟩
      exact ⟨h24, hv⟩
    · rintro ⟨hk, hv⟩
      exact ⟨k, by omega, ⟨hv, hk⟩, rfl⟩
  · simp only [h, if_false, ne_eq, not_false_eq_true, true_or, and_true]
    constructor
    · rintro ⟨j, hj, hv, rfl⟩
      refine ⟨by omega, ?_⟩
      rwa [show 24 + 32 * (i.val - 1) + j - 24 - 32 * (i.val - 1) = j by omega]
    · rintro ⟨hk, hv⟩
      exact ⟨k - 24 - 32 * (i.val - 1), by omega, hv, by omega⟩

/-! ### SHUT_CLR (R392) -/

theorem pageWrite_shutClr {b : Blk} (hb : b.heard = true) (he : shutClrErrs 1 b = []) : pageWrite 0x14 0x68 1 b = shutClrDo 1 b :=
  pageWrite_effect (g := .therm) (i := 0) rfl hb (by decide) ((List.append_nil _).trans he) (by omega)

theorem shutClrErrs_cool {b : Blk} (hm : b.sys.mode = .shutdown) (hc : dieHolds b false 2 = false) (hp : dieHolds b true 2 = false)
    (hbc : flag b Reg.THERM.LEVEL.BLIND_C = false) (hbp : flag b Reg.THERM.LEVEL.BLIND_P = false)
    (h0 : ∀ ph r, r ∈ regionsOf ph → (lvlOf b ph r 2).1 = 0) : shutClrErrs 1 b = [] := by
  have counts : ([false, true].any fun ph => (regionsOf ph).any fun r => decide (0 < (lvlOf b ph r 2).1)) = false := by
    rw [List.any_eq_false]
    intro ph _
    rw [Bool.not_eq_true, List.any_eq_false]
    intro r hr
    simp [h0 ph r hr]
  rw [shutClrErrs, if_pos (by decide), if_pos hm, if_neg, List.nil_append]
  rw [hc, hp, hbc, hbp, counts]
  decide

theorem shutClrDo_clears (b : Blk) : let c := shutClrDo 1 b
    c = { b with ev := { b.ev with tab := c.ev.tab }, sys := { b.sys with shutClr := c.sys.shutClr } } ∧
    (∀ x, evGet c x = if x = 898 ∨ x = 901 then { evGet b x with latch := false, lcls := 0 } else evGet b x) ∧
    c.sys.shutClr = !latchedClass c [4] := by
  refine ⟨rfl, fun x => ?_, rfl⟩
  have cleared (s : Nat) (b : Blk) : evGet (evSet s { evGet b s with latch := false, lcls := 0 } b) x =
      if x = s then { evGet b x with latch := false, lcls := 0 } else evGet b x := by
    rw [evGet_evSet]
    split
    · next h => rw [h]
    · rfl
  have done : evGet (shutClrDo 1 b) x = evGet (evSet 901 { evGet (evSet 898 { evGet b 898 with latch := false, lcls := 0 } b) 901 with
      latch := false, lcls := 0 } (evSet 898 { evGet b 898 with latch := false, lcls := 0 } b)) x := rfl
  rw [done, cleared 901, cleared 898]
  by_cases h1 : x = 901
  · simp [h1]
  · by_cases h2 : x = 898
    · simp [h2]
    · simp [h1, h2]

/-- Outside SHUTDOWN the mode is the first code that applies. -/
theorem pageWrite_shutClr_refused {b : Blk} (hb : b.heard = true) (hm : b.sys.mode ≠ .shutdown) :
    pageWrite 0x14 0x68 1 b = reject 0x14 0x68 2 .m0 b := by
  have errs : ownErrs .m0 .therm 0 0x68 1 b = shutClrErrs 1 b := List.append_nil _
  have code : firstCode (regErrs .m0 .therm 0 0x14 0x68 1 b) = 2 := by
    rw [regErrs_eq_ownErrs hb (by decide) (by decide), errs, shutClrErrs, if_pos (by decide), if_neg hm]
    split <;> rfl
  have := hostWrite_rejected .m0 (0x14 * 4096 + 0x68) 1 b .therm 0 (modes_of_heard hb).1 (by decide) rfl
    (by rw [show firstCode _ = 2 from code]; decide) (fun h => by cases h)
  rwa [show firstCode _ = 2 from code] at this

end Sys2Proof.Machine
end

open Sys2Proof Sys2Proof.Machine

/-- Settles O46: a round by its stages, the hottest sensor by the fold that finds it, re-inclusion bit by bit, and SHUT_CLR by its
checks. -/
theorem housekeepingWatchesTheDies : Obligations.HousekeepingWatchesTheDies := by
  unfold Obligations.HousekeepingWatchesTheDies
  have next {s : State} {b c : Blk} (h : b = c) :
      (.next { s with b := b } : Host.Outcome State Fault Refusal) = .next { s with b := c } := h ▸ rfl
  refine ⟨fun s x h0 ht => ⟨fun hh => ?_, ?_⟩, fun b ts ph r k hk he ho => ownTemp_hottest hk he ho, lvlStep_counts,
    fun s i v hb hr => ?_, fun s hm hc hp hbc hbp h0 => ?_, fun s hb hm => ?_⟩
  · obtain ⟨n, hn⟩ := readings_free x s.b
    rw [roundView_regs (by rw [hn]; exact hh), hn]
  · obtain ⟨rounds, sensors, levels, limit⟩ := housekeepingRound_shows (x := x) h0 ht
    refine ⟨_, rfl, rounds, fun k hk => ?_, levels, limit⟩
    obtain ⟨due, ⟨hT, hout, hdev, hex, hbad⟩, hl⟩ := sensors k hk
    refine ⟨hT, hout, hdev, fun h8 => ?_, hbad⟩
    obtain ⟨h1, h2, h3⟩ := hex h8
    exact ⟨h1, h2, hl _ h3⟩
  · have done : Reincludes (reincluded i.val v 32) s.b (pageWrite 0x14 (0x58 + 4 * i.val) v s.b) := by
      rw [pageWrite_excl i hb hr, reincludeDo_eq]
      exact reincludes_below 32
    refine ⟨{ s with b := pageWrite 0x14 (0x58 + 4 * i.val) v s.b }, rfl, ?_⟩
    generalize pageWrite 0x14 (0x58 + 4 * i.val) v s.b = c at done
    obtain ⟨r, h, hc⟩ := done.frame
    refine ⟨by rw [hc], fun h0 hr k _ => done.roundView h0 hr k, fun k _ => ?_⟩
    have hit := reincluded_iff i v k
    by_cases hk : reincluded i.val v 32 k
    · obtain ⟨hflag, hbad⟩ := done.again k hk
      have hk' := hit.1 hk
      refine ⟨hflag.trans (if_pos hk').symm, hbad.trans ?_⟩
      by_cases hx : excludedS s.b k = true
      · rw [if_pos hx]
        exact (if_pos ⟨hk', hx⟩).symm
      · rw [if_neg hx]
        exact (if_neg fun hn => hx hn.2).symm
    · obtain ⟨hflag, hbad⟩ := done.other k hk
      exact ⟨(flag_congr hflag).trans (if_neg fun hn => hk (hit.2 hn)).symm, hbad.trans (if_neg fun hn => hk (hit.2 hn.1)).symm⟩
  · have heard : s.b.heard = true := by rw [Blk.heard, hm]; rfl
    have run : exec .shutClr s = .next { s with b := shutClrDo 1 s.b } := next (pageWrite_shutClr heard (shutClrErrs_cool hm hc hp hbc hbp h0))
    obtain ⟨frame, records, leaves⟩ := shutClrDo_clears s.b
    exact ⟨_, run, congrArg (fun b => { s with b := b }) frame, records, leaves⟩
  · exact next (pageWrite_shutClr_refused hb hm)

section
/-!
PROOF. A write of MON.CTL that stops the LAT histogram draws open values for what it had counted (log entry 53), so it moves more than
registers: O37 fails.
-/
set_option autoImplicit false

namespace Sys2Proof.Machine

section
variable {b : Blk}

theorem setFree_free (f : Fld) (b : Blk) : (setFree f b).free = b.free + 1 := rfl

theorem foldl_setFree_free (bin : Nat → Fld) (l : List Nat) (b : Blk) :
    (l.foldl (fun b i => setFree (bin i) b) b).free = b.free + l.length := by
  induction l generalizing b with
  | nil => rfl
  | cons i l ih => rw [List.foldl_cons, ih, setFree_free, List.length_cons, Nat.add_assoc, Nat.add_comm 1]

theorem foldl_setFree_twice_free (lo hi : Nat → Fld) (l : List Nat) (b : Blk) :
    (l.foldl (fun b m => setFree (hi m) (setFree (lo m) b)) b).free = b.free + 2 * l.length := by
  induction l generalizing b with
  | nil => rfl
  | cons i l ih =>
    rw [List.foldl_cons, ih, setFree_free, setFree_free, List.length_cons]
    omega

/-- Stopping the LAT histogram draws a value for each bin, each minimum and maximum, and its HIST_SAT bit. -/
theorem latStop_free (b : Blk) : (latStop b).free = b.free + 239 := by
  have last (c : Blk) (f : Fld) (v : Nat) : (setF f v (takeFree c).2).free = c.free + 1 := rfl
  rw [latStop, last, foldl_setFree_twice_free Reg.MON.LAT_MINMAX.MIN Reg.MON.LAT_MINMAX.MAX, foldl_setFree_free Reg.MON.LAT_BIN.COUNT,
    List.length_range, List.length_range]

/-- A write of 0 to MON.CTL stops the LAT histogram where it counts, and clears nothing. -/
theorem monCtlDo_zero (h : histOn b 3 = true) : monCtlDo 0 b = setF Reg.MON.CTL.EN 0 (latStop b) := by
  have stops : (histOn b 3 && !(0 : Word).bit 3) = true := by rw [h]; rfl
  rw [monCtlDo, if_pos stops]
  rfl

theorem monCtlDo_zero_free (h : histOn b 3 = true) : (monCtlDo 0 b).free = b.free + 239 := by
  have kept (c : Blk) : (setF Reg.MON.CTL.EN 0 c).free = c.free := rfl
  rw [monCtlDo_zero h, kept, latStop_free]

theorem pageWrite_monCtl {v : Word} (h : hears 0xFFFFF0F0 v b = true) : pageWrite 0x19 0x40 v b = monCtlDo v b :=
  pageWrite_hears 0x19 0x40 0xFFFFF0F0 .mon 0 v b (by decide) (by decide) rfl (by decide) h rfl

end

/-- IDLE, with every register at its reset value: the four histograms count (R417). -/
def histogramsCount : State := { State.reset with b := { State.reset.b with sys := { State.reset.b.sys with mode := .idle } } }

theorem histogramsCount_counts : histOn histogramsCount.b 3 = true ∧ hears 0xFFFFF0F0 0 histogramsCount.b = true := by decide

end Sys2Proof.Machine
end

open Sys2Proof Sys2Proof.Machine

/-- Refutes O37: in IDLE after reset all four histograms count; MON_CLEAR with the word 0 stops LAT, and the open values that its bins
then hold are drawn from `free`, so the write changes more than registers. -/
theorem not_scrubbingAndMonitorClears : ¬ Obligations.ScrubbingAndMonitorClears := by
  unfold Obligations.ScrubbingAndMonitorClears
  intro h
  obtain ⟨counts, heard⟩ := histogramsCount_counts
  obtain ⟨-, -, -, -, -, -, clears⟩ := h histogramsCount ⟨[], []⟩ 0
  obtain ⟨t, run, frame, -⟩ := clears heard
  have written : t.b = monCtlDo 0 histogramsCount.b := by
    rw [← pageWrite_monCtl heard]
    exact (congrArg State.b (Host.Outcome.next.inj run)).symm
  have same : t.b.free = histogramsCount.b.free := congrArg (fun t => t.b.free) frame
  rw [written, monCtlDo_zero_free counts] at same
  omega

section
/-!
PROOF. The rings (O34): what the command engine makes of an entry, the completion ring and its signal, the acquisition stream's copy.
-/
set_option autoImplicit false

namespace Sys2Proof.Machine

section
variable {b : Blk} {x : RingEntry}

/-- An entry is fetched. -/
theorem cmdFetch_fetches (hw : cmdWaits b = true) (hf : 2 ≤ cplFree b) : cmdFetch x b =
    if x.err ≠ 0 then cmdStop x.err.val b
    else if entryFault x then cmdStop 5 b
    else if descReserved x.frame = false ∧ (x.entry.headD 0).bits 0 18 ≠ 32 + payloadBytes (cmdAdvance b) x.frame then
      wrongLength x.frame (cmdAdvance b)
    else { cmdAdvance b with sched := { (cmdAdvance b).sched with arrivals :=
      (cmdAdvance b).sched.arrivals ++ [{ stamp := (cmdAdvance b).time.ns, peer := none, msg := 0, words := x.frame }] } } :=
  if_pos ⟨hw, hf⟩

/-- The block with its oldest record written to the completion ring. -/
def cplWritten (r : List Word) (rs : List (List Word)) (b : Blk) : Blk :=
  let m := ringMod b Reg.PCIE.CPL_CFG.LOG2SIZE
  let wp := getF b Reg.PCIE.CPL_WP.WP
  setF Reg.PCIE.CPL_WP.WP ((wp + 1) % m)
    (send (.dma (hostAddr b Reg.PCIE.CPL_BASE_LO.W Reg.PCIE.CPL_BASE_HI.W + 32 * (wp % (m / 2))) r)
      { b with sched := { b.sched with recs := rs } })

/-- The same with the count mirrored where the host asks for it. -/
def cplMirrored (r : List Word) (rs : List (List Word)) (b : Blk) : Blk :=
  let mir := hostAddr b Reg.PCIE.CPL_MIRROR_LO.W Reg.PCIE.CPL_MIRROR_HI.W
  if mir = 0 then cplWritten r rs b
  else send (.dma mir [BitVec.ofNat 32 ((getF b Reg.PCIE.CPL_WP.WP + 1) % ringMod b Reg.PCIE.CPL_CFG.LOG2SIZE)]) (cplWritten r rs b)

theorem cplWrite_writes {r : List Word} {rs : List (List Word)} (hq : b.sched.recs = r :: rs) (hd : dmaOn b Reg.PCIE.CPL_CFG.EN = true)
    (hr : (getF b Reg.PCIE.CPL_WP.WP + ringMod b Reg.PCIE.CPL_CFG.LOG2SIZE - getF b Reg.PCIE.CPL_RP.RP) %
      ringMod b Reg.PCIE.CPL_CFG.LOG2SIZE ≠ ringMod b Reg.PCIE.CPL_CFG.LOG2SIZE / 2) :
    cplWrite b = cplSignal (cplMirrored r rs b) := by
  unfold cplWrite
  simp only [hq]
  exact if_pos ⟨hd, hr⟩

theorem cplHoldoff_ends (hd : b.host.cplDue = true) (hq : b.due (b.host.cplSig.getD 0 + cplGap b) = true) :
    let d := b.atEdge (b.host.cplSig.getD 0 + cplGap b)
    cplHoldoff b = signalMsix 24 { d with host := { d.host with cplSig := some d.q, cplDue := false } } :=
  (if_pos hd).trans (atQ_due _ hq)

/-- The acquisition stream may copy a record. -/
def acqRoom (b : Blk) : Prop := dmaOn b Reg.PCIE.ACQ_CFG.EN = true ∧ flag b Reg.ACQ.CFG.DRAIN = true ∧ 0 < acqUsed b ∧
  (getF b Reg.PCIE.ACQ_WP.WP + 2 * acqRing b - getF b Reg.PCIE.ACQ_RP.RP % (2 * acqRing b)) % (2 * acqRing b) + 32 ≤ acqRing b

/-- The block with the oldest record of the buffer copied to the host's ring. -/
def acqCopied (b : Blk) : Blk :=
  let off := 0x1000000 + 32 * (getF b Reg.ACQ.RP.RP % 131072)
  let c := eccData (fun w => decide (w.mem.val = 5 ∧ off ≤ eccOff w ∧ eccOff w < off + 32)) b
  setFs [(Reg.ACQ.RP.RP, (getF b Reg.ACQ.RP.RP + 1) % 262144), (Reg.PCIE.ACQ_WP.WP, (getF b Reg.PCIE.ACQ_WP.WP + 32) % (2 * acqRing b))]
    (send (.dma (hostAddr c Reg.PCIE.ACQ_BASE_LO.W Reg.PCIE.ACQ_BASE_HI.W + getF b Reg.PCIE.ACQ_WP.WP % acqRing b)
      ((List.range 8).map fun i => BitVec.ofNat 32 (rdW c.live (off + 4 * i)))) c)

/-- The signal of the stream, each THRESH records. -/
def acqSignalled (c : Blk) : Blk :=
  if getF c Reg.PCIE.ACQ_CFG.THRESH ≤ c.host.acqSig + 1 then signalMsix 25 { c with host := { c.host with acqSig := 0 } }
  else { c with host := { c.host with acqSig := c.host.acqSig + 1 } }

theorem acqCopy_copies (h : acqRoom b) : acqCopy true b = acqSignalled (acqCopied b) := (if_pos h).trans (if_pos rfl)

theorem acqCopy_fails (h : acqRoom b) : acqCopy false b = raise 1061 (setFs [(Reg.PCIE.DMA_ERR.ENGINE, 2),
    (Reg.PCIE.DMA_ERR.CAUSE, (Config.freeValue b.free).toNat), (Reg.PCIE.DMA_ERR.VALID, 1)] { b with free := b.free + 1 }) :=
  (if_pos h).trans (if_neg Bool.false_ne_true)

end

end Sys2Proof.Machine
end

open Sys2Proof Sys2Proof.Machine

/-- Settles O34: an entry by the checks of its fetch in their order, the rings by the one write each makes. -/
theorem theRingsMoveTheirEntries : Obligations.TheRingsMoveTheirEntries := by
  unfold Obligations.TheRingsMoveTheirEntries
  intro s x r rs stop c bad m wp mir base sent size awp arp room off read copied
  have next {b c : Blk} (h : b = c) : (.next { s with b := b } : Host.Outcome State Fault Refusal) = .next { s with b := c } := h ▸ rfl
  refine ⟨fun hw hf he => ?_, fun hw hf he hx => ?_, fun hw hf he hx hb => ?_, fun hw hf he hx hb => ?_, fun hw => ?_,
    fun hq hd hr => ?_, fun hd hq => ?_, fun h => ?_, fun h => ?_⟩
  · exact next ((cmdFetch_fetches hw hf).trans (if_pos he))
  · exact next ((cmdFetch_fetches hw hf).trans ((if_neg (by simp [he])).trans (if_pos hx)))
  · exact next ((cmdFetch_fetches hw hf).trans ((if_neg (by simp [he])).trans ((if_neg (by simp [hx])).trans (if_neg hb))))
  · exact next ((cmdFetch_fetches hw hf).trans ((if_neg (by simp [he])).trans ((if_neg (by simp [hx])).trans (if_pos hb))))
  · exact next (if_pos hw)
  · exact next (cplWrite_writes hq hd hr)
  · exact next (cplHoldoff_ends hd hq)
  · exact next (acqCopy_copies h)
  · exact next (acqCopy_fails h)

section
/-!
PROOF. The link and the function's resets, its configuration registers, and vectors that signal or pend (O35).
-/
set_option autoImplicit false

namespace Sys2Proof.Machine

/-! ### A reset of the function (R431) -/

/-- The fields of a list, no two alike, return to their reset values; every other field stays. -/
theorem resets_show (fs : List Fld) (b : Blk) (hn : (fs.map Fld.key).Nodup) : let c := fs.foldl (fun b f => setF f f.rst b) b
    (∀ f ∈ fs, getF c f = f.rst % 2 ^ f.wid) ∧ KeepsRegsBut fs b c ∧ c = { b with regs := c.regs } := by
  induction fs generalizing b with
  | nil => exact ⟨fun f hf => absurd hf List.not_mem_nil, fun _ _ => rfl, rfl⟩
  | cons f fs ih =>
    rw [List.map_cons, List.nodup_cons] at hn
    obtain ⟨hset, hkeep, hframe⟩ := ih (setF f f.rst b) hn.2
    refine ⟨fun g hg => ?_, fun g hg => ?_, hframe⟩
    · rcases List.mem_cons.1 hg with rfl | hg
      · exact (hkeep g hn.1).trans (getF_setF_same _ _ _)
      · exact hset g hg
    · rw [List.map_cons, List.mem_cons, not_or] at hg
      exact (hkeep g hg.2).trans (getF_setF_ne _ _ _ _ hg.1)

section
variable {b : Blk}

theorem masterReset_quiet {k : Nat} {x : MstReset} (hx : x.bursts = []) :
    masterReset k x b = setF Reg.XBAR.DROP.COUNT (min 65535 (getF b Reg.XBAR.DROP.COUNT + x.waiting)) b := by
  rw [masterReset, hx, List.foldl_nil]

/-- The host's side of a function that is reset. -/
def hostReset (b : Blk) : Blk :=
  { b with host := { b.host with busMaster := false, d3 := false, mps := 0, mrrs := 2, cmdOff := false, cplSig := none
                                 cplDue := false, acqSig := 0 } }

theorem functionReset_eq (x : MstReset) (b : Blk) :
    functionReset x b = masterReset 0 x (ringFields.foldl (fun b f => setF f f.rst b) (hostReset b)) := rfl

theorem functionReset_quiet {x : MstReset} (hx : x.bursts = []) : let c := functionReset x b
    (∀ f ∈ ringFields, getF c f = f.rst % 2 ^ f.wid) ∧
    getF c Reg.XBAR.DROP.COUNT = min 65535 (getF b Reg.XBAR.DROP.COUNT + x.waiting) ∧
    KeepsRegsBut (Reg.XBAR.DROP.COUNT :: ringFields) b c ∧ c = { hostReset b with regs := c.regs } := by
  intro c
  have other : Reg.XBAR.DROP.COUNT.key ∉ ringFields.map Fld.key := by decide
  obtain ⟨hset, hkeep, hframe⟩ := resets_show ringFields (hostReset b) (by decide)
  have hc : c = masterReset 0 x _ := functionReset_eq x b
  generalize ringFields.foldl (fun b f => setF f f.rst b) (hostReset b) = d at hset hkeep hframe hc
  rw [masterReset_quiet hx] at hc
  have count : getF d Reg.XBAR.DROP.COUNT = getF b Reg.XBAR.DROP.COUNT := hkeep _ other
  rw [hc]
  refine ⟨fun f hf => ?_, ?_, fun f hf => ?_, ?_⟩
  · rw [getF_setF_ne _ _ _ _ fun hk => other (hk ▸ List.mem_map_of_mem hf), hset f hf]
  · rw [getF_setF_same, count]
    exact Nat.mod_eq_of_lt (Nat.lt_of_le_of_lt (Nat.min_le_left _ _) (by decide))
  · rw [List.map_cons, List.mem_cons, not_or] at hf
    exact (getF_setF_ne _ _ _ _ hf.1).trans (hkeep f hf.2)
  · rw [hframe]
    rfl

theorem orphan_eq (k : Nat) (r : Burst) (b : Blk) : orphan k r b = flushLate (raiseTx [961] (some (k, (if r.read then 1 else 2), r.addr.toNat))
    (setFs [(Reg.XBAR.ORPHAN.MASTER, k), (Reg.XBAR.ORPHAN.TARGET, r.target.val), (Reg.XBAR.ORPHAN.BEATS_DONE, r.done),
      (Reg.XBAR.ORPHAN.BEATS, r.beats), (Reg.XBAR.ORPHAN.READ, if r.read then 1 else 0), (Reg.XBAR.ORPHAN.VALID, 1),
      (Reg.XBAR.ORPHAN_ADDR.ADDR, r.addr.toNat)] b)) := rfl

/-! ### Configuration registers and vectors (R420, R423, R431) -/

theorem configWrite_one (h : linkUp b = true) (r : FnReg) (x : WrWord) : configWrite r [x] b = { b with host := configSet r x b.host } :=
  if_pos h

/-- The power state follows the field where its byte is strobed and it names D0 or D3hot. -/
theorem configSet_power (v : Word) (be : BitVec 4) (h : HostSt) : configSet .pmControl ⟨v, be⟩ h =
    if be.getLsbD 0 = true ∧ (v.bits 0 2 = 0 ∨ v.bits 0 2 = 3) then { h with d3 := decide (v.bits 0 2 = 3) } else h := by
  unfold configSet
  dsimp only
  cases be.getLsbD 0
  · simp
  · by_cases h0 : v.bits 0 2 = 0
    · simp [h0]
    · by_cases h3 : v.bits 0 2 = 3
      · simp [h3]
      · simp [h0, h3]

theorem dmaOn_d3 (en : Fld) (h : b.host.d3 = true) : dmaOn b en = false := by
  simp [dmaOn, h]

theorem msixHoldoffEnd_signals {v : Nat} (hm : v ∈ b.ev.due)
    (hd : b.due ((b.ev.lastMsg.find v).getD 0 + getF b Reg.EVT.CFG.HOLDOFF * 4000) = true) :
    let d := b.atEdge ((b.ev.lastMsg.find v).getD 0 + getF b Reg.EVT.CFG.HOLDOFF * 4000)
    msixHoldoffEnd v b = signalMsix v { d with
      ev := { d.ev with due := d.ev.due.filter fun x => x != v, lastMsg := d.ev.lastMsg.put v d.q } } :=
  (if_pos hm).trans (atQ_due _ hd)

theorem signalMsix_vector (n : Fin 64) : signalMsix n.val b =
    if natBits (getF b (Reg.PCIE.MSIX_TABLE.W (4 * n.val + 3))) 0 1 = 1 then
      setF (Reg.PCIE.MSIX_PBA.W (n.val / 32)) (getF b (Reg.PCIE.MSIX_PBA.W (n.val / 32)) ||| 2 ^ (n.val % 32)) b
    else send (.msix n.val) b := by
  have word : n.val / 32 % 2 = n.val / 32 := Nat.mod_eq_of_lt (by omega)
  simp only [signalMsix, msixMasked, word, beq_iff_eq]

end

end Sys2Proof.Machine
end

open Sys2Proof Sys2Proof.Machine

/-- Settles O35: the link's commands by their guards, a function reset by the fields that it returns, and vectors by their mask. -/
theorem theLinkComesAndGoes : Obligations.TheLinkComesAndGoes := by
  unfold Obligations.TheLinkComesAndGoes
  intro s x v be speed width vec cor up h heldTill d
  have next {b c : Blk} (h : b = c) : (.next { s with b := b } : Host.Outcome State Fault Refusal) = .next { s with b := c } := h ▸ rfl
  refine ⟨fun hc => ?_, fun hl => ?_, fun hl => ?_, fun hl => ?_, fun b hx => functionReset_quiet hx, fun b k => rfl,
    fun b k r => orphan_eq k r b, fun hl => ⟨?_, ?_, fun hs => ?_, fun hs => ?_, ?_⟩, fun b en => dmaOn_d3 en, fun hl => ?_,
    fun hm hd => ?_, fun b n => ⟨fun hm => ?_, fun hm => ?_⟩⟩
  · exact next ((if_pos hc).trans (by simp [raiseIf, up, setFs]))
  · exact next (if_pos hl)
  · exact next (if_pos hl)
  · exact next (if_pos hl)
  · exact next (if_pos hl)
  · exact next (if_pos hl)
  · exact next ((configWrite_one hl _ _).trans (by rw [configSet_power, if_pos hs]))
  · exact next ((configWrite_one hl _ _).trans (by rw [configSet_power, if_neg hs]))
  · exact next (configWrite_one hl _ _)
  · exact next (if_pos hl)
  · exact next (msixHoldoffEnd_signals hm hd)
  · exact (signalMsix_vector n).trans (if_pos hm)
  · exact (signalMsix_vector n).trans (if_neg hm)

section
/-!
PROOF. The flash's operations, I2C and the TAP (O36).
-/
set_option autoImplicit false

namespace Sys2Proof.Machine

/-! ### Flash operations begin (R443) -/

section
variable {b : Blk} {v : Word}

theorem pageWrite_qspi (hb : b.heard = true) (hr : v.toNat &&& Pg.reserved .pcie 0 0xA4 = 0) (he : qspiErrs v b = []) :
    pageWrite 0x1D 0xA4 v b = qspiDo v b :=
  pageWrite_effect (g := .pcie) (i := 0) rfl hb hr ((List.append_nil _).trans he) (by omega)

/-- The size to which the address of operation `op` is aligned. -/
def qspiUnit (op : Nat) : Nat := if op = 3 then 4096 else if op = 4 then 65536 else 256

theorem qspi_starts (op : Nat) (hop : op ∈ [1, 2, 3, 4]) (hb : b.heard = true) (hf : flag b Reg.PCIE.QSPI_STAT.BUSY = false)
    (ha : getF b Reg.PCIE.QSPI_ADDR.ADDR % qspiUnit op = 0) : pageWrite 0x1D 0xA4 (BitVec.ofNat 32 (0x80000000 + op)) b =
      setF Reg.PCIE.QSPI_STAT.BUSY 1 { b with host := { b.host with qspi := some (op, getF b Reg.PCIE.QSPI_ADDR.ADDR) } } := by
  have word : ∀ op ∈ [1, 2, 3, 4], (BitVec.ofNat 32 (0x80000000 + op)).toNat &&& Pg.reserved .pcie 0 0xA4 = 0 ∧
      Word.bit (BitVec.ofNat 32 (0x80000000 + op)) 31 = true ∧ Word.bits (BitVec.ofNat 32 (0x80000000 + op)) 0 3 = op ∧ ¬ (op = 0 ∨ 4 < op) := by
    decide
  obtain ⟨hr, hgo, hbits, hlow⟩ := word op hop
  have errs : qspiErrs (BitVec.ofNat 32 (0x80000000 + op)) b = [] := by
    rw [qspiErrs, if_pos hgo, hbits]
    dsimp only
    rw [← qspiUnit, ha, hf, if_neg (heard_modes hb), if_neg hlow]
    rfl
  rw [pageWrite_qspi hb hr errs, qspiDo, if_pos hgo, hbits]
  rfl

/-! ### Bytes of the flash (R442) -/

theorem get_putBytes_ne (f : Nat → Byte) (a n k : Nat) (m : Tbl Byte) (h : k < a ∨ a + n ≤ k) :
    ((List.range n).foldl (fun m i => m.set 255 (a + i) (f i)) m).get 255 k = m.get 255 k := by
  induction n with
  | zero => rfl
  | succ n ih =>
    rw [List.range_succ, List.foldl_append]
    exact (Tbl.get_set_ne _ _ _ _ _ _ (by omega)).trans (ih (by omega))

theorem get_putBytes (f : Nat → Byte) (a n i : Nat) (m : Tbl Byte) (h : i < n) :
    ((List.range n).foldl (fun m i => m.set 255 (a + i) (f i)) m).get 255 (a + i) = f i := by
  induction n with
  | zero => exact absurd h (Nat.not_lt_zero i)
  | succ n ih =>
    rw [List.range_succ, List.foldl_append]
    rcases Nat.lt_succ_iff_lt_or_eq.1 h with hlt | rfl
    · exact (Tbl.get_set_ne _ _ _ _ _ _ (by omega)).trans (ih hlt)
    · exact Tbl.get_set_same _ _ _ _

theorem flashByte_flashPut (f : Nat → Byte) (a n : Nat) (b : Blk) : (∀ i < n, flashByte (flashPut a n f b) (a + i) = f i) ∧
    ∀ k, k < a ∨ a + n ≤ k → flashByte (flashPut a n f b) k = flashByte b k :=
  ⟨fun i hi => get_putBytes f a n i b.flash hi, fun k hk => get_putBytes_ne f a n k b.flash hk⟩

/-! ### The buffer (R443) -/

/-- Word `i` of the flash from `a` on. -/
def flashBufWord (b : Blk) (a i : Nat) : Nat := (List.range 4).foldl (fun w j => w + (flashByte b (a + 4 * i + j)).toNat * 256 ^ j) 0

/-- One word of the buffer filled. -/
def bufStep (a : Nat) (b : Blk) (i : Nat) : Blk := setF (Reg.PCIE.QSPI_BUF.DATA i) (flashBufWord b a i) b

/-- The first `n` words of the buffer filled from `a` on. -/
def bufFilled (a n : Nat) (b : Blk) : Blk := (List.range n).foldl (bufStep a) b

theorem bufFilled_zero (a : Nat) (b : Blk) : bufFilled a 0 b = b := by
  rw [bufFilled, List.range_zero, List.foldl_nil]

theorem bufFilled_succ (a n : Nat) (b : Blk) : bufFilled a (n + 1) b = bufStep a (bufFilled a n b) n := by
  rw [bufFilled, List.range_succ, List.foldl_append, List.foldl_cons, List.foldl_nil, bufFilled]

theorem bufStep_eq (a n : Nat) {b d : Blk} (hflash : d.flash = b.flash) :
    bufStep a d n = setF (Reg.PCIE.QSPI_BUF.DATA n) (flashBufWord b a n) d := by
  have same (i : Nat) : flashBufWord d a i = flashBufWord b a i := by simp only [flashBufWord, flashByte, hflash]
  rw [bufStep, same]

/-- The buffer of `d` holds the first `n` of the words, and the rest of `d` is `b`'s. -/
def BufHolds (word : Nat → Nat) (n : Nat) (b d : Blk) : Prop :=
  d.flash = b.flash ∧ d.host = b.host ∧ ∀ i < n, getF d (Reg.PCIE.QSPI_BUF.DATA i) = word i % 2 ^ (Reg.PCIE.QSPI_BUF.DATA i).wid

theorem BufHolds.succ {word : Nat → Nat} {n : Nat} {b d : Blk} (h : BufHolds word n b d) :
    BufHolds word (n + 1) b (setF (Reg.PCIE.QSPI_BUF.DATA n) (word n) d) := by
  obtain ⟨hflash, hhost, hdone⟩ := h
  refine ⟨hflash, hhost, fun i hi => ?_⟩
  rcases Nat.lt_succ_iff_lt_or_eq.1 hi with hlt | rfl
  · have apart : (Reg.PCIE.QSPI_BUF.DATA i).key ≠ (Reg.PCIE.QSPI_BUF.DATA n).key := by
      simp only [Reg.PCIE.QSPI_BUF.DATA, Fld.mk']
      omega
    rw [getF_setF_ne _ _ _ _ apart, hdone i hlt]
  · rw [getF_setF_same]

theorem bufFilled_holds (a n : Nat) (b : Blk) : BufHolds (flashBufWord b a) n b (bufFilled a n b) := by
  induction n with
  | zero =>
    rw [bufFilled_zero]
    exact ⟨rfl, rfl, fun i hi => absurd hi (Nat.not_lt_zero i)⟩
  | succ n ih =>
    rw [bufFilled_succ, bufStep_eq a n ih.1]
    exact ih.succ

theorem digit_of_sum {x0 x1 x2 x3 : Nat} (h0 : x0 < 256) (h1 : x1 < 256) (h2 : x2 < 256) (h3 : x3 < 256) (j : Nat) (h : j < 4) :
    (x0 + x1 * 256 + x2 * 65536 + x3 * 16777216) % 2 ^ 32 / 256 ^ j % 2 ^ 8 = [x0, x1, x2, x3].getD j 0 := by
  match j, h with
  | 0, _ | 1, _ | 2, _ | 3, _ =>
    simp only [List.getD_cons_zero, List.getD_cons_succ]
    omega

theorem sum_of_bytes (f : Nat → Byte) : (List.range 4).foldl (fun w j => w + (f j).toNat * 256 ^ j) 0 =
    (f 0).toNat + (f 1).toNat * 256 + (f 2).toNat * 65536 + (f 3).toNat * 16777216 := by
  rw [show List.range 4 = [0, 1, 2, 3] from rfl, List.foldl_cons, List.foldl_cons, List.foldl_cons, List.foldl_cons, List.foldl_nil]
  omega

theorem getD_of_bytes (f : Nat → Byte) (j : Nat) (h : j < 4) :
    [(f 0).toNat, (f 1).toNat, (f 2).toNat, (f 3).toNat].getD j 0 = (f j).toNat := by
  match j, h with
  | 0, _ | 1, _ | 2, _ | 3, _ => rfl

theorem byte_of_word {w : Nat} (f : Nat → Byte) (hw : w = (List.range 4).foldl (fun w j => w + (f j).toNat * 256 ^ j) 0)
    (j : Nat) (h : j < 4) : BitVec.ofNat 8 (w % 2 ^ 32 / 256 ^ j) = f j :=
  BitVec.eq_of_toNat_eq (by
    rw [BitVec.toNat_ofNat, hw, sum_of_bytes, digit_of_sum (f 0).isLt (f 1).isLt (f 2).isLt (f 3).isLt j h, getD_of_bytes f j h])

theorem byte_of_flashBufWord (b : Blk) (a k j : Nat) (h : j < 4) :
    BitVec.ofNat 8 (flashBufWord b a k % 2 ^ 32 / 256 ^ j) = flashByte b (a + 4 * k + j) :=
  byte_of_word (fun j => flashByte b (a + 4 * k + j)) rfl j h

theorem BufHolds.byte {a : Nat} {b d : Blk} (h : BufHolds (flashBufWord b a) 64 b d) (i : Nat) (hi : i < 256) :
    bufByte d i = flashByte b (a + i) := by
  obtain ⟨-, -, hword⟩ := h
  have wid (k : Nat) : (Reg.PCIE.QSPI_BUF.DATA k).wid = 32 := by simp only [Reg.PCIE.QSPI_BUF.DATA, Fld.mk']
  calc bufByte d i
    _ = BitVec.ofNat 8 (flashBufWord b a (i / 4) % 2 ^ 32 / 256 ^ (i % 4)) := by rw [bufByte, hword (i / 4) (by omega), wid]
    _ = flashByte b (a + 4 * (i / 4) + i % 4) := byte_of_flashBufWord b a _ _ (Nat.mod_lt _ (by decide))
    _ = flashByte b (a + i) := by rw [show a + 4 * (i / 4) + i % 4 = a + i by omega]

/-! ### Flash operations end (R443) -/

/-- The bytes that operation `op` covers. -/
def qspiBytes (op : Nat) : Nat := if op = 2 then 256 else if op = 3 then 4096 else 65536

/-- The operation's effect. -/
def qspiEffect (op a : Nat) (good : Bool) (b : Blk) : Blk :=
  if op = 1 then bufFilled a 64 b
  else if good then (if op = 2 then flashPut a (qspiBytes op) (bufByte b) b else flashPut a (qspiBytes op) (fun _ => 255) b)
  else flashPut a (qspiBytes op) (freeByte b.free) { b with free := b.free + qspiBytes op / 4 }

/-- The status that an ended operation shows. -/
def qspiShown (good : Bool) (b : Blk) : Blk :=
  setFlag Reg.PCIE.QSPI_STAT.FAIL (!good) (setFlag Reg.PCIE.QSPI_STAT.BUSY false
    (setF Reg.PCIE.QSPI_STAT.SR ((takeFree b).1.toNat % 256 / 2 * 2 + (if good then 0 else 1)) (takeFree b).2))

theorem qspiDone_eq {op a : Nat} (ok : Bool) (h : b.host.qspi = some (op, a)) : qspiDone ok b =
    raiseIf (!(ok || op == 1)) 1064 (qspiShown (ok || op == 1) (qspiEffect op a (ok || op == 1) { b with host := { b.host with qspi := none } })) := by
  rw [qspiDone, h]
  rfl

theorem qspiEffect_shows (op a : Nat) (good : Bool) (b : Blk) : let c := qspiEffect op a good b
    c.host = b.host ∧ (op = 1 → c.flash = b.flash ∧ ∀ i < 256, bufByte c i = flashByte b (a + i)) ∧
    (op = 2 → good = true → ∀ i < 256, flashByte c (a + i) = bufByte b i) ∧
    (op ≠ 1 → op ≠ 2 → good = true → ∀ i < qspiBytes op, flashByte c (a + i) = 255) ∧
    (op ≠ 1 → ∀ i, i < a ∨ a + qspiBytes op ≤ i → flashByte c i = flashByte b i) := by
  intro c
  by_cases h1 : op = 1
  · have hbuf := bufFilled_holds a 64 b
    have hc : c = bufFilled a 64 b := if_pos h1
    rw [hc]
    exact ⟨hbuf.2.1, fun _ => ⟨hbuf.1, hbuf.byte⟩, fun h2 => absurd (h1.symm.trans h2) (by decide), fun h => absurd h1 h, fun h => absurd h1 h⟩
  · cases good with
    | false =>
      have hc : c = flashPut a (qspiBytes op) (freeByte b.free) { b with free := b.free + qspiBytes op / 4 } := if_neg h1
      obtain ⟨-, hout⟩ := flashByte_flashPut (freeByte b.free) a (qspiBytes op) { b with free := b.free + qspiBytes op / 4 }
      rw [hc]
      exact ⟨rfl, fun h => absurd h h1, fun _ h => absurd h (by decide), fun _ _ h => absurd h (by decide), fun _ => hout⟩
    | true =>
      by_cases h2 : op = 2
      · have hc : c = flashPut a (qspiBytes op) (bufByte b) b := (if_neg h1).trans (if_pos h2)
        obtain ⟨hin, hout⟩ := flashByte_flashPut (bufByte b) a (qspiBytes op) b
        rw [hc]
        exact ⟨rfl, fun h => absurd h h1, fun _ _ i hi => hin i (by rw [h2]; exact hi), fun _ h => absurd h2 h, fun _ => hout⟩
      · have hc : c = flashPut a (qspiBytes op) (fun _ => 255) b := (if_neg h1).trans (if_neg h2)
        obtain ⟨hin, hout⟩ := flashByte_flashPut (fun _ => 255) a (qspiBytes op) b
        rw [hc]
        exact ⟨rfl, fun h => absurd h h1, fun h => absurd h h2, fun _ _ _ => hin, fun _ => hout⟩

theorem qspiShown_shows (good : Bool) (b : Blk) : let c := qspiShown good b
    c.host = b.host ∧ c.flash = b.flash ∧ (∀ i, bufByte c i = bufByte b i) ∧ flag c Reg.PCIE.QSPI_STAT.BUSY = false ∧
    flag c Reg.PCIE.QSPI_STAT.FAIL = !good ∧ getF c Reg.PCIE.QSPI_STAT.SR % 2 = if good then 0 else 1 := by
  intro c
  have hc : c = setFlag Reg.PCIE.QSPI_STAT.FAIL (!good) (setFlag Reg.PCIE.QSPI_STAT.BUSY false
    (setF Reg.PCIE.QSPI_STAT.SR ((takeFree b).1.toNat % 256 / 2 * 2 + (if good then 0 else 1)) (takeFree b).2)) := rfl
  have free (f : Fld) : getF (takeFree b).2 f = getF b f := rfl
  refine ⟨rfl, rfl, fun i => ?_, ?_, flag_setFlag_same _ _ _ rfl, ?_⟩
  · have apart : (Reg.PCIE.QSPI_BUF.DATA (i / 4)).key ≠ Reg.PCIE.QSPI_STAT.FAIL.key ∧
        (Reg.PCIE.QSPI_BUF.DATA (i / 4)).key ≠ Reg.PCIE.QSPI_STAT.BUSY.key ∧
        (Reg.PCIE.QSPI_BUF.DATA (i / 4)).key ≠ Reg.PCIE.QSPI_STAT.SR.key := by
      simp only [Reg.PCIE.QSPI_BUF.DATA, Reg.PCIE.QSPI_STAT.FAIL, Reg.PCIE.QSPI_STAT.BUSY, Reg.PCIE.QSPI_STAT.SR, Fld.mk']
      omega
    rw [bufByte, hc, setFlag, getF_setF_ne _ _ _ _ apart.1, setFlag, getF_setF_ne _ _ _ _ apart.2.1, getF_setF_ne _ _ _ _ apart.2.2, free]
    rfl
  · exact (flag_congr (getF_setF_ne _ _ _ _ (by decide))).trans (flag_setFlag_same _ _ _ rfl)
  · rw [hc, setFlag, getF_setF_ne _ _ _ _ (by decide), setFlag, getF_setF_ne _ _ _ _ (by decide), getF_setF_same]
    generalize (takeFree b).1.toNat = n
    show (n % 256 / 2 * 2 + (if good = true then 0 else 1)) % 256 % 2 = _
    cases good
    · simp only [Bool.false_eq_true, if_false]
      omega
    · simp only [if_true]
      omega

/-! ### The TAP (R446, R448) -/

theorem selectIr_eq (ir v : Nat) (b : Blk) : selectIr ir v b =
    let c := setRaw 1066 (tapDrives ir) (send (.tap ir v) { b with host := { b.host with tapIr := ir } })
    if tapDrives ir = true ∧ tapDrives b.host.tapIr = false then raise 1066 c else c := by
  unfold selectIr
  dsimp only
  cases tapDrives ir <;> cases tapDrives b.host.tapIr <;> simp [raiseIf]

end

end Sys2Proof.Machine
end

open Sys2Proof Sys2Proof.Machine

/-- Settles O36: an operation by the one write that starts it and by its effect and status, I2C and the TAP by their one step. -/
theorem flashBoardManagementAndTap : Obligations.FlashBoardManagementAndTap := by
  unfold Obligations.FlashBoardManagementAndTap
  have next {s : State} {b c : Blk} (h : b = c) :
      (.next { s with b := b } : Host.Outcome State Fault Refusal) = .next { s with b := c } := h ▸ rfl
  refine ⟨fun s ok => ⟨fun hb hf => ⟨fun ha => ⟨?_, ?_⟩, fun ha => ?_, fun ha => ?_⟩, fun op p hq => ?_⟩,
    fun s y ys n pins load => ⟨fun hp => ⟨?_, ?_, ?_⟩, ?_, ?_, ?_, ?_, ?_, ?_, ?_⟩⟩
  · exact next (qspi_starts 1 (by decide) hb hf ha)
  · exact next (qspi_starts 2 (by decide) hb hf ha)
  · exact next (qspi_starts 3 (by decide) hb hf ha)
  · exact next (qspi_starts 4 (by decide) hb hf ha)
  · obtain ⟨ehost, eread, eprog, eerase, eout⟩ := qspiEffect_shows op p (ok || op == 1) { s.b with host := { s.b.host with qspi := none } }
    have run : exec (.qspiOpDone ok) s = .next { s with b := _ } := next (qspiDone_eq ok hq)
    generalize qspiEffect op p (ok || op == 1) { s.b with host := { s.b.host with qspi := none } } = e at ehost eread eprog eerase eout run
    obtain ⟨shost, sflash, sbuf, sbusy, sfail, ssr⟩ := qspiShown_shows (ok || op == 1) e
    generalize qspiShown (ok || op == 1) e = c at shost sflash sbuf sbusy sfail ssr run
    have byte (i : Nat) : flashByte c i = flashByte e i := by rw [flashByte, flashByte, sflash]
    refine ⟨c, run.trans (next ?_), ?_, sbusy, sfail, ssr, fun h1 => ⟨sflash.trans (eread h1).1, fun i hi => ?_⟩, fun h2 hok i hi => ?_,
      fun h1 h2 hok i hi => ?_, fun h1 i hi => ?_⟩
    · cases ok || op == 1 <;> rfl
    · rw [shost, ehost]
    · rw [sbuf]
      exact (eread h1).2 i hi
    · rw [byte]
      exact eprog h2 (by rw [hok]; rfl) i hi
    · rw [byte]
      exact eerase h1 h2 (by rw [hok]; rfl) i hi
    · rw [byte]
      exact eout h1 i hi
  · exact next (if_neg (by simp [hp]))
  · exact next (if_neg (by simp [hp]))
  · exact next (if_neg (by simp [hp]))
  · exact next (selectIr_eq 0 _ _)
  · exact next (selectIr_eq 1 _ _)
  · exact next (selectIr_eq 1 _ _)
  · exact next (congrArg (fun b : Blk => { b with host := { b.host with boundary := load } }) (selectIr_eq 2 _ _))
  · exact next (selectIr_eq 8 _ _)
  · exact next (selectIr_eq 9 _ _)
  · exact next (selectIr_eq 0x3F _ _)

section
/-!
PROOF. The window of SEQ and the checks of a message (O48).
-/
set_option autoImplicit false

namespace Sys2Proof.Machine

/-! ### The window (R438) -/

section
variable {h w q r : Nat}

/-- The window with highest number `h` and marks `w` admits the number `r`. -/
def admits (h w r : Nat) : Bool := decide (h < r) || (decide (h - r < 64) && !w.testBit (h - r))

/-- The marks once the number `q` is taken. -/
def marksAfter (h w q : Nat) : Nat := if h < q then (if q - h < 64 then w * 2 ^ (q - h) % 2 ^ 64 else 0) ||| 1 else w ||| 2 ^ (h - q)

theorem testBit_marksAfter_above {k : Nat} (hq : h < q) (hk : k < 64) :
    (marksAfter h w q).testBit k = (decide (k = 0) || decide (q - h ≤ k) && w.testBit (k - (q - h))) := by
  have one : (1 : Nat).testBit k = decide (k = 0) := by
    rw [show (1 : Nat) = 2 ^ 0 from rfl, Nat.testBit_two_pow, decide_eq_decide]
    exact eq_comm
  rw [marksAfter, if_pos hq, Nat.testBit_or, one, Bool.or_comm]
  by_cases hd : q - h < 64
  · rw [if_pos hd, Nat.testBit_mod_two_pow, Nat.testBit_mul_two_pow, decide_eq_true hk, Bool.true_and]
  · rw [if_neg hd, Nat.zero_testBit, decide_eq_false (by omega : ¬ q - h ≤ k), Bool.false_and]

theorem testBit_marksAfter_below {k : Nat} (hq : ¬ h < q) : (marksAfter h w q).testBit k = (w.testBit k || decide (h - q = k)) := by
  rw [marksAfter, if_neg hq, Nat.testBit_or, Nat.testBit_two_pow]

theorem admits_after_above (hq : h < q) : admits q (marksAfter h w q) r = (admits h w r && r != q && (decide (q < r) || decide (q - r < 64))) := by
  unfold admits
  by_cases h1 : q < r
  · have hr : h < r := by omega
    have hne : r ≠ q := by omega
    simp [h1, hr, hne]
  · by_cases h2 : q - r < 64
    · rw [testBit_marksAfter_above hq h2]
      by_cases h3 : r = q
      · simp [h3]
      · by_cases h4 : h < r
        · have hd : ¬ q - h ≤ q - r := by omega
          have h0 : q - r ≠ 0 := by omega
          simp [h1, h2, h3, h4, hd, h0]
        · have hd : q - h ≤ q - r := by omega
          have h0 : q - r ≠ 0 := by omega
          have hk : q - r - (q - h) = h - r := by omega
          have hl : h - r < 64 := by omega
          simp [h1, h2, h3, h4, hd, h0, hk, hl]
    · simp [h1, h2]

theorem admits_after_below (hq : ¬ h < q) : admits h (marksAfter h w q) r = (admits h w r && r != q && (decide (h < r) || decide (h - r < 64))) := by
  unfold admits
  rw [testBit_marksAfter_below hq]
  by_cases h1 : h < r
  · have hne : r ≠ q := by omega
    simp [h1, hne]
  · by_cases h3 : r = q
    · have hle : q ≤ h := by omega
      simp [h3, hle]
    · have hd : h - q ≠ h - r := by omega
      cases decide (h - r < 64) <;> simp [h1, h3, hd]

theorem admits_after : admits (max h q) (marksAfter h w q) r =
    (admits h w r && r != q && (decide (max h q < r) || decide (max h q - r < 64))) := by
  by_cases hq : h < q
  · rw [Nat.max_eq_right (Nat.le_of_lt hq)]
    exact admits_after_above hq
  · rw [Nat.max_eq_left (Nat.le_of_not_lt hq)]
    exact admits_after_below hq

end

theorem seqFresh_eq (b : Blk) (q : Word) : seqFresh b q = admits (getF b Reg.ETH.WIN_HIGH.H) b.eth.win q.toNat := rfl

theorem takeSeq_shows (q : Word) (b : Blk) : let c := takeSeq q b
    getF c Reg.ETH.WIN_HIGH.H = max (getF b Reg.ETH.WIN_HIGH.H) q.toNat ∧
    c.eth.win = marksAfter (getF b Reg.ETH.WIN_HIGH.H) b.eth.win q.toNat ∧ KeepsRegsBut [Reg.ETH.WIN_HIGH.H] b c ∧
    c = { b with regs := c.regs, eth := { b.eth with win := c.eth.win } } := by
  dsimp only
  unfold takeSeq marksAfter
  dsimp only
  by_cases hq : getF b Reg.ETH.WIN_HIGH.H < q.toNat
  · rw [if_pos hq, if_pos hq]
    refine ⟨?_, rfl, fun f hf => ?_, rfl⟩
    · rw [getF_setF_same, Nat.max_eq_right (Nat.le_of_lt hq)]
      exact Nat.mod_eq_of_lt q.isLt
    · exact getF_setF_ne _ _ _ _ fun e => hf (List.mem_singleton.2 e)
  · rw [if_neg hq, if_neg hq]
    exact ⟨(Nat.max_eq_left (Nat.le_of_not_lt hq)).symm, rfl, fun _ _ => rfl, rfl⟩

theorem seqFresh_takeSeq (b : Blk) (q r : Word) : let h := max (getF b Reg.ETH.WIN_HIGH.H) q.toNat
    seqFresh (takeSeq q b) r = (seqFresh b r && r != q && (decide (h < r.toNat) || decide (h - r.toNat < 64))) := by
  obtain ⟨hhigh, hwin, -, -⟩ := takeSeq_shows q b
  have hne : (r.toNat != q.toNat) = (r != q) := by
    rw [bne, bne, Bool.beq_eq_decide_eq, Bool.beq_eq_decide_eq, decide_eq_decide.2 BitVec.toNat_inj]
  rw [seqFresh_eq, seqFresh_eq, hhigh, hwin, admits_after, hne]

/-! ### The checks (R437, R440) -/

section
variable {b : Blk} {x : UdpMsg}

/-- The check that fails, with the checks before it that hold. -/
theorem failedCheck_cases (b : Blk) (x : UdpMsg) : let c := failedCheck b x
    let tagged := x.formOk = true ∧ flag b Reg.NVM.STAT.KEY_SET = true ∧ x.tagOk (keyBytes b) = true
    let timely := tagged ∧ x.epoch.toNat = getF b Reg.ETH.BOOT_ID.ID
    (c = 1 ∧ x.formOk = false) ∨ (c = 2 ∧ x.formOk = true ∧ flag b Reg.NVM.STAT.KEY_SET = false) ∨
    (c = 3 ∧ x.formOk = true ∧ flag b Reg.NVM.STAT.KEY_SET = true ∧ x.tagOk (keyBytes b) = false) ∨
    (c = 4 ∧ tagged) ∨ (c = 5 ∧ timely ∧ seqFresh b x.msgSeq = false) ∨
    ((c = 6 ∨ c = 7 ∨ c = 0) ∧ timely ∧ seqFresh b x.msgSeq = true) := by
  dsimp only
  unfold failedCheck
  cases hform : x.formOk
  · exact .inl ⟨if_pos rfl, rfl⟩
  cases hkey : flag b Reg.NVM.STAT.KEY_SET
  · exact .inr (.inl ⟨rfl, rfl, rfl⟩)
  cases htag : x.tagOk (keyBytes b)
  · exact .inr (.inr (.inl ⟨rfl, rfl, rfl, rfl⟩))
  by_cases hepoch : x.epoch.toNat = getF b Reg.ETH.BOOT_ID.ID
  · cases hseq : seqFresh b x.msgSeq
    · exact .inr (.inr (.inr (.inr (.inl ⟨by simp [hepoch], ⟨⟨rfl, rfl, rfl⟩, hepoch⟩, rfl⟩))))
    · refine .inr (.inr (.inr (.inr (.inr ⟨?_, ⟨⟨rfl, rfl, rfl⟩, hepoch⟩, rfl⟩))))
      simp only [hepoch, ne_eq, not_true, if_false, Bool.true_eq_false]
      split
      · exact .inl rfl
      · split
        · exact .inr (.inl rfl)
        · exact .inr (.inr rfl)
  · exact .inr (.inr (.inr (.inl ⟨by simp [hepoch], rfl, rfl, rfl⟩)))

theorem failedCheck_says (b : Blk) (x : UdpMsg) : let c := failedCheck b x
    (c = 1 ↔ x.formOk = false) ∧ (c = 2 ↔ x.formOk = true ∧ flag b Reg.NVM.STAT.KEY_SET = false) ∧
    (c = 3 ↔ x.formOk = true ∧ flag b Reg.NVM.STAT.KEY_SET = true ∧ x.tagOk (keyBytes b) = false) ∧
    (c = 5 → x.formOk = true ∧ flag b Reg.NVM.STAT.KEY_SET = true ∧ x.tagOk (keyBytes b) = true ∧
      x.epoch.toNat = getF b Reg.ETH.BOOT_ID.ID ∧ seqFresh b x.msgSeq = false) ∧
    (c = 0 ∨ 6 ≤ c → seqFresh b x.msgSeq = true) ∧ c ≤ 7 := by
  have cases := failedCheck_cases b x
  dsimp only at cases ⊢
  generalize failedCheck b x = c at cases
  rcases cases with ⟨rfl, h⟩ | ⟨rfl, h, h'⟩ | ⟨rfl, h, h', h''⟩ | ⟨rfl, h, h', h''⟩ | ⟨rfl, ⟨⟨h, h', h''⟩, he⟩, hs⟩ |
    ⟨hc, ⟨⟨h, h', h''⟩, he⟩, hs⟩
  case inr.inr.inr.inr.inr =>
    have hne : c ≠ 1 ∧ c ≠ 2 ∧ c ≠ 3 ∧ c ≠ 5 ∧ c ≤ 7 := by omega
    simp [hne, h, h', h'', hs]
  all_goals simp [*]

theorem all_le {o : Option Nat} {n q : Nat} (h : ∀ t, o = some t → t + n ≤ q) : (o.all fun t => decide (t + n ≤ q)) = true := by
  cases o with
  | none => rfl
  | some t => exact decide_eq_true (h t rfl)

theorem not_all_le {o : Option Nat} {n q : Nat} (h : ∃ t, o = some t ∧ q < t + n) : ¬ (o.all fun t => decide (t + n ≤ q)) = true := by
  obtain ⟨t, rfl, hlt⟩ := h
  simpa using hlt

theorem sendError_eq (x : UdpMsg) (code detail : Nat) (q : Word) (b : Blk) : sendError x code detail q b =
    if (b.eth.errAt.find x.port.val).all fun t => decide (t + 4000000 ≤ b.q) then
      sendUdp (peerOf x) 0x84 [BitVec.ofNat 32 (code + detail * 256), q]
        { b with eth := { b.eth with errAt := b.eth.errAt.put x.port.val b.q } }
    else raise (1073 + 8 * x.port.val) (incF (Reg.ETH.CNT_DEC.SUPPRESSED x.port.val) b) := by
  unfold sendError
  rfl

theorem sendError_sends (code detail : Nat) (q : Word) (h : ∀ t, b.eth.errAt.find x.port.val = some t → t + 4000000 ≤ b.q) :
    sendError x code detail q b = sendUdp (peerOf x) 0x84 [BitVec.ofNat 32 (code + detail * 256), q]
      { b with eth := { b.eth with errAt := b.eth.errAt.put x.port.val b.q } } := by
  rw [sendError_eq, if_pos (all_le h)]

theorem sendError_suppressed (code detail : Nat) (q : Word) (h : ∃ t, b.eth.errAt.find x.port.val = some t ∧ b.q < t + 4000000) :
    sendError x code detail q b = raise (1073 + 8 * x.port.val) (incF (Reg.ETH.CNT_DEC.SUPPRESSED x.port.val) b) := by
  rw [sendError_eq, if_neg (not_all_le h)]

theorem rejectedMsg_eq (hon : udpOn b x = true) (hc : failedCheck b x ≠ 0) : rejectedMsg x b =
    let c := failedCheck b x
    let d := if 6 ≤ c then takeSeq x.msgSeq b else b
    if c = 2 then incF (Reg.ETH.CNT_DEC.DECODE x.port.val) d
    else if c = 3 ∨ c = 4 ∨ c = 5 then
      sendError x 0x21 (c - 2) x.msgSeq (raise (1069 + 8 * x.port.val)
        (incF (if c = 5 then Reg.ETH.CNT_AUTH.REPLAY x.port.val else Reg.ETH.CNT_AUTH.AUTH x.port.val) d))
    else sendError x 0x20 0 (if c = 1 then 0 else x.msgSeq) (raise (1070 + 8 * x.port.val) (incF (Reg.ETH.CNT_DEC.DECODE x.port.val) d)) := by
  unfold rejectedMsg
  dsimp only
  rw [if_neg (by simp [hon, hc])]

theorem rejectedMsg_undecoded {c : Nat} (h : failedCheck b x = c) (hon : udpOn b x = true) (hc : c = 1 ∨ 6 ≤ c) : rejectedMsg x b =
    sendError x 0x20 0 (if c = 1 then 0 else x.msgSeq) (raise (1070 + 8 * x.port.val)
      (incF (Reg.ETH.CNT_DEC.DECODE x.port.val) (if 6 ≤ c then takeSeq x.msgSeq b else b))) := by
  rw [rejectedMsg_eq hon (by omega), h]
  dsimp only
  rw [if_neg (by omega), if_neg (by omega)]

theorem rejectedMsg_denied {c : Nat} (h : failedCheck b x = c) (hon : udpOn b x = true) (hc : c = 3 ∨ c = 4 ∨ c = 5) : rejectedMsg x b =
    sendError x 0x21 (c - 2) x.msgSeq (raise (1069 + 8 * x.port.val)
      (incF (if c = 5 then Reg.ETH.CNT_AUTH.REPLAY x.port.val else Reg.ETH.CNT_AUTH.AUTH x.port.val) b)) := by
  rw [rejectedMsg_eq hon (by omega), h]
  dsimp only
  rw [if_neg (by omega), if_pos hc, if_neg (show ¬ 6 ≤ c by omega)]

theorem rejectedMsg_keyless (h : failedCheck b x = 2) (hon : udpOn b x = true) :
    rejectedMsg x b = incF (Reg.ETH.CNT_DEC.DECODE x.port.val) b := by
  rw [rejectedMsg_eq hon (by omega), h]
  dsimp only
  rw [if_pos rfl, if_neg (by omega)]

end

end Sys2Proof.Machine
end

open Sys2Proof Sys2Proof.Machine

/-- Settles O48: the window by its marks, bit by bit; the checks by the first that fails. -/
theorem udpMessagesAreCheckedInOrder : Obligations.UdpMessagesAreCheckedInOrder := by
  unfold Obligations.UdpMessagesAreCheckedInOrder
  have next {s : State} {b c : Blk} (h : b = c) :
      (.next { s with b := b } : Host.Outcome State Fault Refusal) = .next { s with b := c } := h ▸ rfl
  refine ⟨fun b q _ => ?_, fun s x hon => ?_⟩
  · obtain ⟨hhigh, -, hkeeps, hrest⟩ := takeSeq_shows q b
    exact ⟨hhigh, seqFresh_takeSeq b q, by rw [seqFresh_takeSeq]; simp, hkeeps, hrest⟩
  · intro p c counted undecoded
    have tag : x.tagOk (keyBytes s.b) = false ↔ x.tag ≠ hmacTag (keyBytes s.b) (x.payload.take (12 + x.len)) := by
      simp [UdpMsg.tagOk]
    have met {d : Blk} (h : rejectedMsg x s.b = d) : exec (.rejectedMessage x) s = .next { s with b := d } := next h
    obtain ⟨c1, c2, c3, c5, c6, c7⟩ := failedCheck_says s.b x
    refine ⟨c1, c2, by rwa [tag] at c3, c5, c6, c7, fun hc => met ?_, fun hc => met (rejectedMsg_keyless hc hon),
      fun hc => met ?_, fun hc => met ?_, fun hc => met ?_, fun hc => met ?_,
      fun b code detail q => ⟨sendError_sends code detail q, sendError_suppressed code detail q⟩⟩
    · rw [rejectedMsg_undecoded hc hon (.inl rfl), if_pos rfl, if_neg (by omega)]
    · rw [rejectedMsg_denied hc hon (.inl rfl), if_neg (by omega)]
    · rw [rejectedMsg_denied hc hon (.inr (.inl rfl)), if_neg (by omega)]
    · rw [rejectedMsg_denied hc hon (.inr (.inr rfl)), if_pos rfl]
    · rw [rejectedMsg_undecoded rfl hon (.inr hc), if_neg (show ¬ c = 1 by omega), if_pos hc]

section
/-!
PROOF. Requests and subscriptions of the UDP protocol (O49).
-/
set_option autoImplicit false

namespace Sys2Proof.Machine

section
variable {b : Blk} {x : UdpMsg}

/-! ### A message is taken (R437, R438) -/

/-- A message that passes the checks is counted and its SEQ taken. -/
def taken (x : UdpMsg) (b : Blk) : Blk := takeSeq x.msgSeq (incF (Reg.ETH.CNT_OK.COUNT x.port.val) b)

/-- The message `x` of TYPE `typ` passes the checks. -/
def Passes (typ : Nat) (x : UdpMsg) (b : Blk) : Prop := udpOn b x = true ∧ failedCheck b x = 0 ∧ x.typ.toNat = typ

theorem onUdp_passes {typ : Nat} (act : Blk → Blk) (h : Passes typ x b) : onUdp typ x act b = act (taken x b) := if_pos h

/-! ### Queries (R439) -/

theorem query_answered {what : Nat} (answer : Blk → List Word) (h : Passes 3 x b) (hr : (x.body.headD 0).bits 8 24 = 0)
    (hw : (x.body.headD 0).bits 0 8 ≤ 1) (hwhat : (x.body.headD 0).bits 0 8 = what) :
    query what x answer b = sendUdp (peerOf x) 0x82 (answer (taken x b)) (taken x b) := by
  rw [query, onUdp_passes _ h]
  dsimp only
  rw [if_neg (by omega), if_pos hwhat]

theorem query_refused {what : Nat} (answer : Blk → List Word) (h : Passes 3 x b)
    (hr : (x.body.headD 0).bits 8 24 ≠ 0 ∨ 1 < (x.body.headD 0).bits 0 8) :
    query what x answer b = sendError x 4 0 x.msgSeq (taken x b) := by
  rw [query, onUdp_passes _ h]
  dsimp only
  rw [if_pos hr]

/-! ### What an answer depends on (R439) -/

theorem sendUdp_sent (p : Peer) (typ : Nat) (body : List Word) (b : Blk) : (sendUdp p typ body b).sent =
    let ws := [BitVec.ofNat 32 (1 + typ * 256 + 4 * body.length * 65536), BitVec.ofNat 32 (getF b Reg.ETH.BOOT_ID.ID),
      BitVec.ofNat 32 (b.eth.ansSeq + 1)] ++ body
    .udp p udpPort ws (hmacTag (keyBytes b) (ws.flatMap wordBytes)) :: b.sent := by
  unfold sendUdp
  rfl

theorem sendUdp_subs (p : Peer) (typ : Nat) (body : List Word) (b : Blk) : (sendUdp p typ body b).eth.subs = b.eth.subs := by
  unfold sendUdp
  rfl

/-- An answer says the same in `c` as in `b`. -/
def SameAnswers (b c : Blk) : Prop :=
  c.sent = b.sent ∧ c.nvm = b.nvm ∧ c.eth.ansSeq = b.eth.ansSeq ∧ getF c Reg.ETH.BOOT_ID.ID = getF b Reg.ETH.BOOT_ID.ID ∧ c.q = b.q

theorem SameAnswers.trans {c d : Blk} (h : SameAnswers b c) (k : SameAnswers c d) : SameAnswers b d := by
  obtain ⟨h1, h2, h3, h4, h5⟩ := h
  obtain ⟨k1, k2, k3, k4, k5⟩ := k
  exact ⟨k1.trans h1, k2.trans h2, k3.trans h3, k4.trans h4, k5.trans h5⟩

theorem sameAnswers_setF (f : Fld) (v : Nat) (b : Blk) (h : Reg.ETH.BOOT_ID.ID.key ≠ f.key) : SameAnswers b (setF f v b) :=
  ⟨rfl, rfl, rfl, getF_setF_ne _ _ _ _ h, rfl⟩

theorem sameAnswers_subs (us : List Sub) (b : Blk) : SameAnswers b { b with eth := { b.eth with subs := us } } :=
  ⟨rfl, rfl, rfl, rfl, rfl⟩

theorem sameAnswers_showSubs (b : Blk) : SameAnswers b (showSubs b) := by
  rw [showSubs, List.foldl_cons, List.foldl_cons, List.foldl_nil]
  exact (sameAnswers_setF _ _ _ (by decide)).trans (sameAnswers_setF _ _ _ (by decide))

theorem showSubs_eth (b : Blk) : (showSubs b).eth = b.eth := by
  rw [showSubs, List.foldl_cons, List.foldl_cons, List.foldl_nil]
  rfl

theorem takeSeq_sameAnswers (q : Word) (b : Blk) : SameAnswers b (takeSeq q b) := by
  obtain ⟨-, -, keeps, rest⟩ := takeSeq_shows q b
  generalize takeSeq q b = c at keeps rest
  exact ⟨(congrArg Blk.sent rest).trans rfl, (congrArg Blk.nvm rest).trans rfl, (congrArg (fun c => c.eth.ansSeq) rest).trans rfl,
    keeps _ (by decide), (congrArg Blk.q rest).trans rfl⟩

theorem sameAnswers_taken (x : UdpMsg) (b : Blk) : SameAnswers b (taken x b) := by
  have apart : ∀ p : Fin 2, Reg.ETH.BOOT_ID.ID.key ≠ (Reg.ETH.CNT_OK.COUNT p.val).key := by decide
  exact (sameAnswers_setF _ _ b (apart x.port)).trans (takeSeq_sameAnswers _ _)

/-! ### Subscriptions (R439, R441) -/

/-- The subscriptions of other peers. -/
def othersSubs (x : UdpMsg) (b : Blk) : List Sub := b.eth.subs.filter fun u => !u.peer.same (peerOf x)

/-- The reserved bits of a SUBSCRIBE are 0. -/
def SubClean (x : UdpMsg) : Prop := (x.body.getD 0 0).bits 4 28 = 0 ∧ (x.body.getD 1 0).bits 16 16 = 0 ∧ (x.body.getD 2 0).bits 12 20 = 0

/-- The period and the lease of a SUBSCRIBE are in range. -/
def SubFits (x : UdpMsg) : Prop := 10 ≤ (x.body.getD 1 0).bits 0 16 ∧ (x.body.getD 1 0).bits 0 16 ≤ 60000 ∧
  1 ≤ (x.body.getD 2 0).bits 0 12 ∧ (x.body.getD 2 0).bits 0 12 ≤ 3600

theorem subCode_reserved (h : ¬ SubClean x) : subCode x b = 4 := by
  rw [SubClean] at h
  rw [subCode]
  dsimp only
  rw [if_pos (by omega)]

theorem subCode_range (h : SubClean x) (hf : ¬ SubFits x) : subCode x b = 1 := by
  rw [SubClean] at h
  rw [SubFits] at hf
  rw [subCode]
  dsimp only
  rw [if_neg (by omega), if_pos (by omega)]

theorem subCode_fits (h : SubClean x) (hf : SubFits x) :
    subCode x b = if (x.body.getD 0 0).bit 0 = true ∧ 4 ≤ (othersSubs x b).length then 3 else 0 := by
  rw [SubClean] at h
  rw [SubFits] at hf
  rw [subCode]
  dsimp only
  rw [if_neg (by omega), if_neg (by omega), othersSubs]

theorem subscription_refused {en : Bool} (f : Blk → Blk) (h : Passes 4 x b) (he : (x.body.headD 0).bit 0 = en) {code : Nat}
    (hc : subCode x (taken x b) = code) (h0 : code ≠ 0) : subscription en x f b = sendError x code 0 x.msgSeq (taken x b) := by
  rw [subscription, if_neg (by simpa using he), onUdp_passes _ h, hc, if_pos h0]

theorem subscription_taken {en : Bool} (f : Blk → Blk) (h : Passes 4 x b) (he : (x.body.headD 0).bit 0 = en)
    (hc : subCode x (taken x b) = 0) : subscription en x f b =
      sendUdp (peerOf x) 0x81 (x.msgSeq :: List.replicate 9 0) (f (taken x b)) := by
  rw [subscription, if_neg (by simpa using he), onUdp_passes _ h, hc, if_neg (by decide)]

/-- The peer's subscription is replaced by the one asked for. -/
def resubscribed (x : UdpMsg) (b : Blk) : Blk :=
  let c := keepSubs (fun s => !s.peer.same (peerOf x)) b
  showSubs { c with eth := { c.eth with subs := c.eth.subs ++ [newSub x c] } }

theorem keepSubs_shows (x : UdpMsg) (b : Blk) : let c := keepSubs (fun s => !s.peer.same (peerOf x)) b
    SameAnswers b c ∧ c.eth.subs = othersSubs x b := by
  dsimp only
  rw [keepSubs]
  exact ⟨(sameAnswers_subs _ b).trans (sameAnswers_showSubs _), by rw [showSubs_eth, othersSubs]⟩

theorem newSub_of_q {c : Blk} (h : c.q = b.q) : newSub x c = newSub x b := by
  rw [newSub, h, newSub]

theorem resubscribed_shows (x : UdpMsg) (b : Blk) : SameAnswers b (resubscribed x b) ∧
    (resubscribed x b).eth.subs = othersSubs x b ++ [newSub x b] := by
  obtain ⟨same, subs⟩ := keepSubs_shows x b
  rw [resubscribed]
  generalize keepSubs (fun s => !s.peer.same (peerOf x)) b = c at same subs
  refine ⟨same.trans ((sameAnswers_subs _ c).trans (sameAnswers_showSubs _)), ?_⟩
  obtain ⟨-, -, -, -, hq⟩ := same
  rw [showSubs_eth, newSub_of_q hq, subs]

/-- The answer to a SUBSCRIBE. -/
theorem subscribed_sent {c : Blk} (h : SameAnswers b c) : (sendUdp (peerOf x) 0x81 (x.msgSeq :: List.replicate 9 0) c).sent =
    let ack := [BitVec.ofNat 32 (1 + 0x81 * 256 + 40 * 65536), BitVec.ofNat 32 (getF b Reg.ETH.BOOT_ID.ID),
      BitVec.ofNat 32 (b.eth.ansSeq + 1), x.msgSeq] ++ List.replicate 9 0
    .udp (peerOf x) 47810 ack (hmacTag (keyBytes b) (ack.flatMap wordBytes)) :: b.sent := by
  obtain ⟨hsent, hnvm, hseq, hid, -⟩ := h
  have key : keyBytes c = keyBytes b := by rw [keyBytes, hnvm, keyBytes]
  have len : 4 * (x.msgSeq :: List.replicate 9 (0 : Word)).length = 40 := rfl
  rw [sendUdp_sent, hsent, hseq, hid, key, len, udpPort]
  rfl

end

end Sys2Proof.Machine
end

open Sys2Proof Sys2Proof.Machine

/-- Settles O49: each request by the one path that it takes once its message is taken. -/
theorem udpRequestsAndSubscriptions : Obligations.UdpRequestsAndSubscriptions := by
  unfold Obligations.UdpRequestsAndSubscriptions
  have next {s : State} {b c : Blk} (h : b = c) :
      (.next { s with b := b } : Host.Outcome State Fault Refusal) = .next { s with b := c } := h ▸ rfl
  refine ⟨fun s x hon hc => ?_, fun s i u hu => ?_⟩
  · intro c w others ack clean fits
    have head : x.body.headD 0 = w 0 := by cases hb : x.body <;> simp [w, hb]
    have passes {n : Nat} (hn : n < 256) (h : x.typ = BitVec.ofNat 8 n) : Passes n x s.b :=
      ⟨hon, hc, by rw [h, BitVec.toNat_ofNat, Nat.mod_eq_of_lt hn]⟩
    have low (n : Nat) : (w 0).bits 0 n = (w 0).toNat % 2 ^ n := by rw [Word.bits, Nat.pow_zero, Nat.div_one]
    have high : (w 0).bits 8 24 = (w 0).toNat / 256 % 16777216 := rfl
    have lt := (w 0).isLt
    refine ⟨fun h => ?_, fun h => ?_, fun h hw => ?_, fun h hw => ?_, fun h hw h1 => ?_, fun h hw h1 => ?_, fun h hen hcl hf hroom => ?_,
      fun h hen hcl hf => ?_, fun h hen hcl => ?_, fun h hen hcl hf => ?_, fun h hen hcl hf hfull => ?_⟩
    · exact next (onUdp_passes _ (passes (by decide) h))
    · exact next ((onUdp_passes _ (passes (by decide) h)).trans (by rw [head]; rfl))
    · have hh : x.body.headD 0 = 0 := head.trans hw
      exact next ((if_neg (by rw [hh]; decide)).trans (query_answered _ (passes (by decide) h) (by rw [hh]; rfl) (by rw [hh]; decide) (by rw [hh]; rfl)))
    · have hh : x.body.headD 0 = 1 := head.trans hw
      exact next ((if_pos (by rw [hh]; rfl)).trans (query_answered _ (passes (by decide) h) (by rw [hh]; rfl) (by rw [hh]; decide) (by rw [hh]; rfl)))
    · refine next ((if_neg (by rwa [head])).trans (query_refused _ (passes (by decide) h) ?_))
      rw [head]
      rw [low] at h1 ⊢
      rw [high]
      omega
    · exact next ((if_pos (by rwa [head])).trans (query_refused _ (passes (by decide) h) (.inl (by rwa [head]))))
    · obtain ⟨same, subs⟩ := resubscribed_shows x c
      have code : subCode x c = 0 := (subCode_fits hcl hf).trans (if_neg fun k => absurd k.2 (not_le.2 hroom))
      have run : exec (.subscribe x) s = .next { s with b := _ } :=
        next (subscription_taken (resubscribed x) (passes (by decide) h) ((congrArg (Word.bit · 0) head).trans hen) code)
      refine ⟨_, run, ?_, subscribed_sent ((sameAnswers_taken x s.b).trans same)⟩
      obtain ⟨-, -, -, -, hq⟩ := sameAnswers_taken x s.b
      have asked := newSub_of_q (x := x) hq
      rw [newSub] at asked
      exact (sendUdp_subs _ _ _ _).trans (subs.trans (congrArg (fun u => othersSubs x c ++ [u]) asked))
    · obtain ⟨-, subs⟩ := keepSubs_shows x c
      have code : subCode x c = 0 := (subCode_fits hcl hf).trans (if_neg fun k => absurd (hen.symm.trans k.1) (by decide))
      have run : exec (.unsubscribe x) s = .next { s with b := _ } :=
        next (subscription_taken (keepSubs fun s => !s.peer.same (peerOf x)) (passes (by decide) h) ((congrArg (Word.bit · 0) head).trans hen) code)
      exact ⟨_, run, (sendUdp_subs _ _ _ _).trans subs⟩
    · exact next (subscription_refused (resubscribed x) (passes (by decide) h) ((congrArg (Word.bit · 0) head).trans hen) (subCode_reserved hcl) (by decide))
    · exact next (subscription_refused (resubscribed x) (passes (by decide) h) ((congrArg (Word.bit · 0) head).trans hen) (subCode_range hcl hf) (by decide))
    · exact next (subscription_refused (resubscribed x) (passes (by decide) h) ((congrArg (Word.bit · 0) head).trans hen)
        ((subCode_fits hcl hf).trans (if_pos ⟨hen, hfull⟩)) (by decide))
  · intro e d
    refine ⟨fun hd => next ?_, fun hd hs => next ?_⟩
    · rw [subExpired, hu]
      exact atQ_due _ hd
    · rw [telemetry, hu]
      dsimp only
      rw [if_pos hs]
      exact atQ_due _ hd

section
/-!
PROOF. What the acquisition stream's operations leave as it was where no raise has a reaction: trigger engine, the fields of other
pages, and the measurements but for the samples that join them (R325, R330, R332, R341).
-/
set_option autoImplicit false

namespace Sys2Proof.Machine

/-! ### What a raise leaves of the trigger engine and of the vectors above (R334, R349) -/

/-- Of the trigger engine only the conditions of single steps change, and the pending bits of vectors 32 to 63 stand. -/
def MarksOnly (b c : Blk) : Prop :=
  c.trig = { b.trig with once := c.trig.once } ∧ ∀ f : Fld, f.key = (Reg.PCIE.MSIX_PBA.W 1).key → getF c f = getF b f

section
variable {b c d : Blk}

theorem MarksOnly.of_eq (ht : c.trig = b.trig) (hr : c.regs = b.regs) : MarksOnly b c :=
  ⟨by rw [ht], fun f _ => getF_of_regs hr f⟩

theorem MarksOnly.refl (b : Blk) : MarksOnly b b := .of_eq rfl rfl

theorem MarksOnly.trans (h : MarksOnly b c) (g : MarksOnly c d) : MarksOnly b d := by
  obtain ⟨ht, hf⟩ := h
  obtain ⟨kt, kf⟩ := g
  exact ⟨by rw [kt, ht], fun f he => (kf f he).trans (hf f he)⟩

theorem MarksOnly.ite (p : Prop) [Decidable p] (h : MarksOnly b c) (g : MarksOnly b d) : MarksOnly b (if p then c else d) := by
  split
  · exact h
  · exact g

end

theorem setF_marksOnly (f : Fld) (v : Nat) (b : Blk) (h : f.key ≠ (Reg.PCIE.MSIX_PBA.W 1).key) : MarksOnly b (setF f v b) :=
  ⟨rfl, fun _ hg => getF_setF_ne _ _ _ _ fun e => h (e.symm.trans hg)⟩

theorem trigOnce_marksOnly (k typ arg : Nat) (b : Blk) : MarksOnly b (trigOnce k typ arg b) := by
  unfold trigOnce
  exact .ite _ ⟨rfl, fun _ _ => rfl⟩ (.refl b)

theorem signalVec_marksOnly {v : Nat} (hv : v < 32) (b : Blk) : MarksOnly b (signalVec v b) := by
  have low : v / 32 % 2 = 0 := by omega
  unfold signalVec signalMsix
  dsimp only
  rw [low]
  exact .ite _ (.ite _ (MarksOnly.trans (.of_eq rfl rfl) (setF_marksOnly _ _ _ (by decide))) (.of_eq rfl rfl))
    (.ite _ (.refl b) (.of_eq rfl rfl))

theorem capture_marksOnly (s c : Nat) (tx : Option (Nat × Nat × Nat)) (b : Blk) : MarksOnly b (capture s c tx b) := by
  have set (f : Fld) (hf : f.key / 131072 = 0x12) (v : Nat) {d : Blk} (h : MarksOnly b d) : MarksOnly b (setF f v d) :=
    h.trans (setF_marksOnly f v d fun e => by simp [e, Reg.PCIE.MSIX_PBA.W, Fld.mk'] at hf)
  unfold capture
  refine .ite _ (.refl b) (.ite _ (.ite _ ?_ ?_) ?_)
  · exact set _ rfl _ (set _ rfl _ (set _ rfl _ (.refl b)))
  · exact set _ rfl _ (set _ rfl _ (set _ rfl _ (.refl b)))
  · exact set _ rfl _ (set _ rfl _ (set _ rfl _ (set _ rfl _ (set _ rfl _ (set _ rfl _ (set _ rfl _ (set _ rfl _ (set _ rfl _ (.refl b)))))))))

theorem nvmRecord_marksOnly (k s c d : Nat) (b : Blk) : MarksOnly b (nvmRecord k s c d b) :=
  MarksOnly.trans (.of_eq rfl rfl) (setF_marksOnly Reg.NVM.STAT.BUSY 1 _ (by decide))

theorem sendCell_marksOnly (d : Port) (typ dest : Nat) (bcast : Bool) (arg : Nat) (ws : List Nat) (b : Blk) :
    MarksOnly b (sendCell d typ dest bcast arg ws b) := by
  refine .of_eq ?_ (sendCell_regs _ _ _ _ _ _ _)
  unfold sendCell
  split
  · cases d <;> rfl
  · rfl

theorem tellEvent_marksOnly (ws : List Word) (x : List Sub × Blk) (s : Sub) : MarksOnly x.2 (tellEvent ws x s).2 := by
  have counted (p : Fin 2) (b : Blk) : MarksOnly b (incF (Reg.ETH.CNT_DROP.TELEM p.val) b) :=
    setF_marksOnly _ _ _ fun h => by simpa [h, Reg.PCIE.MSIX_PBA.W, Fld.mk'] using telem_key p
  unfold tellEvent
  dsimp only
  split
  · repeat' split
    · exact .of_eq rfl rfl
    · exact counted _ _
    · exact .of_eq rfl rfl
    · exact counted _ _
  · exact .refl _

theorem announceEvent_marksOnly (s c : Nat) (b : Blk) : MarksOnly b (announceEvent s c b) := by
  have told (ws : List Word) (l : List Sub) (x : List Sub × Blk) : MarksOnly x.2 (l.foldl (tellEvent ws) x).2 := by
    induction l generalizing x with
    | nil => exact .refl _
    | cons y t ih => exact (tellEvent_marksOnly ws x y).trans (ih _)
  unfold announceEvent
  have listed := (told ((1 :: (s + c * 2048) :: [nsOf b.time.ns, secOf b.time.ns % 2 ^ 32, secOf b.time.ns / 2 ^ 32 % 2 ^ 16]).map
    (BitVec.ofNat 32)) b.eth.subs ([], b)).trans (.of_eq rfl rfl)
  exact .ite _ (.refl b) (.ite _ (listed.trans (sendCell_marksOnly _ _ _ _ _ _ _)) listed)

/-- A raise of a source below vector 32. -/
theorem latch_marksOnly (tx : Option (Nat × Nat × Nat)) (b : Blk) {s : Nat} (hs : vecOfGroup (s / 32) < 32) : MarksOnly b (latch tx b s) := by
  have latched (r : EvRec) : MarksOnly b (trigOnce (b.now + 1) 5 s (evSet s r b)) :=
    MarksOnly.trans (.of_eq rfl rfl) (trigOnce_marksOnly _ _ _ _)
  have logged (p : Prop) [Decidable p] (c : Blk) :
      MarksOnly c (if p then nvmRecord 6 s (evGet b s).cls 0 { c with ev := { c.ev with lastLog := some c.q } } else c) :=
    .ite p (MarksOnly.trans (.of_eq rfl rfl) (nvmRecord_marksOnly _ _ _ _ _)) (.refl c)
  unfold latch
  refine (MarksOnly.trans ?_ (logged _ _)).trans (announceEvent_marksOnly _ _ _)
  exact MarksOnly.trans (.ite _ ((latched _).trans (signalVec_marksOnly hs _)) (latched _)) (capture_marksOnly _ _ _ _)

theorem Blk.mild.marks {b : Blk} {s : Nat} {ss : List Nat} (h : b.mild ss) (hs : s ∈ ss) (hv : vecOfGroup (s / 32) < 32) :
    MarksOnly b (Machine.raise s b) := by
  rw [h.raised hs]
  exact latch_marksOnly none b hv

/-! ### What the stream leaves (R325, R332, R341) -/

/-- A measurement goes on: it began as it did and has the samples that it had. -/
def MeasGrows (m y : Option Meas) : Prop :=
  y.isSome = m.isSome ∧ ∀ a c, m = some a → y = some c → c.t = a.t ∧ c.stamp = a.stamp ∧ c.origin = a.origin ∧ a.xs <+: c.xs

theorem MeasGrows.refl (m : Option Meas) : MeasGrows m m := by
  refine ⟨rfl, fun a c ha hc => ?_⟩
  cases ha.symm.trans hc
  exact ⟨rfl, rfl, rfl, List.prefix_rfl⟩

theorem MeasGrows.trans {m y z : Option Meas} (h : MeasGrows m y) (g : MeasGrows y z) : MeasGrows m z := by
  obtain ⟨hs, hm⟩ := h
  obtain ⟨gs, gm⟩ := g
  refine ⟨gs.trans hs, fun a c ha hc => ?_⟩
  cases hy : y with
  | none => simp [hy, ha] at hs
  | some e =>
    obtain ⟨h1, h2, h3, h4⟩ := hm a e ha hy
    obtain ⟨g1, g2, g3, g4⟩ := gm e c hy hc
    exact ⟨g1.trans h1, g2.trans h2, g3.trans h3, h4.trans g4⟩

/-- The field is none of the stream's: of no ACQ page, and not the request of an injection. -/
def Fld.offStream (f : Fld) : Prop := f.apart ∧ f.key / 131072 ≠ 0x1A ∧ f.key ≠ Reg.FTEST.ECC.GO.key

/-- What an operation of the stream leaves where no raise of it has a reaction. -/
structure Streamed (b c : Blk) : Prop where
  fields : ∀ f : Fld, f.offStream → getF c f = getF b f
  trig : c.trig = { b.trig with once := c.trig.once }
  late : c.ev.late = b.ev.late
  classes : ∀ x, (evGet c x).cls = (evGet b x).cls
  meas : ∀ n, MeasGrows (chanSt b n).meas (chanSt c n).meas

/-- The sources that the stream's operations raise have no reaction. -/
def Blk.calm (b : Blk) : Prop := b.mild [1120, 1122]

section
variable {b c d : Blk}

theorem Streamed.of_eq (hr : c.regs = b.regs) (ht : c.trig = b.trig) (he : c.ev = b.ev) (ha : c.acq.chans = b.acq.chans) : Streamed b c where
  fields f _ := getF_of_regs hr f
  trig := by rw [ht]
  late := by rw [he]
  classes x := by rw [evGet_of_tab (congrArg EvSt.tab he)]
  meas n := by rw [chanSt, chanSt, ha]; exact .refl _

theorem Streamed.refl (b : Blk) : Streamed b b := .of_eq rfl rfl rfl rfl

theorem Streamed.trans (h : Streamed b c) (g : Streamed c d) : Streamed b d where
  fields f hf := (g.fields f hf).trans (h.fields f hf)
  trig := by rw [g.trig, h.trig]
  late := g.late.trans h.late
  classes x := (g.classes x).trans (h.classes x)
  meas n := (h.meas n).trans (g.meas n)

theorem Streamed.ite (p : Prop) [Decidable p] (h : Streamed b c) (g : Streamed b d) : Streamed b (if p then c else d) := by
  split
  · exact h
  · exact g

theorem Streamed.mild {ss : List Nat} (h : Streamed b c) (hm : b.mild ss) : c.mild ss :=
  ⟨fun x hx => by rw [h.classes]; exact hm.1 x hx, h.late.trans hm.2⟩

theorem Streamed.calm (h : Streamed b c) (hm : b.calm) : c.calm := h.mild hm

theorem setF_streamed (f : Fld) (v : Nat) (b : Blk) (h : f.key / 131072 = 0x1A ∨ f.key = Reg.FTEST.ECC.GO.key) : Streamed b (setF f v b) where
  fields g hg := by
    obtain ⟨-, hpage, hgo⟩ := hg
    refine getF_setF_ne _ _ _ _ fun e => ?_
    rw [e] at hpage hgo
    exact h.elim hpage hgo
  trig := rfl
  late := rfl
  classes _ := rfl
  meas n := .refl _

theorem chanSt_setChan_same (n : Nat) (x : ChanSt) (b : Blk) : chanSt (setChan n x b) n = x := Tbl.get_set_same _ _ _ _

theorem chanSt_setChan_ne {m n : Nat} (h : m ≠ n) (x : ChanSt) (b : Blk) : chanSt (setChan n x b) m = chanSt b m :=
  Tbl.get_set_ne _ _ _ _ _ _ h

theorem setChan_streamed (n : Nat) (x : ChanSt) (b : Blk) (h : MeasGrows (chanSt b n).meas x.meas) : Streamed b (setChan n x b) where
  fields _ _ := rfl
  trig := rfl
  late := rfl
  classes _ := rfl
  meas m := by
    by_cases hm : m = n
    · rw [hm, chanSt_setChan_same]
      exact h
    · rw [chanSt_setChan_ne hm]
      exact .refl _

theorem setChan_kept (n : Nat) (x : ChanSt) (b : Blk) (h : x.meas = (chanSt b n).meas) : Streamed b (setChan n x b) :=
  setChan_streamed n x b (by rw [h]; exact .refl _)

theorem Streamed.setF (h : Streamed b c) (f : Fld) (v : Nat) (hf : f.key / 131072 = 0x1A ∨ f.key = Reg.FTEST.ECC.GO.key) :
    Streamed b (setF f v c) :=
  h.trans (setF_streamed f v c hf)

theorem Blk.mild.streamed {s : Nat} {ss : List Nat} (h : b.mild ss) (hs : s ∈ ss) (hv : vecOfGroup (s / 32) < 32) :
    Streamed b (Machine.raise s b) where
  fields f hf := (h.only hs).getF f hf.1
  trig := (h.marks hs hv).1
  late := (h.only hs).late
  classes x := by rw [h.raised hs, evGet_latch_cls]
  meas n := by
    obtain ⟨v, r, m, k, o, e, l, hc, -⟩ := h.only hs
    rw [hc]
    exact .refl _

theorem foldl_streamed {α : Type} (f : Blk → α → Blk) (h : ∀ b a, b.calm → Streamed b (f b a)) (l : List α) (hb : b.calm) :
    Streamed b (l.foldl f b) := by
  induction l generalizing b with
  | nil => exact .refl b
  | cons a t ih => exact (h b a hb).trans (ih ((h b a hb).calm hb))

end

/-! ### The stream's operations -/

section
variable {b : Blk}

theorem lose_streamed (c n : Nat) (fst lst : Nat × Nat) (b : Blk) : Streamed b (lose c n fst lst b) := by
  unfold lose
  refine Streamed.setF ?_ _ _ (.inl (by rfl))
  exact .of_eq rfl rfl rfl rfl

theorem losePart_streamed (b : Blk) (c : Nat) : Streamed b (losePart b c) := by
  unfold losePart
  dsimp only
  split
  · exact .refl b
  · refine Streamed.trans ?_ (lose_streamed _ _ _ _ _)
    exact setChan_kept _ _ _ rfl

theorem enterDrop_streamed (h : b.calm) : Streamed b (enterDrop b) := by
  have dropped : Streamed b ((List.range 32).foldl losePart (setFlag Reg.ACQ.STAT.DROPPING true b)) :=
    (setF_streamed _ _ b (.inl rfl)).trans
      (foldl_streamed losePart (fun b c _ => losePart_streamed b c) _ ((setF_streamed _ _ b (.inl rfl)).calm h))
  exact dropped.trans ((dropped.calm h).streamed (by decide) (by decide))

theorem holdRec_streamed (hdr : Nat) (ws : List Nat) (h : b.calm) : Streamed b (holdRec hdr ws b) := by
  unfold holdRec
  split
  · refine Streamed.setF ?_ _ _ (.inl (by rfl))
    exact .of_eq rfl rfl rfl rfl
  · have lost : Streamed b (incF Reg.ACQ.GAPS.HELD_LOST { b with acq := { b.acq with heldLost := min 65535 (b.acq.heldLost + 1) } }) := by
      unfold incF
      refine Streamed.setF ?_ _ _ (.inl (by rfl))
      exact .of_eq rfl rfl rfl rfl
    exact lost.trans ((lost.calm h).streamed (by decide) (by decide))

theorem injectEcc_streamed (t : Nat) (live : Bool) (a : Nat) (b : Blk) : Streamed b (injectEcc t live a b).2 := by
  have cleared : Streamed b (setFlag Reg.FTEST.ECC.GO false b) := setF_streamed _ _ b (.inr rfl)
  unfold injectEcc
  dsimp only
  split
  · split
    · exact cleared.trans (.of_eq rfl rfl rfl rfl)
    · exact cleared.trans (.of_eq rfl rfl rfl rfl)
  · exact .refl b

theorem putRec_streamed (hdr : Nat) (ws : List Nat) (b : Blk) : Streamed b (putRec hdr ws b) := by
  unfold putRec
  dsimp only
  generalize 0x1000000 + 32 * (getF b Reg.ACQ.WP.WP % 131072) = a
  have injected : Streamed b (injectEcc 5 false a (healed false a (a + 32) b)).2 := by
    refine Streamed.trans ?_ (injectEcc_streamed _ _ _ _)
    exact .of_eq rfl rfl rfl rfl
  generalize (injectEcc 5 false a (healed false a (a + 32) b)).2 = c at injected
  refine Streamed.setF (injected.trans ?_) _ _ (.inl (by rfl))
  exact .of_eq rfl rfl rfl rfl

theorem dueRec_streamed (hdr : Nat) (ws : List Nat) (h : b.calm) : Streamed b (dueRec hdr ws b) := by
  unfold dueRec
  split
  · exact .refl b
  split
  · exact holdRec_streamed hdr ws h
  split
  · exact (enterDrop_streamed h).trans (holdRec_streamed hdr ws ((enterDrop_streamed h).calm h))
  · exact putRec_streamed hdr ws b

theorem flushData_streamed (c : Nat) (h : b.calm) : Streamed b (flushData b c) := by
  unfold flushData
  dsimp only
  split
  · exact .refl b
  split
  · exact enterDrop_streamed h
  · refine Streamed.trans ?_ (putRec_streamed _ _ _)
    exact setChan_kept _ _ _ rfl

theorem streamSample_streamed (c : Nat) (s : Samp) (h : b.calm) : Streamed b (streamSample c s b) := by
  unfold streamSample
  split
  · exact .refl b
  split
  · exact lose_streamed _ _ _ _ b
  dsimp only
  have grows : MeasGrows (chanSt b c).meas
      (if (chanSt b c).part = [] then { chanSt b c with partT := s.t, partQ := s.q, partDec := s.dec } else chanSt b c).meas := by
    split <;> exact .refl _
  generalize (if (chanSt b c).part = [] then { chanSt b c with partT := s.t, partQ := s.q, partDec := s.dec } else chanSt b c) = x at grows
  have held : Streamed b (setChan c { x with part := x.part ++ [s.val], partZ := (s.q, s.t) } b) := setChan_streamed c _ b grows
  exact .ite _ (held.trans (flushData_streamed c (held.calm h))) held

theorem Meas.take_grows (n : Nat) (s : Samp) (m : Option Meas) : MeasGrows m (m.map (Meas.take n s)) := by
  refine ⟨Option.isSome_map, fun a c ha hc => ?_⟩
  subst ha
  cases hc
  unfold Meas.take
  split
  · exact ⟨rfl, rfl, rfl, List.prefix_rfl⟩
  split
  · exact ⟨rfl, rfl, rfl, List.prefix_rfl⟩
  · exact ⟨rfl, rfl, rfl, List.prefix_append _ _⟩

theorem chanSample_streamed (c : Nat) (s : Samp) (h : b.calm) : Streamed b (chanSample c s b) := by
  unfold chanSample
  refine Streamed.trans (?seen : Streamed b _) (streamSample_streamed c s (Streamed.calm ?seen h))
  exact setChan_streamed _ _ _ (Meas.take_grows _ _ _)

theorem join_meas (v : Int) (code : Nat) (void : Bool) (x : ChanSt) : (x.join v code void).meas = x.meas := by
  unfold ChanSt.join
  dsimp only
  split <;> rfl

theorem reduceGroup_streamed (red : Nat) (x : ChanSt) (b : Blk) : Streamed b (reduceGroup red x b).2 := by
  unfold reduceGroup
  split
  · exact .refl b
  · split
    · exact .refl b
    split
    · exact .refl b
    · exact .of_eq rfl rfl rfl rfl
  · exact .refl b
  · exact .refl b

theorem chanFeed_streamed (c idx q lat : Nat) (v : Int) (code : Nat) (void : Bool) (h : b.calm) :
    Streamed b (chanFeed c idx q lat v code void b) := by
  unfold chanFeed
  dsimp only
  have started : (if idx % 2 ^ getF b (Reg.ACQ.CH_CFG.DEC c) = 0 then (chanSt b c).start idx q (localAt b q % 2 ^ 32) v code else chanSt b c).meas =
      (chanSt b c).meas := by
    split <;> rfl
  generalize (if idx % 2 ^ getF b (Reg.ACQ.CH_CFG.DEC c) = 0 then (chanSt b c).start idx q (localAt b q % 2 ^ 32) v code else chanSt b c) = x at started
  have grows : MeasGrows (chanSt b c).meas (x.join v code void).meas := by
    rw [join_meas, started]
    exact .refl _
  generalize x.join v code void = y at grows
  split
  · split
    · have reduced := reduceGroup_streamed (getF b (Reg.ACQ.CH_CFG.RED c)) y b
      have chan : (chanSt (reduceGroup (getF b (Reg.ACQ.CH_CFG.RED c)) y b).2 c).meas = (chanSt b c).meas := by
        unfold reduceGroup
        split
        · rfl
        · split
          · rfl
          split <;> rfl
        · rfl
        · rfl
      generalize reduceGroup (getF b (Reg.ACQ.CH_CFG.RED c)) y b = r at reduced chan
      have set := reduced.trans (setChan_streamed c y r.2 (by rw [chan]; exact grows))
      exact set.trans (chanSample_streamed c _ (set.calm h))
    · exact setChan_streamed c y b grows
  · exact .refl b

theorem outFeed_streamed (j c : Nat) (h : b.calm) : Streamed b (outFeed j c b) := by
  unfold outFeed
  dsimp only
  split
  · have seen := setChan_kept c { chanSt b c with seen := 8 * b.tick + j + 1 } b rfl
    exact seen.trans (chanFeed_streamed _ _ _ _ _ _ _ (seen.calm h))
  · exact .refl b

theorem acqOuts_streamed (k : Nat) (h : b.calm) : Streamed b (acqOuts k b) :=
  foldl_streamed _ (fun _ j hd => foldl_streamed _ (fun _ c he => outFeed_streamed j c he) _ hd) _ h

theorem putMark_streamed (k stamp : Nat) (m : Mark) (h : b.calm) : Streamed b (putMark k stamp m b) :=
  (acqOuts_streamed k h).trans (dueRec_streamed _ _ ((acqOuts_streamed k h).calm h))

end

end Sys2Proof.Machine
end

section
/-!
PROOF. The operations of the trigger engine: arming, windows, and what a transition does to the counters and timers (R336, R337, R339,
R340).
-/
set_option autoImplicit false

namespace Sys2Proof.Machine

/-! ### A part of the block moved index by index -/

/-- Where step `i` moves only part `i`, and by `g`, a run over the indices below `n` moves each of them once. -/
theorem foldl_range_reads {β : Type} (f : Blk → Nat → Blk) (read : Blk → Nat → β) (g : Nat → β → β)
    (hat : ∀ b j, read (f b j) j = g j (read b j)) (hoff : ∀ b i j, j ≠ i → read (f b i) j = read b j) (n : Nat) (b : Blk) (j : Nat) :
    read ((List.range n).foldl f b) j = if j < n then g j (read b j) else read b j := by
  induction n with
  | zero => rfl
  | succ n ih =>
    rw [List.range_succ, List.foldl_append, List.foldl_cons, List.foldl_nil]
    rcases Nat.lt_trichotomy j n with h | rfl | h
    · rw [hoff _ _ _ (Nat.ne_of_lt h), ih, if_pos h, if_pos (Nat.lt_succ_of_lt h)]
    · rw [hat, ih, if_neg (Nat.lt_irrefl j), if_pos (Nat.lt_succ_self j)]
    · rw [hoff _ _ _ (Nat.ne_of_gt h), ih, if_neg (Nat.not_lt_of_gt h), if_neg (by omega)]

/-! ### The entry that fires (R336) -/

theorem find_four (p : Nat → Bool) (s x : Nat) : [s, s + 1, s + 2, s + 3].find? p = some x ↔
    s ≤ x ∧ x < s + 4 ∧ p x = true ∧ ∀ y, s ≤ y → y < x → p y = false := by
  rw [show [s, s + 1, s + 2, s + 3] = List.range' s 4 from rfl, List.find?_range'_eq_some, List.mem_range'_1]
  constructor
  · rintro ⟨hp, ⟨hs, hx⟩, hbelow⟩
    exact ⟨hs, hx, hp, fun y hy hyx => by simpa using hbelow y hy hyx⟩
  · rintro ⟨hs, hx, hp, hbelow⟩
    exact ⟨hp, ⟨hs, hx⟩, fun y hy hyx => by simp [hbelow y hy hyx]⟩

theorem firingAt_iff (b : Blk) (k x : Nat) : let st := getF b Reg.TRIG.STAT.STATE
    (firingAt b k = some x ↔ 4 * st ≤ x ∧ x < 4 * st + 4 ∧ entryFires b (condVec b k) x = true ∧
      ∀ y, 4 * st ≤ y → y < x → entryFires b (condVec b k) y = false) :=
  find_four _ _ _

/-! ### Windows (R340, R341) -/

/-- A measurement whose window closes at `z`. -/
def ChanSt.cut (z : Nat) (x : ChanSt) : ChanSt :=
  { x with meas := x.meas.map fun m => { m with past := true, stop := some (m.stop.elim z (min z)) } }

theorem MeasGrows.cut (z : Nat) (x : ChanSt) : MeasGrows x.meas (x.cut z).meas := by
  refine ⟨Option.isSome_map, fun a c ha hc => ?_⟩
  rw [ChanSt.cut, ha] at hc
  cases hc
  exact ⟨rfl, rfl, rfl, List.prefix_rfl⟩

theorem ChanSt.cut_of_none (z : Nat) {x : ChanSt} (h : x.meas.isSome = false) : x.cut z = x := by
  have none : x.meas = none := by simpa using h
  rw [ChanSt.cut, none, Option.map_none, ← none]

theorem chanSt_closeMeas (z : Nat) (b : Blk) (n : Nat) (h : n < 32) : chanSt (closeMeas z b) n = (chanSt b n).cut z := by
  refine (foldl_range_reads _ chanSt (fun _ x => x.cut z) (fun b j => ?_) (fun b i j hij => ?_) 32 b n).trans (if_pos h)
  · dsimp only
    split
    · exact chanSt_setChan_same _ _ _
    · next hs => exact (ChanSt.cut_of_none z (by simpa using hs)).symm
  · dsimp only
    split
    · exact chanSt_setChan_ne hij _ _
    · rfl

theorem closeMeas_streamed (z : Nat) {b : Blk} (h : b.calm) : Streamed b (closeMeas z b) := by
  refine foldl_streamed _ (fun b c _ => ?_) _ h
  dsimp only
  split
  · exact setChan_streamed c ((chanSt b c).cut z) b (.cut z _)
  · exact .refl b

/-- The open window is no longer shown. -/
def windowShut (b : Blk) : Blk := setFlag Reg.TRIG.STAT.WIN_OPEN false { b with trig := { b.trig with win := none } }

/-- The END mark of window `w`. -/
def endMark (k : Nat) (cut : Bool) (w : Win) (b : Blk) : Blk := putMark k (stepStamp b k) { Mark.plain 2 k b with cut := cut, wEnd := w.wEnd } b

theorem closeWindow_eq (k : Nat) (cut : Bool) {b : Blk} {w : Win} (h : b.trig.win = some w) : closeWindow k cut b =
    raise 1124 (closeMeas (if cut then 16 * k else w.stop.getD (16 * k)) (windowShut (endMark k cut w b))) := by
  unfold closeWindow
  rw [h]
  rfl

section
variable {b : Blk}

theorem Blk.mild.calm (h : b.mild [1120, 1122, 1124]) : b.calm := h.subset (by decide)

theorem windowShut_mild {ss : List Nat} (h : b.mild ss) : (windowShut b).mild ss := h.of_ev rfl

theorem EventOnly.chanSt {c : Blk} (h : EventOnly b c) (n : Nat) : chanSt c n = chanSt b n := by
  obtain ⟨v, r, m, k, o, e, l, rfl, -⟩ := h
  rfl

theorem offStream_winOpen : Reg.TRIG.STAT.WIN_OPEN.offStream := by
  unfold Fld.offStream Fld.apart
  decide

theorem closeWindow_shows (k : Nat) (cut : Bool) {w : Win} (hw : b.trig.win = some w) (hm : b.mild [1120, 1122, 1124]) :
    let c := closeWindow k cut b
    c.trig.win = none ∧ flag c Reg.TRIG.STAT.WIN_OPEN = false ∧ (evGet c 1124).latch = true ∧
    (∀ f : Fld, f.offStream → f.key ≠ Reg.TRIG.STAT.WIN_OPEN.key → getF c f = getF b f) ∧ c.mild [1120, 1122, 1124] ∧
    ∀ n, n < 32 → ∃ y : ChanSt, MeasGrows (chanSt b n).meas y.meas ∧ chanSt c n = y.cut (if cut then 16 * k else w.stop.getD (16 * k)) := by
  intro c
  have hc : c = _ := closeWindow_eq k cut hw
  rw [hc]
  generalize (if cut = true then 16 * k else w.stop.getD (16 * k)) = z
  have marked : Streamed b (endMark k cut w b) := putMark_streamed _ _ _ hm.calm
  generalize endMark k cut w b = d at marked
  have shutMild := windowShut_mild (marked.mild hm)
  have closed := closeMeas_streamed z shutMild.calm
  have chans := chanSt_closeMeas z (windowShut d)
  have shutWin : (windowShut d).trig.win = none := rfl
  have shutFlag : flag (windowShut d) Reg.TRIG.STAT.WIN_OPEN = false := flag_setFlag_same _ _ _ rfl
  have shutFields (f : Fld) (hf : f.key ≠ Reg.TRIG.STAT.WIN_OPEN.key) : getF (windowShut d) f = getF d f := getF_setF_ne _ _ _ _ hf
  have shutChans (n : Nat) : chanSt (windowShut d) n = chanSt d n := rfl
  generalize windowShut d = e at shutMild closed chans shutWin shutFlag shutFields shutChans
  have closedMild := closed.mild shutMild
  generalize closeMeas z e = g at closed chans closedMild
  have raised : Streamed g (raise 1124 g) := closedMild.streamed (by decide) (by decide)
  refine ⟨?_, ?_, raise_latches 1124 g, fun f hf hne => ?_, closedMild.raise (by decide), fun n hn => ⟨chanSt d n, marked.meas n, ?_⟩⟩
  · rw [raised.trig, closed.trig]
    exact shutWin
  · rw [flag, raised.fields _ offStream_winOpen, closed.fields _ offStream_winOpen]
    exact shutFlag
  · rw [raised.fields f hf, closed.fields f hf, shutFields f hne, marked.fields f hf]
  · rw [(closedMild.only (by decide)).chanSt, chans n hn, shutChans]

/-- What a closing window leaves of a measurement. -/
theorem cut_shows {m y : Option Meas} {x : ChanSt} {z : Nat} (h : MeasGrows m x.meas) (hy : (x.cut z).meas = y) : y.isSome = m.isSome ∧
    ∀ a c, m = some a → y = some c → c.past = true ∧ c.t = a.t ∧ c.stamp = a.stamp ∧ c.origin = a.origin ∧ a.xs <+: c.xs ∧
      ∃ q, c.stop = some q ∧ q ≤ z := by
  subst hy
  obtain ⟨hs, hm⟩ := h
  refine ⟨Option.isSome_map.trans hs, fun a c ha hc => ?_⟩
  cases hx : x.meas with
  | none => simp [ChanSt.cut, hx] at hc
  | some e =>
    obtain ⟨h1, h2, h3, h4⟩ := hm a e ha hx
    rw [ChanSt.cut, hx] at hc
    cases hc
    refine ⟨rfl, h1, h2, h3, h4, _, rfl, ?_⟩
    cases e.stop with
    | none => exact Nat.le_refl z
    | some q => exact Nat.min_le_left z q

theorem closeEndless_shows (k : Nat) (hm : b.mild [1120, 1122, 1124]) : let c := closeEndless k b
    (∀ f : Fld, f.offStream → f.key ≠ Reg.TRIG.STAT.WIN_OPEN.key → getF c f = getF b f) ∧ c.mild [1120, 1122, 1124] := by
  intro c
  by_cases h : (b.trig.win.any fun w => w.stop.isNone) = true
  · have hc : c = closeWindow k true b := if_pos h
    cases hw : b.trig.win with
    | none => simp [hw] at h
    | some w =>
      obtain ⟨-, -, -, fields, mild, -⟩ := closeWindow_shows k true hw hm
      rw [hc]
      exact ⟨fields, mild⟩
  · have hc : c = b := if_neg h
    rw [hc]
    exact ⟨fun _ _ _ => rfl, hm⟩

/-! ### Arming (R339) -/

/-- The counters at 0. -/
def countsCleared (b : Blk) : Blk := (List.range 4).foldl (fun b i => setF (Reg.TRIG.CNT.COUNT i) 0 b) b

theorem count_key_ne {i j : Nat} (h : j ≠ i) : (Reg.TRIG.CNT.COUNT j).key ≠ (Reg.TRIG.CNT.COUNT i).key := by
  simp only [Reg.TRIG.CNT.COUNT, Fld.mk']
  omega

theorem countsCleared_count (b : Blk) (j : Nat) (h : j < 4) : getF (countsCleared b) (Reg.TRIG.CNT.COUNT j) = 0 :=
  (foldl_range_reads _ (fun b j => getF b (Reg.TRIG.CNT.COUNT j)) (fun _ _ => 0) (fun _ _ => getF_setF_same _ _ _)
    (fun _ _ _ hij => getF_setF_ne _ _ _ _ (count_key_ne hij)) 4 b j).trans (if_pos h)

theorem countsCleared_start (b : Blk) : getF (countsCleared b) Reg.TRIG.CFG.START = getF b Reg.TRIG.CFG.START :=
  foldl_keeps (fun b => getF b Reg.TRIG.CFG.START) _ _ _ fun b i => getF_setF_ne _ _ _ _ (by
    simp only [Reg.TRIG.CNT.COUNT, Reg.TRIG.CFG.START, Fld.mk']
    omega)

theorem countsCleared_ev (b : Blk) : (countsCleared b).ev = b.ev := foldl_keeps Blk.ev _ _ _ fun _ _ => rfl

/-- The engine is shown armed. -/
def armedAs (k id start : Nat) (b : Blk) : Blk :=
  setF Reg.TRIG.STAT.ARM_ID id (setF Reg.TRIG.STAT.STATE start
    (setFlag Reg.TRIG.STAT.ARMED true { b with trig := { b.trig with tmr := [], next := k + 1 } }))

theorem armAct_eq (k id : Nat) (b : Blk) : let c := countsCleared (closeEndless k b)
    let d := armedAs k id (getF c Reg.TRIG.CFG.START) c
    armAct k id b = putMark k (stepStamp d k) { Mark.plain 4 k d with mask := condVec b k } d := by
  unfold armAct
  rfl

theorem armAct_shows (k n : Nat) (hn : n < 256) (hm : b.mild [1120, 1122, 1124]) : let c := armAct k n b
    flag c Reg.TRIG.STAT.ARMED = true ∧ getF c Reg.TRIG.STAT.STATE = getF b Reg.TRIG.CFG.START % 16 ∧ getF c Reg.TRIG.STAT.ARM_ID = n ∧
    (∀ j, j < 4 → getF c (Reg.TRIG.CNT.COUNT j) = 0) ∧ c.trig.tmr = [] ∧ c.trig.next = k + 1 := by
  obtain ⟨fields, mild⟩ := closeEndless_shows k hm
  have off : Reg.TRIG.STAT.ARMED.offStream ∧ Reg.TRIG.STAT.STATE.offStream ∧ Reg.TRIG.STAT.ARM_ID.offStream ∧ Reg.TRIG.CFG.START.offStream ∧
      ∀ j : Fin 4, (Reg.TRIG.CNT.COUNT j.val).offStream := by
    unfold Fld.offStream Fld.apart
    decide
  obtain ⟨offArmed, offState, offId, offStart, offCount⟩ := off
  have apart : ∀ j : Fin 4, (Reg.TRIG.CNT.COUNT j.val).key ∉
      [Reg.TRIG.STAT.ARM_ID.key, Reg.TRIG.STAT.STATE.key, Reg.TRIG.STAT.ARMED.key] := by decide
  dsimp only at fields mild ⊢
  rw [armAct_eq]
  dsimp only
  generalize condVec b k = v
  generalize closeEndless k b = c at fields mild
  have start : getF (countsCleared c) Reg.TRIG.CFG.START = getF b Reg.TRIG.CFG.START := (countsCleared_start c).trans (fields _ offStart (by decide))
  have calm : (countsCleared c).calm := mild.calm.of_ev (countsCleared_ev c)
  have counts := countsCleared_count c
  rw [start]
  generalize countsCleared c = d at calm counts
  have armedCalm : (armedAs k n (getF b Reg.TRIG.CFG.START) d).calm := calm.of_ev rfl
  have armed : flag (armedAs k n (getF b Reg.TRIG.CFG.START) d) Reg.TRIG.STAT.ARMED = true ∧
      getF (armedAs k n (getF b Reg.TRIG.CFG.START) d) Reg.TRIG.STAT.STATE = getF b Reg.TRIG.CFG.START % 16 ∧
      getF (armedAs k n (getF b Reg.TRIG.CFG.START) d) Reg.TRIG.STAT.ARM_ID = n := by
    unfold armedAs
    refine ⟨?_, ?_, ?_⟩
    · rw [flag, getF_setF_ne _ _ _ _ (by decide), getF_setF_ne _ _ _ _ (by decide)]
      exact flag_setFlag_same _ _ _ rfl
    · rw [getF_setF_ne _ _ _ _ (by decide), getF_setF_same]
      rfl
    · rw [getF_setF_same]
      exact Nat.mod_eq_of_lt hn
  have armedCounts (j : Fin 4) : getF (armedAs k n (getF b Reg.TRIG.CFG.START) d) (Reg.TRIG.CNT.COUNT j.val) = 0 := by
    have hj := apart j
    simp only [List.mem_cons, List.not_mem_nil, or_false, not_or] at hj
    unfold armedAs setFlag
    rw [getF_setF_ne _ _ _ _ hj.1, getF_setF_ne _ _ _ _ hj.2.1, getF_setF_ne _ _ _ _ hj.2.2]
    exact counts j.val j.isLt
  have armedTrig : (armedAs k n (getF b Reg.TRIG.CFG.START) d).trig.tmr = [] ∧ (armedAs k n (getF b Reg.TRIG.CFG.START) d).trig.next = k + 1 :=
    ⟨rfl, rfl⟩
  generalize armedAs k n (getF b Reg.TRIG.CFG.START) d = e at armedCalm armed armedCounts armedTrig
  have marked := putMark_streamed k (stepStamp e k) { Mark.plain 4 k e with mask := v } armedCalm
  generalize putMark k (stepStamp e k) { Mark.plain 4 k e with mask := v } e = f at marked
  refine ⟨?_, ?_, ?_, fun j hj => ?_, ?_, ?_⟩
  · rw [flag, marked.fields _ offArmed]
    exact armed.1
  · rw [marked.fields _ offState]
    exact armed.2.1
  · rw [marked.fields _ offId]
    exact armed.2.2
  · rw [marked.fields _ (offCount ⟨j, hj⟩)]
    exact armedCounts ⟨j, hj⟩
  · rw [marked.trig]
    exact armedTrig.1
  · rw [marked.trig]
    exact armedTrig.2

end

end Sys2Proof.Machine
end

section
/-!
PROOF. The trigger engine's commands and instants (O53).
-/
set_option autoImplicit false

namespace Sys2Proof.Machine

/-! ### Transitions (R337) -/

section
variable {b : Blk}

theorem entryMove_shows (b : Blk) (k x : Nat) : let c := entryMove k x b
    getF c Reg.TRIG.STAT.STATE = natBits (getF b (Reg.TRIG.TT.W0 x)) 18 4 ∧ getF c Reg.TRIG.LAST.INDEX = x % 64 ∧
    getF c Reg.TRIG.LAST.MASK = condVec b k % 65536 := by
  dsimp only
  unfold entryMove
  dsimp only
  generalize closeDue k b = d
  refine ⟨?_, getF_setF_same _ _ _, ?_⟩
  · rw [getF_setF_ne _ _ _ _ (by decide), getF_setF_ne _ _ _ _ (by decide), getF_setF_same]
    exact Nat.mod_mod _ _
  · rw [getF_setF_ne _ _ _ _ (by decide), getF_setF_same]
    rfl

/-- The second word of an entry reads as before a raise of EVENT, whatever its index. -/
theorem getF_entryWord_raise (hm : b.mild [1123]) (x : Nat) : getF (raise 1123 b) (Reg.TRIG.TT.W1 x) = getF b (Reg.TRIG.TT.W1 x) := by
  have key : (Reg.TRIG.TT.W1 x).key = 3555360 + 256 * x := by
    simp only [Reg.TRIG.TT.W1, Fld.mk']
    omega
  by_cases high : (Reg.TRIG.TT.W1 x).key = (Reg.PCIE.MSIX_PBA.W 1).key
  · exact (hm.marks (by decide) (by decide)).2 _ high
  by_cases eth : (Reg.TRIG.TT.W1 x).key / 131072 ∈ [0x1E, 0x1F]
  · have lsb : ∀ g ∈ raiseFields, g.key / 131072 ∈ [0x1E, 0x1F] → g.key % 32 = 16 := by decide
    refine raise_raiseWrites 1123 b _ fun h => ?_
    obtain ⟨g, hg, hk⟩ := List.mem_map.1 h
    have := lsb g hg (by rwa [hk])
    omega
  · refine (hm.only (by decide)).getF _ ⟨fun h => ?_, fun h => ?_, high⟩
    · simp only [List.mem_cons, List.not_mem_nil, or_false] at h eth
      omega
    · simp only [Reg.PCIE.MSIX_PBA.W, Fld.mk'] at h
      omega

/-- EVENT of entry `x`. -/
def entryEvent (x : Nat) (b : Blk) : Blk := if natBits (getF b (Reg.TRIG.TT.W0 x)) 25 1 = 1 then raise 1123 b else b

theorem entryEvent_shows (x : Nat) (hm : b.mild [1123]) : let c := entryEvent x b
    getF c (Reg.TRIG.TT.W1 x) = getF b (Reg.TRIG.TT.W1 x) ∧
    ∀ j, j < 4 → getF c (Reg.TRIG.CNT.COUNT j) = getF b (Reg.TRIG.CNT.COUNT j) ∧
      getF c (Reg.TRIG.TMR.STEPS j) = getF b (Reg.TRIG.TMR.STEPS j) ∧ timerWin c j = timerWin b j := by
  have apart : ∀ j : Fin 4, (Reg.TRIG.CNT.COUNT j.val).apart ∧ (Reg.TRIG.TMR.STEPS j.val).apart := by
    unfold Fld.apart
    decide
  dsimp only
  unfold entryEvent
  split
  · have only := hm.only (s := 1123) (by decide)
    obtain ⟨marks, -⟩ := hm.marks (s := 1123) (by decide) (by decide)
    refine ⟨getF_entryWord_raise hm x, fun j hj => ⟨only.getF _ (apart ⟨j, hj⟩).1, only.getF _ (apart ⟨j, hj⟩).2, ?_⟩⟩
    rw [timerWin, marks, timerWin]
  · exact ⟨rfl, fun _ _ => ⟨rfl, rfl, rfl⟩⟩

/-- A counter after the actions `w` of an entry. -/
def countAfter (w j n : Nat) : Nat :=
  let n := if natBits w (4 + j) 1 = 1 then 0 else n
  if natBits w j 1 = 1 then min (2 ^ 32 - 1) (n + 1) else n

theorem getF_countActs (w : Nat) (b : Blk) (j : Nat) (h : j < 4) :
    getF (countActs w b) (Reg.TRIG.CNT.COUNT j) = countAfter w j (getF b (Reg.TRIG.CNT.COUNT j)) := by
  refine (foldl_range_reads _ (fun b j => getF b (Reg.TRIG.CNT.COUNT j)) (countAfter w) (fun b j => ?_) (fun b i j hij => ?_) 4 b j).trans (if_pos h)
  · have counts (d : Blk) : getF (incF (Reg.TRIG.CNT.COUNT j) d) (Reg.TRIG.CNT.COUNT j) = min (2 ^ 32 - 1) (getF d (Reg.TRIG.CNT.COUNT j) + 1) := by
      have wid : (Reg.TRIG.CNT.COUNT j).wid = 32 := by simp only [Reg.TRIG.CNT.COUNT, Fld.mk']
      rw [incF, getF_setF_same, wid, satInc_eq_min]
      omega
    have clears (d : Blk) : getF (setF (Reg.TRIG.CNT.COUNT j) 0 d) (Reg.TRIG.CNT.COUNT j) = 0 := getF_setF_same _ _ _
    unfold countAfter
    dsimp only
    split <;> split <;> simp only [counts, clears]
  · have ne := count_key_ne hij
    dsimp only
    split <;> split <;> simp only [incF, getF_setF_ne _ _ _ _ ne]

theorem foldl_range_keeps {γ : Type} (g : Blk → γ) (f : Blk → Nat → Blk) (n : Nat) (b : Blk) (h : ∀ b i, i < n → g (f b i) = g b) :
    g ((List.range n).foldl f b) = g b := by
  induction n with
  | zero => rfl
  | succ n ih =>
    rw [List.range_succ, List.foldl_append, List.foldl_cons, List.foldl_nil, h _ n (Nat.lt_succ_self n)]
    exact ih fun b i hi => h b i (Nat.lt_succ_of_lt hi)

theorem countActs_keeps (w : Nat) (b : Blk) : (countActs w b).trig = b.trig ∧
    ∀ j, j < 4 → getF (countActs w b) (Reg.TRIG.TMR.STEPS j) = getF b (Reg.TRIG.TMR.STEPS j) := by
  refine ⟨foldl_keeps Blk.trig _ _ _ fun b i => ?_, fun j hj => foldl_range_keeps (fun b => getF b (Reg.TRIG.TMR.STEPS j)) _ 4 b fun b i hi => ?_⟩
  · dsimp only
    split <;> split <;> rfl
  · have ne : (Reg.TRIG.TMR.STEPS j).key ≠ (Reg.TRIG.CNT.COUNT i).key := by
      simp only [Reg.TRIG.TMR.STEPS, Reg.TRIG.CNT.COUNT, Fld.mk']
      omega
    dsimp only
    split <;> split <;> simp only [incF, getF_setF_ne _ _ _ _ ne]

/-- A timer's window after the actions `w` of an entry taken at step `k`. -/
def timerAfter (k w j : Nat) (p : (Nat × Nat) × Nat) : (Nat × Nat) × Nat :=
  (if natBits w (8 + j) 1 = 1 then (k + 1, k + 1 + p.2) else if natBits w (12 + j) 1 = 1 then (0, 0) else p.1, p.2)

theorem timerWin_timerActs (k w : Nat) (b : Blk) (j : Nat) (h : j < 4) :
    timerWin (timerActs k w b) j = (timerAfter k w j (timerWin b j, getF b (Reg.TRIG.TMR.STEPS j))).1 := by
  have all := foldl_range_reads (fun b i =>
    let t := b.trig.tmr
    let t := if natBits w (12 + i) 1 = 1 then t.set (0, 0) i (0, 0) else t
    let t := if natBits w (8 + i) 1 = 1 then t.set (0, 0) i (k + 1, k + 1 + getF b (Reg.TRIG.TMR.STEPS i)) else t
    { b with trig := { b.trig with tmr := t } }) (fun b j => (timerWin b j, getF b (Reg.TRIG.TMR.STEPS j))) (timerAfter k w)
    (fun b j => ?_) (fun b i j hij => ?_) 4 b j
  · exact congrArg Prod.fst (all.trans (if_pos h))
  · refine Prod.ext ?_ rfl
    unfold timerWin timerAfter
    dsimp only
    split
    · exact Tbl.get_set_same _ _ _ _
    · split
      · exact Tbl.get_set_same _ _ _ _
      · rfl
  · refine Prod.ext ?_ rfl
    unfold timerWin
    dsimp only
    split <;> split <;> simp only [Tbl.get_set_ne _ _ _ _ _ _ hij]

theorem entryCounts_shows (b : Blk) (k x j : Nat) (hj : j < 4) (hm : b.mild [1123]) : let w := getF b (Reg.TRIG.TT.W1 x)
    let n := if natBits w (4 + j) 1 = 1 then 0 else getF b (Reg.TRIG.CNT.COUNT j)
    getF (entryCounts k x b) (Reg.TRIG.CNT.COUNT j) = (if natBits w j 1 = 1 then min (2 ^ 32 - 1) (n + 1) else n) ∧
    timerWin (entryCounts k x b) j = if natBits w (8 + j) 1 = 1 then (k + 1, k + 1 + getF b (Reg.TRIG.TMR.STEPS j))
      else if natBits w (12 + j) 1 = 1 then (0, 0) else timerWin b j := by
  obtain ⟨word, reads⟩ := entryEvent_shows x hm
  obtain ⟨count, steps, timer⟩ := reads j hj
  have acts : entryCounts k x b = timerActs k (getF (entryEvent x b) (Reg.TRIG.TT.W1 x))
      (countActs (getF (entryEvent x b) (Reg.TRIG.TT.W1 x)) (entryEvent x b)) := rfl
  have counted (k w : Nat) (d : Blk) : getF (timerActs k w d) (Reg.TRIG.CNT.COUNT j) = getF d (Reg.TRIG.CNT.COUNT j) :=
    foldl_keeps (fun d => getF d (Reg.TRIG.CNT.COUNT j)) _ _ _ fun _ _ => rfl
  intro w n
  generalize entryEvent x b = c at word count steps timer acts
  obtain ⟨trig, kept⟩ := countActs_keeps w c
  have win : timerWin (countActs w c) j = timerWin b j := by
    rw [← timer]
    exact congrArg (fun t : TrigSt => t.tmr.get (0, 0) j) trig
  rw [acts, word]
  refine ⟨?_, ?_⟩
  · rw [counted, getF_countActs w c j hj, count]
    rfl
  · rw [timerWin_timerActs k w _ j hj, win, kept j hj, steps]
    rfl

end

/-! ### Writes of ACT (R339, R342) -/

section
variable {b : Blk} {v : Word}

theorem pageWrite_act (hb : b.heard = true) (hr : v.toNat &&& Pg.reserved .trig 0 0x40 = 0) (he : trigActErrs v b = []) :
    pageWrite 0x1B 0x40 v b = trigActDo v b :=
  pageWrite_effect (g := .trig) (i := 0) rfl hb hr ((List.append_nil _).trans he) (by omega)

theorem getF_nextStep (f : Fld) (b : Blk) : getF (nextStep b) f = getF b f := rfl

theorem pageWrite_refused {page off : Nat} {g : Pg} {i k : Nat} (hp : pgOf page = some (g, i)) (hb : b.heard = true)
    (hr : v.toNat &&& g.reserved i off = 0) (hk : firstCode (ownErrs .m0 g i off v b) = k) (h0 : k ≠ 0) (ho : off < 4096 ∧ off % 4 = 0)
    (hs : off ≠ 0x74) : pageWrite page off v b = reject page off k .m0 b := by
  have page' : (page * 4096 + off) / 4096 = page := by omega
  have off' : (page * 4096 + off) % 4096 = off := by omega
  have code : firstCode (regErrs .m0 g i page off v b) = k := by rw [regErrs_eq_ownErrs hb hr ho.2, hk]
  have refused := hostWrite_rejected .m0 (page * 4096 + off) v b g i (modes_of_heard hb).1 (by decide) (by rw [page', hp])
    (by rw [page', off', code]; exact h0) (by rw [off']; exact fun _ => hs)
  rwa [page', off', code] at refused

theorem pageWrite_act_armed (hb : b.heard = true) (ha : flag b Reg.TRIG.STAT.ARMED = true) :
    pageWrite 0x1B 0x40 1 b = reject 0x1B 0x40 3 .m0 b := by
  refine pageWrite_refused (g := .trig) (i := 0) (k := 3) rfl hb (by decide) ?_ (by decide) (by omega) (by decide)
  have own : ownErrs .m0 .trig 0 0x40 1 b = trigActErrs 1 b := List.append_nil _
  rw [own, trigActErrs, if_pos ⟨by decide, ha⟩]
  split <;> rfl

theorem trigActDo_arm (low : v.bits 0 3 ≠ 0) (b0 : v.bit 0 = true) (b1 : v.bit 1 = false) (b2 : v.bit 2 = false) : trigActDo v b =
    if flag b Reg.TRIG.CFG.CASC = true then nextStep (chainArm true b)
    else armAct (nextStep b).now ((getF b Reg.TRIG.STAT.ARM_ID + 1) % 256) (nextStep b) := by
  cases hc : flag b Reg.TRIG.CFG.CASC <;> simp [trigActDo, b0, b1, b2, low, hc, getF_nextStep]

theorem trigActDo_disarm (low : v.bits 0 3 ≠ 0) (b0 : v.bit 0 = false) (b1 : v.bit 1 = true) (b2 : v.bit 2 = false) : trigActDo v b =
    if flag b Reg.TRIG.CFG.CASC = true then nextStep (chainArm false b) else disarmCmd (nextStep b).now (nextStep b) := by
  cases hc : flag b Reg.TRIG.CFG.CASC <;> simp [trigActDo, b0, b1, b2, low, hc]

theorem trigActDo_force (low : v.bits 0 3 ≠ 0) (b0 : v.bit 0 = false) (b1 : v.bit 1 = false) (b2 : v.bit 2 = true) : trigActDo v b =
    if flag b Reg.TRIG.STAT.ARMED = true then trigOnce (nextStep b).now 10 0 (nextStep b) else nextStep b := by
  simp [trigActDo, b0, b1, b2, low]

theorem actErrs_alone (ha : v.bit 0 = true → flag b Reg.TRIG.STAT.ARMED = false) (hc : flag b Reg.TRIG.CFG.CASC = false) :
    trigActErrs v b = [] := by
  rw [trigActErrs, if_neg (by simpa using ha), if_neg (by simp [hc])]
  rfl

theorem actErrs_chained (ha : v.bit 0 = true → flag b Reg.TRIG.STAT.ARMED = false) (hm : isMember b = false) (hp : portState b .dn = 5) :
    trigActErrs v b = [] := by
  rw [trigActErrs, if_neg (by simpa using ha), if_neg (by simp [hm, hp])]
  rfl

/-! ### Instants (R338, R340, R342) -/

theorem triggerTransition_takes {o : Blk} (ho : acqOuts b.now b = o) (ha : flag o Reg.TRIG.STAT.ARMED = true) (hr : o.sys.mode ≠ .reset)
    {k x : Nat} (hk : (trigSteps o).find? (fun k => decide (k < 250 * o.tick + 250) && (firingAt o k).isSome) = some k)
    (hx : firingAt o k = some x) : triggerTransition b = takeEntry k x (toEdge (k - 250 * o.tick) o) := by
  unfold triggerTransition
  dsimp only
  rw [ho, if_pos ⟨ha, hr⟩, hk]
  dsimp only
  rw [hx]

theorem armInstant_due {a : Nat × Bool × Nat} (ha : b.trig.armAt = some a) (hr : b.sys.mode ≠ .reset) :
    let left := sext 32 (toBits 32 ((a.1 : Int) - (b.time.ns % 2 ^ 32 : Nat)))
    let e := b.edge + if left ≤ 0 then 0 else ceilDiv (left.toNat * 2 ^ 28 - b.time.frac) (getF b Reg.TIME.INCR.INCR)
    let c := toEdge e { b with trig := { b.trig with armAt := none } }
    e < 250 → armInstant b = if a.2.1 then armAct c.now a.2.2 c else disarmCmd c.now (setF Reg.TRIG.STAT.ARM_ID a.2.2 c) := by
  intro left e c he
  unfold armInstant
  rw [ha]
  exact if_pos ⟨he, hr⟩

theorem trigPinEdge_moves {rising : Bool} (hr : b.sys.mode ≠ .reset) (hl : rising ≠ b.trig.level) (ht : b.trig.levelAt + 2 ≤ b.now) :
    let edge := { b with trig := { b.trig with level := rising, levelAt := b.now } }
    trigPinEdge rising b = if b.trig.pulse.any (fun p => decide (p.1 ≤ b.now) && decide (b.now < p.2 + 10)) = true then edge
      else trigOnce b.now 2 (if rising then 1 else 0) edge := by
  intro edge
  unfold trigPinEdge
  rw [if_neg (by simp only [hr, hl, false_or]; omega)]
  rfl

theorem closeDue_due {k y : Nat} {w : Win} (hw : b.trig.win = some w) (hy : w.stop = some y) (h : ceilDiv y 16 ≤ k) :
    closeDue k b = closeWindow (ceilDiv y 16) false b := by
  unfold closeDue
  rw [hw]
  dsimp only
  rw [hy]
  exact if_pos h

theorem ceilDiv_le_now_atEdge (y : Nat) (b : Blk) : ceilDiv y 16 ≤ (b.atEdge y).now := by
  show (y + 16 - 1) / 16 ≤ 250 * b.tick + max ((y + 15) / 16 - 250 * b.tick) b.edge
  omega

end

end Sys2Proof.Machine
end

open Sys2Proof Sys2Proof.Machine

/-- Settles O53: each command, instant and transition by the one path that it takes. -/
theorem theTriggerEngineRuns : Obligations.TheTriggerEngineRuns := by
  unfold Obligations.TheTriggerEngineRuns
  have next {s : State} {b c : Blk} (h : b = c) :
      (.next { s with b := b } : Host.Outcome State Fault Refusal) = .next { s with b := c } := h ▸ rfl
  intro s i rising d id armed alone chained z o edge
  have bits : (Word.bit 2 0 = false) ∧ Word.bit 4 0 = false ∧ Word.bits 4 0 2 = 0 := by decide
  obtain ⟨disarmBit, forceBit, forceBits⟩ := bits
  refine ⟨fun hb ha hc => ?_, fun hb ha hc => ?_, fun hb ha => next (pageWrite_act_armed hb ha), fun hb hc => ?_, fun hb hc => ?_,
    fun hb => ?_, fun a ha hr => ?_, fun b k n hn hm => armAct_shows k n hn hm,
    fun ha hr k x hk hx => next (triggerTransition_takes rfl ha hr hk hx), firingAt_iff, entryMove_shows,
    fun b k x j hj hm => entryCounts_shows b k x j hj hm, fun hz ho hd => next ?_, fun hr hl ht => ⟨fun hp => next ?_, fun p hp h1 h2 => next ?_⟩,
    fun h => ?_, fun p hp hlt hd => next ?_, fun w y hw hy hd => next ?_, fun b k cut w hw hm => ?_⟩
  · exact next ((pageWrite_act hb (by decide) (actErrs_alone (fun _ => ha) hc)).trans
      ((trigActDo_arm (by decide) (by decide) (by decide) (by decide)).trans (if_neg (by rw [hc]; decide))))
  · obtain ⟨hcasc, hmember, hport⟩ := hc
    exact next ((pageWrite_act hb (by decide) (actErrs_chained (fun _ => ha) hmember hport)).trans
      ((trigActDo_arm (by decide) (by decide) (by decide) (by decide)).trans (if_pos hcasc)))
  · exact next ((pageWrite_act hb (by decide) (actErrs_alone (fun h => absurd h (by rw [disarmBit]; decide)) hc)).trans
      ((trigActDo_disarm (by decide) (by decide) (by decide) (by decide)).trans (if_neg (by rw [hc]; decide))))
  · obtain ⟨hcasc, hmember, hport⟩ := hc
    exact next ((pageWrite_act hb (by decide) (actErrs_chained (fun h => absurd h (by rw [disarmBit]; decide)) hmember hport)).trans
      ((trigActDo_disarm (by decide) (by decide) (by decide) (by decide)).trans (if_pos hcasc)))
  · refine next ((pageWrite_act hb (by decide) ?_).trans (trigActDo_force (by decide) (by decide) (by decide) (by decide)))
    rw [trigActErrs, forceBit, forceBits]
    rfl
  · intro left e c he
    exact next (armInstant_due ha hr he)
  · unfold timerDone
    dsimp only
    rw [if_neg (not_or.2 ⟨hz, ho⟩)]
    exact atQ_due _ hd
  · refine (trigPinEdge_moves hr hl ht).trans (if_neg ?_)
    cases hpulse : s.b.trig.pulse with
    | none => simp
    | some p =>
      have := hp p (by rw [hpulse]; rfl)
      simp only [Option.any_some, Bool.and_eq_true, decide_eq_true_eq]
      omega
  · refine (trigPinEdge_moves hr hl ht).trans (if_pos ?_)
    rw [hp, Option.any_some, decide_eq_true h1, decide_eq_true h2]
    rfl
  · have still : trigPinEdge rising s.b = s.b := if_pos (.inr h)
    exact next still
  · unfold trigPulseEnd
    rw [hp]
    dsimp only
    rw [if_pos hlt]
    exact atQ_due _ hd
  · have stop : s.b.trig.win.bind Win.stop = some y := by rw [hw, Option.bind_some, hy]
    unfold windowEnd
    rw [stop]
    exact (atQ_due _ hd).trans (closeDue_due hw hy (ceilDiv_le_now_atEdge y s.b))
  · obtain ⟨hwin, hopen, hlatch, -, -, chans⟩ := closeWindow_shows k cut hw hm
    refine ⟨hwin, hopen, hlatch, fun n hn => ?_⟩
    obtain ⟨y, grows, hy⟩ := chans n hn
    obtain ⟨same, ends⟩ := cut_shows grows (by rw [← hy])
    exact ⟨same, fun m c hm hc => ends m c hm hc⟩

section
/-!
PROOF. The record stream (O52): a record in the buffer, the end of dropping, and the end of a measurement.
-/
set_option autoImplicit false

namespace Sys2Proof.Machine

/-! ### Words written to a copy of the tables -/

theorem wrBytes_append (m : Tbl Byte) (a : Nat) (l t : List Byte) : wrBytes m a (l ++ t) = wrBytes (wrBytes m a l) (a + l.length) t := by
  induction l generalizing m a with
  | nil => rfl
  | cons x l ih =>
    rw [List.cons_append, wrBytes, ih, wrBytes, List.length_cons, Nat.add_assoc, Nat.add_comm 1]

theorem rdW_wordBytes (m : Tbl Byte) (a : Nat) (w : Word) (t : List Byte) : rdW (wrBytes m a (wordBytes w ++ t)) a = w.toNat := by
  have byte (i : Nat) (hi : i < 4) : rdB (wrBytes m a (wordBytes w ++ t)) (a + i) = (wordBytes w)[i] := by
    have hl : i < (wordBytes w ++ t).length := by
      rw [List.length_append]
      exact Nat.lt_add_right _ hi
    rw [rdB_wrBytes m a i _ hl]
    exact List.getElem_append_left hi
  have b0 := byte 0 (by decide)
  have b1 := byte 1 (by decide)
  have b2 := byte 2 (by decide)
  have b3 := byte 3 (by decide)
  have lt := w.isLt
  rw [Nat.add_zero] at b0
  rw [rdW, rdH, rdH, b0, b1, Nat.add_assoc a 2 1, b2, b3]
  simp only [wordBytes, List.getElem_cons_zero, List.getElem_cons_succ, BitVec.toNat_ofNat]
  omega

theorem rdW_wrBytes_words (m : Tbl Byte) (a i : Nat) (ws : List Nat) (h : i < ws.length) :
    rdW (wrBytes m a (ws.flatMap fun w => wordBytes (BitVec.ofNat 32 w))) (a + 4 * i) = ws.getD i 0 % 2 ^ 32 := by
  induction ws generalizing m a i with
  | nil => exact absurd h (Nat.not_lt_zero i)
  | cons w t ih =>
    rw [List.flatMap_cons]
    cases i with
    | zero => exact (rdW_wordBytes m a _ _).trans (BitVec.toNat_ofNat ..)
    | succ i =>
      rw [wrBytes_append, show a + 4 * (i + 1) = a + (wordBytes (BitVec.ofNat 32 w)).length + 4 * i from by
        rw [show (wordBytes (BitVec.ofNat 32 w)).length = 4 from rfl]; omega]
      exact ih _ _ i (Nat.lt_of_succ_lt_succ h)

theorem length_words (ws : List Nat) : (ws.flatMap fun w => wordBytes (BitVec.ofNat 32 w)).length = 4 * ws.length := by
  induction ws with
  | nil => rfl
  | cons w t ih =>
    rw [List.flatMap_cons, List.length_append, ih, List.length_cons, show (wordBytes (BitVec.ofNat 32 w)).length = 4 from rfl,
      Nat.mul_succ, Nat.add_comm]

/-! ### A record (R324, R331) -/

/-- Where the next record goes. -/
def recordAddr (b : Blk) : Nat := 0x1000000 + 32 * (getF b Reg.ACQ.WP.WP % 131072)

/-- The words of the next record. -/
def recordWordsAt (hdr : Nat) (ws : List Nat) (b : Blk) : List Nat := (hdr + getF b Reg.ACQ.WP.WP % 65536 * 65536) :: ws

/-- The block before the record's bytes are written: its words are healed, and an armed injection takes one of them. -/
def recordPlace (b : Blk) : Blk := (injectEcc 5 false (recordAddr b) (healed false (recordAddr b) (recordAddr b + 32) b)).2

/-- The tables with the record's bytes written. -/
def recordWritten (hdr : Nat) (ws : List Nat) (b : Blk) : Tbl Byte :=
  wrBytes (recordPlace b).live (recordAddr b) ((recordWordsAt hdr ws b).flatMap fun w => wordBytes (BitVec.ofNat 32 w))

theorem putRec_eq (hdr : Nat) (ws : List Nat) (b : Blk) : putRec hdr ws b =
    setF Reg.ACQ.WP.WP (getF b Reg.ACQ.WP.WP + 1) { recordPlace b with live := recordWritten hdr ws b } := by
  unfold putRec
  rfl

theorem recordPlace_shows (b : Blk) : (recordPlace b).acq = b.acq ∧ (recordPlace b).ev = b.ev ∧ (recordPlace b).live = b.live ∧
    ∀ f : Fld, f.key ≠ Reg.FTEST.ECC.GO.key → getF (recordPlace b) f = getF b f := by
  have clears (d : Blk) (f : Fld) (hf : f.key ≠ Reg.FTEST.ECC.GO.key) : getF (setFlag Reg.FTEST.ECC.GO false d) f = getF d f :=
    getF_setF_ne _ _ _ _ hf
  unfold recordPlace
  generalize recordAddr b = a
  unfold injectEcc
  dsimp only
  split
  · split <;> exact ⟨rfl, rfl, rfl, fun f hf => (getF_of_regs rfl f).trans (clears _ f hf)⟩
  · exact ⟨rfl, rfl, rfl, fun _ _ => rfl⟩

/-- `c` is `b` with `n` records more. -/
structure Put (n : Nat) (b c : Blk) : Prop where
  acq : c.acq = b.acq
  ev : c.ev = b.ev
  fields : ∀ f : Fld, f.key ≠ Reg.ACQ.WP.WP.key → f.key ≠ Reg.FTEST.ECC.GO.key → getF c f = getF b f
  wp : getF c Reg.ACQ.WP.WP % 262144 = (getF b Reg.ACQ.WP.WP + n) % 262144

theorem Put.trans {n m : Nat} {b c d : Blk} (h : Put n b c) (g : Put m c d) : Put (n + m) b d where
  acq := g.acq.trans h.acq
  ev := g.ev.trans h.ev
  fields f hw hg := (g.fields f hw hg).trans (h.fields f hw hg)
  wp := by
    have h1 := h.wp
    have h2 := g.wp
    omega

theorem putRec_wp (hdr : Nat) (ws : List Nat) (b : Blk) : getF (putRec hdr ws b) Reg.ACQ.WP.WP = (getF b Reg.ACQ.WP.WP + 1) % 262144 := by
  rw [putRec_eq, getF_setF_same]
  rfl

theorem putRec_put (hdr : Nat) (ws : List Nat) (b : Blk) : Put 1 b (putRec hdr ws b) := by
  obtain ⟨acq, ev, -, fields⟩ := recordPlace_shows b
  have wp := putRec_wp hdr ws b
  rw [putRec_eq] at wp ⊢
  exact ⟨acq, ev, fun f hw hg => (getF_setF_ne _ _ _ _ hw).trans (fields f hg), by rw [wp, Nat.mod_mod]⟩

theorem putRecs_put (l : List (Nat × List Nat)) (b : Blk) : Put l.length b (l.foldl (fun b r => putRec r.1 r.2 b) b) := by
  induction l generalizing b with
  | nil => exact ⟨rfl, rfl, fun _ _ _ => rfl, rfl⟩
  | cons r t ih =>
    rw [List.foldl_cons, List.length_cons, Nat.add_comm]
    exact (putRec_put r.1 r.2 b).trans (ih _)

/-- A record of eight words lands whole. -/
theorem putRec_lands (hdr : Nat) {ws : List Nat} (b : Blk) (hl : ws.length = 7) :
    (∀ i, i < 8 → rdW (putRec hdr ws b).live (recordAddr b + 4 * i) = (recordWordsAt hdr ws b).getD i 0 % 2 ^ 32) ∧
    (∀ z, z < recordAddr b ∨ recordAddr b + 32 ≤ z → rdB (putRec hdr ws b).live z = rdB b.live z) := by
  obtain ⟨-, -, hlive, -⟩ := recordPlace_shows b
  have live : (putRec hdr ws b).live = recordWritten hdr ws b := by rw [putRec_eq]; rfl
  have len : (recordWordsAt hdr ws b).length = 8 := by rw [recordWordsAt, List.length_cons, hl]
  rw [live, recordWritten, hlive]
  refine ⟨fun i hi => rdW_wrBytes_words _ _ _ _ (by rw [len]; exact hi), fun z hz => rdB_wrBytes_ne _ _ _ _ ?_⟩
  rw [length_words, len]
  exact hz

/-! ### A DATA record (R325) -/

theorem flushData_eq {b : Blk} {c : Nat} (hp : (chanSt b c).part ≠ []) (hf : acqFull b = false) : flushData b c =
    putRec (1 + 16 * c + 512 * (chanSt b c).part.length + (if flag b (Reg.ACQ.CH_CFG.W32 c) then 8192 else 0))
      ((chanSt b c).partT :: packSamples (flag b (Reg.ACQ.CH_CFG.W32 c)) (chanSt b c).part)
      (setChan c { chanSt b c with part := [] } b) := by
  unfold flushData
  dsimp only
  rw [if_neg hp, if_neg (by rw [hf]; decide)]

theorem flushData_full {b : Blk} {c : Nat} (hp : (chanSt b c).part ≠ []) (hf : acqFull b = true) : flushData b c = enterDrop b := by
  unfold flushData
  dsimp only
  rw [if_neg hp, if_pos hf]

/-! ### The end of dropping (R327, R332) -/

theorem putGap_shows (b : Blk) : let c := putGap b
    c.acq.held = b.acq.held ∧ c.acq.lostN = 0 ∧ c.ev = b.ev ∧
    (∀ f : Fld, f.key ∉ [Reg.ACQ.WP.WP.key, Reg.FTEST.ECC.GO.key, Reg.ACQ.GAPS.GAPS.key] → getF c f = getF b f) ∧
    getF c Reg.ACQ.WP.WP = (getF b Reg.ACQ.WP.WP + 1) % 262144 := by
  intro c
  have hc : c = putGap b := rfl
  unfold putGap at hc
  dsimp only at hc
  generalize hd : (if b.acq.lostA.isSome = true then b else (takeFree (takeFree b).2).2) = d at hc
  have same : d.acq = b.acq ∧ d.ev = b.ev ∧ d.regs = b.regs := by
    rw [← hd]
    split <;> exact ⟨rfl, rfl, rfl⟩
  obtain ⟨acq, ev, regs⟩ := same
  generalize [_, _, b.acq.lostN, b.acq.lostMask, b.acq.heldLost, 0, 0] = ws at hc
  have put := putRec_put 3 ws d
  have wp := putRec_wp 3 ws d
  generalize putRec 3 ws d = e at hc put wp
  have counted (f : Fld) (hf : f.key ≠ Reg.ACQ.GAPS.GAPS.key) : getF c f = getF e f := by
    rw [hc]
    exact getF_setF_ne _ _ _ _ hf
  have held : e.acq.held = b.acq.held := congrArg AcqSt.held (put.acq.trans acq)
  refine ⟨?_, ?_, ?_, fun f hf => ?_, ?_⟩
  · rw [hc]
    exact held
  · rw [hc]
    rfl
  · rw [hc]
    exact put.ev.trans ev
  · simp only [List.mem_cons, List.not_mem_nil, or_false, not_or] at hf
    obtain ⟨hw, hg, hgaps⟩ := hf
    rw [counted f hgaps, put.fields f hw hg, getF_of_regs regs]
  · rw [counted _ (by decide), wp, getF_of_regs regs]

theorem putSync_shows (b : Blk) : let c := putSync b
    c.acq.held = b.acq.held ∧ c.acq.lostN = b.acq.lostN ∧ c.ev = b.ev ∧
    (∀ f : Fld, f.key ≠ Reg.ACQ.WP.WP.key → f.key ≠ Reg.FTEST.ECC.GO.key → getF c f = getF b f) ∧
    getF c Reg.ACQ.WP.WP = (getF b Reg.ACQ.WP.WP + 1) % 262144 := by
  intro c
  have hc : c = putSync b := rfl
  unfold putSync at hc
  dsimp only at hc
  generalize [_, _, _, _, _, _, 0] = ws at hc
  have put := putRec_put 5 ws b
  have wp := putRec_wp 5 ws b
  generalize putRec 5 ws b = e at hc put wp
  have held : e.acq.held = b.acq.held := congrArg AcqSt.held put.acq
  have lost : e.acq.lostN = b.acq.lostN := congrArg AcqSt.lostN put.acq
  rw [hc]
  exact ⟨held, lost, put.ev, put.fields, wp⟩

theorem acqResume_shows {b : Blk} (hd : flag b Reg.ACQ.STAT.DROPPING = true) (hr : getF b Reg.ACQ.RESUME.REC ≤ 131072 - acqUsed b)
    (hm : b.mild [1121]) : let c := acqResume b
    flag c Reg.ACQ.STAT.DROPPING = false ∧ getF c Reg.ACQ.STAT.HELD = 0 ∧ c.acq.held = [] ∧ c.acq.lostN = 0 ∧
    (evGet c 1121).latch = true ∧ getF c Reg.ACQ.WP.WP = (getF b Reg.ACQ.WP.WP + 2 + b.acq.held.length) % 262144 := by
  intro c
  have apart : Reg.ACQ.STAT.DROPPING.apart ∧ Reg.ACQ.WP.WP.apart := by
    unfold Fld.apart
    decide
  obtain ⟨apartDrop, apartWp⟩ := apart
  have run : c = acqResume b := rfl
  unfold acqResume at run
  rw [if_pos ⟨hd, hr⟩] at run
  dsimp only at run
  have dropEnds : flag (setFlag Reg.ACQ.STAT.DROPPING false b) Reg.ACQ.STAT.DROPPING = false := flag_setFlag_same _ _ _ rfl
  have wp0 : getF (setFlag Reg.ACQ.STAT.DROPPING false b) Reg.ACQ.WP.WP = getF b Reg.ACQ.WP.WP := getF_setF_ne _ _ _ _ (by decide)
  have acq0 : (setFlag Reg.ACQ.STAT.DROPPING false b).acq = b.acq := rfl
  have mild0 : (setFlag Reg.ACQ.STAT.DROPPING false b).mild [1121] := hm.of_ev rfl
  generalize setFlag Reg.ACQ.STAT.DROPPING false b = b0 at run dropEnds wp0 acq0 mild0
  obtain ⟨gapHeld, gapLost, gapEv, gapFields, gapWp⟩ := putGap_shows b0
  have gapMild := mild0.of_ev gapEv
  generalize putGap b0 = b1 at run gapHeld gapLost gapEv gapFields gapWp gapMild
  have raised := gapMild.only (s := 1121) (by decide)
  have acq2 : (raise 1121 b1).acq = b1.acq := (congrArg Blk.acq raised.eq).trans rfl
  have latched : (evGet (raise 1121 b1) 1121).latch = true := raise_latches 1121 b1
  have held : (raise 1121 b1).acq.held = b.acq.held := by rw [acq2, gapHeld, acq0]
  generalize raise 1121 b1 = b2 at run raised acq2 latched held
  rw [held] at run
  have setHeld : getF (setF Reg.ACQ.STAT.HELD 0 { b2 with acq := { b2.acq with held := [] } }) Reg.ACQ.STAT.HELD = 0 := getF_setF_same _ _ _
  have setOther (f : Fld) (hf : f.key ≠ Reg.ACQ.STAT.HELD.key) :
      getF (setF Reg.ACQ.STAT.HELD 0 { b2 with acq := { b2.acq with held := [] } }) f = getF b2 f := getF_setF_ne _ _ _ _ hf
  have acq3 : (setF Reg.ACQ.STAT.HELD 0 { b2 with acq := { b2.acq with held := [] } }).acq = { b2.acq with held := [] } := rfl
  have ev3 : (setF Reg.ACQ.STAT.HELD 0 { b2 with acq := { b2.acq with held := [] } }).ev = b2.ev := rfl
  generalize setF Reg.ACQ.STAT.HELD 0 { b2 with acq := { b2.acq with held := [] } } = b3 at run setHeld setOther acq3 ev3
  have put := putRecs_put b.acq.held b3
  generalize b.acq.held.foldl (fun b r => putRec r.1 r.2 b) b3 = b4 at run put
  obtain ⟨syncHeld, syncLost, syncEv, syncFields, syncWp⟩ := putSync_shows b4
  rw [run]
  refine ⟨?_, ?_, ?_, ?_, ?_, ?_⟩
  · rw [flag, syncFields _ (by decide) (by decide), put.fields _ (by decide) (by decide), setOther _ (by decide), raised.getF _ apartDrop,
      gapFields _ (by decide)]
    exact dropEnds
  · rw [syncFields _ (by decide) (by decide), put.fields _ (by decide) (by decide), setHeld]
  · rw [syncHeld, put.acq, acq3]
  · rw [syncLost, put.acq, acq3, acq2]
    exact gapLost
  · rw [evGet_of_tab (congrArg EvSt.tab (syncEv.trans (put.ev.trans ev3)))]
    exact latched
  · have count := put.wp
    rw [setOther _ (by decide), raised.getF _ apartWp, gapWp, wp0] at count
    rw [syncWp]
    omega

/-! ### The end of a measurement (R341) -/

theorem endMeas_eq (short : Bool) {b : Blk} {c : Nat} {m : Meas} (h : (chanSt b c).meas = some m) : endMeas short b c =
    if flag b Reg.ACQ.STAT.RUNNING = true then
      raise 1125 (dueRec (4 + 16 * c + (if flag b (Reg.ACQ.CH_CFG.W32 c) then 8192 else 0)) (measWords b c short m)
        (setChan c { chanSt b c with meas := none } b))
    else setChan c { chanSt b c with meas := none } b := by
  unfold endMeas
  rw [h]
  rfl

theorem measOver_of {b : Blk} {c : Nat} {m : Meas} (h : (chanSt b c).meas = some m)
    (ho : m.past = true ∨ getF b (Reg.ACQ.CH_MEAS.MSPAN c) ≤ m.xs.length) : measOver b c = true := by
  rw [measOver, h, Option.any_some, Bool.or_eq_true, decide_eq_true_eq]
  exact ho

theorem endMeas_latches (short : Bool) {b : Blk} {c : Nat} {m : Meas} (h : (chanSt b c).meas = some m)
    (hr : flag b Reg.ACQ.STAT.RUNNING = true) : (evGet (endMeas short b c) 1125).latch = true := by
  rw [endMeas_eq short h, if_pos hr]
  exact raise_latches 1125 _

theorem endMeas_ends (short : Bool) {b : Blk} {c : Nat} {m : Meas} (h : (chanSt b c).meas = some m) (hm : b.mild [1120, 1122, 1125]) :
    (chanSt (endMeas short b c) c).meas = none := by
  have ended : (chanSt (setChan c { chanSt b c with meas := none } b) c).meas = none := by rw [chanSt_setChan_same]
  have mild : (setChan c { chanSt b c with meas := none } b).mild [1120, 1122, 1125] := hm.of_ev rfl
  rw [endMeas_eq short h]
  generalize setChan c { chanSt b c with meas := none } b = d at ended mild
  generalize 4 + 16 * c + (if flag b (Reg.ACQ.CH_CFG.W32 c) = true then 8192 else 0) = hdr
  generalize measWords b c short m = ws
  split
  · have due := dueRec_streamed hdr ws (mild.subset (by decide) : d.calm)
    have raised := (due.mild mild).only (s := 1125) (by decide)
    rw [raised.chanSt]
    have grows := (due.meas c).1
    rw [ended] at grows
    simpa using grows
  · exact ended

/-! ### Writes of the ACQ page (R330, R331) -/

section
variable {b : Blk} {v : Word}

theorem pageWrite_acqRun (hb : b.heard = true) (hr : v.toNat &&& Pg.reserved .acq 0 0x40 = 0) (he : acqRunErrs v b = []) :
    pageWrite 0x1A 0x40 v b = acqRunDo v b :=
  pageWrite_effect (g := .acq) (i := 0) rfl hb hr ((List.append_nil _).trans he) (by omega)

theorem acqRpErrs_nil (hd : flag b Reg.ACQ.CFG.DRAIN = false) (hu : (v.bits 0 18 + 262144 - getF b Reg.ACQ.RP.RP) % 262144 ≤ acqUsed b) :
    acqRpErrs v b = [] := by
  rw [acqRpErrs, if_neg (by rw [hd]; decide), if_neg (by omega)]
  rfl

theorem fields_acqRp : (Pg.fields .acq 0 0x54).getD [] = [⟨0, 18, .rw, 0, false⟩, ⟨18, 14, .ro, 0, true⟩] := by decide

theorem ownErrs_acqRp : ownErrs .m0 .acq 0 0x54 v b = acqRpErrs v b := by
  have own : ownErrs .m0 .acq 0 0x54 v b = planeErrs .acq 0x54 v b ++ serviceErrs .acq 0x54 v b ++ arrayErrs .m0 .acq 0 0x54 v b :=
    if_neg (by decide)
  have service : serviceErrs .acq 0x54 v b =
      if 0x54 = 0x40 then acqRunErrs v b else if 0x54 = 0x54 then acqRpErrs v b else acqErrs 0x54 v b := rfl
  have plane : planeErrs .acq 0x54 v b = [] := rfl
  have array : arrayErrs .m0 .acq 0 0x54 v b = [] := rfl
  rw [own, service, if_neg (by decide), if_pos rfl, plane, array, List.nil_append, List.append_nil]

theorem pageWrite_acqRp (h : hears 0xFFFC0000 v b = true) (he : acqRpErrs v b = []) :
    pageWrite 0x1A 0x54 v b = setF Reg.ACQ.RP.RP (v.bits 0 18) b := by
  have stores : regDo .acq 0 0x1A 0x54 v b = storeFields 0x1A 0x54 v ((Pg.fields .acq 0 0x54).getD []) b := rfl
  rw [pageWrite_hears 0x1A 0x54 0xFFFC0000 .acq 0 v b rfl (by decide) rfl (by decide) h (ownErrs_acqRp.trans he), stores,
    fields_acqRp, storeFields, List.foldl_cons, List.foldl_cons, List.foldl_nil]
  rfl

end

end Sys2Proof.Machine
end

open Sys2Proof Sys2Proof.Machine

/-- Settles O52: a record by the words that it leaves in the buffer, the end of dropping step by step, a measurement by its end. -/
theorem theStreamTakesItsRecords : Obligations.TheStreamTakesItsRecords := by
  unfold Obligations.TheStreamTakesItsRecords
  have next {s : State} {b c : Blk} (h : b = c) :
      (.next { s with b := b } : Host.Outcome State Fault Refusal) = .next { s with b := c } := h ▸ rfl
  intro s v c flushAt goal e m ask
  refine ⟨fun hb hs => ?_, fun hb => ?_, fun h hd hu => next (pageWrite_acqRp h (acqRpErrs_nil hd hu)), fun hp hd => next ?_,
    fun b n hn hp hl hf hgo => ?_, fun b n hp hf => flushData_full hp hf,
    fun hd hr hm => ⟨{ s with b := acqResume s.b }, rfl, acqResume_shows hd hr hm⟩,
    fun hr hm => ⟨fun hk => next ?_, fun hk he => next ?_⟩, fun y hy ho => ⟨next ?_, endMeas_latches false hy, endMeas_ends false hy⟩⟩
  · refine next ((pageWrite_acqRun hb (by decide) ?_).trans rfl)
    rw [acqRunErrs, if_neg (by simp [hs])]
  · refine next ((pageWrite_acqRun hb (by decide) ?_).trans rfl)
    rw [acqRunErrs, if_neg (fun h => absurd h.1 (by decide))]
  · exact (if_neg hp).trans (atQ_due _ hd)
  · intro x w p a ws d
    have hd : d = _ := flushData_eq hp hf
    have len : (x.partT :: packSamples w x.part).length = 7 := by
      rw [List.length_cons, packSamples, List.length_map, List.length_range]
    rw [hd]
    have part : (chanSt (setChan n { chanSt b n with part := [] } b) n).part = [] := by rw [chanSt_setChan_same]
    have place : recordAddr (setChan n { chanSt b n with part := [] } b) = a := rfl
    have wp : getF (setChan n { chanSt b n with part := [] } b) Reg.ACQ.WP.WP = p := rfl
    have shadow : (setChan n { chanSt b n with part := [] } b).shadow = b.shadow := rfl
    have live : (setChan n { chanSt b n with part := [] } b).live = b.live := rfl
    generalize setChan n { chanSt b n with part := [] } b = c at part place wp shadow live
    obtain ⟨lands, rest⟩ := putRec_lands (1 + 16 * n + 512 * x.part.length + (if w then 8192 else 0)) c len
    rw [place, recordWordsAt, wp] at lands
    rw [place, live] at rest
    refine ⟨?_, ?_, fun z => ?_, lands, rest⟩
    · rw [putRec_wp, wp]
    · rw [chanSt, (putRec_put _ _ c).acq]
      exact part
    · rw [putRec_shadow, shadow]
  · exact (if_neg (by simp [hr, hm])).trans (if_pos hk)
  · exact (if_neg (by simp [hr, hm])).trans ((if_neg (not_not.2 hk)).trans (if_pos he))
  · exact if_pos (measOver_of hy ho)
